-- ==== Sys2Proof/Word.lean ====
section
/-! DEFINITION. The word types of the module: bytes, 32-bit registers and 64-bit fields (R5, R6). -/

namespace Sys2Proof

/-- One byte of memory, of a packet or of a frame. -/
abbrev Byte := BitVec 8

/-- One 32-bit register (every register of every BAR0 block is 32 bits wide). -/
abbrev Word := BitVec 32

/-- One 64-bit field: a handle, a detail field, a pair of LO and HI registers. -/
abbrev DWord := BitVec 64

end Sys2Proof
end

