-- ==== Sys2Proof/Machine/Tab.lean ====
section
/-! DEFINITION. Sparse tables keyed by a number, kept in one canonical form (keys strictly rising), and the
little-endian byte helpers of R5 and R6. Memory, register banks and object tables of State are such tables. -/

namespace Sys2Proof.Machine

/-- A sparse table: the listed keys strictly rise. -/
abbrev Tab (α : Type) := List (Nat × α)

/-- The entry of a key, if one is listed. -/
def Tab.look {α : Type} : Tab α → Nat → Option α
  | [], _ => none
  | (k, v) :: t, x => if x = k then some v else Tab.look t x

/-- List `w` under key `x`, replacing what was listed there. -/
def Tab.put {α : Type} : Tab α → Nat → α → Tab α
  | [], x, w => [(x, w)]
  | (k, v) :: t, x, w =>
    if x < k then (x, w) :: (k, v) :: t
    else if x = k then (x, w) :: t
    else (k, v) :: Tab.put t x w

/-- List nothing under key `x`. -/
def Tab.del {α : Type} (t : Tab α) (x : Nat) : Tab α := t.filter fun e => e.1 != x

/-- Every listed key is above `lo`, and the keys strictly rise. -/
def Tab.above {α : Type} : Nat → Tab α → Bool
  | _, [] => true
  | lo, (k, _) :: t => decide (lo < k) && Tab.above k t

/-- The canonical form of a table: its keys strictly rise. -/
def Tab.wf {α : Type} : Tab α → Bool
  | [] => true
  | (k, _) :: t => Tab.above k t

/-- The entry of a key, or the value an unlisted key has. -/
def Tab.get {α : Type} (d : α) (t : Tab α) (x : Nat) : α := (Tab.look t x).getD d

/-- Keep the entries a test accepts. -/
def Tab.keep {α : Type} (f : Nat → α → Bool) (t : Tab α) : Tab α := t.filter fun e => f e.1 e.2

/-- Change every entry of a table in place. -/
def Tab.mapVal {α : Type} (f : Nat → α → α) (t : Tab α) : Tab α := t.map fun e => (e.1, f e.1 e.2)

/-- The little-endian number a list of bytes spells (R6). -/
def leNat : List Byte → Nat
  | [] => 0
  | b :: t => b.toNat + 256 * leNat t

/-- The `n` little-endian bytes of a number (R6). -/
def leBytes : Nat → Nat → List Byte
  | 0, _ => []
  | n + 1, v => BitVec.ofNat 8 v :: leBytes n (v / 256)

/-- The `n` bytes of a list from offset `off` on; bytes past its end read 0. -/
def slice (l : List Byte) (off n : Nat) : List Byte :=
  let t := (l.drop off).take n
  t ++ List.replicate (n - t.length) 0#8

/-- An unsigned little-endian field of `n` bytes at offset `off`. -/
def leField (l : List Byte) (off n : Nat) : Nat := leNat (slice l off n)

/-- A number of `bits` bits read as a signed two's complement value. -/
def signedOf (bits v : Nat) : Int :=
  let m := v % 2 ^ bits
  if m < 2 ^ (bits - 1) then (m : Int) else (m : Int) - ((2 ^ bits : Nat) : Int)

/-- A signed value kept in `bits` bits of two's complement. -/
def unsignedOf (bits : Nat) (v : Int) : Nat := (v % ((2 ^ bits : Nat) : Int)).toNat

/-- A signed little-endian field of `n` bytes at offset `off`. -/
def leSigned (l : List Byte) (off n : Nat) : Int := signedOf (8 * n) (leField l off n)

/-- Bits [hi:lo] of a number (R5). -/
def bitsOf (v hi lo : Nat) : Nat := v / 2 ^ lo % 2 ^ (hi + 1 - lo)

/-- Bit n of a number (R5). -/
def bitOf (v n : Nat) : Bool := v / 2 ^ n % 2 == 1

/-- Put bytes over a list of bytes at an offset, within the list's length. -/
def overlay (l : List Byte) (off : Nat) (b : List Byte) : List Byte :=
  l.take off ++ (b.take (l.length - off)) ++ l.drop (off + b.length)

/-- The quotient rounded up. -/
def ceilDiv (a b : Nat) : Nat := (a + (b - 1)) / b

/-- A length rounded up to a multiple of 64. -/
def up64 (n : Nat) : Nat := 64 * ceilDiv n 64

/-- A power of two. -/
def isPow2 (n : Nat) : Bool := n != 0 && 2 ^ n.log2 == n

/-- A count that stops at its top value (the registers whose description says Saturates). -/
def satAdd (w : Word) (n : Nat) : Word := BitVec.ofNat 32 (min (w.toNat + n) 0xFFFFFFFF)

/-- The position of the first member a test accepts. -/
def firstIdx {α : Type} (f : α → Bool) : Nat → List α → Option Nat
  | _, [] => none
  | n, a :: t => if f a then some n else firstIdx f (n + 1) t

/-- Change the member at a position of a list. -/
def setAt {α : Type} (l : List α) (i : Nat) (f : α → α) : List α :=
  match l, i with
  | [], _ => []
  | a :: t, 0 => f a :: t
  | a :: t, n + 1 => a :: setAt t n f

end Sys2Proof.Machine
end

