-- ==== Sys2Proof/Syntax.lean ====
section
/-! DEFINITION. The commands of the block: one constructor per row of the command table, with the packet or the event
data each row carries. -/

namespace Sys2Proof.Machine

/-- A consumed packet (R76, R78, R79): the ring it was consumed from, its sequence number on that ring, which enable of
the ring it belongs to (R79), and its bytes: the 64-byte header slot followed by its parameter slots. -/
structure Packet where
  ring : Nat
  seq : Word
  era : Nat
  bytes : List Byte
  deriving DecidableEq, Repr

/-! Frames of the meter link (R536) are structured data, since the spec gives the records a frame may carry and its CRC
but no byte layout. -/

/-- An entry of the metrological event log (R548). -/
structure MeterEvent where
  seq : Nat
  seconds : Nat
  energy : Nat
  code : Nat
  detail : Nat
  deriving DecidableEq, Repr

/-- What a counter record on the link carries (R541, R543, R551). -/
structure MeterReading where
  energy : Nat
  seconds : Nat
  powerUps : Nat
  state : Nat
  sealOpen : Bool
  logFull : Bool
  unsaved : Bool
  gated : Bool
  newest : Nat
  logCount : Nat
  ignored : Nat
  fwVersion : Nat
  checksum : Nat
  serial : Nat
  deriving DecidableEq, Repr

/-- A frame of the meter link (R536). -/
inductive MeterFrame where
  | requestCounters
  | requestLog (seq : Nat)
  | reading (r : MeterReading)
  | logEntry (seq : Nat) (e : Option MeterEvent)
  /-- any other frame -/
  | other
  deriving DecidableEq, Repr

/-- A received relay extension frame (R415): the port, the IP source address (16 bytes, an IPv4 address in the first
four), whether the IP header is marked CE, and the bytes from the BTH to the GCM tag. -/
structure Frame where
  port : Nat
  src : List Byte
  ce : Bool
  bytes : List Byte
  deriving DecidableEq, Repr

/-- Where a task met a parity error (R444): a source access by module address, a buffer of its unit, or a control entry of
its die's common domain. -/
inductive ParityFail where
  | access (addr : Nat)
  | unit
  | common
  deriving DecidableEq, Repr

/-- A result that a unit offers (R50): the unit, run, task, generation and attempt it ran under, whether it is a duplicate's
digest, accumulator elements that a fault has replaced as (row-major index, code), and the parity errors met. -/
structure Offer where
  unit : Nat
  run : Nat
  task : Nat
  gen : Nat
  attempt : Nat
  dup : Bool
  bad : List (Nat × Nat)
  parity : List ParityFail
  deriving DecidableEq, Repr

/-- Vendor-defined SPDM messages without a row of their own (R482, R484): those of TDISP that read, an IDE_KM query, and any
other. -/
inductive VendorMessage where
  | tdispVersion
  | tdispCapabilities
  | tdispReport
  | tdispState
  | ideQuery
  | other
  deriving DecidableEq, Repr

/-- A PLDM request of type 0 or 2 (R517): discovery, by its command; a reading or the PDR of a numeric sensor; the polling of
MGT_ALERTS events. -/
inductive PldmQuery where
  | discovery (command : Nat)
  | reading (sensor : Nat)
  | pdr (sensor : Nat)
  | poll
  deriving DecidableEq, Repr

end Sys2Proof.Machine

namespace Sys2Proof

open Sys2Proof.Machine

/-- A command: one constructor per row of the command table. A packet row is the START of that packet (R84), whose
operand is the consumed packet; an event row carries what the environment brings. -/
inductive Instr where
  /-- JOB_OPEN (R54): Command that opens a job with its manifest slots, hold area and peer table. -/
  | jobOpen (p : Packet)
  /-- JOB_ATTACH (R54): Command that rebinds a job's completions to the issuing ring. -/
  | jobAttach (p : Packet)
  /-- STEP_RUN (R57): Command that runs a series of steps of a job and completes when the last one commits and any muster is resolved. -/
  | stepRun (p : Packet)
  /-- JOB_SNAPSHOT (R56): Command that writes the committed state of the job's ranks on this module as a snapshot. -/
  | jobSnapshot (p : Packet)
  /-- JOB_RESTORE (R55): Command that checks one or more snapshots and opens a new job from them. -/
  | jobRestore (p : Packet)
  /-- JOB_CLOSE (R54): Command that closes a job and releases its hold area once any running step has ended. -/
  | jobClose (p : Packet)
  /-- REGION_DEFINE (R112): Command that defines a memory region with an owner and a range. -/
  | regionDefine (p : Packet)
  /-- REGION_RELEASE (R113): Command that waits for earlier users of a region, zeroes it if protected, and releases it. -/
  | regionRelease (p : Packet)
  /-- MEM_COPY (R128): Command that copies a tensor between descriptors, optionally transposing it through the register tile. -/
  | memCopy (p : Packet)
  /-- MEM_FILL (R129): Command that fills a destination descriptor with a repeated 64-byte pattern. -/
  | memFill (p : Packet)
  /-- TABLE_LOAD (R140): Command that loads an Arrow or Parquet table from a source into HBM allocations. -/
  | tableLoad (p : Packet) (fetched : Option (List (Nat × Byte)))
  /-- TABLE_RELEASE (R148): Command that releases a table after earlier readers complete. -/
  | tableRelease (p : Packet)
  /-- FPROG_LOAD (R161): Command that validates a feature program image and loads it into a slot. -/
  | fprogLoad (p : Packet)
  /-- FPROG_START (R162): Command that runs a loaded feature program over the driving table. -/
  | fprogStart (p : Packet)
  /-- FPROG_QUERY (R165): Command that writes a program slot's state record to host memory. -/
  | fprogQuery (p : Packet)
  /-- FPROG_UNLOAD (R164): Command that waits for a running start of the slot and releases the program image. -/
  | fprogUnload (p : Packet)
  /-- PARTITION_EXCHANGE (R218): Command that sends partitioned records to the owning ranks and places the received ones as a table. -/
  | partitionExchange (p : Packet)
  /-- DATASET_OPEN (R227): Command that opens a dataset with its index and sources. -/
  | datasetOpen (p : Packet)
  /-- PIPELINE_CONFIG (R237): Command that binds a dataset to a job's sample pipeline with buffers and a first anchor. -/
  | pipelineConfig (p : Packet)
  /-- EPOCH_SET (R240): Command that adds or replaces an epoch anchor of a job's pipeline. -/
  | epochSet (p : Packet)
  /-- BATCH_PREPARE (R241): Command that writes the prepared buffers of one rank for a range of steps. -/
  | batchPrepare (p : Packet)
  /-- CORRECTION_LOAD (R262): Command that checks a correction set image, evaluates its vertex map and loads it into a slot. -/
  | correctionLoad (p : Packet)
  /-- DATASET_CLOSE (R228): Command that closes a dataset not bound to an open job's pipeline. -/
  | datasetClose (p : Packet)
  /-- GRAPH_LOAD (R318): Command that validates a graph image and loads it into a graph slot. -/
  | graphLoad (p : Packet)
  /-- GRAPH_UNLOAD (R319): Command that waits for running uses of a graph slot and empties it. -/
  | graphUnload (p : Packet)
  /-- GRAPH_RUN (R321): Command that runs a loaded graph once outside the step machinery. -/
  | graphRun (p : Packet)
  /-- EMB_TABLE_CREATE (R329): Command that creates one embedding slice with no version. -/
  | embTableCreate (p : Packet)
  /-- EMB_VERSION_LOAD (R348): Command that loads a new version of an embedding slice. -/
  | embVersionLoad (p : Packet) (fetched : Option (List (Nat × Byte)))
  /-- EMB_VERSION_PUBLISH (R349): Command that stages or makes current a loaded version of a table. -/
  | embVersionPublish (p : Packet)
  /-- EMB_GATHER (R350): Command that gathers and pools rows of a table outside a graph. -/
  | embGather (p : Packet)
  /-- EMB_TABLE_DESTROY (R351): Command that waits for bound batches and releases a table's slices and versions. -/
  | embTableDestroy (p : Packet)
  /-- DIR_BANK_CONFIG (R375): Command that assigns, configures or unassigns a directory bank. -/
  | dirBankConfig (p : Packet)
  /-- DIR_INSERT (R376): Command that inserts a list of entries into a general directory table. -/
  | dirInsert (p : Packet)
  /-- DIR_DELETE (R377): Command that deletes entries of a general table matching keys. -/
  | dirDelete (p : Packet)
  /-- DIR_SEARCH (R378): Command that searches a directory table for a list of keys and writes results. -/
  | dirSearch (p : Packet)
  /-- DIR_COMPACT (R379): Command that compacts a table's banks by single-slot shifts. -/
  | dirCompact (p : Packet)
  /-- DIR_HOT_PROMOTE (R380): Command that inserts COPYING hot entries for rows of a slice. -/
  | dirHotPromote (p : Packet)
  /-- DIR_HOT_DEMOTE (R381): Command that demotes hot rows toward DRAINING or deletion. -/
  | dirHotDemote (p : Packet)
  /-- SELECT_TOPK (R401): Command that selects the top k entries of rows outside a graph. -/
  | selectTopk (p : Packet)
  /-- SELECT_MERGE (R401): Command that merges top-k lists outside a graph. -/
  | selectMerge (p : Packet)
  /-- RELAY_PEER_SET_LOCAL (R410): RELAY_PEER_SET with kind LOCAL, which accepts this module's relay record. -/
  | relayPeerSetLocal (p : Packet)
  /-- RELAY_PEER_SET_MODULES (R410): RELAY_PEER_SET with kind MODULES, which writes module entries into peer states. -/
  | relayPeerSetModules (p : Packet)
  /-- RELAY_QP_CREATE (R414): Command that creates a RoCEv2 queue pair for a foreign peer. -/
  | relayQpCreate (p : Packet)
  /-- RELAY_QP_DESTROY (R414): Command that destroys a queue pair, failing its outstanding work with QP_ERROR. -/
  | relayQpDestroy (p : Packet)
  /-- RELAY_POST_WRITE (R438): RELAY_POST op WRITE: an RDMA WRITE to a foreign peer. -/
  | relayPostWrite (p : Packet)
  /-- RELAY_POST_WRITE_IMM (R438): RELAY_POST op WRITE_IMM: an RDMA WRITE with immediate. -/
  | relayPostWriteImm (p : Packet)
  /-- RELAY_POST_READ (R438): RELAY_POST op READ: an RDMA READ from a foreign peer. -/
  | relayPostRead (p : Packet)
  /-- RELAY_POST_FETCH_ADD (R438): RELAY_POST op FETCH_ADD: a 64-bit atomic FetchAdd. -/
  | relayPostFetchAdd (p : Packet)
  /-- RELAY_POST_CMP_SWAP (R438): RELAY_POST op CMP_SWAP: a 64-bit atomic CmpSwap. -/
  | relayPostCmpSwap (p : Packet)
  /-- RELAY_POST_SEALED_PUT (R438): RELAY_POST op SEALED_PUT to a module's region. -/
  | relayPostSealedPut (p : Packet)
  /-- RELAY_POST_SEALED_GET (R438): RELAY_POST op SEALED_GET from a module's region. -/
  | relayPostSealedGet (p : Packet)
  /-- RELAY_POST_FENCE (R438): RELAY_POST op FENCE toward a module. -/
  | relayPostFence (p : Packet)
  /-- INT_TEST_UNIT (R469): Command that runs a structural test on one unit. -/
  | intTestUnit (p : Packet)
  /-- INT_TEST_ALL (R469): Command that tests every unit of the named types once, or sets the rotation period. -/
  | intTestAll (p : Packet)
  /-- INT_STRIKES_QUERY (R469): Command that writes the strike clock and live strike records. -/
  | intStrikesQuery (p : Packet)
  /-- INT_FENCE (R469): Command that places a fault fence on a unit. -/
  | intFence (p : Packet)
  /-- INT_UNFENCE (R469): Command that tests a fenced unit and returns it to service if it passes. -/
  | intUnfence (p : Packet)
  /-- PATTERN_SET_STAGE (R468): Command that verifies a pattern set, writes it to the inactive half and activates it. -/
  | patternSetStage (p : Packet)
  /-- SEC_SESSION_OPEN_NEW (R501): SEC_SESSION_OPEN op NEW: starts a new security session and returns the state to OPEN. -/
  | secSessionOpenNew (p : Packet)
  /-- SEC_SESSION_OPEN_CERTIFY (R495): SEC_SESSION_OPEN op CERTIFY: writes the session certificate and chain. -/
  | secSessionOpenCertify (p : Packet)
  /-- SEC_SESSION_OPEN_PAIR_OFFER (R495): SEC_SESSION_OPEN op PAIR_OFFER: verifies a peer, installs a pairwise key and writes an offer. -/
  | secSessionOpenPairOffer (p : Packet)
  /-- SEC_SESSION_OPEN_JOB_KEY_ISSUE (R496): SEC_SESSION_OPEN op JOB_KEY_ISSUE: generates a job key and writes grants. -/
  | secSessionOpenJobKeyIssue (p : Packet)
  /-- SEC_KEY_IMPORT_MODEL_KEY (R502): SEC_KEY_IMPORT kind MODEL_KEY: unwraps a key blob into a model key slot. -/
  | secKeyImportModelKey (p : Packet)
  /-- SEC_KEY_IMPORT_PAIR (R495): SEC_KEY_IMPORT kind PAIR: verifies an offer and installs the pairwise key. -/
  | secKeyImportPair (p : Packet)
  /-- SEC_KEY_IMPORT_JOB_KEY (R496): SEC_KEY_IMPORT kind JOB_KEY: verifies a grant and installs the job key. -/
  | secKeyImportJobKey (p : Packet)
  /-- SEC_WEIGHTS_IMPORT (R493): Command that verifies and opens a weight package into a protected range. -/
  | secWeightsImport (p : Packet)
  /-- SEC_WEIGHTS_EXPORT (R494): Command that seals a protected range into a weight package. -/
  | secWeightsExport (p : Packet)
  /-- SEC_REGION_PROTECT (R504): Command that binds a region to a model key slot and zeroes it. -/
  | secRegionProtect (p : Packet)
  /-- NOP (R94): Command that does nothing and completes with OK. -/
  | nop (p : Packet)
  /-- ABORT (R95): Command that aborts consumed packets with a given handle. -/
  | abort (p : Packet)
  /-- FW_STAGE (R526): Command that verifies a firmware image and programs it into the inactive bank. -/
  | fwStage (p : Packet)
  /-- FW_ACTIVATE (R527): Command that activates the inactive firmware bank in six stages. -/
  | fwActivate (p : Packet)
  /-- POWER_CAP_SET (R557): Command that sets the host power cap. -/
  | powerCapSet (p : Packet)
  /-- LEDGER_READ (R522): Command that writes ledger entries and an optional seal. -/
  | ledgerRead (p : Packet)
  /-- MANIFEST_LOAD (R65): Command that copies a manifest base or overlay into a store slot. -/
  | manifestLoad (p : Packet)
  /-- MANIFEST_STAGE (R66): Command that stages a manifest switch for a job at a switch step. -/
  | manifestStage (p : Packet)
  /-- MANIFEST_QUERY (R68): Command that writes a job's active and staged manifest record. -/
  | manifestQuery (p : Packet)
  /-- PACKET_CONSUMED (R78): A header write whose PHASE matches at the consume position, or arrival at a stored header, copies the packet and advances HEAD. -/
  | packetConsumed (ring : Nat) (stores : List (Nat × Byte)) (hostStores : List (Nat × Byte)) (tee : Bool)
  /-- STATUS_RECORD_WRITE (R87): A due status record is written to the completion ring once it has room. -/
  | statusRecordWrite (ring : Nat)
  /-- INTERRUPT_MODERATION_TIMEOUT (R90): The oldest unsignalled record reaches TIME microseconds and the ring's MSI-X vector is raised. -/
  | interruptModerationTimeout (ring : Nat)
  /-- CMD_RING_ENABLE (R74): Writing ENABLE from 0 to 1 clears the ring and resets its consume position, phase and counts. -/
  | cmdRingEnable (ring : Nat) (v : Word) (tee : Bool)
  /-- RING_CLEAR_COMPLETE (R74): The ring clear finishes, STATE becomes ACTIVE and held records are written. -/
  | ringClearComplete (ring : Nat)
  /-- CMD_RING_DISABLE (R74): Writing ENABLE from 1 to 0 stops consumption of new packets. -/
  | cmdRingDisable (ring : Nat) (v : Word) (tee : Bool)
  /-- CMD_CQ_HEAD_WRITE (R88): A write of CMD_CQ_HEAD releases a held completion ring. -/
  | cmdCqHeadWrite (ring : Nat) (v : Word) (tee : Bool)
  /-- CMD_CQ_BASE_WRITE (R89): A write of the completion base after a disable redirects due records to the held store. -/
  | cmdCqBaseWrite (ring : Nat) (hi : Bool) (v : Word) (tee : Bool)
  /-- REGISTER_WRITE (R8): A write to a register without a row of its own, such as a selector or an RW1C counter. -/
  | registerWrite (off : Nat) (v : Word) (tee : Bool)
  /-- BAR4_ACCESS (R110): A host BAR4 transaction is split into 64-byte pieces, each served or refused and counted. -/
  | bar4Access (write : Bool) (off : Nat) (len : Nat) (data : List Byte) (tee : Bool)
  /-- LATCHING_REGISTER_READ (R515): A read of a _LO register that latches its _HI half, such as MGT_TIME_LO or WGH_ENERGY_LO. -/
  | latchingRegisterRead (off : Nat) (tee : Bool)
  /-- LOG_WINDOW_SEQ_WRITE (R534): A write of LOG_WINDOW_SEQ_LO starts the refill of the ledger window. -/
  | logWindowSeqWrite (v : Word) (tee : Bool)
  /-- LOG_WINDOW_REFILL_DONE (R534): The ledger window refill completes and FILLING clears. -/
  | logWindowRefillDone
  /-- WGH_LOG_SEL_WRITE (R551): A write of WGH_LOG_SEL sends a read request for a meter log entry. -/
  | wghLogSelWrite (v : Word) (tee : Bool)
  /-- MGT_TIME_CTRL_WRITE (R515): A write of MGT_TIME_CTRL sets the time mode, port and domain, applied at the next second boundary. -/
  | mgtTimeCtrlWrite (v : Word) (tee : Bool)
  /-- PREPARE_PHASE_START (R39): Prepare of a step starts up to lookahead steps ahead, starting feature programs and sample ordering. -/
  | preparePhaseStart (slot : Nat) (step : Nat)
  /-- RUN_PHASE_START (R39): Run of a step starts after the previous commit, binding versions and the step graph. -/
  | runPhaseStart (slot : Nat)
  /-- TASK_ADMISSION (R306): The head task of the admission order is admitted once the slot budget has room. -/
  | taskAdmission (run : Nat) (die : Nat)
  /-- TOKEN_ARRIVAL (R304): A token reaches the matching store, fills a slot and may make a task ready. -/
  | tokenArrival (n : Nat)
  /-- TASK_GRANT (R310): The dispatcher grants a ready task, or a duplicate, to a free unfenced unit. -/
  | taskGrant (die : Nat) (ty : Nat) (dup : Bool)
  /-- TASK_RESULT_OFFERED (R50): A unit offers a result, which is accepted or discarded by attempt and generation. -/
  | taskResultOffered (r : Offer)
  /-- ENGINE_TRANSFER_COMPLETE (R27): An engine transfer of up to 16 KiB completes and the engine issues its next transfer. -/
  | engineTransferComplete (unit : Nat)
  /-- QUEUE_SPACE_RELEASED (R27): Space frees in a full queue and its held producer resumes. -/
  | queueSpaceReleased (die : Nat) (prio : Nat)
  /-- PREFETCH_COPY_COMPLETE (R316): A prefetch engine finishes copying a region to the serai and delivers a PREFETCH token. -/
  | prefetchCopyComplete (n : Nat)
  /-- CHECK_PHASE_END (R45): The step's last task and duplicate complete, digests are compared and the rank forms its vote. -/
  | checkPhaseEnd (slot : Nat)
  /-- VOTE_RECEIVED (R45): A VOTE signal arrives from a child and the rank or root forwards a vote or decides. -/
  | voteReceived (f : Frame)
  /-- COMMIT_RECEIVED (R41): A COMMIT decision arrives, is forwarded, and the commit apply starts. -/
  | commitReceived (f : Frame)
  /-- COMMIT_APPLY_COMPLETE (R41): The commit's applies finish, the step report is written and the committed step advances. -/
  | commitApplyComplete (slot : Nat)
  /-- REPLAY_RECEIVED (R46): A REPLAY decision, or a packet of the next attempt, makes the rank rerun the step from held inputs. -/
  | replayReceived (f : Frame)
  /-- QUERY_RECEIVED (R599): A QUERY signal arrives and is answered with the held decision or a vote. -/
  | queryReceived (f : Frame)
  /-- VOTE_TIMEOUT (R49): A child's vote is missing vote_timeout_ms after Check ended and the rank votes FAIL naming it. -/
  | voteTimeout (slot : Nat)
  /-- DECISION_TIMEOUT (R599): No decision arrives vote_timeout_ms after voting and the rank sends a QUERY to rank 0. -/
  | decisionTimeout (slot : Nat)
  /-- QUERY_TIMEOUT (R599): A QUERY goes unanswered and the acting root takes over the decision. -/
  | queryTimeout (slot : Nat)
  /-- MUSTER_DIGEST_FORMED (R457): After a muster step's commit, the state digest reads complete and the digests are sent to the leader. -/
  | musterDigestFormed (slot : Nat)
  /-- MUSTER_COMPARE (R458): The muster leader compares the group's digests and carries the outcome in its vote. -/
  | musterCompare (slot : Nat) (rank : Nat)
  /-- STRIPE_START (R159): A free lane takes the next stripe once the stripe window allows it. -/
  | stripeStart (slot : Nat)
  /-- STRIPE_PLACEMENT (R159): A staged stripe whose predecessors are placed has its rows copied to the outputs and work areas. -/
  | stripePlacement (slot : Nat)
  /-- SAMPLE_ISSUE (R247): The order unit issues a slot to a decode lane once the reorder window has room. -/
  | sampleIssue (die : Nat) (fetched : Option (List (Nat × Byte)))
  /-- SAMPLE_DECODE_COMPLETE (R242): A decode lane finishes or classifies a sample. -/
  | sampleDecodeComplete (lane : Nat) (fetched : Option (List (Nat × Byte)))
  /-- SLOT_HAND_ON (R248): The oldest complete slot is written to its buffer and its token delivered. -/
  | slotHandOn (die : Nat)
  /-- SAMPLE_SOURCE_TIMEOUT (R229): A sample or index read is incomplete after vote_timeout_ms and the rank votes FAIL. -/
  | sampleSourceTimeout (die : Nat) (lane : Option Nat)
  /-- GATHER_WINDOW_SERVED (R335): A member finishes pooling a request window and returns its slice. -/
  | gatherWindowServed (id : Nat) (w : Nat)
  /-- HOT_ROW_COPY_COMPLETE (R370): A gather unit finishes copying a home row to its replica and sets COPIED. -/
  | hotRowCopyComplete (die : Nat) (table : Nat) (slice : Nat) (row : Nat)
  /-- DRAIN_EPOCH_DRAINED (R371): No window of an epoch remains and its DRAINING entries are deleted or rebuilt. -/
  | drainEpochDrained (die : Nat) (epoch : Nat)
  /-- EXCHANGE_INCOMPLETE_TIMEOUT (R221): A partition-exchange source slot is still missing after vote_timeout_ms. -/
  | exchangeIncompleteTimeout (key : Nat)
  /-- SLOT_PUT_RECEIVED (R420): A SLOT_PUT packet is received, placed and may complete a plane. -/
  | slotPutReceived (f : Frame)
  /-- SEALED_PUT_RECEIVED (R423): A SEALED_PUT packet is received and written into the target region. -/
  | sealedPutReceived (f : Frame)
  /-- SEALED_GET_REQUEST_RECEIVED (R423): A SEALED_GET request is received and answered with response packets. -/
  | sealedGetRequestReceived (f : Frame)
  /-- SEALED_GET_RESPONSE_RECEIVED (R418): A SEALED_GET response packet is received and its data landed. -/
  | sealedGetResponseReceived (f : Frame)
  /-- USER_SIGNAL_RECEIVED (R424): A SIGNAL of kind USER delivers one arrival to a GRAPH landing. -/
  | userSignalReceived (f : Frame)
  /-- FENCE_RECEIVED (R425): A FENCE packet is received and acknowledged once earlier sequences are placed. -/
  | fenceReceived (f : Frame)
  /-- ACK_RECEIVED (R428): An ACK packet updates acknowledgements, credit and NAK handling for a pair and class. -/
  | ackReceived (f : Frame)
  /-- CNP_RECEIVED (R433): A CNP raises the rate level toward a peer on a plane. -/
  | cnpReceived (peer : Nat) (plane : Nat)
  /-- ROCE_PACKET_RECEIVED (R413): A RoCEv2 packet of a queue pair is processed under IBTA rules. -/
  | rocePacketReceived (f : Frame)
  /-- ARP_REQUEST (R406): An ARP request or IPv6 neighbour solicitation for the module is answered. -/
  | arpRequest (port : Nat) (ipv6 : Bool) (target : List Byte) (asker : List Byte)
  /-- DISCARDED_FRAME (R406): A frame not described by the relay, or failing its checks, is discarded and counted. -/
  | discardedFrame
  /-- ACK_TIMER_EXPIRY (R428): Two microseconds after the first unacknowledged packet, the receiver sends an ACK. -/
  | ackTimerExpiry (peer : Nat) (serial : Nat) (cls : Nat)
  /-- RETRANSMISSION_TIMEOUT (R429): A packet's retransmission timeout expires and it is resent on the next usable plane. -/
  | retransmissionTimeout (peer : Nat) (serial : Nat) (cls : Nat) (seq : Nat)
  /-- NOT_READY_RESEND (R428): 64 µs after a NOT_READY NAK the sender resends the named sequence. -/
  | notReadyResend (peer : Nat) (serial : Nat) (cls : Nat) (seq : Nat)
  /-- RATE_LEVEL_DECAY (R433): After 200 µs without a CNP the rate level toward a peer falls by one. -/
  | rateLevelDecay (peer : Nat) (plane : Nat)
  /-- PLANE_PROBE (R430): After 1 ms unusable, one packet probes a plane toward a peer. -/
  | planeProbe (peer : Nat) (plane : Nat)
  /-- LINK_STATE_CHANGE (R430): An Ethernet port's link goes up or down and the plane becomes usable or unusable. -/
  | linkStateChange (port : Nat) (up : Bool)
  /-- RELAY_POST_TIMEOUT (R438): timeout_ms passes with a RELAY_POST incomplete and it ends with PEER_UNREACHABLE. -/
  | relayPostTimeout (ring : Nat) (seq : Word)
  /-- PAGE_RETIREMENT (R130): A page or granule with its third strike is copied to the pool and remapped. -/
  | pageRetirement (granule : Bool) (addr : Nat) (poison : List Nat)
  /-- STRIKE_EXPIRY (R454): A strike ceases to be live and the unit's remedy falls. -/
  | strikeExpiry
  /-- TEST_FENCE_START (R30): A waiting test request gets the module's test-fence and its unit is test-fenced. -/
  | testFenceStart
  /-- STRUCTURAL_TEST_COMPLETE (R466): A structural test ends and the unit returns to service or stays fenced. -/
  | structuralTestComplete (unit : Nat) (failed : Option Nat)
  /-- ROTATION_TEST_DUE (R467): The rotation schedule makes the next unit's structural test due. -/
  | rotationTestDue (watched : Option Nat)
  /-- RAIL_STEP_COMPLETE (R561): A 15 mV rail step reaches its setpoint and the next step or divider move follows. -/
  | railStepComplete (rail : Nat)
  /-- RAIL_OUT_OF_REGULATION (R561): A rail stays more than 30 mV off for 10 µs and its units, die or package are fenced. -/
  | railOutOfRegulation (rail : Nat)
  /-- SENSOR_SAMPLE (R513): The management processor samples every sensor once per millisecond. -/
  | sensorSample (values : List Int)
  /-- CAP_LOOP_TICK (R555): Once per millisecond the cap loop sets its throttle level against the effective cap. -/
  | capLoopTick (want : Nat) (unmet : Bool)
  /-- THERMAL_LOOP_TICK (R564): Once per millisecond the thermal loop raises or lowers its level. -/
  | thermalLoopTick
  /-- FAST_LIMITER_TRIP (R555): The 10 µs mean exceeds 2,300 W and the throttle goes to level 63. -/
  | fastLimiterTrip
  /-- FAST_LIMITER_RELEASE (R555): One millisecond after a trip the fast limiter releases to the cap loop. -/
  | fastLimiterRelease
  /-- PWR_BRK_ASSERT (R556): A taken PWR_BRK# assertion sets level 63 and an effective cap of 600 W. -/
  | pwrBrkAssert
  /-- PWR_BRK_RELEASE (R556): PWR_BRK# is released and the effective cap returns to the host cap. -/
  | pwrBrkRelease
  /-- THERMAL_TRIP (R565): A die or HBM sensor stays over its trip limit for 1 ms and the package is fenced. -/
  | thermalTrip
  /-- PLL_LOSS_OF_LOCK (R558): The root PLL loses lock, every die stops and the package is fenced. -/
  | pllLossOfLock
  /-- INPUT_REACHES_40V (R566): The input reaches 40 V and start-up begins. -/
  | inputReaches40v
  /-- RESTART_DELAY_EXPIRY (R552): After a power-fail or overvoltage, the input has stayed valid for 100 ms and start-up restarts. -/
  | restartDelayExpiry
  /-- START_UP_STAGE_COMPLETE (R566): A start-up stage completes and the next begins, up to READY. -/
  | startUpStageComplete (failed : List Nat) (ms : Nat)
  /-- START_UP_STAGE_TIMEOUT (R567): A start-up stage passes its maximum time and start-up ends in FAULT. -/
  | startUpStageTimeout (ms : Nat)
  /-- POWER_FAIL (R562): The input stays below 38 V for 100 µs and the module powers down. -/
  | powerFail
  /-- OVERVOLTAGE (R552): The input stays above 62 V for 10 µs and the power stage switches off. -/
  | overvoltage
  /-- PERST_ASSERT (R570): PERST# is asserted, the link goes down and every ring is disabled. -/
  | perstAssert
  /-- PERST_DEASSERT (R569): PERST# is deasserted and link training begins. -/
  | perstDeassert
  /-- FLR (R570): A Function Level Reset resets function state and disables every ring. -/
  | flr
  /-- D3HOT_ENTRY (R570): The function enters D3hot and its rings become CLOSED. -/
  | d3hotEntry
  /-- D3HOT_EXIT (R570): The function returns from D3hot to D0. -/
  | d3hotExit
  /-- CONFIGURATION_REQUEST (R569): A PCIe configuration request is completed, or retried before readiness. -/
  | configurationRequest (write : Bool) (off : Nat) (v : Word) (early : Bool)
  /-- ENTROPY_HEALTH_FAILURE (R478): An entropy health test fails and ENTROPY_FAULT is set. -/
  | entropyHealthFailure
  /-- GET_VERSION (R482): SPDM GET_VERSION request over DOE. -/
  | getVersion
  /-- GET_CAPABILITIES (R482): SPDM GET_CAPABILITIES request. -/
  | getCapabilities
  /-- NEGOTIATE_ALGORITHMS (R482): SPDM NEGOTIATE_ALGORITHMS request. -/
  | negotiateAlgorithms (offered : Bool)
  /-- GET_DIGESTS (R482): SPDM GET_DIGESTS request. -/
  | getDigests
  /-- GET_CERTIFICATE (R482): SPDM GET_CERTIFICATE request for the slot 0 chain. -/
  | getCertificate (slot : Nat) (off : Nat) (len : Nat)
  /-- CHALLENGE (R482): SPDM CHALLENGE request signed by the alias key. -/
  | challenge (slot : Nat) (nonce : List Byte)
  /-- GET_MEASUREMENTS (R483): SPDM GET_MEASUREMENTS request returning the signed measurement blocks. -/
  | getMeasurements (index : Nat) (nonce : Option (List Byte))
  /-- KEY_EXCHANGE (R482): SPDM KEY_EXCHANGE request opening a secure session. -/
  | keyExchange (key : List Byte)
  /-- FINISH (R482): SPDM FINISH request completing session set-up. -/
  | finish (verified : Bool)
  /-- END_SESSION (R482): SPDM END_SESSION request. -/
  | endSession
  /-- VENDOR_DEFINED_REQUEST (R482): SPDM VENDOR_DEFINED_REQUEST, carrying IDE_KM and TDISP messages. -/
  | vendorDefinedRequest (m : VendorMessage)
  /-- IDE_KM_KEY_PROGRAM (R484): IDE_KM keys or enables a selective IDE stream. -/
  | ideKmKeyProgram (stream : Nat) (go : Bool)
  /-- IDE_STREAM_LOSS (R485): The last keyed stream is disabled or loses its keys; the TDI enters ERROR and the module LOCKED. -/
  | ideStreamLoss (stream : Nat)
  /-- LOCK_INTERFACE_REQUEST (R479): TDISP LOCK_INTERFACE_REQUEST locks the TDI and the module enters LOCKED. -/
  | lockInterfaceRequest
  /-- START_INTERFACE_REQUEST (R485): TDISP START_INTERFACE_REQUEST puts the TDI in RUN and the module in ATTESTED if a stream is keyed. -/
  | startInterfaceRequest
  /-- STOP_INTERFACE_REQUEST (R481): TDISP STOP_INTERFACE_REQUEST takes the TDI out of RUN and the module to LOCKED. -/
  | stopInterfaceRequest
  /-- SET_ENDPOINT_ID (R516): MCTP Set Endpoint ID assigns the endpoint's EID on a binding. -/
  | setEndpointId (smbus : Bool) (eid : Nat)
  /-- PLDM_SENSOR_REQUEST (R517): A PLDM type 0 or type 2 request, including sensor reads and event polling. -/
  | pldmSensorRequest (smbus : Bool) (q : PldmQuery)
  /-- REQUEST_UPDATE (R517): PLDM RequestUpdate enters update mode. -/
  | requestUpdate (smbus : Bool)
  /-- PASS_COMPONENT_TABLE (R517): PLDM PassComponentTable. -/
  | passComponentTable (smbus : Bool) (last : Bool)
  /-- UPDATE_COMPONENT (R517): PLDM UpdateComponent starts transfer of a firmware image or pattern set. -/
  | updateComponent (smbus : Bool) (component : Nat) (size : Nat)
  /-- REQUEST_FIRMWARE_DATA (R517): The device requests and receives a block of component data. -/
  | requestFirmwareData (smbus : Bool) (data : List Byte)
  /-- TRANSFER_COMPLETE (R517): PLDM TransferComplete. -/
  | transferComplete (smbus : Bool)
  /-- VERIFY_COMPLETE (R517): PLDM VerifyComplete. -/
  | verifyComplete (smbus : Bool)
  /-- APPLY_COMPLETE (R517): PLDM ApplyComplete, applying the component as FW_STAGE or PATTERN_SET_STAGE does. -/
  | applyComplete (smbus : Bool)
  /-- ACTIVATE_FIRMWARE (R517): PLDM ActivateFirmware runs the live activation. -/
  | activateFirmware (smbus : Bool)
  /-- GET_STATUS (R517): PLDM GetStatus returns the update state. -/
  | getStatus (smbus : Bool)
  /-- CANCEL_UPDATE (R517): PLDM CancelUpdate leaves update mode. -/
  | cancelUpdate (smbus : Bool)
  /-- ACTIVATION_STAGE_START (R527): An activation stage starts once its waiting condition holds. -/
  | activationStageStart
  /-- PROCESSOR_READY_TIMEOUT (R529): A switched processor fails to report ready within 10 ms and the activation reverts. -/
  | processorReadyTimeout
  /-- LEDGER_FLUSH (R520): Buffered ledger entries are written to both flash banks. -/
  | ledgerFlush
  /-- SECOND_BOUNDARY (R499): At each whole second the tollgate publishes values and a time mode change takes effect. -/
  | secondBoundary
  /-- PPS_EDGE (R583): A rising PPS_IN edge is time-stamped and accepted or ignored. -/
  | ppsEdge (off : Int)
  /-- PTP_MESSAGE_RECEIVED (R515): A PTP event or general message is time-stamped and disciplines module time. -/
  | ptpMessageReceived (port : Nat) (domain : Nat) (kind : Nat) (sequence : Nat) (origin : Nat)
  /-- METER_LINK_POLL (R543): Every 100 ms the port die requests the meter's counter record. -/
  | meterLinkPoll
  /-- METER_LINK_FRAME (R536): A meter-link frame arrives at the port die and updates the mirror if its CRC verifies. -/
  | meterLinkFrame (f : MeterFrame) (crcGood : Bool)
  /-- METER_READ_REQUEST (R536): The weigh-house receives a link frame and answers it or ignores and counts it. -/
  | meterReadRequest (f : MeterFrame) (crcGood : Bool)
  /-- METER_START (R542): The weigh-house starts, loads its counter record and checks seal and firmware. -/
  | meterStart (sealOpen : Bool) (version : Nat) (checksum : Nat) (failed : Option Nat)
  /-- COUNTER_RECORD_WRITE (R541): Every 60 s the weigh-house writes a counter record with CLEAN 0. -/
  | counterRecordWrite
  /-- METER_POWER_FAIL (R541): The input falls below 37 V and the weigh-house writes a clean counter record. -/
  | meterPowerFail
  /-- SEAL_SAMPLE (R545): Every 10 ms the weigh-house tests the seal loop and records a break. -/
  | sealSample (isOpen : Bool)
  /-- METER_SELF_TEST (R546): The hourly metrology self-test runs and may freeze the counters in FAULT. -/
  | meterSelfTest (failed : Option Nat)
  /-- MTR_PULSE (R544): Each 0.1 Wh counted emits a pulse, or a burst of 10 while the gate is asserted. -/
  | mtrPulse
  /-- REVERSE (R538): Reverse flow above 1 W lasts 1 s and is logged once. -/
  | reverse
  /-- OVERRANGE (R539): Current rises above I_max and the period is logged once. -/
  | overrange
  /-- WAIT_MS_EXPIRY (R528): wait_ms of FW_ACTIVATE passes while stage 1 still waits, and the command ends with SEMANTICS_UNAVAILABLE naming the lowest version still named. -/
  | waitMsExpiry
  /-- LOCAL_ACK_TIMEOUT (R413): A queue pair's local ACK timeout of 4.096 µs × 2^t, or its RNR retry delay, expires, and the request is retried under retry_cnt or rnr_retry or the queue pair enters its error state. -/
  | localAckTimeout (n : Nat)
  /-- REFERENCE_LOST (R515): The PTP reference stops arriving, and module time holds its last rate with HOLDOVER set and LOCKED cleared. -/
  | referenceLost
  /-- THROTTLE_WINDOW (R554): A new run of 64 windows of 1,024 fabric clock cycles begins, and units held by the throttle level may start new tasks, chunks, stripes, windows and transfers again. -/
  | throttleWindow
  /-- REVERIFICATION (R545): Through the programming contacts beneath the sealing cover the weigh-house is reverified or reprogrammed, returning the metrological state to SEALED and logging VERIFIED. -/
  | reverification (version : Nat) (checksum : Nat)
  /-- CLOCK_TREE_OR_RESET_DOMAIN_FAULT (R28): A clock-tree or reset-domain fault in a region is reported by the die sequencer, and the management processor fences the region at level 3. -/
  | clockTreeOrResetDomainFault (region : Nat)
  /-- PORT_DIE_FAULT (R28): A port-die fault makes the management processor fence the module at package level with GLB FAULT cause PORT_DIE. -/
  | portDieFault
  /-- JTAG_ACCESS (R480): An IEEE 1149.1 access arrives on the JTAG pins and is served, or limited to EXTEST on the connector pins in confidential mode. -/
  | jtagAccess (extest : Bool) (connector : Bool)
  deriving DecidableEq, Repr

end Sys2Proof
end

