-- ==== Sys2Proof/Machine/Registers.lean ====
section
/-! DEFINITION. The BAR0 offsets of the registers (R72, R100, R132, R166, R224, R252, R277, R297, R324, R354, R383, R404,
R441, R472, R507, R533, R534, R551, R572, R573), and which of them are selectors or write-1-to-clear. -/

namespace Sys2Proof.Machine

def Reg.glbIdent : Nat := 0x0
def Reg.glbStatus : Nat := 0x4
def Reg.glbSerialLo : Nat := 0x8
def Reg.glbSerialHi : Nat := 0xC
def Reg.glbSlot : Nat := 0x10
def Reg.glbResetCause : Nat := 0x14
def Reg.glbError : Nat := 0x18
def Reg.glbStartMs : Nat := 0x1C
def Reg.glbUptimeS : Nat := 0x20
def Reg.manJobSel : Nat := 0x200000
def Reg.manJobState : Nat := 0x200004
def Reg.manCommittedStep : Nat := 0x200008
def Reg.manActiveTagLo : Nat := 0x20000C
def Reg.manActiveTagHi : Nat := 0x200010
def Reg.manStagedTagLo : Nat := 0x200014
def Reg.manStagedTagHi : Nat := 0x200018
def Reg.manSwitchStep : Nat := 0x20001C
def Reg.manTagRefused : Nat := 0x200020
def Reg.manStaleAttempt : Nat := 0x200024
def Reg.manStaleGeneration : Nat := 0x200028
def Reg.manReplays : Nat := 0x20002C
def Reg.intCaps : Nat := 0x300000
def Reg.intStatus : Nat := 0x300004
def Reg.intTestFenced : Nat := 0x300008
def Reg.intPatternVersion : Nat := 0x30000C
def Reg.intStepClockLo : Nat := 0x300010
def Reg.intStepClockHi : Nat := 0x300014
def Reg.intRotation : Nat := 0x300018
def Reg.intFenceFeaLo : Nat := 0x300034
def Reg.intFenceFeaHi : Nat := 0x300038
def Reg.intFenceDec : Nat := 0x30003C
def Reg.intFenceGat : Nat := 0x300040
def Reg.intFenceSel : Nat := 0x300044
def Reg.intFenceDirLo : Nat := 0x300048
def Reg.intFenceDirHi : Nat := 0x30004C
def Reg.intFenceRly : Nat := 0x300050
def Reg.intJobSel : Nat := 0x300054
def Reg.intMusterStep : Nat := 0x300058
def Reg.intStrikes : Nat := 0x30005C
def Reg.intParityErrors : Nat := 0x300060
def Reg.intDupTiles : Nat := 0x300064
def Reg.intDupMismatch : Nat := 0x300068
def Reg.intExpulsions : Nat := 0x30006C
def Reg.intRollbacks : Nat := 0x300070
def Reg.intTestsRun : Nat := 0x300074
def Reg.intTestsFailed : Nat := 0x300078
def Reg.secCaps : Nat := 0x400000
def Reg.secState : Nat := 0x400004
def Reg.secSessionLo : Nat := 0x400008
def Reg.secSessionHi : Nat := 0x40000C
def Reg.secKeySlots : Nat := 0x400010
def Reg.secProtected : Nat := 0x400014
def Reg.secIde : Nat := 0x400018
def Reg.secKeyRefused : Nat := 0x400040
def Reg.secProtRefused : Nat := 0x400044
def Reg.secImports : Nat := 0x400048
def Reg.secExports : Nat := 0x40004C
def Reg.secNonteeDropped : Nat := 0x400050
def Reg.mgtCaps : Nat := 0x500000
def Reg.mgtStatus : Nat := 0x500004
def Reg.mgtFwVersion : Nat := 0x500008
def Reg.mgtInactiveVersion : Nat := 0x50000C
def Reg.mgtSemSel : Nat := 0x500010
def Reg.mgtSemVersion : Nat := 0x500014
def Reg.mgtSensorSel : Nat := 0x500018
def Reg.mgtSensorValue : Nat := 0x50001C
def Reg.mgtSensorInfo : Nat := 0x500020
def Reg.mgtMctp : Nat := 0x500024
def Reg.mgtTimeLo : Nat := 0x500028
def Reg.mgtTimeHi : Nat := 0x50002C
def Reg.mgtTimeCtrl : Nat := 0x500030
def Reg.mgtTimeStatus : Nat := 0x500034
def Reg.mgtAlerts : Nat := 0x500038
def Reg.mgtActivations : Nat := 0x50003C
def Reg.wghStatus : Nat := 0x600000
def Reg.wghEnergyLo : Nat := 0x600004
def Reg.wghEnergyHi : Nat := 0x600008
def Reg.wghFwVersion : Nat := 0x60000C
def Reg.wghFwChecksum : Nat := 0x600010
def Reg.wghSerialLo : Nat := 0x600014
def Reg.wghSerialHi : Nat := 0x600018
def Reg.wghOperatingS : Nat := 0x60001C
def Reg.wghPowerUps : Nat := 0x600020
def Reg.wghLinkAge : Nat := 0x600024
def Reg.wghLogNewest : Nat := 0x600028
def Reg.wghLogCount : Nat := 0x60002C
def Reg.wghLogSel : Nat := 0x600030
def Reg.wghIgnored : Nat := 0x600044
def Reg.pwrCaps : Nat := 0x700000
def Reg.pwrCap : Nat := 0x700004
def Reg.pwrStatus : Nat := 0x700008
def Reg.pwrInputW : Nat := 0x70000C
def Reg.pwrAd0W : Nat := 0x700010
def Reg.pwrAd1W : Nat := 0x700014
def Reg.pwrPortW : Nat := 0x700018
def Reg.pwrRailSel : Nat := 0x70001C
def Reg.pwrRail : Nat := 0x700020
def Reg.pwrThrottleMs : Nat := 0x700024
def Reg.pwrExcursions : Nat := 0x700028
def Reg.pwrThermalEvents : Nat := 0x70002C
def Reg.cntWrapFeature : Nat := 0x900000
def Reg.cntWrapGather : Nat := 0x900004
def Reg.cntWrapArray : Nat := 0x900008
def Reg.cntWrapRelay : Nat := 0x90000C
def Reg.cntWrapHost : Nat := 0x900010
def Reg.cntBar4ProtRead : Nat := 0x900014
def Reg.cntBar4ProtWrite : Nat := 0x900018
def Reg.cntBar4Unmapped : Nat := 0x90001C
def Reg.cntHbmRetired : Nat := 0x900020
def Reg.cntSeraiRetired : Nat := 0x900024
def Reg.cntPoolFree : Nat := 0x900028
def Reg.cntJoinChainReads : Nat := 0x900040
def Reg.cntJoinHashFalse : Nat := 0x900044
def Reg.cntJoinSkipped : Nat := 0x900048
def Reg.cntGroupHbmRecords : Nat := 0x90004C
def Reg.cntExchangeSent : Nat := 0x900050
def Reg.cntExchangeReceived : Nat := 0x900054
def Reg.rlyCaps : Nat := 0xA00000
def Reg.rlyStatus : Nat := 0xA00004
def Reg.rlyPortMode : Nat := 0xA00008
def Reg.rlyQueues : Nat := 0xA0000C
def Reg.rlyTxPktsLo : Nat := 0xA00010
def Reg.rlyTxPktsHi : Nat := 0xA00014
def Reg.rlyRxPktsLo : Nat := 0xA00018
def Reg.rlyRxPktsHi : Nat := 0xA0001C
def Reg.rlyRetransmit : Nat := 0xA00020
def Reg.rlyAuthFail : Nat := 0xA00024
def Reg.rlyCreditViolation : Nat := 0xA00028
def Reg.rlyNotReady : Nat := 0xA0002C
def Reg.rlyCnpRx : Nat := 0xA00030
def Reg.rlyPeerCacheMiss : Nat := 0xA00034
def Reg.rlyDiscarded : Nat := 0xA00038
def Reg.rlyFallbackPkts : Nat := 0xA0003C
def Reg.rlyQps : Nat := 0xA00040
def Reg.dirCaps : Nat := 0xB00000
def Reg.dirStatus : Nat := 0xB00004
def Reg.dirBankSel : Nat := 0xB00008
def Reg.dirBankInfo : Nat := 0xB0000C
def Reg.dirBankUse : Nat := 0xB00010
def Reg.dirHotCopying : Nat := 0xB00014
def Reg.dirHotReplicated : Nat := 0xB00018
def Reg.dirHotDraining : Nat := 0xB0001C
def Reg.dirSearchesLo : Nat := 0xB00020
def Reg.dirSearchesHi : Nat := 0xB00024
def Reg.dirStolen : Nat := 0xB00028
def Reg.dirFullRefused : Nat := 0xB0002C
def Reg.dirTagFalse : Nat := 0xB00030
def Reg.dirRecopies : Nat := 0xB00034
def Reg.dirMoved : Nat := 0xB00038
def Reg.feaCaps : Nat := 0xC00000
def Reg.feaStatus : Nat := 0xC00004
def Reg.feaLaneBusyLo : Nat := 0xC00008
def Reg.feaLaneBusyHi : Nat := 0xC0000C
def Reg.feaProgSel : Nat := 0xC00010
def Reg.feaProgState : Nat := 0xC00014
def Reg.feaStripesDone : Nat := 0xC00018
def Reg.feaStripesRerun : Nat := 0xC0001C
def Reg.feaIngestRowsLo : Nat := 0xC00020
def Reg.feaIngestRowsHi : Nat := 0xC00024
def Reg.feaFormatRefused : Nat := 0xC00028
def Reg.feaWindowStall : Nat := 0xC0002C
def Reg.smpCaps : Nat := 0xD00000
def Reg.smpStatus : Nat := 0xD00004
def Reg.smpLaneBusy : Nat := 0xD00008
def Reg.smpWindowAd0 : Nat := 0xD0000C
def Reg.smpWindowAd1 : Nat := 0xD00010
def Reg.smpWindowFull : Nat := 0xD00014
def Reg.smpCorruptDecode : Nat := 0xD00018
def Reg.smpCorruptTruncated : Nat := 0xD0001C
def Reg.smpCorruptFormat : Nat := 0xD00020
def Reg.smpCorruptBudget : Nat := 0xD00024
def Reg.smpSamplesLo : Nat := 0xD00028
def Reg.smpSamplesHi : Nat := 0xD0002C
def Reg.smpLaneRestart : Nat := 0xD00030
def Reg.smpWalkExtra : Nat := 0xD00034
def Reg.smpImgCaps : Nat := 0xD00100
def Reg.smpCorrLoaded : Nat := 0xD00104
def Reg.smpPixelsLo : Nat := 0xD00108
def Reg.smpPixelsHi : Nat := 0xD0010C
def Reg.smpBorderTaps : Nat := 0xD00110
def Reg.smpProgressive : Nat := 0xD00114
def Reg.gatCaps : Nat := 0xE00000
def Reg.gatStatus : Nat := 0xE00004
def Reg.gatTableSel : Nat := 0xE00008
def Reg.gatTableState : Nat := 0xE0000C
def Reg.gatCurVersion : Nat := 0xE00010
def Reg.gatStagedVersion : Nat := 0xE00014
def Reg.gatSwitchStep : Nat := 0xE00018
def Reg.gatBoundBatches : Nat := 0xE0001C
def Reg.gatReadsHbmLo : Nat := 0xE00020
def Reg.gatReadsHbmHi : Nat := 0xE00024
def Reg.gatReadsSeraiLo : Nat := 0xE00028
def Reg.gatReadsSeraiHi : Nat := 0xE0002C
def Reg.gatCoalesced : Nat := 0xE00030
def Reg.gatHotHits : Nat := 0xE00034
def Reg.gatScatterRecords : Nat := 0xE00038
def Reg.gatVersionRefused : Nat := 0xE0003C
def Reg.gatBadOffsets : Nat := 0xE00040
def Reg.gatDupResponses : Nat := 0xE00044
def Reg.selCaps : Nat := 0xF00000
def Reg.selStatus : Nat := 0xF00004
def Reg.selRowsLo : Nat := 0xF00008
def Reg.selRowsHi : Nat := 0xF0000C
def Reg.selNanEntries : Nat := 0xF00010
def Reg.selTieRows : Nat := 0xF00014
def Reg.selRowRestart : Nat := 0xF00018
def Reg.selMergeConflict : Nat := 0xF0001C
def Reg.arrCaps : Nat := 0x1000000
def Reg.arrSel : Nat := 0x1000004
def Reg.arrState : Nat := 0x1000008
def Reg.arrTilesLo : Nat := 0x100000C
def Reg.arrTilesHi : Nat := 0x1000010
def Reg.arrIntWrap : Nat := 0x1000014
def Reg.arrNanTiles : Nat := 0x1000018
def Reg.arrSatStores : Nat := 0x100001C
def Reg.arrSlowed0 : Nat := 0x1000020
def Reg.arrSlowed1 : Nat := 0x1000024
def Reg.arrSlowed2 : Nat := 0x1000028
def Reg.arrSlowed3 : Nat := 0x100002C
def Reg.arrSlowed4 : Nat := 0x1000030
def Reg.arrMsAd0 : Nat := 0x1000100
def Reg.arrMsAd1 : Nat := 0x1000104
def Reg.arrReadyAd0 : Nat := 0x1000108
def Reg.arrReadyAd1 : Nat := 0x100010C
def Reg.arrGraphs : Nat := 0x1000110
def Reg.arrMigrations : Nat := 0x1000114
def Reg.arrStaleTokens : Nat := 0x1000118
def Reg.arrExcessTokens : Nat := 0x100011C
def Reg.arrReuseChunks : Nat := 0x1000120
def Reg.arrProducerHold : Nat := 0x1000124
def Reg.arrStaleResults : Nat := 0x1000128
def Reg.logCaps : Nat := 0x1100000
def Reg.logNewestLo : Nat := 0x1100008
def Reg.logNewestHi : Nat := 0x110000C
def Reg.logOldestLo : Nat := 0x1100010
def Reg.logOldestHi : Nat := 0x1100014
def Reg.logWindowSeqLo : Nat := 0x1100018
def Reg.logWindowSeqHi : Nat := 0x110001C
def Reg.logStatus : Nat := 0x1100020
def Reg.logSuppressed : Nat := 0x1100024

/-- RW registers without a row of their own, with the bits that are RW. -/
def Reg.selectors : List (Nat × Nat) :=
  [(Reg.manJobSel, 0xF),
   (Reg.intJobSel, 0xF),
   (Reg.mgtSemSel, 0x7),
   (Reg.mgtSensorSel, 0xFF),
   (Reg.pwrRailSel, 0x3F),
   (Reg.dirBankSel, 0x3F),
   (Reg.feaProgSel, 0x3F),
   (Reg.gatTableSel, 0xFFFF),
   (Reg.arrSel, 0xFF),
   (Reg.logWindowSeqHi, 0xFFFFFFFF)]

/-- RW1C registers held by the register bank, with the bits that are RW1C. -/
def Reg.clearable : List (Nat × Nat) :=
  [(Reg.glbResetCause, 0xE),
   (Reg.glbError, 0x1F),
   (Reg.intParityErrors, 0xFFFFFFFF),
   (Reg.intDupTiles, 0xFFFFFFFF),
   (Reg.intDupMismatch, 0xFFFFFFFF),
   (Reg.intExpulsions, 0xFFFFFFFF),
   (Reg.intRollbacks, 0xFFFFFFFF),
   (Reg.intTestsRun, 0xFFFFFFFF),
   (Reg.intTestsFailed, 0xFFFFFFFF),
   (Reg.secKeyRefused, 0xFFFFFFFF),
   (Reg.secProtRefused, 0xFFFFFFFF),
   (Reg.secImports, 0xFFFFFFFF),
   (Reg.secExports, 0xFFFFFFFF),
   (Reg.secNonteeDropped, 0xFFFFFFFF),
   (Reg.mgtAlerts, 0x1F),
   (Reg.pwrThrottleMs, 0xFFFFFFFF),
   (Reg.pwrExcursions, 0xFFFFFFFF),
   (Reg.pwrThermalEvents, 0xFFFFFFFF),
   (Reg.cntWrapFeature, 0xFFFFFFFF),
   (Reg.cntWrapGather, 0xFFFFFFFF),
   (Reg.cntWrapArray, 0xFFFFFFFF),
   (Reg.cntWrapRelay, 0xFFFFFFFF),
   (Reg.cntWrapHost, 0xFFFFFFFF),
   (Reg.cntBar4ProtRead, 0xFFFFFFFF),
   (Reg.cntBar4ProtWrite, 0xFFFFFFFF),
   (Reg.cntBar4Unmapped, 0xFFFFFFFF),
   (Reg.cntJoinChainReads, 0xFFFFFFFF),
   (Reg.cntJoinHashFalse, 0xFFFFFFFF),
   (Reg.cntJoinSkipped, 0xFFFFFFFF),
   (Reg.cntGroupHbmRecords, 0xFFFFFFFF),
   (Reg.cntExchangeSent, 0xFFFFFFFF),
   (Reg.cntExchangeReceived, 0xFFFFFFFF),
   (Reg.rlyRetransmit, 0xFFFFFFFF),
   (Reg.rlyAuthFail, 0xFFFFFFFF),
   (Reg.rlyCreditViolation, 0xFFFFFFFF),
   (Reg.rlyNotReady, 0xFFFFFFFF),
   (Reg.rlyCnpRx, 0xFFFFFFFF),
   (Reg.rlyPeerCacheMiss, 0xFFFFFFFF),
   (Reg.rlyDiscarded, 0xFFFFFFFF),
   (Reg.rlyFallbackPkts, 0xFFFFFFFF),
   (Reg.dirStolen, 0xFFFFFFFF),
   (Reg.dirFullRefused, 0xFFFFFFFF),
   (Reg.dirTagFalse, 0xFFFFFFFF),
   (Reg.dirRecopies, 0xFFFFFFFF),
   (Reg.dirMoved, 0xFFFFFFFF),
   (Reg.feaStripesRerun, 0xFFFFFFFF),
   (Reg.feaFormatRefused, 0xFFFFFFFF),
   (Reg.feaWindowStall, 0xFFFFFFFF),
   (Reg.smpWindowFull, 0xFFFFFFFF),
   (Reg.smpCorruptDecode, 0xFFFFFFFF),
   (Reg.smpCorruptTruncated, 0xFFFFFFFF),
   (Reg.smpCorruptFormat, 0xFFFFFFFF),
   (Reg.smpCorruptBudget, 0xFFFFFFFF),
   (Reg.smpLaneRestart, 0xFFFFFFFF),
   (Reg.smpWalkExtra, 0xFFFFFFFF),
   (Reg.smpBorderTaps, 0xFFFFFFFF),
   (Reg.smpProgressive, 0xFFFFFFFF),
   (Reg.gatCoalesced, 0xFFFFFFFF),
   (Reg.gatHotHits, 0xFFFFFFFF),
   (Reg.gatScatterRecords, 0xFFFFFFFF),
   (Reg.gatVersionRefused, 0xFFFFFFFF),
   (Reg.gatBadOffsets, 0xFFFFFFFF),
   (Reg.gatDupResponses, 0xFFFFFFFF),
   (Reg.selNanEntries, 0xFFFFFFFF),
   (Reg.selTieRows, 0xFFFFFFFF),
   (Reg.selRowRestart, 0xFFFFFFFF),
   (Reg.selMergeConflict, 0xFFFFFFFF),
   (Reg.arrIntWrap, 0xFFFFFFFF),
   (Reg.arrNanTiles, 0xFFFFFFFF),
   (Reg.arrSatStores, 0xFFFFFFFF),
   (Reg.arrMigrations, 0xFFFFFFFF),
   (Reg.arrStaleTokens, 0xFFFFFFFF),
   (Reg.arrExcessTokens, 0xFFFFFFFF),
   (Reg.arrReuseChunks, 0xFFFFFFFF),
   (Reg.arrProducerHold, 0xFFFFFFFF),
   (Reg.arrStaleResults, 0xFFFFFFFF),
   (Reg.logSuppressed, 0xFFFFFFFF)]

end Sys2Proof.Machine
end

