-- ==== Sys2Proof/Machine/Buffers.lean ====
section
/-! DEFINITION. The shape of table columns and of their buffers (R136 to R139): schema entries, the buffers of one column
of one batch, and the outcome of decoding a Parquet file (R144, R145). -/

namespace Sys2Proof.Machine

/-- A schema entry (R136), but for its name hash. -/
structure Column where
  /-- column type code (R137) -/
  code : Nat
  nullable : Bool
  dict : Bool
  list : Bool
  indexType : Nat
  unitScale : Nat
  fixedWidth : Nat
  deriving DecidableEq, Repr, Inhabited

/-- The buffers of one column of one batch (R138): a buffer that is not there has address 0. -/
structure Buffers where
  validity : Option (List Byte)
  offsets : Option (List Byte)
  data : List Byte
  aux0 : Option (List Byte)
  aux1 : Option (List Byte)
  auxCount : Nat
  auxLength : Nat
  nullCount : Nat
  deriving DecidableEq, Repr, Inhabited

/-- One batch: its rows and the buffers of its columns. -/
structure Batch where
  rows : Nat
  columns : List Buffers
  deriving DecidableEq, Repr, Inhabited

/-- What decoding the selected columns of a Parquet file gives (R144, R145): columns with their names and their row
groups, or a fault with the file offset of the structure at fault. -/
inductive ParquetResult where
  | unsupported (offset : Nat)
  | invalid (offset : Nat)
  | table (columns : List (Column × List Byte)) (batches : List Batch)
  deriving DecidableEq, Repr, Inhabited

end Sys2Proof.Machine
end

