-- ==== Sys2Proof/Config.lean ====
section
/-! DEFINITION. What an implementation fixes, and the free values: values the spec leaves open, which nothing in Lean
constrains. A function is applied to what the value depends on, or to the counter State.free for a fresh value. -/

namespace Sys2Proof

/-- A byte whose value the spec leaves undefined (contents of an aborted destination, of a local store after its rails
were switched off): fresh for each value of the counter. -/
opaque Config.freeByte : Nat → BitVec 8

/-- A number whose value the spec leaves open (a delay, a measured quantity): fresh for each value of the counter. -/
opaque Config.freeNat : Nat → Nat

/-- The NaN code a feature lane makes for a format of so many mantissa bits (R169 states none). -/
opaque Config.freeNan : Nat → Nat

/-- Whether the lane's LOG1P of an FP64 code gives the neighbour above the exact value or the one below it (R181). -/
opaque Config.log1pUp : Nat → Bool
/-- How many single-slot shifts lay out a bank again (R365 gives the layout and an upper bound): the entries' slots, the
slots of the bank and its pitch. -/
opaque Config.compactShifts : List Nat → Nat → Nat → Nat

/-- Whether a directory entry read out of a fenced bank fails parity (R373): fresh for each value of the counter. -/
opaque Config.entryFails : Nat → Bool

/-- Whether the other side of a pair has installed a key by now (R434, R495; the spec gives the module no way to tell): fresh
for each value of the counter. -/
opaque Config.peerHolds : Nat → Bool

/-- The compute-semantics versions of the firmware the module left the factory with (R36). -/
opaque Config.factorySemantics : List Nat

/-- The FP64 code in min and max of a statistics record with n = 0 (R182 states none). -/
opaque Config.emptyStat : Nat

/-- The 16-byte record of an immediate and a byte length in a receive ring (R413 gives no layout). -/
opaque Config.immediateRecord : Nat → Nat → List (BitVec 8)

/-- The detail of QP_ERROR where no packet has brought a syndrome (R438), and the timer field of an RNR NAK sent (R413). -/
opaque Config.silentSyndrome : Nat
opaque Config.rnrTimer : Nat

/-! ## Source formats of published standards -/

/-- The decoding of a Parquet file (R144, R145, with its page encodings and its LZ4 and Zstandard streams): the file, the
selected leaves (none for all) and KEEP_DICT. -/
opaque Config.parquet : List (BitVec 8) → List Nat → Bool → Sys2Proof.Machine.ParquetResult

/-- The name hash and the NULLABLE flag of a column that a feature program makes: it has no name (R136). -/
opaque Config.madeNameHash : Nat
opaque Config.madeNullable : Bool

/-! ## Cryptography of published standards (R475 to R497, R519 to R525)

ML-DSA-87, ML-KEM-1024, the entropy source and the fused seed are taken as uninterpreted functions: no proof can see a
key or a signature. -/

/-- The image or pattern set carries a valid ML-DSA-87 signature of the vendor root key, in its last 4,627 bytes. -/
opaque Config.vendorSigned : List (BitVec 8) → Bool

/-- The chunk size, as a power of two from 16 on, of a package that JOB_SNAPSHOT seals (R492 leaves it to whoever seals). -/
opaque Config.snapshotChunk : Nat

/-- A DRBG output of a number of bytes, for each draw (R478). -/
opaque Config.random : Nat → Nat → List (BitVec 8)

/-- The 4,627-byte ML-DSA-87 signature over a message by the alias key derived from the measured firmware (R475). -/
opaque Config.signAlias : List (BitVec 8) → List (BitVec 8) → List (BitVec 8)

/-- The DER bytes of the first three links of the certificate chain, written to flash at manufacture (R476). -/
opaque Config.deviceChain : Nat → List (BitVec 8)

/-- The digest of a component (1 to 3) of the firmware the module left the factory with, and its version and security
version. -/
opaque Config.factoryDigest : Nat → List (BitVec 8)

/-- The bytes of a raw measurement block: its index and its contents in the order of R483, which gives no layout. -/
opaque Config.rawBlock : Nat → List Nat → List (BitVec 8)

/-- The setpoint in mV of an HBM rail, which the HBM4 standard requires (R560). -/
opaque Config.hbmSetpoint : Nat

/-- The body of a PLDM response whose content its standard gives (R517): type, command and argument. -/
opaque Config.pldmBody : Nat → Nat → Nat → List (BitVec 8)

/-- Whether a read-back of programmed flash differs (R526): fresh for each value of the counter. -/
opaque Config.flashFails : Nat → Bool

/-- The ML-DSA-87 signature of a message under a public key verifies: public key, message, signature. -/
opaque Config.verify : List (BitVec 8) → List (BitVec 8) → List (BitVec 8) → Bool

/-- The AK public key that a certificate chain ends in at its leaf, when the chain ends at the vendor root (R476). -/
opaque Config.chainKey : List (BitVec 8) → Option (List (BitVec 8))

/-- The ML-KEM-1024 encapsulation key (1,568 bytes) of the n-th session KEM key pair of this module. -/
opaque Config.kemPublic : Nat → List (BitVec 8)

/-- ML-KEM-1024 encapsulation to a key with a draw: the 1,568-byte ciphertext and the 32-byte shared secret. -/
opaque Config.kemEncapsulate : List (BitVec 8) → Nat → List (BitVec 8) × List (BitVec 8)

/-- ML-KEM-1024 decapsulation with the n-th session KEM key pair of this module. -/
opaque Config.kemDecapsulate : Nat → List (BitVec 8) → List (BitVec 8)

/-- The alias certificate the device writes at each start-up, for the measured firmware (R476). -/
opaque Config.aliasCertificate : List (BitVec 8) → List (BitVec 8)

/-- The boot ROM's digest (measurement block 1, R483). -/
opaque Config.bootRomDigest : List (BitVec 8)

end Sys2Proof
end

