-- ==== Sys2Proof/Machine/Blocks/Cmd.lean ====
section
/-! DEFINITION. State of the command processor: command rings, completion rings, held store, interrupt vectors and the
progress table (R73 to R101). -/

namespace Sys2Proof.Machine

/-- STATE of CMD_RING_STATUS (R100). HELD is not stored: it is read from an ACTIVE ring whose completion ring is full
(R88). -/
inductive RingState where
  | disabled | clearing | active | closed
  deriving DecidableEq, Repr

/-- A status record that has fallen due (R87), with the packet flags its writing still needs (R90) and the enable of the
ring its packet was consumed under (R79). -/
structure Record where
  handle : DWord
  seq : Word
  opcode : BitVec 16
  status : BitVec 16
  detail : DWord
  time : Word
  /-- the ring field: the issuing ring, or the ring a job was re-attached to -/
  ring : Nat
  noIrq : Bool
  irqNow : Bool
  /-- the job the packet names -/
  job : Word
  /-- the ring of the packet, and the enable it was consumed under -/
  home : Nat
  era : Nat
  deriving DecidableEq, Repr

/-- One command ring with its completion ring (R73 to R90, R100). -/
structure Ring where
  /-- CMD_RING_CTRL -/
  ctrl : Word
  state : RingState
  /-- HEAD, the consume position -/
  head : Nat
  /-- the expected phase at HEAD -/
  phase : Bool
  /-- sequence number of the next packet -/
  seq : Word
  retired : Word
  /-- sequence numbers at or above the retired count whose records are written (R79) -/
  written : List Word
  /-- how many times the ring has been enabled -/
  era : Nat
  cqBaseLo : Word
  cqBaseHi : Word
  cqSize : Word
  /-- the base and the log2 size in force since the latest enable (R89, R100) -/
  baseInForce : Nat
  log2InForce : Nat
  cqTail : Nat
  /-- the phase the device writes next -/
  cqPhase : Bool
  cqHead : Word
  cqMod : Word
  refused : Word
  /-- records written since the last interrupt, and the timer clock of the oldest of them (R90) -/
  irqCount : Nat
  irqSince : Option Nat
  /-- due records wait in the held store (R89, R96) -/
  redirect : Bool
  /-- consumed packets that have not started, in sequence order (R80) -/
  staged : List Packet
  /-- records that have fallen due and are not yet written -/
  due : List Record
  deriving DecidableEq, Repr

/-- One progress entry (R91, R101). -/
structure Progress where
  seq : Word
  /-- 0 IDLE, 1 RUNNING, 2 DONE -/
  state : Nat
  unit : Nat
  status : BitVec 16
  opcode : BitVec 16
  ring : Nat
  sequence : Nat
  handle : DWord
  position : Nat
  total : Nat
  /-- PERMILLE shown by the entry (R92) -/
  permille : Nat
  deriving DecidableEq, Repr

/-- An entry no packet has claimed. -/
def Progress.idle : Progress := ⟨0, 0, 0, 0, 0, 0, 0, 0, 0, 0, 0⟩

/-- A ring at its register reset values (R100). -/
def Ring.atReset (n : Nat) : Ring where
  ctrl := BitVec.ofNat 32 (n * 256)
  state := .disabled
  head := 0
  phase := true
  seq := 0
  retired := 0
  written := []
  era := 0
  cqBaseLo := 0
  cqBaseHi := 0
  cqSize := 6
  baseInForce := 0
  log2InForce := 6
  cqTail := 0
  cqPhase := true
  cqHead := 0
  cqMod := 1
  refused := 0
  irqCount := 0
  irqSince := none
  redirect := false
  staged := []
  due := []

end Sys2Proof.Machine
end

