-- ==== Sys2Proof/Machine/Blocks/Embed.lean ====
section
/-! DEFINITION. State of embedding tables and of the key directory (R325 to R383). -/

namespace Sys2Proof.Machine

/-- State of a resident version (R344); a retired one is not listed. -/
inductive VersionState where
  | loaded | current | superseded
  deriving DecidableEq, Repr

/-- A resident version of a slice (R327, R344, R358). -/
structure Version where
  number : Nat
  state : VersionState
  base : Nat
  size : Nat
  vslot : Nat
  deriving DecidableEq, Repr

/-- A slice (R325 to R329). -/
structure Slice where
  elem : Nat
  group : Nat
  hot : Bool
  job : Word
  rows : Nat
  dim : Nat
  versions : List Version
  /-- the highest version number the slice has held -/
  highest : Nat
  deriving DecidableEq, Repr

/-- A gather in progress on the requester's side (R335, R350): the GATHER task of a graph run, or an EMB_GATHER by ring and
sequence; its destination descriptor's bytes; the slices that have landed of those it needs; the versions it is bound to;
the accesses issued so far. -/
structure GatherOp where
  run : Option (Nat × Nat)
  cmd : Option (Nat × Word)
  gen : Nat
  dst : List Byte
  /-- elements of a slice, and bytes of an output element -/
  elems : Nat
  width : Nat
  bags : Nat
  group : Nat
  landed : List Nat
  bound : List (Nat × Nat)
  accesses : Nat
  deriving DecidableEq, Repr

/-- A request that this module serves as a member (R335, R341): the gather it belongs to when it is this module's own, else
the peer that asked, with the response landing; its bytes; and the windows served. -/
structure GatherReq where
  own : Option Nat
  peer : Nat
  job : Word
  step : Nat
  attempt : Nat
  rank : Nat
  slot : Nat
  data : List Byte
  served : List Nat
  deriving DecidableEq, Repr

/-- A contribution of the scatter-add buffer (R341): slice key, version, row, source rank, task, position, factor (FP32
code) and the gradient slice in FP32 codes; the scale goes with it. -/
structure Contribution where
  slice : Nat
  row : Nat
  rank : Nat
  task : Nat
  position : Nat
  factor : Nat
  scale : Nat
  grad : List Nat
  deriving DecidableEq, Repr

/-- Slices by 64 * table_id + slice, staged publishes by table_id (version, switch step), gathers in progress, the requests
being served, and the contributions each job slot holds. -/
structure EmbState where
  slices : Tab Slice
  staged : Tab (Nat × Nat)
  gathers : Tab GatherOp
  requests : Tab GatherReq
  nextKey : Nat
  scatter : Tab (List Contribution)
  deriving DecidableEq, Repr

def EmbState.atReset : EmbState := ⟨[], [], [], [], 0, []⟩

/-- An entry of a directory bank (R357, R358): its key words, and its pre-filter tag. -/
structure DirEntry where
  key : List DWord
  value : Nat
  priority : Nat
  flags : Nat
  tag : Nat
  /-- demoted, and DRAINING from the next commit on (R371) -/
  demoted : Bool
  /-- the drain epoch it entered DRAINING in -/
  epoch : Nat
  deriving DecidableEq, Repr

/-- A bank that belongs to a table (R355, R356): its entries by slot; a slot not listed is a hole. -/
structure DirBank where
  table : Nat
  width : Nat
  pitch : Nat
  hashKey : DWord
  slots : Tab DirEntry
  deriving DecidableEq, Repr

/-- The key directory: assigned banks, which bank serves a fenced one (R373), lost tables by table and die, and the drain
epoch of each die. -/
structure DirState where
  banks : Tab DirBank
  serves : Tab Nat
  lost : List (Nat × Nat)
  epoch0 : Nat
  epoch1 : Nat
  deriving DecidableEq, Repr

def DirState.atReset : DirState := ⟨[], [], [], 0, 0⟩

end Sys2Proof.Machine
end

