-- ==== Sys2Proof/Machine/Blocks/Job.lean ====
section
/-! DEFINITION. State of jobs, steps and manifests (R36 to R72), with the muster of each job (R457 to R463). -/

namespace Sys2Proof.Machine

/-- STATE of MAN_JOB_STATE (R72); CLOSED is the absence of a job in the slot. -/
inductive JobMode where
  | idle | running | held | rehosting
  deriving DecidableEq, Repr

/-- The phase of the step a job is in (R39). `idle`: no step is in Run, Check or Commit. -/
inductive Phase where
  | idle | run | check | voted | commit
  deriving DecidableEq, Repr

/-- A staged manifest switch (R66). -/
structure Staged where
  step : Nat
  baseSlot : Nat
  overlaySlot : Nat
  digest : List Byte
  /-- the patched base bytes of the pair -/
  image : List Byte
  deriving DecidableEq, Repr

/-- A vote of a rank: received, or formed here from its own checks and its children's votes (R45, R424). -/
structure Vote where
  rank : Nat
  pass : Bool
  cause : BitVec 16
  /-- the detail field of the cause; no packet carries it -/
  detail : Nat
  /-- the rank carried in value [63:32]: missing (R49) or differing (R458) -/
  named : Option Nat
  /-- the named rank's vote is missing -/
  missing : Bool
  deriving DecidableEq, Repr

/-- A muster whose digests are being formed or compared (R457 to R459): its step, the attempt the step committed under, its
round, whether the digests are formed and sent, and whether it is resolved in a muster-only round. -/
structure Muster where
  step : Nat
  attempt : Nat
  round : Nat
  formed : Bool
  only : Bool
  deriving DecidableEq, Repr

/-- What an acting root has learnt (R599): modules taken as failed, modules that have not answered, modules that answered
without a decision. -/
structure ActingRoot where
  failed : List Nat
  asked : List Nat
  undecided : List Nat
  deriving DecidableEq, Repr

/-- A queued or running STEP_RUN (R54, R57). -/
structure StepRun where
  pkt : Packet
  first : Nat
  count : Nat
  reports : Nat
  /-- highest count of committed steps shown (R462) -/
  shown : Nat
  aborted : Bool
  deriving DecidableEq, Repr

/-- One open job (R36 to R72). -/
structure Job where
  id : Word
  firstRank : Nat
  span : Nat
  /-- ranks this module holds, rehosted ones included -/
  ranks : List Nat
  baseSlot : Nat
  overlaySlot : Nat
  /-- the base with the active overlay's patches applied (R63, R64) -/
  image : List Byte
  /-- mode of the active overlay: 1 TRAIN, 2 PREP, 3 SERVE -/
  mode : Nat
  confidential : Bool
  /-- the model key slot a confidential job binds to (R487) -/
  keySlot : Option Nat
  /-- the 64-byte digest of the active pair (R60) -/
  digest : List Byte
  staged : Option Staged
  holdBase : Nat
  holdSize : Nat
  peerTable : Nat
  /-- bytes of the peer table that are in use (R411) -/
  tableSize : Nat
  state : JobMode
  /-- last committed step + 1, so that 0 is the job that has committed none (R597) -/
  next : Nat
  /-- ring that completions of the job are written to, once re-attached (R54, R96) -/
  attached : Option Nat
  runs : List StepRun
  /-- steps whose Prepare phase has started and that have not committed -/
  prepared : List Nat
  phase : Phase
  attempt : Nat
  /-- lowest attempt a step run again may use (R461), by step -/
  floors : Tab Nat
  /-- failure causes of the ranks held here in this attempt, in the order they were met -/
  faults : List Vote
  /-- votes of children held elsewhere, and votes sent by ranks held here -/
  votes : List Vote
  /-- the decision last taken or received: (step, attempt, COMMIT or not) -/
  decision : Option (Nat × Nat × Bool)
  /-- timer clock when the vote, decision and query timers started (R49, R599) -/
  voteTimer : Option Nat
  decisionTimer : Option Nat
  queryTimer : Option Nat
  /-- a rank expelled or rehosted, until the steps that its note covers have committed -/
  expelled : Option Nat
  /-- the cause and detail a held job is held for -/
  heldFor : Option (BitVec 16 × Nat)
  acting : Option ActingRoot
  /-- result_words of the report task (R57, R314) -/
  words : List Byte
  /-- apply journal and muster journal: address and old bytes, oldest first (R42, R460) -/
  applyJournal : List (Nat × List Byte)
  musterJournal : List (Nat × List Byte)
  journalLost : Bool
  /-- accesses that met a parity error in the running step (R445, R446) -/
  parity : List Nat
  /-- the poisoned access the job is held for (R446, R598) -/
  spoiled : Option Nat
  /-- mustered step + 1, 0 for none (R458) -/
  mustered : Nat
  muster : Option Muster
  /-- digests received by a leader: rank, 64-byte state digest, 64-byte manifest digest -/
  digests : List (Nat × List Byte × List Byte)
  /-- outcomes of the comparisons of leaders held here (R458) -/
  verdicts : List Vote
  /-- a version or manifest switch has committed after the mustered step (R463) -/
  switched : Bool
  /-- report address and commit attempt of each step above the mustered step (R462) -/
  reports : Tab (Nat × Nat)
  tagRefused : Word
  staleAttempt : Word
  staleGen : Word
  replays : Word
  deriving DecidableEq, Repr

/-- The manifest store (R65) and the open jobs by slot (R37). -/
structure JobState where
  bases : Tab (List Byte)
  overlays : Tab (List Byte)
  jobs : Tab Job
  deriving DecidableEq, Repr

def JobState.atReset : JobState := ⟨[], [], []⟩

end Sys2Proof.Machine
end

