-- ==== Sys2Proof/Machine/Blocks/Graph.lean ====
section
/-! DEFINITION. State of graphs, matching stores, ready lists and arrays (R278 to R324). -/

namespace Sys2Proof.Machine

/-- A loaded graph (R318). -/
structure GraphSlot where
  addr : Nat
  image : List Byte
  digest : List Byte
  deriving DecidableEq, Repr

/-- Where an admitted task stands (R304 to R312). -/
inductive TaskPlace where
  | waiting | ready | granted (unit : Nat) | accepted
  deriving DecidableEq, Repr

/-- An admitted task: tokens per slot, placement and placement generation (R50); for a gather, the slices that have landed. -/
structure TaskState where
  fill : List Nat
  place : TaskPlace
  gen : Nat
  landed : List Nat
  deriving DecidableEq, Repr

/-- A token on its way to a matching store (R304), with the attempt it belongs to and the unit that produced it. -/
structure Token where
  run : Nat
  task : Nat
  slot : Nat
  attempt : Nat
  unit : Nat
  deriving DecidableEq, Repr

/-- A duplicate or referee run of a tile (R313, R449): queued, or granted to an array. -/
structure DupRun where
  task : Nat
  first : Nat
  referee : Bool
  on : Option Nat
  deriving DecidableEq, Repr

/-- One running graph: a step's graph of a job, or a GRAPH_RUN (R308, R321). -/
structure GraphRun where
  slot : Nat
  job : Option Nat
  /-- ring and sequence of the GRAPH_RUN, none for a step's graph -/
  cmd : Option (Nat × Word)
  step : Nat
  attempt : Nat
  commitOpen : Bool
  stopped : Bool
  tasks : Tab TaskState
  /-- tokens whose producers wait at their output stage for a task's admission (R308) -/
  heldTokens : List Token
  dups : List DupRun
  /-- digests of this step's runs of each selected or disputed tile: task, array, digest (R448, R450) -/
  runs : List (Nat × Nat × DWord)
  /-- tiles whose two runs of this attempt are to be compared, tiles in dispute, and tiles whose reference is known -/
  selected : List Nat
  disputed : List Nat
  /-- the version of each slice the batch is bound to, by slice key (R345) -/
  bound : List (Nat × Nat)
  /-- the gather's array held for its consumer: gather task, consumer, array (R340) -/
  direct : List (Nat × Nat × Nat)
  /-- accesses that have failed parity once outside a Run phase's replay (R445, R598), by module address -/
  failed : List Nat
  deriving DecidableEq, Repr

/-- The graph store, running graphs, ready lists and array state. -/
structure GraphState where
  graphs : Tab GraphSlot
  runs : Tab GraphRun
  nextRun : Nat
  /-- tokens on their way, oldest first -/
  tokens : List Token
  /-- ready lists: key die * 8 + priority, entries (run, task), oldest first (R309) -/
  ready : Tab (List (Nat × Nat))
  /-- ready tasks whose list is full, oldest first (R309) -/
  crowded : List (Nat × Nat)
  /-- what each unit runs, and for an array its staged entry: unit ID to (run, task, generation, attempt) in order -/
  units : Tab (List (Nat × Nat × Nat × Nat))
  /-- array clock divider in force where it is not 8, and a divider change that waits (R292) -/
  divider : Tab Nat
  dividerNext : Tab Nat
  /-- tiles completed by each array (R297) -/
  tiles : Tab Nat
  /-- what each operand buffer half holds: key array * 4 + buffer * 2 + half, identity of the chunk (R315) -/
  halves : Tab (List Nat)
  /-- prefetch copies outstanding: run, task, slot (R316) -/
  prefetch : List (Nat × Nat × Nat)
  /-- operand transfers of each unit: outstanding, and not yet issued (R27) -/
  transfers : Tab (Nat × Nat)
  /-- producers held by a full queue or by a task that is not admitted (R27, R308): units -/
  holds : List Nat
  deriving DecidableEq, Repr

def GraphState.atReset : GraphState where
  graphs := []
  runs := []
  nextRun := 0
  tokens := []
  ready := []
  crowded := []
  units := []
  divider := []
  dividerNext := []
  tiles := []
  halves := []
  prefetch := []
  transfers := []
  holds := []

end Sys2Proof.Machine
end

