-- ==== Sys2Proof/Machine/Blocks/Ingest.lean ====
section
/-! DEFINITION. State of tables and feature programs (R133 to R166, R195 to R216). -/

namespace Sys2Proof.Machine

/-- Where a table goes: its two allocations; the second has size 0 where there is none. -/
structure Allocs where
  base : Nat
  size : Nat
  base2 : Nat
  size2 : Nat
  deriving DecidableEq, Repr

/-- A value of a column or of a port: null, the bits of a fixed-width value, or a byte string. -/
inductive Scalar where
  | null
  | bits (n : Nat)
  | bytes (b : List Byte)
  deriving DecidableEq, Repr, Inhabited

/-- A value of a row: a scalar; a dictionary value with its index and whether the index wrapped (R139); a list; or a
packed row of PACK (R178). Null list elements are `none`. -/
inductive Val where
  | one (x : Scalar)
  | coded (idx : Nat) (wrapped : Bool) (x : Scalar)
  | many (l : List (Option Nat))
  | packed (l : List (Option Nat))
  deriving DecidableEq, Repr, Inhabited

/-- One aggregate of a group: the members it has taken in and its value's bits (R211, R212). -/
structure Acc where
  n : Nat
  bits : Nat
  deriving DecidableEq, Repr

/-- A group or partial group of a group-by (R212, R213): hash, validity mask, packed key, first row and aggregates. -/
structure Group where
  hash : DWord
  mask : Nat
  key : List Byte
  first : Nat
  accs : List Acc
  deriving DecidableEq, Repr

/-- A feature program that runs (R154 to R164). -/
structure ProgRun where
  /-- the parameter block of FPROG_START -/
  params : List Byte
  /-- job slot and step of the Prepare phase that started it (R164, R303) -/
  step : Option (Nat × Nat)
  /-- table_id and record of each input -/
  inputs : List (Nat × Nat)
  mask : Nat
  first : Nat
  count : Nat
  pass : Nat
  /-- stripes of this pass that are placed: build stripes first, then driving stripes -/
  placed : Nat
  /-- stripes of this pass that have started and are not placed, with the lane that runs each -/
  started : List (Nat × Nat)
  /-- driving stripes and rows placed, all passes -/
  stripes : Nat
  rows : Nat
  /-- rows appended to each output, and the rows of table outputs -/
  outs : List Nat
  tables : Tab (List Val)
  /-- groups by group-by node, and destination counts by partition node -/
  groups : Tab (List Group)
  parts : Tab (List Nat)
  deriving DecidableEq, Repr

/-- A program slot that holds a program (R161, R165). -/
structure ProgSlot where
  addr : Nat
  image : List Byte
  lastStatus : BitVec 16
  rowsIn : Nat
  rerun : Nat
  outputRows : List Nat
  wraps : Nat
  run : Option ProgRun
  deriving DecidableEq, Repr

/-- Tables by table_id and programs by slot; program runs of a Prepare phase that have ended and whose step has not been
told: job slot, step, status and detail. -/
structure IngestState where
  tables : Tab Allocs
  programs : Tab ProgSlot
  ended : List (Nat × Nat × BitVec 16 × Nat)
  /-- programs of Prepare phases that wait for their slot: job slot, step and parameter block -/
  waiting : List (Nat × Nat × List Byte)
  deriving DecidableEq, Repr

def IngestState.atReset : IngestState := ⟨[], [], [], []⟩

end Sys2Proof.Machine
end

