-- ==== Sys2Proof/Machine/Blocks/Integrity.lean ====
section
/-! DEFINITION. State of strikes, fences, structural tests and pattern sets (R23, R28 to R30, R442 to R472). -/

namespace Sys2Proof.Machine

/-- What a fault fence covers (R28). -/
inductive Fence where
  | unit (id : Nat) | cluster (n : Nat) | region (n : Nat) | die (n : Nat) | package
  deriving DecidableEq, Repr

/-- What a strike is charged to (R444, R451): a unit ID, a 4 KiB page or 64 KiB granule by module address, or the common
domain of a die. -/
inductive Charged where
  | unit (id : Nat) | page (addr : Nat) | granule (addr : Nat) | common (die : Nat)
  deriving DecidableEq, Repr

/-- A strike (R451): cause 1 DIGEST, 2 PARITY. -/
structure Strike where
  on : Charged
  cause : Nat
  clock : Nat
  deriving DecidableEq, Repr

/-- Why a structural test runs (R465 to R469). -/
inductive TestFor where
  /-- INT_TEST_UNIT, INT_TEST_ALL or INT_UNFENCE, by its ring, that ring's enable and its sequence -/
  | command (ring : Nat) (era : Nat) (seq : Word)
  | rotation
  deriving DecidableEq, Repr

/-- A test request waiting under R30, or running. -/
structure TestReq where
  unit : Nat
  why : TestFor
  /-- INT_UNFENCE: a pass clears strikes and the fault fence -/
  unfence : Bool
  /-- a strike arrived while the test runs (R469, R470) -/
  struck : Bool
  /-- banks whose index the test has moved to another bank (R466) -/
  moved : List Nat
  deriving DecidableEq, Repr

/-- The integrity block. -/
structure IntState where
  strikes : List Strike
  /-- the strike clock (R451) -/
  clock : Nat
  fences : List Fence
  /-- tests in progress, oldest first -/
  testing : List TestReq
  waiting : List TestReq
  /-- clusters eligible for a cluster test by rotation (R467) -/
  eligible : List Nat
  periodHours : Nat
  /-- the unit whose rotation test comes next (R467) -/
  rotationNext : Nat
  patternVersion : Word
  /-- the active half of the test store: 0 or 1 (R465, R468) -/
  patternHalf : Nat
  patterns0 : List Byte
  patterns1 : List Byte
  deriving DecidableEq, Repr

def IntState.atReset : IntState := ⟨[], 0, [], [], [], [], 24, 0x1000, 0, 0, [], []⟩

end Sys2Proof.Machine
end

