-- ==== Sys2Proof/Machine/Blocks/Manage.lean ====
section
/-! DEFINITION. State of management: flash banks, sensors, module time, MCTP and PLDM, the ledger and live activation
(R508 to R534), and the fused identity (R1, R3, R572). -/

namespace Sys2Proof.Machine

/-- What is fused at manufacture or strapped: build code, serial number, and bytes 0 to 31 of the SHA3-512 of the IDK
public key (R507, R572). -/
structure Fused where
  build : Nat
  serial : Nat
  idkId : List Byte
  slotStraps : Nat
  deriving DecidableEq, Repr

/-- A management flash bank (R510): bank record and firmware image. -/
structure Bank where
  count : Nat
  bootable : Bool
  image : List Byte
  deriving DecidableEq, Repr

/-- A ledger entry (R518) but for its sequence number, which is its key, and its chain value, which follows from it. -/
structure LedgerEntry where
  time : Nat
  cls : Nat
  severity : Nat
  code : Nat
  unit : Nat
  confidential : Bool
  job : Word
  step : Word
  data : List Byte
  deriving DecidableEq, Repr

/-- The ledger (R518 to R520). -/
structure Ledger where
  /-- entries in flash, by sequence number -/
  flash : Tab LedgerEntry
  /-- the chain value before the oldest entry in flash -/
  base : List Byte
  oldest : Nat
  /-- next sequence number of flash -/
  next : Nat
  /-- entries buffered, oldest first -/
  buffer : List LedgerEntry
  /-- INFO entries folded into the SUPPRESSED entry to come -/
  suppressed : Nat
  deriving DecidableEq, Repr

/-- PLDM type 5 update state (R517, DSP0267). -/
inductive PldmMode where
  | idle | learn | readyXfer | download | verify | apply | activate
  deriving DecidableEq, Repr

/-- A live activation in progress (R527). -/
structure Activation where
  stage : Nat
  /-- timer clock when wait_ms passes, if it does -/
  deadline : Option Nat
  /-- a processor of this stage has switched and has not reported ready, since this timer clock -/
  startedAt : Nat
  /-- started by PLDM ActivateFirmware and not by a packet -/
  pldm : Bool
  deriving DecidableEq, Repr

/-- The management block. -/
structure MgtState where
  fused : Fused
  bankA : Bank
  bankB : Bank
  /-- active bank: 0 FLASH_A, 1 FLASH_B -/
  active : Nat
  floor : Nat
  /-- latest samples by sensor ID, signed (R513) -/
  sensors : Tab Int
  /-- sums and counts of samples in the running second, and the published means (R499) -/
  sums : Tab Int
  samples : Nat
  means : Tab Int
  /-- module time in ns, and its fraction in 2^-32 ns (R515) -/
  time : Nat
  frac : Nat
  /-- rate offset in 2^-32 ns per timer clock cycle -/
  rate : Int
  timeCtrl : Word
  /-- mode, port and domain in force -/
  timeMode : Word
  locked : Bool
  holdover : Bool
  /-- an edge of PPS_IN was accepted in the running second, and seconds in a row without one (R583) -/
  ppsSeen : Bool
  ppsMissed : Nat
  timeHi : Word
  newestHi : Word
  oldestHi : Word
  filling : Bool
  /-- first sequence the window shows -/
  window : Nat
  eidVdm : Nat
  eidSmbus : Nat
  pldm : PldmMode
  component : Nat
  componentSize : Nat
  received : List Byte
  activation : Option Activation
  activations : Nat
  ledger : Ledger
  deriving DecidableEq, Repr

def MgtState.atReset : MgtState where
  fused := ⟨1, 0, List.replicate 32 0, 0⟩
  bankA := ⟨1, true, []⟩
  bankB := ⟨0, false, []⟩
  active := 0
  floor := 0
  sensors := []
  sums := []
  samples := 0
  means := []
  time := 0
  frac := 0
  rate := 0
  timeCtrl := 0
  timeMode := 0
  locked := false
  holdover := false
  ppsSeen := false
  ppsMissed := 0
  timeHi := 0
  newestHi := 0
  oldestHi := 0
  filling := false
  window := 0
  eidVdm := 0
  eidSmbus := 0
  pldm := .idle
  component := 0
  componentSize := 0
  received := []
  activation := none
  activations := 0
  ledger := ⟨[], List.replicate 32 0, 0, 0, [], 0⟩

end Sys2Proof.Machine
end

