-- ==== Sys2Proof/Machine/Blocks/Mem.lean ====
section
/-! DEFINITION. State of the memory system: memory regions, retirement pools and the remap table (R102 to R132). -/

namespace Sys2Proof.Machine

/-- A memory region (R111): its owner (0xFFFF_FFFF for none), its range and its protection (R504). -/
structure Region where
  owner : Word
  base : Nat
  size : Nat
  /-- the model key slot it is protected under, if it is protected -/
  key : Option Nat
  deriving DecidableEq, Repr

/-- A range the module keeps for a loaded object: tables, feature programs and graph images are immutable (R134, R161,
R318); correction sets and embedding versions likewise (R262, R327); hot replica ranges follow their slice (R486); the relay state area is closed
(R409). -/
inductive GuardKind where
  | table | program | graph | correction | replica | relayState | version
  deriving DecidableEq, Repr

/-- A guarded range and the number of the object it belongs to. `hidden`: reads are closed as well. -/
structure Guard where
  kind : GuardKind
  id : Nat
  lo : Nat
  len : Nat
  hidden : Bool
  deriving DecidableEq, Repr

/-- Retirement state of one die (R102, R130, R131): pool units used, and which module unit each replaces. -/
structure Pool where
  /-- retired 4 KiB pages, oldest first, by module address; the n-th uses pool page n -/
  pages : List Nat
  /-- retired 64 KiB granules, oldest first, by module address -/
  granules : List Nat
  deriving DecidableEq, Repr

/-- The memory system beside the memory itself. -/
structure MemState where
  /-- memory regions by identifier, 0 to 4,111 -/
  regions : Tab Region
  guards : List Guard
  pool0 : Pool
  pool1 : Pool
  /-- 64-byte accesses whose stored copy is marked poisoned (R130, R446), by module address -/
  poisoned : List Nat
  deriving DecidableEq, Repr

/-- No region and no retirement. -/
def MemState.atReset : MemState := ⟨[], [], ⟨[], []⟩, ⟨[], []⟩, []⟩

end Sys2Proof.Machine
end

