-- ==== Sys2Proof/Machine/Blocks/Meter.lean ====
section
/-! DEFINITION. State of the weigh-house energy meter and of its mirror on the port die (R535 to R551). -/

namespace Sys2Proof.Machine

/-- A counter record (R541). `valid` is whether its CRC-32 verifies. -/
structure CounterRecord where
  seq : Nat
  energy : Nat
  seconds : Nat
  powerUps : Nat
  clean : Bool
  valid : Bool
  deriving DecidableEq, Repr

/-- The weigh-house chip (R535 to R548). -/
structure MeterState where
  powered : Bool
  /-- internal energy in 0.1 Wh units -/
  energy : Nat
  seconds : Nat
  powerUps : Nat
  recordA : CounterRecord
  recordB : CounterRecord
  /-- metrological state: 0 SEALED, 1 UNSEALED, 2 FAULT -/
  state : Nat
  /-- the non-volatile state to return to when FAULT clears -/
  sealedNv : Nat
  sealOpen : Bool
  unsaved : Bool
  log : List MeterEvent
  logNext : Nat
  logFull : Bool
  ignored : Nat
  fwVersion : Nat
  checksum : Nat
  serial : Nat
  /-- pulses counted and held by the gate (R544) -/
  heldPulses : Nat
  /-- pulses emitted since start -/
  pulses : Nat
  /-- frames the weigh-house has sent, oldest first -/
  sent : List MeterFrame
  deriving DecidableEq, Repr

/-- The port die's side of the link (R543, R551). -/
structure MirrorState where
  reading : MeterReading
  /-- a valid frame has arrived; milliseconds since the last one -/
  seen : Bool
  age : Nat
  /-- the selected log entry -/
  entry : Option MeterEvent
  energyHi : Word
  /-- requests sent to the weigh-house, oldest first -/
  sent : List MeterFrame
  deriving DecidableEq, Repr

def MeterReading.zero : MeterReading := ⟨0, 0, 0, 0, false, false, false, false, 0, 0, 0, 0, 0, 0⟩

def MeterState.atReset : MeterState where
  powered := false
  energy := 0
  seconds := 0
  powerUps := 0
  recordA := ⟨0, 0, 0, 0, true, true⟩
  recordB := ⟨0, 0, 0, 0, true, false⟩
  state := 0
  sealedNv := 0
  sealOpen := false
  unsaved := false
  log := []
  logNext := 0
  logFull := false
  ignored := 0
  fwVersion := 0
  checksum := 0
  serial := 0
  heldPulses := 0
  pulses := 0
  sent := []

def MirrorState.atReset : MirrorState := ⟨.zero, false, 0, none, 0, []⟩

end Sys2Proof.Machine
end

