-- ==== Sys2Proof/Machine/Blocks/Out.lean ====
section
/-! DEFINITION. What the module sends to the outside: relay packets and frames, SPDM, MCTP and PLDM responses, PCIe
completions. The state keeps them in the order sent. -/

namespace Sys2Proof.Machine

/-- One thing sent. -/
inductive Sent where
  /-- a relay extension packet toward a module: class, sequence and its bytes after the UDP header -/
  | relay (dst : Nat) (cls : Nat) (seq : Nat) (bytes : List Byte)
  /-- a RoCEv2 packet of a queue pair -/
  | roce (qp : Nat) (bytes : List Byte)
  /-- a congestion notification toward a module -/
  | cnp (dst : Nat) (plane : Nat)
  /-- an ARP reply or neighbour advertisement on a port -/
  | arp (port : Nat) (bytes : List Byte)
  /-- an SPDM response over DOE: response code and body -/
  | spdm (code : Nat) (body : List Byte)
  /-- an MCTP control (type 0) or PLDM (type 256 + n) message on a binding (0 PCIe VDM, 1 SMBus): type, command, completion
  code and body -/
  | mctp (binding : Nat) (type : Nat) (command : Nat) (code : Nat) (body : List Byte)
  /-- a configuration completion: status (0 success, 2 retry) and data -/
  | config (status : Nat) (data : Nat)
  /-- a PTP message of the slave clock -/
  | ptp (type : Nat) (sequence : Nat)
  /-- data captured on the JTAG pins -/
  | jtag (data : List Byte)
  deriving DecidableEq, Repr

end Sys2Proof.Machine
end

