-- ==== Sys2Proof/Machine/Blocks/Power.lean ====
section
/-! DEFINITION. State of power, clocks, start-up and host resets (R552 to R573). -/

namespace Sys2Proof.Machine

/-- The PWR block. -/
structure PwrState where
  hostCap : Nat
  /-- the host cap kept with PERSIST, in flash (R557) -/
  keptCap : Option Nat
  brk : Bool
  capLevel : Nat
  capUnmet : Bool
  fastLimit : Bool
  thermalEngaged : Bool
  thermalLevel : Nat
  /-- thermal trip latched until input power is removed (R565) -/
  tripped : Bool
  /-- rail offsets in force in mV, rails 0 to 51, where not 0 (R560, R561) -/
  offsets : Tab Nat
  /-- state of AD_0 and AD_1: 0 ON, 1 FENCED, 2 TRIPPED, 3 OFF -/
  die0 : Nat
  die1 : Nat
  /-- THERM_TRIP# is asserted -/
  thermTrip : Bool
  deriving DecidableEq, Repr

def PwrState.atReset : PwrState := ⟨2000, none, false, 0, false, false, false, 0, false, [], 0, 0, false⟩

/-- The GLB block and the PCIe function. -/
structure GlbState where
  /-- the input is at 40 V or more, and start-up has begun -/
  started : Bool
  /-- last start-up stage completed (R566) -/
  stage : Nat
  /-- FAULT_CAUSE of GLB_STATUS -/
  cause : Nat
  startMs : Nat
  uptimeS : Nat
  /-- bits [6:4] of GLB_RESET_CAUSE: 4 POWER_ON, 5 POWER_FAIL, 6 OVERVOLTAGE, 0 before a start -/
  lastStart : Nat
  /-- why the module is off, for the next start: 4, 5 or 6 -/
  offFor : Nat
  perst : Bool
  linkUp : Bool
  d3hot : Bool
  /-- PCIe configuration space words software has written, by offset -/
  config : Tab Word
  slotId : Nat
  deriving DecidableEq, Repr

def GlbState.atReset : GlbState := ⟨false, 0, 0, 0, 0, 0, 4, false, false, false, [], 0⟩

end Sys2Proof.Machine
end

