-- ==== Sys2Proof/Machine/Blocks/Relay.lean ====
section
/-! DEFINITION. State of the relay (R405 to R441): the accepted LOCAL record, peer states, transport streams, operations
in progress, landings, the early store and queue pairs. -/

namespace Sys2Proof.Machine

/-- The accepted LOCAL record (R410). -/
structure LocalRecord where
  module : Nat
  mode : Nat
  ipv6 : Bool
  vlan : Option Nat
  stateBase : Nat
  dscp : List Byte
  pcp : List Byte
  address : List Byte
  gateway : List Byte
  deriving DecidableEq, Repr

/-- A VALID module entry (R410): its eight 16-byte plane addresses. -/
structure PeerEntry where
  ipv6 : Bool
  address : List Byte
  deriving DecidableEq, Repr

/-- Who waits for a relay operation. -/
inductive OpOwner where
  /-- RELAY_POST, by ring and sequence -/
  | post (ring : Nat) (seq : Word)
  /-- a RELAY task of a graph run -/
  | task (run : Nat) (task : Nat)
  /-- a PARTITION_EXCHANGE -/
  | exchange (key : Nat)
  /-- the requests of a gather -/
  | gather (key : Nat)
  /-- the copy of a poisoned page from a replica (R446): the job's slot and the page -/
  | repair (slot : Nat) (page : Nat)
  /-- a response, a signal, a digest or a gather's traffic: nothing waits for its acknowledgement -/
  | nobody
  deriving DecidableEq, Repr

/-- A relay operation in progress: packets not yet acknowledged, bytes of read data still to land, and where they land as
ranges in order. -/
structure RelayOp where
  owner : OpOwner
  peer : Nat
  job : Word
  left : Nat
  toLand : Nat
  deriving DecidableEq, Repr

/-- The plaintext of an extension packet but for its sequence (R415 to R418): class, BTH opcode, header fields, the 16-byte
operation block and the payload. -/
structure Body where
  op : Nat
  cls : Nat
  opcode : Nat
  tag : List Byte
  job : Word
  step : Nat
  attempt : Nat
  rank : Nat
  slot : Nat
  block : List Byte
  payload : List Byte
  deriving DecidableEq, Repr

/-- A sent packet that is not acknowledged: the frame that a retransmission repeats, and the plane it last used (R429). -/
structure Flight where
  peer : Nat
  serial : Nat
  seq : Nat
  body : Body
  frame : List Byte
  plane : Nat
  /-- consecutive expiries of its timeout -/
  expiries : Nat
  /-- it has been resent at once because later packets arrived before it -/
  hurried : Bool
  deriving DecidableEq, Repr

/-- The sending side of a stream (R427, R431): next packet number, credit limit and the demand last sent. -/
structure SendStream where
  next : Nat
  limit : Nat
  demand : Nat
  deriving DecidableEq, Repr

/-- The receiving side of a stream: the lowest number not received, those received above it, the limit granted, packets not
yet acknowledged, and the demand last reported. -/
structure RecvStream where
  cum : Nat
  above : List Nat
  limit : Nat
  unacked : Nat
  demand : Nat
  deriving DecidableEq, Repr

/-- A SEALED_GET request outstanding: the request's packet number, its operation, and the ranges its bytes land in. -/
structure GetReq where
  peer : Nat
  cls : Nat
  seq : Nat
  op : Nat
  target : List (Nat × Nat)
  deriving DecidableEq, Repr

/-- An open plane (R420): its key, total, watermark and the payloads landed beyond it as (offset, bytes). A plane of a landing
that has no memory of its own collects its bytes in `image`. -/
structure OpenPlane where
  job : Word
  step : Nat
  attempt : Nat
  slot : Nat
  position : Nat
  rank : Nat
  total : Nat
  watermark : Nat
  marks : List (Nat × Nat)
  image : List Byte
  deriving DecidableEq, Repr

/-- A packet in the early store (R426). `trusted`: it travelled under a key that may reach protected regions (R489). -/
structure Early where
  peer : Nat
  serial : Nat
  seq : Nat
  body : Body
  trusted : Bool
  deriving DecidableEq, Repr

/-- A FENCE received and not acknowledged yet (R425): its highest LOOKUP and BULK packet numbers, plus one. -/
structure HeldFence where
  peer : Nat
  serial : Nat
  seq : Nat
  lookup : Nat
  bulk : Nat
  deriving DecidableEq, Repr

/-- A request of a queue pair that is not complete (R413): its operation, its place among packet numbers once it is sent, and what
it reads or lands. -/
structure QpWork where
  ring : Nat
  seq : Word
  op : Nat
  /-- packet number of its first packet, none while it waits to be sent -/
  first : Option Nat
  /-- packet numbers it takes -/
  count : Nat
  local_ : Nat
  remote : Nat
  length : Nat
  key : Nat
  immediate : Nat
  compare : Nat
  swap : Nat
  /-- bytes of a read that have landed -/
  landed : Nat
  retries : Nat
  rnr : Nat
  deriving DecidableEq, Repr

/-- A response the queue pair keeps for a repeated atomic: packet number and packet. -/
structure QpAnswer where
  psn : Nat
  packet : List Byte
  deriving DecidableEq, Repr

/-- A queue pair (R414): its 128-byte parameter block, and its state as requester and as responder. -/
structure QueuePair where
  params : List Byte
  sendPsn : Nat
  expectPsn : Nat
  /-- message sequence number -/
  msn : Nat
  /-- a multi-packet WRITE in progress: next address, bytes left, all its bytes -/
  writing : Bool
  writeAddr : Nat
  writeLeft : Nat
  writeLen : Nat
  nakSent : Bool
  /-- it is in the error state, with the syndrome that led there -/
  failed : Bool
  syndrome : Nat
  /-- it waits for the delay of an RNR NAK -/
  rnrWait : Bool
  recvIndex : Nat
  answers : List QpAnswer
  work : List QpWork
  deriving DecidableEq, Repr

/-- The relay. Tables by peer: entries. Streams by stream key. Rate levels and unusable planes by 8 * peer + plane. -/
structure RelayState where
  local_ : Option LocalRecord
  peers : Tab PeerEntry
  /-- ports whose link is up, ascending -/
  links : List Nat
  sends : Tab SendStream
  recvs : Tab RecvStream
  flights : List Flight
  /-- packets formed and not sent: the peer and the body, oldest first -/
  waiting : List (Nat × Body)
  ops : Tab RelayOp
  nextOp : Nat
  gets : List GetReq
  planes : List OpenPlane
  early : List Early
  fences : List HeldFence
  /-- the pair key serial each peer last used toward this module -/
  serials : Tab Nat
  /-- the sender last granted LOOKUP and BULK credit -/
  servedLookup : Nat
  servedBulk : Nat
  rates : Tab Nat
  unusable : List Nat
  /-- consecutive timeouts of each plane toward a peer, by 8 * peer + plane (R430) -/
  planeExpiries : Tab Nat
  qps : Tab QueuePair
  /-- ledger record of MANIFEST_MISMATCH: peer and step already recorded (R69) -/
  mismatched : List (Nat × Word × Nat)
  /-- packets that a NOT_READY or a NO_JOB has answered and that are to be sent again: peer, serial, class, sequence (R428) -/
  notReady : List (Nat × Nat × Nat × Nat)
  /-- timer clock of the last CNP sent, of the last rise of the rate level and of the last CNP received, by 8 * peer + plane
  (R433) -/
  cnpSent : Tab Nat
  raised : Tab Nat
  cnpSeen : Tab Nat
  deriving DecidableEq, Repr

def RelayState.atReset : RelayState where
  local_ := none
  peers := []
  links := []
  sends := []
  recvs := []
  flights := []
  waiting := []
  ops := []
  nextOp := 0
  gets := []
  planes := []
  early := []
  fences := []
  serials := []
  servedLookup := 0
  servedBulk := 0
  rates := []
  unusable := []
  planeExpiries := []
  qps := []
  mismatched := []
  notReady := []
  cnpSent := []
  raised := []
  cnpSeen := []

end Sys2Proof.Machine
end

