-- ==== Sys2Proof/Machine/Blocks/Run.lean ====
section
/-! DEFINITION. Commands that have started and wait for something before they complete (R95, R113). -/

namespace Sys2Proof.Machine

/-- What a started command waits for. -/
inductive OpKind where
  /-- REGION_RELEASE: earlier packets whose checked ranges meet the region (R113); `wipe`: it was protected -/
  | regionRelease (lo len : Nat) (wipe : Bool)
  /-- JOB_CLOSE: the running step of the job in a slot (R54) -/
  | jobClose (slot : Nat)
  /-- STEP_RUN of the job in a slot (R57) -/
  | stepRun (slot : Nat)
  /-- TABLE_RELEASE: earlier readers of a table (R148) -/
  | tableRelease (table : Nat)
  /-- FPROG_START of a program slot (R162), FPROG_UNLOAD waiting for it (R164) -/
  | fprogStart (slot : Nat)
  | fprogUnload (slot : Nat)
  /-- PARTITION_EXCHANGE (R218 to R221) -/
  | exchange (key : Nat)
  /-- BATCH_PREPARE (R241) -/
  | batchPrepare (key : Nat)
  /-- GRAPH_RUN by run key, GRAPH_UNLOAD waiting for a slot's runs (R319, R321) -/
  | graphRun (run : Nat)
  | graphUnload (slot : Nat)
  /-- EMB_GATHER waiting for remote slices (R350), EMB_TABLE_DESTROY waiting for bound batches (R351) -/
  | embGather (key : Nat)
  | embDestroy (table : Nat)
  /-- RELAY_POST (R438) -/
  | relayPost (key : Nat)
  /-- INT_TEST_UNIT and INT_UNFENCE of a unit; INT_TEST_ALL with the units still to test and the failures so far -/
  | test (unit : Nat)
  | testAll (left : List Nat) (failed : Nat)
  /-- FW_ACTIVATE (R527) -/
  | activate
  /-- POWER_CAP_SET until the cap loop has used the new cap (R557), with the previous cap -/
  | capSet (previous : Nat)
  deriving DecidableEq, Repr

/-- A command that has started and not completed. `started` counts starts, so earlier starts have lower values; `ranges`
are its checked ranges (R600) as base and length. -/
structure RunOp where
  pkt : Packet
  kind : OpKind
  started : Nat
  ranges : List (Nat × Nat)
  position : Nat
  total : Nat
  /-- ABORT has named it (R95) -/
  aborted : Bool
  deriving DecidableEq, Repr

end Sys2Proof.Machine
end

