-- ==== Sys2Proof/Machine/Blocks/Sample.lean ====
section
/-! DEFINITION. State of datasets, sample pipelines, reorder windows and correction sets (R225 to R277). -/

namespace Sys2Proof.Machine

/-- A source entry of a dataset (R227). -/
structure Source where
  kind : Nat
  peer : Nat
  key : Nat
  base : Nat
  length : Nat
  deriving DecidableEq, Repr, Inhabited

/-- An open dataset (R225, R227). -/
structure Dataset where
  count : Nat
  indexSource : Nat
  indexOffset : Nat
  sources : List Source
  deriving DecidableEq, Repr

/-- A job's pipeline (R237): its dataset, its buffers, its anchors as (epoch, start step) in ascending start step, and the
rank that each rank set serves. -/
structure Pipeline where
  dataset : Nat
  holdOffset : Nat
  stride : Nat
  capacity : Nat
  anchors : List (Nat × Nat)
  sets : Tab Nat
  deriving DecidableEq, Repr

/-- Whose batch a slot belongs to: a job's step, or a BATCH_PREPARE by the key of its running command, with its destination. -/
inductive SampleOwner where
  | job (slot : Nat)
  | batch (key : Nat)
  deriving DecidableEq, Repr

/-- Up to 64 consecutive slots of a rank's batch, dealt to a die and not issued (R247). -/
structure SampleBlock where
  owner : SampleOwner
  rank : Nat
  step : Nat
  first : Nat
  count : Nat
  deriving DecidableEq, Repr

/-- What a lane makes of a sample (R242 to R246): its waybill fields and its element's bytes. -/
structure SampleResult where
  reason : Nat
  symbols : Nat
  fault : Nat
  element : List Byte
  deriving DecidableEq, Repr

/-- An entry of a reorder window (R248): a slot that has been issued, its sample and index entry, the lane that decodes it,
and its result. -/
structure WindowEntry where
  owner : SampleOwner
  rank : Nat
  step : Nat
  slot : Nat
  sample : Nat
  entry : List Byte
  lane : Option Nat
  result : Option SampleResult
  deriving DecidableEq, Repr

/-- A loaded correction set (R261, R262): its image, the digest of it, and its vertex map area. -/
structure CorrectionSet where
  image : List Byte
  digest : List Byte
  mapBase : Nat
  deriving DecidableEq, Repr

/-- The sample pipeline. -/
structure SampleState where
  datasets : Tab Dataset
  /-- pipelines by job slot, and the anchors a restored job waits to hand to its pipeline (R55, R237) -/
  pipes : Tab Pipeline
  restored : Tab (List (Nat × Nat))
  sets : Tab CorrectionSet
  /-- blocks dealt to each die and not yet issued, oldest first -/
  queue0 : List SampleBlock
  queue1 : List SampleBlock
  window0 : List WindowEntry
  window1 : List WindowEntry
  /-- slots of a batch that are not yet handed on: owner, rank, step, count -/
  left : List (SampleOwner × Nat × Nat × Nat)
  /-- batches that are complete: job slot, rank, step -/
  ready : List (Nat × Nat × Nat)
  deriving DecidableEq, Repr

def SampleState.atReset : SampleState := ⟨[], [], [], [], [], [], [], [], [], []⟩

end Sys2Proof.Machine
end

