-- ==== Sys2Proof/Machine/Blocks/Secure.lean ====
section
/-! DEFINITION. State of the security block (R473 to R507). -/

namespace Sys2Proof.Machine

/-- The security state (R479). -/
inductive SecMode where
  | opened | locked | attested
  deriving DecidableEq, Repr

/-- The TDI state (R507). -/
inductive TdiState where
  | unlocked | locked | run | error
  deriving DecidableEq, Repr

/-- A model key slot in use (R491). -/
structure ModelKey where
  keyId : List Byte
  policy : Nat
  baseRef : List Byte
  key : List Byte
  deriving DecidableEq, Repr

/-- A pairwise key (R495). -/
structure PairKey where
  peer : Nat
  key : List Byte
  ownSession : Nat
  peerSession : Nat
  /-- pairwise keys installed with the peer before this one -/
  serial : Nat
  /-- the peer's session certificate showed LOCKED or ATTESTED (R489) -/
  confidential : Bool
  deriving DecidableEq, Repr

/-- A job key generation (R496). -/
structure JobKey where
  slot : Nat
  generation : Nat
  key : List Byte
  deriving DecidableEq, Repr

/-- One selective IDE stream (R484). -/
structure IdeStream where
  keyed : Bool
  enabled : Bool
  deriving DecidableEq, Repr

/-- Where the SPDM responder stands in its connection (R482). -/
inductive SpdmStage where
  | fresh | version | capabilities | negotiated
  deriving DecidableEq, Repr

/-- The security block. -/
structure SecState where
  mode : SecMode
  tdi : TdiState
  entropyFault : Bool
  /-- session number, kept in flash (R477) -/
  session : Nat
  /-- counter of the session KEM key pair in force (R475) -/
  kem : Nat
  keys : Tab ModelKey
  pairs : List PairKey
  jobKeys : List JobKey
  /-- highest job key generation ever issued or installed, plus one, by job slot (R496) -/
  generations : Tab Nat
  stream0 : IdeStream
  stream1 : IdeStream
  spdm : SpdmStage
  /-- an SPDM secure session: 0 none, 1 handshake, 2 established -/
  secured : Nat
  /-- the measured firmware that AK was derived from at start-up (R475) -/
  measured : List Byte
  deriving DecidableEq, Repr

def SecState.atReset : SecState :=
  ⟨.opened, .unlocked, false, 0, 0, [], [], [], [], ⟨false, false⟩, ⟨false, false⟩, .fresh, 0, []⟩

end Sys2Proof.Machine
end

