-- ==== Sys2Proof/Machine/State.lean ====
section
/-! DEFINITION. The state of the module, its reset value, and the reasons a step can stop. -/

namespace Sys2Proof.Machine

/-- The state of the module: everything the spec gives it, and the queue of waiting commands. -/
structure State where
  /-- the timer clock count (R11, R87) -/
  clk : Nat
  /-- the model's own: the counter that fresh free values are drawn with -/
  free : Nat
  /-- module memory below the host window, by module address (R31): HBM, serai and local stores; unlisted bytes read 0 -/
  mem : Tab Byte
  /-- host memory by PCIe bus address (R107); unlisted bytes read 0 -/
  host : Tab Byte
  /-- command ring memory by BAR2 offset (R73) -/
  bar2 : Tab Byte
  /-- RW selector registers and RW1C counters by BAR0 offset; unlisted registers read 0, their reset value -/
  regs : Tab Word
  /-- 64-bit event counts by the BAR0 offset of their LO register -/
  wide : Tab Nat
  /-- published copies of the event counters in confidential mode (R499) -/
  published : Tab Nat
  rings : Tab Ring
  /-- the held store of R96, in the order records fell due -/
  held : List Record
  progress : Tab Progress
  /-- progress entries as published (R93, R499) -/
  shown : Tab Progress
  /-- MSI-X table words by byte offset, and the pending-bit array (R90) -/
  msix : Tab Word
  pba : Word
  /-- commands that have started and not completed, and the count of starts -/
  running : List RunOp
  starts : Nat
  job : JobState
  memory : MemState
  ingest : IngestState
  samples : SampleState
  emb : EmbState
  dir : DirState
  graph : GraphState
  relay : RelayState
  integrity : IntState
  sec : SecState
  mgt : MgtState
  meter : MeterState
  mirror : MirrorState
  pwr : PwrState
  glb : GlbState
  /-- MSI-X vectors raised, oldest first -/
  irqs : List Nat
  /-- what the module has sent, oldest first -/
  sent : List Sent
  /-- data returned by the latest host read -/
  hostRead : List Byte
  /-- commands waiting, first in first out -/
  pending : List Instr
  deriving DecidableEq, Repr

/-- Reasons a step stops. No command of this block stops: every row has an effect, so the type has no member. -/
inductive Fault where
  deriving DecidableEq, Repr

/-- Reasons a command is refused by the model. -/
inductive Refusal where
  /-- raised by exec alone, for a command whose meaning is not written yet; safe: nothing is claimed of it -/
  | notModelled (mnemonic : String)
  deriving DecidableEq, Repr

/-- The module before start-up: every register at its Reset column. -/
def State.reset : State where
  clk := 0
  free := 0
  mem := []
  host := []
  bar2 := []
  regs := []
  wide := []
  published := []
  rings := []
  held := []
  progress := []
  shown := []
  msix := []
  pba := 0
  running := []
  starts := 0
  job := .atReset
  memory := .atReset
  ingest := .atReset
  samples := .atReset
  emb := .atReset
  dir := .atReset
  graph := .atReset
  relay := .atReset
  integrity := .atReset
  sec := .atReset
  mgt := .atReset
  meter := .atReset
  mirror := .atReset
  pwr := .atReset
  glb := .atReset
  irqs := []
  sent := []
  hostRead := []
  pending := []

end Sys2Proof.Machine
end

