-- ==== Sys2Proof/Machine/Memory.lean ====
section
/-! DEFINITION. The named operations over memory: the address map (R31, R32, R102 to R107), reads and writes of bytes,
and the ranges a packet may name. -/

namespace Sys2Proof.Machine

/-- The byte an unlisted address reads as: HBM is written with zeros in stage 6 of start-up (R566); for the serai, the
local stores and host memory it is the model's choice. -/
def blankByte : Byte := 0

/-- A memory table is canonical: keys strictly rise and no entry equals the byte an unlisted address reads as. -/
def Memory.wf (m : Tab Byte) : Bool := Tab.wf m && m.all fun e => e.2 != blankByte

/-- Read one byte. -/
def Memory.read (m : Tab Byte) (a : Nat) : Byte := (Tab.look m a).getD blankByte

/-- Write one byte, keeping the canonical form. -/
def Memory.write (m : Tab Byte) (a : Nat) (b : Byte) : Tab Byte :=
  if b = blankByte then Tab.del m a else Tab.put m a b

/-- Read `n` bytes from `a` on. -/
def Memory.readN (m : Tab Byte) (a : Nat) : Nat → List Byte
  | 0 => []
  | n + 1 => Memory.read m a :: Memory.readN m (a + 1) n

/-- Write bytes from `a` on. -/
def Memory.writeN (m : Tab Byte) (a : Nat) : List Byte → Tab Byte
  | [] => m
  | b :: t => Memory.writeN (Memory.write m a b) (a + 1) t

/-- The start of the host window (R31). -/
def hostWindow : Nat := 0x800000000000

/-- Read bytes at a module address: below the host window from module memory, in it from host memory (R107). -/
def State.load (s : State) (a n : Nat) : List Byte :=
  if a < hostWindow then Memory.readN s.mem a n else Memory.readN s.host (a - hostWindow) n

/-- A write forms new parity, so a 64-byte access it covers wholly is poisoned no longer (R443). -/
def unpoison (l : List Nat) (a n : Nat) : List Nat := l.filter fun x => !(decide (a ≤ x) && decide (x + 64 ≤ a + n))

/-- Write bytes at a module address (R107). -/
def State.store (s : State) (a : Nat) (b : List Byte) : State :=
  if a < hostWindow then
    { s with
      mem := Memory.writeN s.mem a b
      memory := { s.memory with poisoned := unpoison s.memory.poisoned a b.length } }
  else { s with host := Memory.writeN s.host (a - hostWindow) b }

/-- A little-endian number of `n` bytes at a module address. -/
def State.loadNat (s : State) (a n : Nat) : Nat := leNat (s.load a n)

/-- Fill a range with bytes whose value the spec leaves undefined, and advance the free-value counter. -/
def State.scramble (s : State) (a n : Nat) : State :=
  let bytes := (List.range n).map fun i => Config.freeByte (s.free + i)
  { s.store a bytes with free := s.free + n }

/-- Write zeros over a range. A large range in module memory is cleared by dropping its entries. -/
def State.zero (s : State) (a n : Nat) : State :=
  if a < hostWindow then { s with mem := Tab.keep (fun k _ => decide (k < a ∨ a + n ≤ k)) s.mem }
  else { s with host := Tab.keep (fun k _ => decide (k < a - hostWindow ∨ a - hostWindow + n ≤ k)) s.host }

/-- A range of module addresses. -/
structure Range where
  lo : Nat
  len : Nat
  deriving DecidableEq, Repr

/-- Two ranges share a byte. -/
def Range.meets (x y : Range) : Bool :=
  decide (0 < x.len) && decide (0 < y.len) && decide (x.lo < y.lo + y.len) && decide (y.lo < x.lo + x.len)

/-- One range lies inside another. -/
def Range.inside (x y : Range) : Bool := decide (y.lo ≤ x.lo) && decide (x.lo + x.len ≤ y.lo + y.len)

/-- The parts of the address space software may name (R31, R102). -/
inductive Space where
  | hbm (die : Nat) | serai (die : Nat) | localStore (array : Nat) | hostSpace
  deriving DecidableEq, Repr

/-- HBM of each die below its retirement pool (R31, R102). -/
def hbmRange : Nat → Range
  | 0 => ⟨0x000000000000, 0x5FF8000000⟩
  | _ => ⟨0x006000000000, 0x5FF8000000⟩

/-- Serai of each die below its retirement pool (R31, R102). -/
def seraiRange : Nat → Range
  | 0 => ⟨0x010000000000, 0x7E00000⟩
  | _ => ⟨0x010008000000, 0x7E00000⟩

/-- The host window (R31). -/
def hostRange : Range := ⟨hostWindow, 0x800000000000⟩

/-- The backed part of the local-store slot of an array (R105). -/
def localRange (n : Nat) : Range := ⟨0x010100000000 + n * 0x200000, 0x180000⟩

/-- The space a range lies wholly in, if it lies in one (R31, R102, R105, R120). -/
def Range.space (r : Range) : Option Space :=
  if r.inside (hbmRange 0) then some (.hbm 0)
  else if r.inside (hbmRange 1) then some (.hbm 1)
  else if r.inside (seraiRange 0) then some (.serai 0)
  else if r.inside (seraiRange 1) then some (.serai 1)
  else if r.inside hostRange then some .hostSpace
  else
    let n := (r.lo - 0x010100000000) / 0x200000
    if 0x010100000000 ≤ r.lo ∧ n < 144 ∧ r.inside (localRange n) then some (.localStore n) else none

/-- The die of a space, for the array dies. -/
def Space.die : Space → Option Nat
  | .hbm d => some d
  | .serai d => some d
  | .localStore n => some (n / 72)
  | .hostSpace => none

/-- The stack and channel of an HBM address (R32, R103): stack 0 to 11, channel 0 to 31. -/
def hbmPlace (a : Nat) : Nat × Nat :=
  let die := a / 0x6000000000
  let p := a % 0x6000000000 / 4096
  let q := p / 6
  (6 * die + p % 6, (q % 32) ^^^ (q / 32 % 32))

/-- The bank and bank row of a byte offset in a die's serai (R104). -/
def seraiPlace (o : Nat) : Nat × Nat :=
  let g := o / 64
  ((g % 64) ^^^ (g / 64 % 64), g / 64)

/-- The region a memory region occupies. -/
def Region.range (r : Region) : Range := ⟨r.base, r.size⟩

/-- A job is open under an identifier. -/
def State.jobOpen (s : State) (id : Word) : Bool := s.job.jobs.any fun e => e.2.id == id

/-- The slot and job of an open job identifier. -/
def State.findJob (s : State) (id : Word) : Option (Nat × Job) := s.job.jobs.find? fun e => e.2.id == id

/-- The peer table of a job: rank entries and store entries. It is one of the job's regions (R411). -/
def Job.tableRange (j : Job) : Range := ⟨j.peerTable, j.tableSize⟩

/-- Regions of open jobs that a range meets, by owner (R43, R84 check 8). -/
def State.jobOwners (s : State) (r : Range) : List Word :=
  ((s.memory.regions.filter fun e => s.jobOpen e.2.owner && e.2.range.meets r).map fun e => e.2.owner) ++
    (s.job.jobs.filter fun e => e.2.tableRange.meets r).map fun e => e.2.id

/-- The range lies outside every open job's regions, but for those of the job the packet names (R84 check 8). -/
def State.jobAllows (s : State) (job : Word) (r : Range) : Bool := (s.jobOwners r).all fun o => o == job

/-- The range of a guard. -/
def Guard.range (g : Guard) : Range := ⟨g.lo, g.len⟩

/-- The range meets a guarded range (R134). -/
def State.guardHit (s : State) (r : Range) : Bool := s.memory.guards.any fun g => g.range.meets r

/-- The range meets a protected region or a hidden guarded range (R84 check 10, R110, R409). -/
def State.protectedHit (s : State) (r : Range) : Bool :=
  (s.memory.regions.any fun e => e.2.key.isSome && e.2.range.meets r) ||
    s.memory.guards.any fun g => g.hidden && g.range.meets r

/-- Guard a range for an object. -/
def State.guard (s : State) (k : GuardKind) (id : Nat) (r : Range) (hidden : Bool) : State :=
  { s with memory := { s.memory with guards := s.memory.guards ++ [⟨k, id, r.lo, r.len, hidden⟩] } }

/-- Drop the guards of an object. -/
def State.unguard (s : State) (k : GuardKind) (id : Nat) : State :=
  { s with memory := { s.memory with guards := s.memory.guards.filter fun g => !(g.kind == k && g.id == id) } }

/-- The model key slot of the protected region a range lies in, if any. -/
def State.protectedKey (s : State) (r : Range) : Option Nat :=
  (s.memory.regions.find? fun e => e.2.key.isSome && e.2.range.meets r).bind fun e => e.2.key

end Sys2Proof.Machine
end

