-- ==== Sys2Proof/Machine/Status.lean ====
section
/-! DEFINITION. The master lists of status codes (R98) and opcodes (R97). -/

namespace Sys2Proof.Machine

/-- A 16-bit status code (R10). -/
abbrev Status := BitVec 16

/-- OK (R98): Completed as requested. -/
def Status.ok : Status := 0x0000
/-- BAD_OPCODE (R98): Opcode not in the opcode table. -/
def Status.badOpcode : Status := 0x0101
/-- BAD_LENGTH (R98): LEN not accepted for the opcode. -/
def Status.badLength : Status := 0x0102
/-- BAD_PARAM (R98): A field is reserved and non-zero, out of range, or names an absent or unmapped object. -/
def Status.badParam : Status := 0x0103
/-- ABORTED (R98): Stopped by ABORT. -/
def Status.aborted : Status := 0x0104
/-- PROGRESS_BUSY (R98): The progress entry named is RUNNING. -/
def Status.progressBusy : Status := 0x0105
/-- ALIGN (R98): A base or stride is not a multiple of 64 bytes. -/
def Status.align : Status := 0x0201
/-- TYPE_MISMATCH (R98): Element types disagree. -/
def Status.typeMismatch : Status := 0x0202
/-- REGION_OVERLAP (R98): The range overlaps an existing memory region. -/
def Status.regionOverlap : Status := 0x0203
/-- REGION_ALIASED (R98): A destination descriptor would write one byte through two index vectors. -/
def Status.regionAliased : Status := 0x0204
/-- FORMAT_INVALID (R98): Source data breaks its format. -/
def Status.formatInvalid : Status := 0x0205
/-- FORMAT_UNSUPPORTED (R98): Source uses a feature the device does not accept. -/
def Status.formatUnsupported : Status := 0x0206
/-- PROGRAM_INVALID (R98): A feature program image fails validation. -/
def Status.programInvalid : Status := 0x0207
/-- GRAPH_INVALID (R98): A graph image fails validation. -/
def Status.graphInvalid : Status := 0x0208
/-- BUILD_FULL (R98): Join build exceeds its allocation. Detail is the position reached. -/
def Status.buildFull : Status := 0x0301
/-- TABLE_FULL (R98): A table allocation is exhausted. -/
def Status.tableFull : Status := 0x0302
/-- ROW_TOO_LONG (R98): Selection row longer than 2^24. -/
def Status.rowTooLong : Status := 0x0303
/-- DIRECTORY_FULL (R98): No hole within the bank's span. -/
def Status.directoryFull : Status := 0x0304
/-- EXCHANGE_INCOMPLETE (R98): A partition-exchange source slot did not arrive in time. -/
def Status.exchangeIncomplete : Status := 0x0305
/-- SLOT_BUDGET (R98): A band of graph levels needs more operand slots than the budget. -/
def Status.slotBudget : Status := 0x0306
/-- SCATTER_FULL (R98): A scatter contribution did not fit the hold area. -/
def Status.scatterFull : Status := 0x0307
/-- MANIFEST_MISMATCH (R98): Manifest tag or digest differs. -/
def Status.manifestMismatch : Status := 0x0401
/-- STEP_REPLAYED (R98): Step committed after replay. -/
def Status.stepReplayed : Status := 0x0402
/-- RANK_EXPELLED (R98): A rank was expelled or rehosted. -/
def Status.rankExpelled : Status := 0x0403
/-- VERSION_RETIRED (R98): Binding to a retired table version. -/
def Status.versionRetired : Status := 0x0404
/-- SEMANTICS_UNAVAILABLE (R98): Compute-semantics version not implemented. -/
def Status.semanticsUnavailable : Status := 0x0405
/-- STEP_ORDER (R98): first_step out of order. -/
def Status.stepOrder : Status := 0x0406
/-- MANIFEST_SLOT_BUSY (R98): Manifest slot in use or staged. -/
def Status.manifestSlotBusy : Status := 0x0407
/-- SAMPLE_SOURCE_FAILED (R98): A sample or index read could not complete. -/
def Status.sampleSourceFailed : Status := 0x0408
/-- PIPELINE_FULL (R98): No free buffer set for a rehosted rank. -/
def Status.pipelineFull : Status := 0x0409
/-- PIPELINE_SETTINGS (R98): A named correction set is not loaded, or the scratch area does not fit. -/
def Status.pipelineSettings : Status := 0x040A
/-- CORRECTION_INVALID (R98): A correction set image fails validation. -/
def Status.correctionInvalid : Status := 0x040B
/-- GRAPH_UNAVAILABLE (R98): The step graph is not loaded, or does not match. -/
def Status.graphUnavailable : Status := 0x040C
/-- VERSION_ABSENT (R98): A shard-group member does not hold the requested version. -/
def Status.versionAbsent : Status := 0x040D
/-- NOT_ATTESTED (R98): The operation requires a completed attestation. -/
def Status.notAttested : Status := 0x0501
/-- PROTECTED_REGION (R98): The operation would expose a protected region. -/
def Status.protectedRegion : Status := 0x0502
/-- KEY_REFUSED (R98): A wrapped key does not unwrap or is not permitted. -/
def Status.keyRefused : Status := 0x0503
/-- SESSION_BUSY (R98): A new security session is refused. -/
def Status.sessionBusy : Status := 0x0504
/-- ENTROPY_FAILED (R98): The entropy source failed its health test. -/
def Status.entropyFailed : Status := 0x0505
/-- PACKAGE_INVALID (R98): A weight package failed verification. -/
def Status.packageInvalid : Status := 0x0506
/-- TEST_FAIL (R98): A structural test failed, or a step spent its attempts. As a vote cause, which leads to a replay: a migration limit, an excess token, or a faulty relay plane (R51, R305, R420). -/
def Status.testFail : Status := 0x0601
/-- UNIT_FENCED (R98): The unit named is fenced. -/
def Status.unitFenced : Status := 0x0602
/-- DIRECTORY_LOST (R98): A general table lost entries on a fenced bank. -/
def Status.directoryLost : Status := 0x0603
/-- MERGE_CONFLICT (R98): Merge inputs disagree. -/
def Status.mergeConflict : Status := 0x0604
/-- DATA_POISONED (R98): A source access failed parity on repeated reads. -/
def Status.dataPoisoned : Status := 0x0605
/-- MUSTER_FAILED (R98): A muster could not be resolved by rollback. -/
def Status.musterFailed : Status := 0x0606
/-- JOURNAL_FULL (R98): The muster journal did not fit the hold area. -/
def Status.journalFull : Status := 0x0607
/-- DIGEST_MISMATCH (R98): Vote cause only: a duplicated tile's digests differed. -/
def Status.digestMismatch : Status := 0x0608
/-- PARITY_ERROR (R98): Vote cause only: a task met a parity error. -/
def Status.parityError : Status := 0x0609
/-- IMAGE_SIGNATURE (R98): Image or pattern-set signature invalid. -/
def Status.imageSignature : Status := 0x0701
/-- IMAGE_VERSION (R98): Image version not acceptable. -/
def Status.imageVersion : Status := 0x0702
/-- UPDATE_BUSY (R98): Another update or activation is in progress. -/
def Status.updateBusy : Status := 0x0703
/-- NOTHING_STAGED (R98): The inactive bank is EMPTY. -/
def Status.nothingStaged : Status := 0x0704
/-- FLASH_FAULT (R98): Flash read-back, or a digest at activation, failed. -/
def Status.flashFault : Status := 0x0705
/-- ACTIVATION_REVERTED (R98): A switch failed, and the old image runs. -/
def Status.activationReverted : Status := 0x0706
/-- RELAY_NOT_CONFIGURED (R98): No LOCAL relay record accepted. -/
def Status.relayNotConfigured : Status := 0x0901
/-- PEER_UNREACHABLE (R98): timeout_ms passed with the operation incomplete, or a rank could not be rehosted, or no decision could be reached for a step (R52, R599). -/
def Status.peerUnreachable : Status := 0x0902
/-- REMOTE_ACCESS (R98): The peer refused the range. -/
def Status.remoteAccess : Status := 0x0903
/-- QP_ERROR (R98): The queue pair is in error. -/
def Status.qpError : Status := 0x0904
/-- NO_TARGET (R98): ABORT found nothing to abort. -/
def Status.noTarget : Status := 0x0F01

/-- The opcode table (R97): opcode, and whether it reports progress. -/
def opcodeTable : List (Nat × Bool) :=
  [(0x0101, false),
   (0x0102, false),
   (0x0103, true),
   (0x0104, true),
   (0x0105, true),
   (0x0106, false),
   (0x0201, false),
   (0x0202, false),
   (0x0203, true),
   (0x0204, true),
   (0x0205, true),
   (0x0206, false),
   (0x0301, false),
   (0x0302, true),
   (0x0303, false),
   (0x0304, false),
   (0x0305, true),
   (0x0401, false),
   (0x0402, false),
   (0x0403, false),
   (0x0404, true),
   (0x0405, false),
   (0x0406, false),
   (0x0501, false),
   (0x0502, false),
   (0x0503, true),
   (0x0601, false),
   (0x0602, true),
   (0x0603, false),
   (0x0604, false),
   (0x0605, false),
   (0x0701, false),
   (0x0702, false),
   (0x0703, false),
   (0x0704, false),
   (0x0705, true),
   (0x0706, false),
   (0x0707, false),
   (0x0801, false),
   (0x0802, false),
   (0x0901, false),
   (0x0902, false),
   (0x0903, false),
   (0x0904, false),
   (0x0A01, true),
   (0x0A02, true),
   (0x0A03, false),
   (0x0A04, false),
   (0x0A05, true),
   (0x0A06, true),
   (0x0B01, false),
   (0x0B02, false),
   (0x0B03, true),
   (0x0B04, true),
   (0x0B05, false),
   (0x0C00, false),
   (0x0C01, false),
   (0x0C02, true),
   (0x0C03, true),
   (0x0C04, false),
   (0x0C05, false),
   (0x0D01, false),
   (0x0D02, false),
   (0x0D03, false)]

/-- The opcode is in the opcode table (R84, check 2). -/
def knownOpcode (o : Nat) : Bool := opcodeTable.any fun e => e.1 == o

end Sys2Proof.Machine
end

