-- ==== Sys2Proof/Machine/Units.lean ====
section
/-! DEFINITION. Units, unit IDs and what fences cover (R12, R19, R28 to R30, R469, R472). -/

namespace Sys2Proof.Machine

/-- Unit types of a unit ID (R469): 1 array, 2 feature lane, 3 decode lane, 4 gather unit, 5 selection unit, 6 directory
bank, 7 relay queue, 8 cluster. The count of instances of a type (R12, R441). -/
def unitCount : Nat → Nat
  | 1 => 144
  | 2 => 64
  | 3 => 32
  | 4 => 32
  | 5 => 8
  | 6 => 64
  | 7 => 32
  | 8 => 36
  | _ => 0

/-- A unit ID: type in bits [15:12], instance in bits [11:0]. -/
def unitId (t n : Nat) : Nat := t * 4096 + n
def unitType (id : Nat) : Nat := id / 4096
def unitIndex (id : Nat) : Nat := id % 4096

/-- The instance is within R12. -/
def unitValid (id : Nat) : Bool := decide (unitIndex id < unitCount (unitType id))

/-- The die of a unit; relay queues are on the port die and have none (R12). -/
def unitDie (id : Nat) : Option Nat :=
  let t := unitType id
  if t = 7 ∨ unitCount t = 0 then none else some (unitIndex id / (unitCount t / 2))

/-- The clock-and-reset region of a unit (R19); directory banks lie in the common domain. -/
def unitRegion (id : Nat) : Option Nat :=
  let t := unitType id
  if t = 6 ∨ t = 7 ∨ unitCount t = 0 then none else some (unitIndex id / (unitCount t / 4))

/-- The cluster of an array, and the rail of a unit: 0 to 35 cluster rails, 36 to 51 lane-group rails (R19, R560). -/
def unitRail (id : Nat) : Option Nat :=
  match unitType id with
  | 1 => some (unitIndex id / 4)
  | 2 => some (36 + unitIndex id / 8)
  | 3 => some (44 + unitIndex id / 8)
  | 4 => some (48 + unitIndex id / 8)
  | 8 => some (unitIndex id)
  | _ => none

/-- A fence covers every instance below it at its place (R28). -/
def Fence.covers (f : Fence) (id : Nat) : Bool :=
  match f with
  | .unit u => u == id
  | .cluster n => (unitType id == 1 && unitIndex id / 4 == n) || id == unitId 8 n
  | .region n => unitRegion id == some n
  | .die n => unitDie id == some n
  | .package => true

/-- The unit is under a fault fence. -/
def State.faultFenced (s : State) (id : Nat) : Bool := s.integrity.fences.any fun f => f.covers id

/-- Arrays a test of a unit covers: the unit, or the four arrays of a cluster (R30). -/
def testCovers (tested id : Nat) : Bool :=
  tested == id || (unitType tested == 8 && unitType id == 1 && unitIndex id / 4 == unitIndex tested)

/-- The unit is under a test-fence. -/
def State.testFenced (s : State) (id : Nat) : Bool := s.integrity.testing.any fun t => testCovers t.unit id

/-- The unit is fenced for any reason (R472). -/
def State.fenced (s : State) (id : Nat) : Bool := s.faultFenced id || s.testFenced id

/-- Unit IDs of a type in ascending order. -/
def unitsOf (t : Nat) : List Nat := (List.range (unitCount t)).map (unitId t)

/-- Unfenced units of a type, ascending. -/
def State.unfenced (s : State) (t : Nat) : List Nat := (unitsOf t).filter fun u => !s.fenced u

/-- Units of a type under no fault fence, ascending. -/
def State.inService (s : State) (t : Nat) : List Nat := (unitsOf t).filter fun u => !s.faultFenced u

/-- The module is fenced at package level (R28, level 5). -/
def State.packageFenced (s : State) : Bool := s.integrity.fences.any fun f => f == .package

/-- An array die is fenced (R28, level 4). -/
def State.dieFenced (s : State) (d : Nat) : Bool := s.integrity.fences.any fun f => f == .die d || f == .package

/-- A range is mapped for a packet (R31, R84 check 8): in one space, outside the pools, on a die in service, and a local
store only while its array is under a fault fence (R106). -/
def State.mapped (s : State) (r : Range) : Bool :=
  match r.space with
  | none => false
  | some .hostSpace => true
  | some (.localStore n) => s.faultFenced (unitId 1 n)
  | some (.hbm d) => !s.integrity.fences.any fun f => f == .die d
  | some (.serai d) => !s.integrity.fences.any fun f => f == .die d

end Sys2Proof.Machine
end

