-- ==== Sys2Proof/Machine/Ops.lean ====
section
/-! DEFINITION. The shared operations of the command processor: packet fields (R76), counters (R8), interrupts (R90),
progress entries (R91 to R93), status records (R87 to R89), the checks of a packet at its start (R84) and the start
itself (R80). -/

namespace Sys2Proof.Machine

/-! ## Packet fields (R76) -/

/-- An unsigned field of `n` bytes at packet offset `off`. -/
def Packet.nat (p : Packet) (off n : Nat) : Nat := leField p.bytes off n
def Packet.opcode (p : Packet) : Nat := p.nat 0 2
def Packet.fence (p : Packet) : Bool := bitOf (p.nat 2 2) 1
def Packet.noIrq (p : Packet) : Bool := bitOf (p.nat 2 2) 2
def Packet.irqNow (p : Packet) : Bool := bitOf (p.nat 2 2) 3
def Packet.len (p : Packet) : Nat := p.nat 4 1 % 64
def Packet.progress (p : Packet) : Nat := p.nat 6 2
def Packet.handle (p : Packet) : DWord := BitVec.ofNat 64 (p.nat 8 8)
def Packet.job (p : Packet) : Word := BitVec.ofNat 32 (p.nat 16 4)
def Packet.waitValid (p : Packet) : Bool := bitOf (p.nat 20 1) 7
def Packet.waitRing (p : Packet) : Nat := p.nat 20 1 % 16
def Packet.waitSeq (p : Packet) : Word := BitVec.ofNat 32 (p.nat 24 4)
/-- A parameter field: byte p of the parameter block is packet byte 64 + p (R84). -/
def Packet.param (p : Packet) (off n : Nat) : Nat := p.nat (64 + off) n
/-- Bytes of the parameter block. -/
def Packet.paramBytes (p : Packet) (off n : Nat) : List Byte := slice p.bytes (64 + off) n

/-- No job (R76). -/
def noJob : Word := 0xFFFFFFFF

/-! ## Counters and registers (R8) -/

def State.reg (s : State) (off : Nat) : Word := Tab.get 0 s.regs off
def State.setReg (s : State) (off : Nat) (v : Word) : State :=
  { s with regs := if v = 0 then Tab.del s.regs off else Tab.put s.regs off v }
/-- Add to an event counter that saturates. -/
def State.bump (s : State) (off n : Nat) : State := if n = 0 then s else s.setReg off (satAdd (s.reg off) n)
/-- Add to a 64-bit event count. -/
def State.bumpWide (s : State) (off n : Nat) : State :=
  if n = 0 then s else { s with wide := Tab.put s.wide off ((Tab.get 0 s.wide off + n) % 2 ^ 64) }

/-! ## Interrupts (R90) -/

/-- Raise an MSI-X vector; a masked vector is remembered in the pending-bit array. -/
def State.raise (s : State) (v : Nat) : State :=
  if (Tab.get 1 s.msix (16 * v + 12)).toNat % 2 = 1 then { s with pba := s.pba ||| BitVec.ofNat 32 (2 ^ v) }
  else { s with irqs := s.irqs ++ [v] }

/-! ## Rings -/

def State.ring (s : State) (n : Nat) : Ring := (Tab.look s.rings n).getD (Ring.atReset n)
def State.setRing (s : State) (n : Nat) (r : Ring) : State := { s with rings := Tab.put s.rings n r }

def Ring.enabled (r : Ring) : Bool := r.ctrl.toNat % 2 == 1
def Ring.intEnable (r : Ring) : Bool := bitOf r.ctrl.toNat 13
def Ring.vector (r : Ring) : Nat := bitsOf r.ctrl.toNat 12 8
/-- Records per interrupt; a value of 0 or above 256 acts as 1 (R100). -/
def Ring.count (r : Ring) : Nat :=
  let c := bitsOf r.cqMod.toNat 8 0
  if c = 0 ∨ 256 < c then 1 else c
def Ring.time (r : Ring) : Nat := bitsOf r.cqMod.toNat 31 16
/-- Entries of the completion ring in force. -/
def Ring.entries (r : Ring) : Nat := 2 ^ r.log2InForce
/-- The completion ring has room: one entry always stays free (R88). -/
def Ring.room (r : Ring) : Bool := (r.cqTail + 1) % r.entries != r.cqHead.toNat % r.entries
/-- STATE of CMD_RING_STATUS (R88, R100). -/
def Ring.stateCode (r : Ring) : Nat :=
  match r.state with
  | .disabled => 0
  | .clearing => 1
  | .active => if r.room then 2 else 3
  | .closed => 4

/-- Timer clock counts in a number of microseconds, rounded up (106.25 MHz, R11). -/
def microseconds (n : Nat) : Nat := ceilDiv (n * 10625) 100
/-- Timer clock counts in a number of milliseconds. -/
def milliseconds (n : Nat) : Nat := n * 106250

/-- Raise the ring's vector if a condition of R90 holds, and restart its count and timer. -/
def State.moderate (s : State) (n : Nat) (now : Bool) : State :=
  let r := s.ring n
  let due := decide (r.count ≤ r.irqCount) && decide (0 < r.irqCount)
  let old := match r.irqSince with
    | some t => decide (0 < r.time) && decide (t + microseconds r.time ≤ s.clk)
    | none => false
  if r.intEnable && (now || due || old) then
    (s.setRing n { r with irqCount := 0, irqSince := none }).raise r.vector
  else s

/-! ## Confidential mode -/

/-- Confidential mode: the security state is LOCKED or ATTESTED (R479). -/
def State.confidential (s : State) : Bool := s.sec.mode != .opened

/-- The tollgate applies (R499, R507). -/
def State.tollgate (s : State) : Bool := s.confidential

/-! ## Progress entries (R91 to R93) -/

def State.entry (s : State) (n : Nat) : Progress := Tab.get Progress.idle s.progress n
/-- Update a progress entry: SEQ rises by two, and outside confidential mode the update is shown at once (R93). -/
def State.setEntry (s : State) (n : Nat) (e : Progress) : State :=
  let e' := { e with seq := (s.entry n).seq + 2 }
  { s with
    progress := Tab.put s.progress n e'
    shown := if s.tollgate then s.shown else Tab.put s.shown n e' }

/-- PERMILLE (R92). -/
def permille (position total : Nat) : Nat := if total = 0 then 0 else 1000 * position / total

/-- Whether the opcode of a packet is marked Yes under Progress (R97). -/
def Packet.reports (p : Packet) : Bool := opcodeTable.any fun e => e.1 == p.opcode && e.2

/-- The claim of the entry a packet names (R91): handle, opcode, state RUNNING, position 0. -/
def State.claim (s : State) (p : Packet) (unit total : Nat) : State :=
  if p.progress = 0 then s
  else
    s.setEntry p.progress
      { seq := 0, state := 1, unit := if p.reports then unit else 0, status := 0, opcode := BitVec.ofNat 16 p.opcode,
        ring := p.ring, sequence := p.seq.toNat % 2 ^ 28, handle := p.handle, position := 0,
        total := if p.reports then total else 0, permille := 0 }

/-- An update between claim and DONE: position never decreases, a total once set never changes (R92). -/
def State.advance (s : State) (p : Packet) (position total : Nat) : State :=
  if p.progress = 0 ∨ !p.reports then s
  else
    let e := s.entry p.progress
    let t := if e.total = 0 then total else e.total
    let q := max e.position position
    s.setEntry p.progress { e with position := q, total := t, permille := permille q t }

/-- The DONE update (R91, R92): with OK, an operation that reports progress shows position equal to total. -/
def State.closeEntry (s : State) (p : Packet) (st : Status) (position total : Nat) : State :=
  if p.progress = 0 then s
  else
    let e := s.entry p.progress
    let t := if p.reports then (if e.total = 0 then total else e.total) else 0
    let q := if p.reports then (if st = Status.ok then t else max e.position position) else 0
    let m := if p.reports && decide (st = Status.ok) then 1000 else permille q t
    s.setEntry p.progress { e with state := 2, status := st, position := q, total := t, permille := m }

/-! ## Status records (R87 to R89) -/

/-- The record of a packet that completes now. Completions of a job that was re-attached move to its ring (R87, R96). -/
def State.recordOf (s : State) (p : Packet) (st : Status) (detail : Nat) : Record :=
  let home := p.ring
  let ring := match s.findJob p.job with
    | some (_, j) => j.attached.getD home
    | none => home
  { handle := p.handle, seq := p.seq, opcode := BitVec.ofNat 16 p.opcode, status := st,
    detail := BitVec.ofNat 64 detail, time := BitVec.ofNat 32 s.clk, ring := ring, noIrq := p.noIrq,
    irqNow := p.irqNow, job := p.job, home := home, era := p.era }

/-- Capacity of the held store (R96). -/
def heldCapacity : Nat := 4096

/-- A record falls due: on a redirected ring it waits in the held store, which when full leaves it at its completion
point (R89, R96). -/
def State.fallDue (s : State) (r : Record) : State :=
  let q := s.ring r.ring
  if q.redirect ∧ q.due = [] ∧ s.held.length < heldCapacity then { s with held := s.held ++ [r] }
  else s.setRing r.ring { q with due := q.due ++ [r] }

/-- The counters of refused keys and of refusals that guard protected regions (R498, R507). -/
def State.countStatus (s : State) (st : Status) : State :=
  if st = Status.keyRefused ∨ st = Status.packageInvalid then s.bump Reg.secKeyRefused 1
  else if st = Status.protectedRegion then s.bump Reg.secProtRefused 1
  else s

/-- A packet completes: its progress entry, then its status record (R93). -/
def State.complete (s : State) (p : Packet) (st : Status) (detail position total : Nat) : State :=
  ((s.closeEntry p st position total).countStatus st).fallDue (s.recordOf p st detail)

/-! ## The checks of R84 -/

/-- A failed check: the status and the detail of the refusal. -/
structure Fail where
  code : Status
  detail : Nat
  deriving DecidableEq, Repr

/-- The detail of a fault inside a structure that the field at packet offset `off` names (R84). -/
def inStruct (off inner : Nat) : Nat := 2 ^ 63 + off * 2 ^ 32 + inner

/-! A structure in memory: a field at fault is known by its offset in the structure (R84). -/

/-- A field that breaks its rule. -/
def faultAt (c : Bool) (off : Nat) : Option Nat := if c then none else some off
/-- Reserved bytes [off, off + n): the lowest that is not 0. -/
def spareAt (b : List Byte) (off n : Nat) : Option Nat := firstIdx (fun x => x != 0#8) off (slice b off n)
/-- The first field at fault: the lowest offset. -/
def lowestAt (l : List (Option Nat)) : Option Nat :=
  l.foldl (fun a b => match a, b with
    | some x, some y => some (min x y)
    | some x, none => some x
    | none, y => y) none
/-- The fault of the first entry of a list that has one, `off` bytes into the structure and `size` bytes each. -/
def entryAt (b : List Byte) (off size k : Nat) (f : List Byte → Option Nat) : Option Nat :=
  (List.range k).findSome? fun i => (f (slice b (off + size * i) size)).map fun o => off + size * i + o
/-- The place of the first value that repeats an earlier one. -/
def repeatAt (l : List Nat) : Option Nat := (List.range l.length).find? fun i => (l.take i).contains (l.getD i 0)

/-- The first check that fails, in order. -/
def firstFail : List (Option Fail) → Option Fail
  | [] => none
  | some f :: _ => some f
  | none :: t => firstFail t

/-- Fail with BAD_PARAM at an offset unless a condition holds. -/
def need (c : Bool) (off : Nat) : Option Fail := if c then none else some ⟨Status.badParam, off⟩
/-- Fail with a code at a detail unless a condition holds. -/
def demand (c : Bool) (code : Status) (detail : Nat) : Option Fail := if c then none else some ⟨code, detail⟩

/-- Reserved bytes [lo, lo + n) of the packet are 0; the fault is the lowest byte that is not. -/
def Packet.zeros (p : Packet) (lo n : Nat) : Option Fail :=
  match firstIdx (fun b => b != 0#8) lo (slice p.bytes lo n) with
  | some i => some ⟨Status.badParam, i⟩
  | none => none

/-- Reserved bits of the byte at `off`: those above bit `keep` - 1 are 0. -/
def Packet.spare (p : Packet) (off keep : Nat) : Option Fail := need (decide (p.nat off 1 < 2 ^ keep)) off

/-- Check 1: reserved header fields and bits are 0 (R76, R84). -/
def Packet.headerFail (p : Packet) : Option Fail :=
  firstFail [p.spare 2 4, need (p.nat 3 1 == 0) 3, need (decide (p.nat 4 1 < 64)) 4, p.zeros 5 1,
    need (bitsOf (p.nat 20 1) 6 4 == 0) 20, p.zeros 21 3, p.zeros 28 36]

/-- Check 4: the progress entry named is at most 1,023 and not RUNNING (R84). -/
def State.progressFail (s : State) (p : Packet) : Option Fail :=
  firstFail [need (decide (p.progress ≤ 1023)) 6,
    demand (p.progress == 0 || (s.entry p.progress).state != 1) Status.progressBusy 6]

/-- What check 5 asks of the header's job field (R84). -/
inductive JobRule where
  /-- any open job or none -/
  | optional
  /-- an open job -/
  | required
  /-- equal to a job_id parameter at an offset, which may be 0xFFFF_FFFF -/
  | param (off : Nat)
  /-- equal to a job_id parameter at an offset, and an open job -/
  | paramOpen (off : Nat)
  /-- equal to the new job_id at an offset, and no open-job test (JOB_OPEN, JOB_RESTORE) -/
  | fresh (off : Nat)
  deriving DecidableEq, Repr

/-- Check 5 (R84). -/
def State.jobFail (s : State) (p : Packet) (rule : JobRule) : Option Fail :=
  let isOpen := s.jobOpen p.job
  let ok : Bool := match rule with
    | .optional => p.job == noJob || isOpen
    | .required => isOpen
    | .param off => (p.job == noJob || isOpen) && p.job.toNat == p.param off 4
    | .paramOpen off => isOpen && p.job.toNat == p.param off 4
    | .fresh off => p.job.toNat == p.param off 4
  need ok 16

/-- A checked range of a packet (R600): the packet offset it is reported with, the range, and whether it is written. -/
structure Use where
  off : Nat
  range : Range
  write : Bool
  deriving DecidableEq, Repr

/-- Check 8 for one range (R84): mapped, outside open jobs' regions unless the packet names the job, and, where it is
written, outside guarded ranges (R134). -/
def State.useFail (s : State) (p : Packet) (u : Use) : Option Fail :=
  need (u.range.len == 0 ||
    (s.mapped u.range && s.jobAllows p.job u.range && !(u.write && s.guardHit u.range))) u.off

/-- The fault with the lowest offset. -/
def lowestFail : List (Option Fail) → Option Fail
  | [] => none
  | none :: t => lowestFail t
  | some f :: t =>
    match lowestFail t with
    | some g => if g.detail < f.detail then some g else some f
    | none => some f

/-- The parts of a command that its chapter gives: its opcode, accepted lengths, its job rule, checks 6, 7, the ranges of check 8,
the aliasing part of check 8, checks 9, 10 and 11, what else its start waits for (R80), its progress unit and total, and
its effect once it has passed. -/
structure Command where
  code : Nat
  lens : Nat → Bool
  job : JobRule
  params : State → Packet → Option Fail
  aligns : State → Packet → Option Fail := fun _ _ => none
  uses : State → Packet → List Use := fun _ _ => []
  overlaps : State → Packet → Option Fail := fun _ _ => none
  types : State → Packet → Option Fail := fun _ _ => none
  security : State → Packet → Option Fail := fun _ _ => none
  own : State → Packet → Option Fail := fun _ _ => none
  ready : State → Packet → Bool := fun _ _ => true
  unit : Nat := 0
  total : State → Packet → Nat := fun _ _ => 0
  effect : Packet → State → State

/-- All checks of R84 in their order, on the state as it stands at the start. -/
def Command.fail (c : Command) (s : State) (p : Packet) : Option Fail :=
  firstFail [p.headerFail,
    demand (knownOpcode p.opcode) Status.badOpcode 0,
    demand (c.lens p.len) Status.badLength 4,
    s.progressFail p,
    s.jobFail p c.job,
    c.params s p,
    c.aligns s p,
    lowestFail ((c.uses s p).map fun u => s.useFail p u),
    c.overlaps s p,
    c.types s p,
    c.security s p,
    c.own s p]

/-! ## The start of a packet (R80, R81, R88, R568) -/

/-- The wait_ring condition holds, compared modulo 2^32 (R81). -/
def State.waitMet (s : State) (p : Packet) : Bool :=
  !p.waitValid || decide (((s.ring p.waitRing).retired - p.waitSeq).toNat < 2 ^ 31)

/-- The FENCE condition holds: the retired count equals the packet's sequence number (R80). A packet of an earlier
enable has no count to compare with; it starts once no earlier packet of it runs or waits for its record. -/
def State.fenceMet (s : State) (p : Packet) : Bool :=
  let r := s.ring p.ring
  if !p.fence then true
  else if p.era = r.era then r.retired == p.seq
  else
    (s.running.all fun o => !(o.pkt.ring == p.ring && o.pkt.era == p.era)) &&
      (r.due ++ s.held).all fun d => !(d.home == p.ring && d.era == p.era)

/-- Every range lies in the host window (R568). -/
def allHost (l : List Use) : Bool := l.all fun u => u.range.inside hostRange

/-- The module runs packets of this kind at its present stage of start-up (R568). -/
def State.stageRuns (s : State) (p : Packet) (uses : List Use) : Bool :=
  if s.glb.stage = 10 then true
  else if s.glb.stage < 4 then false
  else if p.opcode = 0x0C00 ∨ p.opcode = 0x0C01 ∨ p.opcode = 0x0C04 then true
  else (p.opcode / 256 == 0x0B || p.opcode / 256 == 0x0C) && allHost uses

/-- Start-up has ended in FAULT before READY (R567, R568). -/
def State.startFault (s : State) : Bool := decide (s.glb.cause ≠ 0) && decide (s.glb.stage < 10)

/-- The packet is the next of its ring to start, its waits are met and its completion ring is not full (R80, R88). -/
def State.startable (s : State) (p : Packet) : Bool :=
  let r := s.ring p.ring
  r.staged.head? == some p && s.waitMet p && s.fenceMet p && r.stateCode != 3

/-- The packet leaves its ring's waiting packets. -/
def State.unstage (s : State) (p : Packet) : State :=
  let r := s.ring p.ring
  s.setRing p.ring { r with staged := r.staged.filter fun q => q != p }

/-- A packet that fails a check is refused: it changes no state but the ring's counters and its record (R84). -/
def State.refuse (s : State) (p : Packet) (f : Fail) : State :=
  let r := s.ring p.ring
  ((s.setRing p.ring { r with refused := satAdd r.refused 1 }).countStatus f.code).fallDue (s.recordOf p f.code f.detail)

/-- Stage 5 of a live activation: the command processor starts no packet (R527). -/
def State.commandHeld (s : State) : Bool := s.mgt.activation.any fun a => a.stage == 5

/-- What a start does once its waits are met: the checks, then the claim of the progress entry and the effect. -/
def Command.run (c : Command) (p : Packet) (s : State) : State :=
  let s' := s.unstage p
  match c.fail s p with
  | some f => s'.refuse p f
  | none => c.effect p { s'.claim p c.unit (c.total s p) with starts := s.starts + 1 }

/-- The packet starts if it may; otherwise it goes on waiting. In a start-up that ended in FAULT it completes with
UNIT_FENCED (R568). -/
def Command.start (c : Command) (p : Packet) (s : State) : State :=
  if p.opcode ≠ c.code || !s.startable p || !c.ready s p || s.commandHeld then s
  else if s.stageRuns p (c.uses s p) then c.run p s
  else if s.startFault then (s.unstage p).fallDue (s.recordOf p Status.unitFenced 0)
  else s

/-- A command that has passed its checks and waits: it joins the running commands. -/
def State.enroll (s : State) (p : Packet) (k : OpKind) (uses : List Use) (total : Nat) : State :=
  { s with running := s.running ++
      [⟨p, k, s.starts, uses.map fun u => (u.range.lo, u.range.len), 0, total, false⟩] }

/-- Take a command out of the running commands. -/
def State.withdraw (s : State) (o : RunOp) : State := { s with running := s.running.filter fun x => x != o }

/-- A running command completes and leaves the running commands. -/
def State.finish (s : State) (o : RunOp) (st : Status) (detail : Nat) : State :=
  (s.withdraw o).complete o.pkt st detail o.position o.total

/-- Complete every running command a test accepts, in start order. -/
def State.finishAll (s : State) (f : RunOp → Bool) (st : Status) (detail : Nat) : State :=
  (s.running.filter f).foldl (fun t o => t.finish o st detail) s

end Sys2Proof.Machine
end

