-- ==== Sys2Proof/Machine/Ledger.lean ====
section
/-! DEFINITION. Ledger entries, alerts and error bits, which events of every family make (R518 to R521, R533, R572). -/

namespace Sys2Proof.Machine

/-- Set bits of MGT_ALERTS; any set bit raises MSI-X vector 16 (R90, R533). -/
def State.alert (s : State) (bit : Nat) : State :=
  (s.setReg Reg.mgtAlerts (s.reg Reg.mgtAlerts ||| BitVec.ofNat 32 (2 ^ bit))).raise 16

/-- Set bits of GLB_ERROR; any set bit raises MSI-X vector 17 (R90, R572). -/
def State.error (s : State) (bit : Nat) : State :=
  (s.setReg Reg.glbError (s.reg Reg.glbError ||| BitVec.ofNat 32 (2 ^ bit))).raise 17

/-- The alert bit an entry sets (R533): SECURITY and FIRMWARE entries of WARNING or above, fences, test failures and
expulsions of class INTEGRITY, and SENSOR entries. -/
def ledgerAlert (cls severity : Nat) : Option Nat :=
  if cls = 5 ∧ 1 ≤ severity then some 0
  else if cls = 3 ∧ 1 ≤ severity then some 2
  else if cls = 7 then some 4
  else none

/-- Make a ledger entry (R518, R520): INFO entries are folded into the SUPPRESSED entry while the buffer holds 192 or
more. The time is module time, rounded down to a whole second in confidential mode. -/
def State.log (s : State) (cls severity code unit : Nat) (job step : Word) (data : List Byte) : State :=
  let l := s.mgt.ledger
  if severity = 0 ∧ 192 ≤ l.buffer.length then
    { s with mgt := { s.mgt with ledger := { l with suppressed := l.suppressed + 1 } } }.bump Reg.logSuppressed 1
  else
    let t := if s.confidential then s.mgt.time / 1000000000 * 1000000000 else s.mgt.time
    let e : LedgerEntry := ⟨t, cls, severity, code, unit, s.confidential, job, step, data⟩
    let s' := { s with mgt := { s.mgt with ledger := { l with buffer := l.buffer ++ [e] } } }
    match ledgerAlert cls severity with
    | some b => s'.alert b
    | none => s'

/-- An entry that names no unit, job or step. -/
def State.logPlain (s : State) (cls severity code : Nat) (data : List Byte) : State :=
  s.log cls severity code 0xFFFF noJob noJob data

end Sys2Proof.Machine
end

