-- ==== Sys2Proof/Machine/Mix.lean ====
section
/-! DEFINITION. mix-64 and the hashing of strings and rows (R171 to R174). -/

namespace Sys2Proof.Machine

def mixGolden : DWord := 0x9E3779B97F4A7C15
def mixMul1 : DWord := 0xBF58476D1CE4E5B9
def mixMul2 : DWord := 0x94D049BB133111EB

/-- mix-64 (R171). -/
def mix64 (value key : DWord) : DWord :=
  let z := value + (key + 1) * mixGolden
  let z := (z ^^^ (z >>> 30)) * mixMul1
  let z := (z ^^^ (z >>> 27)) * mixMul2
  z ^^^ (z >>> 31)

/-- Mix the 8-byte words of a byte string into a state. -/
def mixWords (s : DWord) (key : DWord) (b : List Byte) : Nat → Nat → DWord
  | 0, _ => s
  | k + 1, i => mixWords (mix64 (s ^^^ BitVec.ofNat 64 (leField b (8 * i) 8)) key) key b k (i + 1)

/-- The word of a byte string (R174). -/
def bytesWord (b : List Byte) (key : DWord) : DWord :=
  mixWords (mix64 (BitVec.ofNat 64 b.length) key) key b (ceilDiv b.length 8) 0

/-- A component of a row to hash: null, a word, or a byte string. -/
inductive Component where
  | null
  | word (w : DWord)
  | bytes (b : List Byte)
  deriving DecidableEq, Repr

/-- The hash of a row of components (R174). -/
def rowHash (c : List Component) (key : DWord) : DWord :=
  c.foldl (fun h x => match x with
    | .null => mix64 h (key ^^^ 0x5555555555555555)
    | .word w => mix64 (h ^^^ w) key
    | .bytes b => mix64 (h ^^^ bytesWord b key) key) (mix64 (BitVec.ofNat 64 c.length) key)

end Sys2Proof.Machine
end

