-- ==== Sys2Proof/Machine/Operands.lean ====
section
/-! DEFINITION. Operand forms: element types (R116), tensor descriptors (R115 to R121), the wrap rule (R122, R123) and
the element, row and scale accesses every engine makes through a descriptor. -/

namespace Sys2Proof.Machine

/-! ## Element types (R116) -/

/-- Bits of an element type code; none for a code outside the table. -/
def elemBits : Nat → Option Nat
  | 0x01 => some 4
  | 0x02 => some 8
  | 0x03 => some 8
  | 0x04 => some 16
  | 0x05 => some 16
  | 0x06 => some 32
  | 0x07 => some 32
  | 0x08 => some 64
  | 0x09 => some 8
  | 0x0A => some 8
  | 0x0B => some 16
  | 0x0C => some 16
  | 0x0D => some 32
  | 0x0E => some 64
  | 0x10 => some 4
  | 0x11 => some 6
  | 0x12 => some 6
  | 0x13 => some 8
  | 0x14 => some 8
  | 0x20 => some 8
  | _ => none

/-- The MX types share a scale among 32 elements (R118). -/
def elemMx (c : Nat) : Bool := decide (0x10 ≤ c) && decide (c ≤ 0x14)

/-- Types that may pass through the register tile (R116, R124). -/
def elemTransposable (c : Nat) : Bool :=
  [0x02, 0x03, 0x04, 0x05, 0x06, 0x07, 0x09, 0x0A, 0x0B, 0x0C, 0x0D, 0x20].contains c

/-! ## Descriptors (R115) -/

/-- A tensor descriptor. `extent` has six entries and `stride` five, for dimensions 1 to 5. -/
structure Desc where
  base : Nat
  elem : Nat
  rank : Nat
  extent : List Nat
  scale : Nat
  stride : List Int
  deriving DecidableEq, Repr

/-- The descriptor at an offset of a list of bytes. -/
def descAt (b : List Byte) (o : Nat) : Desc where
  base := leField b o 8
  elem := leField b (o + 8) 1
  rank := leField b (o + 9) 1
  extent := (List.range 6).map fun i => leField b (o + 16 + 4 * i) 4
  scale := leField b (o + 40) 8
  stride := (List.range 5).map fun i => leSigned b (o + 64 + 8 * i) 8

def Desc.ext (d : Desc) (i : Nat) : Nat := d.extent.getD i 1
/-- The stride of dimension i, from 1. -/
def Desc.str (d : Desc) (i : Nat) : Int := d.stride.getD (i - 1) 0
def Desc.bits (d : Desc) : Nat := (elemBits d.elem).getD 8
/-- Bytes of a row (R117). -/
def Desc.rowBytes (d : Desc) : Nat := ceilDiv (d.bits * d.ext 0) 8
/-- Rows of the tensor. -/
def Desc.rows (d : Desc) : Nat := d.ext 1 * d.ext 2 * d.ext 3 * d.ext 4 * d.ext 5
/-- Blocks of 32 in a row, and bytes from one row's scales to the next (R118). -/
def Desc.blocks (d : Desc) : Nat := d.ext 0 / 32
def Desc.scaleRow (d : Desc) : Nat := 64 * ceilDiv d.blocks 64
/-- Bytes of data in all rows. -/
def Desc.dataBytes (d : Desc) : Nat := d.rowBytes * d.rows

/-- Reserved or out-of-range fields of a descriptor (R115, R116, R118), lowest offset first, as offsets within it. -/
def descFault (b : List Byte) (o : Nat) : Option Nat :=
  let d := descAt b o
  let zero := fun lo n => firstIdx (fun x => x != 0#8) lo (slice b (o + lo) n)
  let extFault := firstIdx (fun i => d.ext i == 0 || (decide (d.rank ≤ i) && d.ext i != 1)) 0 (List.range 6)
  let strFault := firstIdx (fun i => decide (d.rank ≤ i + 1) && d.str (i + 1) != 0) 0 (List.range 5)
  let cands : List (Option Nat) :=
    [if (elemBits d.elem).isNone then some 8 else none,
     if d.rank = 0 ∨ 6 < d.rank then some 9 else none,
     zero 10 2, zero 12 4, extFault.map fun i => 16 + 4 * i,
     if elemMx d.elem && d.ext 0 % 32 != 0 then some 16 else none,
     if !elemMx d.elem && d.scale != 0 then some 40 else none,
     zero 48 16, strFault.map fun i => 64 + 8 * i, zero 104 24]
  cands.foldl (fun acc x => match acc, x with
    | none, y => y
    | some a, some y => some (min a y)
    | some a, none => some a) none

/-- The first field that is not a multiple of 64 (R119), as an offset within the descriptor. -/
def Desc.alignFault (d : Desc) : Option Nat :=
  if d.base % 64 ≠ 0 then some 0
  else if elemMx d.elem ∧ d.scale % 64 ≠ 0 then some 40
  else (firstIdx (fun i => d.str (i + 1) % 64 != 0) 0 (List.range 5)).map fun i => 64 + 8 * i

/-- The footprint as signed bounds (R120). -/
def Desc.bounds (d : Desc) : Int × Int :=
  (List.range 5).foldl (fun b i =>
    let span := ((d.ext (i + 1) : Int) - 1) * d.str (i + 1)
    if span < 0 then (b.1 + span, b.2) else (b.1, b.2 + span))
    ((d.base : Int), (d.base : Int) + d.rowBytes - 1)

/-- The footprint (R120); a footprint below address 0 is no range of the address space and is given as one that is not
mapped. -/
def Desc.footprint (d : Desc) : Range :=
  let b := d.bounds
  if b.1 < 0 then ⟨2 ^ 48, 1⟩ else ⟨b.1.toNat, (b.2 + 1 - b.1).toNat⟩

/-- The scale array (R118, R120). -/
def Desc.scaleRange (d : Desc) : Range := if elemMx d.elem then ⟨d.scale, d.scaleRow * d.rows⟩ else ⟨0, 0⟩

/-- The checked ranges of a descriptor at a packet offset (R600): its footprint, and its scales at scale_base. -/
def Desc.uses (d : Desc) (off : Nat) (write : Bool) : List Use :=
  ⟨off, d.footprint, write⟩ :: (if elemMx d.elem then [⟨off + 40, d.scaleRange, write⟩] else [])

/-- Insert a (stride, extent) pair in ascending order of stride. -/
def insertStride (x : Nat × Nat) : List (Nat × Nat) → List (Nat × Nat)
  | [] => [x]
  | y :: t => if x.1 ≤ y.1 then x :: y :: t else y :: insertStride x t

/-- Each |stride| is at least the byte span of the row and of all dimensions sorted before it (R121). -/
def strideSpans : Nat → List (Nat × Nat) → Bool
  | _, [] => true
  | span, (st, e) :: t => st != 0 && decide (span ≤ st) && strideSpans (span + (e - 1) * st) t

/-- A destination does not overlaps (R121). -/
def Desc.unaliased (d : Desc) : Bool :=
  let dims := (List.range (d.rank - 1)).map fun i => ((d.str (i + 1)).natAbs, d.ext (i + 1))
  strideSpans d.rowBytes (dims.foldr insertStride [])

/-! ## Descriptor checks of a packet -/

/-- A descriptor inside a packet: its packet offset and whether it is written. -/
structure DescAt where
  off : Nat
  write : Bool
  deriving DecidableEq, Repr

def Packet.desc (p : Packet) (off : Nat) : Desc := descAt p.bytes off
/-- Check 6 for the descriptor at a packet offset. -/
def Packet.descFail (p : Packet) (off : Nat) : Option Fail :=
  (descFault p.bytes off).map fun o => ⟨Status.badParam, off + o⟩
/-- Check 7 for the descriptor at a packet offset (R119). -/
def Packet.alignFail (p : Packet) (off : Nat) : Option Fail :=
  (p.desc off).alignFault.map fun o => ⟨Status.align, off + o⟩
/-- The aliasing part of check 8 (R121). -/
def Packet.aliasFail (p : Packet) (off : Nat) : Option Fail :=
  demand (p.desc off).unaliased Status.regionAliased off

/-! ## The wrap rule (R122, R123) -/

/-- An index brought into an extent. -/
def wrapIndex (i : Int) (e : Nat) : Nat := (i % (e : Int)).toNat

/-- Event counters of wrapped index vectors by HBM class (R24, R123). -/
def wrapCounter : Nat → Nat
  | 0 => Reg.cntWrapFeature
  | 1 => Reg.cntWrapGather
  | 2 => Reg.cntWrapArray
  | 3 => Reg.cntWrapRelay
  | _ => Reg.cntWrapHost

/-- Some component of an index vector lies outside its extent. -/
def Desc.wraps (d : Desc) : List Int → Nat → Bool
  | [], _ => false
  | i :: t, k => decide (i < 0) || decide ((d.ext k : Int) ≤ i) || Desc.wraps d t (k + 1)

/-- The address of the row that indices of dimensions 1 and up name, after the wrap rule. -/
def Desc.rowAddr (d : Desc) : List Int → Nat → Int
  | [], _ => (d.base : Int)
  | i :: t, k => (wrapIndex i (d.ext k) : Int) * d.str k + Desc.rowAddr d t (k + 1)

/-- The row-major number of that row (R118). -/
def Desc.rowNumber (d : Desc) : List Int → Nat → Nat
  | [], _ => 0
  | i :: t, k => wrapIndex i (d.ext k) + d.ext k * Desc.rowNumber d t (k + 1)

/-- Indices of dimensions 1 to 5 of row r, dimension 1 fastest (R118). -/
def Desc.rowIndex (d : Desc) (r : Nat) : List Int :=
  [((r % d.ext 1 : Nat) : Int), ((r / d.ext 1 % d.ext 2 : Nat) : Int), ((r / (d.ext 1 * d.ext 2) % d.ext 3 : Nat) : Int),
   ((r / (d.ext 1 * d.ext 2 * d.ext 3) % d.ext 4 : Nat) : Int),
   ((r / (d.ext 1 * d.ext 2 * d.ext 3 * d.ext 4) % d.ext 5 : Nat) : Int)]

/-- The module address of the first byte of row r. -/
def Desc.rowAt (d : Desc) (r : Nat) : Nat := (d.rowAddr (d.rowIndex r) 1).toNat

/-- The raw bits of the element at an index vector (R117, R122). -/
def State.elem (s : State) (d : Desc) (idx : List Int) : Nat :=
  match idx with
  | [] => 0
  | i :: outer =>
    let bit := d.bits * wrapIndex i (d.ext 0)
    let row := (d.rowAddr outer 1).toNat
    s.loadNat (row + bit / 8) (ceilDiv (bit % 8 + d.bits) 8) / 2 ^ (bit % 8) % 2 ^ d.bits

/-- Store raw bits as the element at an index vector; other bits of shared bytes are unchanged (R108, R117). -/
def State.setElem (s : State) (d : Desc) (idx : List Int) (v : Nat) : State :=
  match idx with
  | [] => s
  | i :: outer =>
    let bit := d.bits * wrapIndex i (d.ext 0)
    let a := (d.rowAddr outer 1).toNat + bit / 8
    let n := ceilDiv (bit % 8 + d.bits) 8
    let old := s.loadNat a n
    let keep := old - old / 2 ^ (bit % 8) % 2 ^ d.bits * 2 ^ (bit % 8)
    s.store a (leBytes n (keep + v % 2 ^ d.bits * 2 ^ (bit % 8)))

/-- The address of the scale byte of an element of an MX tensor (R118). -/
def Desc.scaleAt (d : Desc) (idx : List Int) : Nat :=
  match idx with
  | [] => d.scale
  | i :: outer => d.scale + d.rowNumber outer 1 * d.scaleRow + wrapIndex i (d.ext 0) / 32

/-- The E8M0 scale byte of an element; 127 (one) for a type without scales. -/
def State.scaleOf (s : State) (d : Desc) (idx : List Int) : Nat :=
  if elemMx d.elem then s.loadNat (d.scaleAt idx) 1 else 127

/-- Count an index vector if it wraps (R123). -/
def State.countWrap (s : State) (cls : Nat) (d : Desc) (idx : List Int) : State :=
  if d.wraps idx 0 then s.bump (wrapCounter cls) 1 else s

/-! ## Reserved and claimed ranges -/

/-- A 64-byte access of a range that is marked poisoned (R130, R446), lowest first. -/
def State.poisonedIn (s : State) (l : List Range) : Option Nat :=
  (s.memory.poisoned.filter fun a => l.any fun r => r.meets ⟨a, 64⟩).foldl
    (fun acc a => match acc with
      | none => some a
      | some b => some (min a b)) none

/-- A range lies in one die's HBM (R31), below its retirement pool. -/
def Range.inHbm (r : Range) : Bool := r.inside (hbmRange 0) || r.inside (hbmRange 1)
/-- A range lies in the HBM or the serai of one die. -/
def Range.inDie (r : Range) : Bool := r.inHbm || r.inside (seraiRange 0) || r.inside (seraiRange 1)
/-- A range lies below the host window, in one space (R31). -/
def Range.inModule (r : Range) : Bool := match r.space with
  | some .hostSpace => false
  | some _ => true
  | none => false

/-- Check 10 of a command that may touch no protected range (R84, R498): the first use that meets one. -/
def State.openFail (s : State) (l : List Use) : Option Fail :=
  lowestFail (l.map fun u => demand (!s.protectedHit u.range) Status.protectedRegion u.off)

/-- Every pair of ranges of two lists is disjoint; the offset is that of the first use of the second list which meets
one of the first. -/
def clashFail (a : List Range) (b : List Use) : Option Fail :=
  lowestFail (b.map fun u => need (!a.any fun r => r.meets u.range) u.off)

/-- The ranges of a list are pairwise disjoint; otherwise the offset of the later of the first two that meet. -/
def disjointFail : List Use → Option Fail
  | [] => none
  | u :: t => match clashFail [u.range] t with
    | some f => some f
    | none => disjointFail t

end Sys2Proof.Machine
end

