-- ==== Sys2Proof/Machine/Directory.lean ====
section
/-! DEFINITION. The key directory: searching, inserting, deleting, compacting and moving entries (R355 to R366, R373), and
the hot-row transitions at a commit and after draining (R367 to R372). -/

namespace Sys2Proof.Machine

/-! ## Hashing and places (R355, R356, R359) -/

def dirHash (key : List DWord) (tableKey : DWord) : DWord :=
  match key with
  | [] => 0
  | k :: t => t.foldl (fun h x => mix64 (h ^^^ x) tableKey) (mix64 k tableKey)

def dirTag (h : DWord) : Nat := h.toNat % 256
/-- Bank index of a hash among B banks, a power of two. -/
def dirIndex (h : DWord) (b : Nat) : Nat := h.toNat / 256 % b

/-- The die of a bank. -/
def bankDie (b : Nat) : Nat := b / 32

def State.bank (s : State) (b : Nat) : Option DirBank := Tab.look s.dir.banks b
def State.setBank (s : State) (b : Nat) (x : DirBank) : State :=
  { s with dir := { s.dir with banks := Tab.put s.dir.banks b x } }

/-- The banks of a table on a die, ascending. -/
def State.tableBanks (s : State) (table die : Nat) : List Nat :=
  (s.dir.banks.filter fun e => e.2.table == table && bankDie e.1 == die).map fun e => e.1

/-- The bank that serves a bank's index (R373). -/
def State.server (s : State) (b : Nat) : Nat := (Tab.look s.dir.serves b).getD b


def DirBank.size (b : DirBank) : Nat := 2048 / b.width
def DirBank.entries (b : DirBank) : Nat := b.slots.length
/-- The bank a key reaches in a table on a die. -/
def State.bankFor (s : State) (table die : Nat) (key : List DWord) : Option Nat :=
  let l := s.tableBanks table die
  match l.head?.bind s.bank with
  | none => none
  | some b => (l[dirIndex (dirHash key b.hashKey) l.length]?).map s.server

/-- Width and hash key of a table on a die. -/
def State.tableShape (s : State) (table die : Nat) : Option (Nat × DWord) :=
  ((s.tableBanks table die).head?.bind s.bank).map fun b => (b.width, b.hashKey)

def State.dirLost (s : State) (table die : Nat) : Bool := s.dir.lost.contains (table, die)

/-! ## Searching (R360) -/

/-- What a search finds: the winner with its slot, the number of matches, and the slots enabled by the tag whose key
differed. -/
structure Found where
  winner : Option (Nat × DirEntry)
  matched : Nat
  falseRows : Nat
  deriving DecidableEq, Repr

/-- The better of two matches: higher priority, then lower slot. -/
def better (x y : Nat × DirEntry) : Nat × DirEntry := if x.2.priority < y.2.priority then y else x

def DirBank.search (b : DirBank) (key : List DWord) : Found :=
  let tag := dirTag (dirHash key b.hashKey)
  let rows := b.slots.filter fun e => e.2.tag == tag
  let hits := rows.filter fun e => e.2.key == key
  ⟨match hits with
    | [] => none
    | x :: t => some (t.foldl better x), hits.length, rows.length - hits.length⟩

/-- A search of a table on a die. -/
def State.dirFind (s : State) (table die : Nat) (key : List DWord) : Found :=
  match (s.bankFor table die key).bind s.bank with
  | none => ⟨none, 0, 0⟩
  | some b => b.search key

/-- Count a search (R383). -/
def State.countSearch (s : State) (f : Found) : State := (s.bumpWide Reg.dirSearchesLo 1).bump Reg.dirTagFalse f.falseRows

/-! ## Inserting (R362, R363) -/

/-- The slot boundary after the last entry whose priority is at least p. -/
def insertionPoint (slots : Tab DirEntry) (p : Nat) : Nat :=
  slots.foldl (fun n e => if p ≤ e.2.priority then e.1 + 1 else n) 0

/-- First hole at or above a slot; last hole below a slot. -/
def holeAbove (slots : Tab DirEntry) (size from_ : Nat) : Option Nat :=
  firstIdx (fun i => (Tab.look slots i).isNone) from_ ((List.range (size - from_)).map fun i => from_ + i)
def holeBelow (slots : Tab DirEntry) (below : Nat) : Option Nat :=
  ((List.range below).filter fun i => (Tab.look slots i).isNone).getLast?

/-- Move the entries of slots [lo, hi) by one slot, up or down. -/
def shiftRun (slots : Tab DirEntry) (lo hi : Nat) (up : Bool) : Tab DirEntry :=
  slots.map fun e => if lo ≤ e.1 ∧ e.1 < hi then (if up then e.1 + 1 else e.1 - 1, e.2) else e

/-- Insert an entry; none when the bank has no hole. -/
def DirBank.insert (b : DirBank) (e : DirEntry) : Option DirBank :=
  let ip := insertionPoint b.slots e.priority
  let up := fun h => some { b with slots := Tab.put (shiftRun b.slots ip h true) ip e }
  let down := fun h => some { b with slots := Tab.put (shiftRun b.slots (h + 1) ip false) (ip - 1) e }
  match holeAbove b.slots b.size ip, holeBelow b.slots ip with
  | none, none => none
  | some h, none => up h
  | none, some h => down h
  | some h, some k => if h - ip ≤ ip - 1 - k then up h else down k

/-- Insert an entry into the bank its key reaches: an update (R364), or none when that bank is full. -/
def State.dirInsert (s : State) (table die : Nat) (e : DirEntry) : Option State :=
  match s.bankFor table die e.key with
  | none => none
  | some n => match s.bank n with
    | none => none
    | some b => (b.insert { e with tag := dirTag (dirHash e.key b.hashKey) }).map fun b' =>
      (s.setBank n b').bump Reg.dirStolen 1

/-- Delete the entries of a key that a test accepts; how many there were (R366, R377). -/
def State.dirDelete (s : State) (table die : Nat) (key : List DWord) (f : DirEntry → Bool) : State × Nat :=
  match s.bankFor table die key with
  | none => (s, 0)
  | some n => match s.bank n with
    | none => (s, 0)
    | some b =>
      let keep := b.slots.filter fun e => !(e.2.key == key && f e.2)
      let k := b.slots.length - keep.length
      ((s.setBank n { b with slots := keep }).bump Reg.dirStolen k, k)

/-! ## Compaction (R365) -/

/-- The layout after compaction. -/
def DirBank.compact (b : DirBank) : DirBank :=
  let e := b.entries
  { b with slots := b.slots.zipIdx.map fun x => (x.2 + min (x.2 / (b.pitch - 1)) (b.size - e), x.1.2) }

/-- Shifts that a compaction of the bank takes: none when it is laid out already, and at most its slots. -/
def DirBank.shifts (b : DirBank) : Nat :=
  if b.compact.slots = b.slots then 0
  else min b.size (Config.compactShifts (b.slots.map fun e => e.1) b.size b.pitch)

/-! ## Hot entries (R367, R368) -/

def hotTable : Nat := 255
def hotKey (table slice row : Nat) : DWord :=
  BitVec.ofNat 64 (table % 1024 * 2 ^ 46 + slice % 64 * 2 ^ 40 + row % 2 ^ 40)
/-- STATE, VSLOT and the flag bits of a hot entry (R358). -/
def DirEntry.state (e : DirEntry) : Nat := e.flags % 4
def DirEntry.vslot (e : DirEntry) : Nat := e.flags / 8 % 4
def DirEntry.dirty (e : DirEntry) : Bool := bitOf e.flags 2
def DirEntry.rebuild (e : DirEntry) : Bool := bitOf e.flags 5
def DirEntry.copied (e : DirEntry) : Bool := bitOf e.flags 6
/-- Flags from COPIED, REBUILD, VSLOT, DIRTY and STATE. -/
def hotFlags (copied rebuild : Bool) (vslot : Nat) (dirty : Bool) (state : Nat) : Nat :=
  128 + (if copied then 64 else 0) + (if rebuild then 32 else 0) + vslot * 8 + (if dirty then 4 else 0) + state

def DirEntry.key0 (e : DirEntry) : Nat := (e.key.headD 0).toNat
/-- Slice key (64 * table_id + slice) and row of a hot entry. -/
def DirEntry.sliceKey (e : DirEntry) : Nat := e.key0 / 2 ^ 46 % 1024 * 64 + e.key0 / 2 ^ 40 % 64
def DirEntry.row (e : DirEntry) : Nat := e.key0 % 2 ^ 40
def seraiBase (die : Nat) : Nat := (seraiRange die).lo
/-- Module address of the replica. -/
def DirEntry.replica (e : DirEntry) (die : Nat) : Nat := seraiBase die + e.value % 2 ^ 21 * 64

/-- Bits of an element of a table type, and the slice width (R325). -/
def Slice.width (x : Slice) : Nat := x.dim / x.group * ((elemBits x.elem).getD 8) / 8
def State.embSlice (s : State) (k : Nat) : Option Slice := Tab.look s.emb.slices k
def Slice.current (x : Slice) : Option Version := x.versions.find? fun v => v.state == .current
/-- Home row of a version. -/
def Slice.rowAt (x : Slice) (v : Version) (row : Nat) : Nat := v.base + row * x.width
/-- A slice held outside any open job. -/
def State.sliceFree (s : State) (x : Slice) : Bool := !s.jobOpen x.job

/-- Change every hot entry of a die in place; entries for which the change answers none are deleted. -/
def State.mapHot (s : State) (die : Nat) (f : DirEntry → Option DirEntry) : State :=
  let go := fun (n : Nat) (b : DirBank) =>
    if b.table = hotTable ∧ bankDie n = die then
      { b with slots := b.slots.filterMap fun e => (f e.2).map fun x => (e.1, x) }
    else b
  { s with dir := { s.dir with banks := Tab.mapVal go s.dir.banks } }

/-- The hot entries of a die. -/
def State.hotEntries (s : State) (die : Nat) : List DirEntry :=
  (s.dir.banks.filter fun e => e.2.table == hotTable && bankDie e.1 == die).flatMap fun e => e.2.slots.map fun x => x.2

/-- Banks of the hot table on a die that hold an entry which a test accepts: one bulk update each. -/
def State.hotBanks (s : State) (die : Nat) (f : DirEntry → Bool) : Nat :=
  (s.dir.banks.filter fun e => e.2.table == hotTable && bankDie e.1 == die && e.2.slots.any fun x => f x.2).length

/-- Replica ranges that no entry uses any more are ordinary memory again (R371, R380). -/
def State.dropReplicas (s : State) : State :=
  let used := fun (g : Guard) => [0, 1].any fun d => (s.hotEntries d).any fun e =>
    decide (g.lo ≤ e.replica d) && decide (e.replica d < g.lo + g.len)
  { s with memory := { s.memory with guards := s.memory.guards.filter fun g => g.kind != .replica || used g } }

/-- Copy the home row of an entry's version slot into its replica (R370). -/
def State.copyHot (s : State) (die : Nat) (e : DirEntry) : State :=
  match s.embSlice e.sliceKey with
  | none => s
  | some x => match x.versions.find? (fun v => v.vslot == e.vslot) with
    | none => s
    | some v => s.store (e.replica die) (s.load (x.rowAt v e.row) x.width)

/-- Item 3 of a commit on one die (R370, R371): dirty rows of copied entries are copied again and these entries become
REPLICATED; demoted entries become DRAINING. -/
def State.hotSwitch (s : State) (die : Nat) : State :=
  let due := fun (e : DirEntry) => e.state == 1 && e.copied
  let dirty := (s.hotEntries die).filter fun e => due e && e.dirty
  let s := (dirty.foldl (fun t e => t.copyHot die e) s).bump Reg.dirRecopies dirty.length
  let s := s.bump Reg.dirStolen (s.hotBanks die due)
  let drains := (s.hotEntries die).any fun e => e.demoted && e.state == 2
  let ep := if die = 0 then s.dir.epoch0 else s.dir.epoch1
  let s := s.mapHot die fun e =>
    if e.demoted ∧ e.state = 2 then some { e with flags := hotFlags e.copied false e.vslot e.dirty 3, epoch := ep, demoted := false }
    else if due e then some { e with flags := hotFlags e.copied e.rebuild e.vslot false 2 }
    else some e
  if drains then
    let d := if die = 0 then { s.dir with epoch0 := ep + 1 } else { s.dir with epoch1 := ep + 1 }
    { s with dir := d }
  else s

/-- A version switch of a slice (R372): REPLICATED entries drain for rebuild; COPYING ones take the new slot and copy
again; DRAINING ones keep draining. -/
def State.hotRebuild (s : State) (die sliceKey vslot : Nat) : State :=
  let mine := fun (e : DirEntry) => e.sliceKey == sliceKey
  let drains := (s.hotEntries die).any fun e => mine e && e.state == 2
  let ep := if die = 0 then s.dir.epoch0 else s.dir.epoch1
  let s := s.bump Reg.dirStolen (s.hotBanks die mine)
  let s := s.mapHot die fun e =>
    if !mine e then some e
    else if e.state = 2 then some { e with flags := hotFlags e.copied true e.vslot e.dirty 3, epoch := ep }
    else if e.state = 1 then some { e with flags := hotFlags false e.rebuild vslot false 1 }
    else some e
  if drains then
    let d := if die = 0 then { s.dir with epoch0 := ep + 1 } else { s.dir with epoch1 := ep + 1 }
    { s with dir := d }
  else s

/-- Entries of a die that entered DRAINING in an epoch or earlier are drained (R371, R372). -/
def State.drainHot (s : State) (die epoch : Nat) : State :=
  let drained := fun (e : DirEntry) => e.state == 3 && decide (e.epoch ≤ epoch)
  let s := s.bump Reg.dirStolen ((s.hotEntries die).filter drained).length
  (s.mapHot die fun e =>
    if !drained e then some e
    else if e.rebuild then
      let v := ((s.embSlice e.sliceKey).bind Slice.current).map fun v => v.vslot
      some { e with flags := hotFlags false false (v.getD e.vslot) false 1 }
    else none).dropReplicas

/-- A scatter-add has written a row: entries that copy or drain are marked DIRTY (R368). -/
def State.hotDirty (s : State) (sliceKey row : Nat) : State :=
  [0, 1].foldl (fun t d => t.mapHot d fun e =>
    if e.sliceKey = sliceKey ∧ e.row = row ∧ (e.state = 1 ∨ e.state = 3) then
      some { e with flags := hotFlags e.copied e.rebuild e.vslot true e.state }
    else some e) s

/-! ## Fenced banks (R373) -/

/-- Move one entry of a fenced bank into another; an entry that fails parity or does not fit is left out and reported. -/
def moveEntry (r : State × Nat × Bool) (target : Nat) (e : DirEntry) : State × Nat × Bool :=
  let s := { r.1 with free := r.1.free + 1 }
  if Config.entryFails r.1.free then (s, r.2.1, true)
  else match s.bank target with
    | none => (s, r.2.1, true)
    | some b => match b.insert e with
      | none => (s, r.2.1, true)
      | some b' => ((s.setBank target b').bump Reg.dirStolen 1, r.2.1 + 1, r.2.2)

/-- The bank that entries of bank n would move to: the table's next unfenced bank on the die. -/
def State.moveTarget (s : State) (n : Nat) : Option Nat :=
  match s.bank n with
  | none => none
  | some b =>
    let l := s.tableBanks b.table (bankDie n)
    let j := (firstIdx (· == n) 0 l).getD 0
    ((l.drop (j + 1)) ++ (l.take j)).find? fun x => !s.fenced (unitId 6 x)

/-- A table has lost entries on a die: a general table is LOST, rows of the hot table become HOME. -/
def State.loseEntries (s : State) (b : DirBank) (die : Nat) : State :=
  if b.table = hotTable then s.dropReplicas
  else { s with dir := { s.dir with lost := (s.dir.lost.filter fun x => x != (b.table, die)) ++ [(b.table, die)] } }

/-- A directory bank has been fenced: its entries move to the table's next unfenced bank, which serves its index. The
entries of a bank whose index is already served elsewhere have moved. -/
def State.moveBank (s : State) (n : Nat) : State :=
  match s.bank n with
  | none => s
  | some b =>
    if (Tab.look s.dir.serves n).isSome then s
    else
      let empty := s.setBank n { b with slots := [] }
      match s.moveTarget n with
      | none => empty.loseEntries b (bankDie n)
      | some t =>
        let r := (b.slots.map fun e => e.2).foldl (fun r e => moveEntry r t e) (empty, 0, false)
        let s' := r.1.bump Reg.dirMoved r.2.1
        let serves := (s'.dir.serves.map fun e => if e.2 = n then (e.1, t) else e)
        let s' := { s' with dir := { s'.dir with serves := Tab.put serves n t } }
        if r.2.2 then s'.loseEntries b (bankDie n) else s'

/-- The bank of a table on a die whose index a key has. -/
def State.homeBank (s : State) (b : DirBank) (die : Nat) (key : List DWord) : Option Nat :=
  let l := s.tableBanks b.table die
  l[dirIndex (dirHash key b.hashKey) l.length]?

/-- After its test passed, bank n serves the given indices again: their entries come back in slot order (R466). -/
def State.restoreBank (s : State) (n : Nat) (indices : List Nat) : State :=
  match s.bank n, (Tab.look s.dir.serves n).bind fun t => (s.bank t).map fun x => (t, x) with
  | some b, some (t, x) =>
    let mine := fun (e : Nat × DirEntry) => match s.homeBank b (bankDie n) e.2.key with
      | some h => indices.contains h
      | none => false
    let s := s.setBank t { x with slots := x.slots.filter fun e => !mine e }
    let r := ((x.slots.filter mine).map fun e => e.2).foldl (fun r e => moveEntry r n e) (s, 0, false)
    let s' := r.1.bump Reg.dirMoved r.2.1
    let serves := (Tab.del s'.dir.serves n).map fun e => if indices.contains e.1 then (e.1, n) else e
    let s' := { s' with dir := { s'.dir with serves := serves } }
    if r.2.2 then s'.loseEntries b (bankDie n) else s'
  | _, _ => s

end Sys2Proof.Machine
end

