-- ==== Sys2Proof/Machine/Wake.lean ====
section
/-! DEFINITION. Started commands that wait for other work complete once it is done: the drains of R54, R113, R148, R164,
R319 and R351. -/

namespace Sys2Proof.Machine

/-- A command that started earlier and has not completed uses part of a range (R113). -/
def State.earlierUse (s : State) (o : RunOp) (r : Range) : Bool :=
  s.running.any fun x => decide (x.started < o.started) && x.ranges.any fun e => (Range.mk e.1 e.2).meets r

/-- The slices an EMB_TABLE_DESTROY names: table * 256 + slice, slice 255 for all of them (R351). -/
def State.destroyedSlices (s : State) (n : Nat) : List (Nat × Slice) :=
  s.emb.slices.filter fun e => e.1 / 64 == n / 256 && (n % 256 == 255 || e.1 % 64 == n % 256)

/-- No batch is bound to a version of the slice. -/
def State.sliceUnbound (s : State) (key : Nat) : Bool :=
  (s.graph.runs.all fun e => e.2.bound.all fun b => b.1 != key) &&
    s.emb.gathers.all fun e => e.2.bound.all fun b => b.1 != key

/-- Release every version of the slices and remove their directory entries (R351). -/
def State.destroySlices (s : State) (n : Nat) : State :=
  let dead := s.destroyedSlices n
  let gone := fun (k : Nat) => dead.any fun e => e.1 == k
  let guards := s.memory.guards.filter fun g => !(g.kind == .version && gone (g.id / 4))
  let s := { s with memory := { s.memory with guards := guards }, emb := { s.emb with slices := s.emb.slices.filter fun e => !gone e.1 } }
  ((s.mapHot 0 fun e => if gone e.sliceKey then none else some e).mapHot 1 fun e =>
    if gone e.sliceKey then none else some e).dropReplicas

/-- What a waiting command waits for is done. -/
def State.drained (s : State) (o : RunOp) : Bool :=
  match o.kind with
  | .regionRelease lo len _ => !s.earlierUse o ⟨lo, len⟩
  | .graphUnload slot => s.graph.runs.all fun e => e.2.slot != slot || e.2.cmd.isNone
  | .tableRelease id => s.ingest.programs.all fun e => e.2.run.all fun r => !r.inputs.any fun x => x.1 == id
  | .fprogUnload slot => match Tab.look s.ingest.programs slot with
    | some g => g.run.isNone
    | none => true
  | .jobClose slot => match Tab.look s.job.jobs slot with
    | some j => j.state == .idle || j.state == .held
    | none => true
  | .embDestroy n => (s.destroyedSlices n).all fun e => s.sliceUnbound e.1
  | _ => false

/-- Take a batch of a step out of the queues and windows. -/
def State.dropBatch (s : State) (o : SampleOwner) (step : Option Nat) : State :=
  let mine := fun (x : SampleOwner) (t : Nat) => x == o && step.all fun u => u == t
  let blocks := fun (l : List SampleBlock) => l.filter fun b => !mine b.owner b.step
  let entries := fun (l : List WindowEntry) => l.filter fun e => !mine e.owner e.step
  { s with samples := { s.samples with
      queue0 := blocks s.samples.queue0
      queue1 := blocks s.samples.queue1
      window0 := entries s.samples.window0
      window1 := entries s.samples.window1
      left := s.samples.left.filter fun x => !mine x.1 x.2.2.1 } }

/-- Stop the feature programs that a job's Prepare phases run, and forget how the others ended. -/
def State.dropPrepares (s : State) (slot : Nat) : State :=
  let mine := fun (g : ProgSlot) => g.run.any fun r => r.step.any fun x => x.1 == slot
  { s with ingest := { s.ingest with
      programs := Tab.mapVal (fun _ g => if mine g then { g with run := none } else g) s.ingest.programs
      ended := s.ingest.ended.filter fun e => e.1 != slot
      waiting := s.ingest.waiting.filter fun e => e.1 != slot } }

/-- Empty the job's slot and release its hold area, zeroed if protected (R54, R486). -/
def State.closeJob (s : State) (slot : Nat) : State :=
  match Tab.look s.job.jobs slot with
  | none => s
  | some j =>
    let wipe := s.memory.regions.filter fun e => e.2.owner == j.id && e.2.key.isSome
    let s := wipe.foldl (fun t e => t.zero e.2.base e.2.size) s
    let regions := (Tab.del s.memory.regions (4096 + slot)).map fun e =>
      if e.2.owner = j.id then (e.1, { e.2 with key := none }) else e
    let s := (s.dropPrepares slot).log 6 0 2 0xFFFF j.id noJob []
    { s with
      memory := { s.memory with regions := regions }
      emb := { s.emb with scatter := Tab.del s.emb.scatter slot }
      relay := { s.relay with
        planes := s.relay.planes.filter fun x => x.job != j.id
        early := s.relay.early.filter fun x => x.body.job != j.id }
      job := { s.job with jobs := Tab.del s.job.jobs slot }
      samples := { (s.dropBatch (.job slot) none).samples with
        pipes := Tab.del s.samples.pipes slot
        restored := Tab.del s.samples.restored slot
        ready := s.samples.ready.filter fun x => x.1 != slot }
      sec := { s.sec with jobKeys := s.sec.jobKeys.filter fun k => k.slot != slot,
                          generations := Tab.del s.sec.generations slot } }

/-- The last part of a drained command, before it completes. -/
def State.drainEffect (s : State) (o : RunOp) : State :=
  match o.kind with
  | .regionRelease lo len wipe => if wipe then s.zero lo len else s
  | .graphUnload slot =>
    { s.unguard .graph slot with graph := { s.graph with graphs := Tab.del s.graph.graphs slot } }
  | .tableRelease id => s.unguard .table id
  | .fprogUnload slot =>
    { s.unguard .program slot with ingest := { s.ingest with programs := Tab.del s.ingest.programs slot } }
  | .jobClose slot => s.closeJob slot
  | .embDestroy n => s.destroySlices n
  | _ => s

/-- Complete the waiting commands whose condition holds, in start order, until none is left or the fuel is spent. -/
def State.wakeN : Nat → State → State
  | 0, s => s
  | k + 1, s =>
    match s.running.find? (fun o => s.drained o) with
    | none => s
    | some o => State.wakeN k ((s.drainEffect o).finish o Status.ok 0)

/-- Complete every waiting command whose condition holds. -/
def State.wake (s : State) : State := State.wakeN s.running.length s

end Sys2Proof.Machine
end

