-- ==== Sys2Proof/Machine/Fences.lean ====
section
/-! DEFINITION. Strikes, remedies, fences, migration and escalation (R23, R28, R29, R50, R51, R312, R444 to R456, R561). -/

namespace Sys2Proof.Machine

/-! ## Jobs' votes -/

/-- Record a failure cause of a job's running attempt; the rank votes FAIL with it (R45). -/
def Job.blame (j : Job) (cause : Status) (detail : Nat) : Job :=
  { j with faults := j.faults ++ [⟨j.ranks.headD 0, false, cause, detail, none, false⟩] }

def State.setJob (s : State) (slot : Nat) (j : Job) : State :=
  { s with job := { s.job with jobs := Tab.put s.job.jobs slot j } }
def State.onJob (s : State) (slot : Nat) (f : Job → Job) : State :=
  match Tab.look s.job.jobs slot with
  | some j => s.setJob slot (f j)
  | none => s

/-! ## Migration (R23, R50, R51, R312) -/

/-- The ready-list key of a task: home die * 8 + priority, from its task record (R299, R309). -/
def GraphSlot.readyKey (g : GraphSlot) (task : Nat) : Nat :=
  let o := leField g.image 32 4 + 128 * task
  leField g.image (o + 6) 1 % 2 * 8 + leField g.image (o + 1) 1 % 8

def State.readyKeyOf (s : State) (run task : Nat) : Nat :=
  match Tab.look s.graph.runs run with
  | none => 0
  | some g => match Tab.look s.graph.graphs g.slot with
    | none => 0
    | some x => x.readyKey task

/-- A granted task returns to the head of its ready list with its generation raised by one. A task that would be migrated
a 256th time is not: its rank votes FAIL with TEST_FAIL (R51). -/
def State.requeue (s : State) (run task : Nat) : State :=
  match Tab.look s.graph.runs run with
  | none => s
  | some g =>
    match Tab.look g.tasks task with
    | none => s
    | some t =>
      if t.gen = 255 then
        match g.job with
        | some slot => s.onJob slot fun j => j.blame Status.testFail 0
        | none => s
      else
        let home := s.readyKeyOf run task
        let g' := { g with
          tasks := Tab.put g.tasks task { t with place := .ready, gen := t.gen + 1 }
          direct := g.direct.filter fun x => x.1 != task && x.2.1 != task }
        let q := { s.graph with
          runs := Tab.put s.graph.runs run g'
          ready := Tab.put s.graph.ready home ((run, task) :: Tab.get [] s.graph.ready home) }
        ({ s with graph := q } : State).bump Reg.arrMigrations 1

/-- Take one entry of a fenced unit back (R23, R312). Where the entry is held for the consumer of a DIRECT gather, the
gather is migrated with it (R340). -/
def State.migrateOne (s : State) (e : Nat × Nat × Nat × Nat) : State :=
  match (Tab.look s.graph.runs e.1).bind fun g => (Tab.look g.tasks e.2.1).map fun t => (g, t) with
  | none => s
  | some (g, t) =>
    match t.place with
    | .granted _ => s.requeue e.1 e.2.1
    | _ => match g.direct.find? fun x => x.2.1 == e.2.1 with
      | none => s
      | some x =>
        let drop := fun (_ : Nat) (l : List (Nat × Nat × Nat × Nat)) => l.filter fun y => !(y.1 == e.1 && y.2.1 == x.1)
        let s : State := { s with graph := { s.graph with
          units := (Tab.mapVal drop s.graph.units).filter fun y => !y.2.isEmpty
          runs := Tab.put s.graph.runs e.1 { g with direct := g.direct.erase x } } }
        (s.requeue e.1 x.1).bump Reg.arrMigrations 1

/-- The stripes a fenced feature lane runs start again on other lanes (R160). -/
def State.dropStripes (s : State) (lane : Nat) : State :=
  let hits := fun (g : ProgSlot) => match g.run with
    | some r => (r.started.filter fun x => x.2 == lane).length
    | none => 0
  let total := (s.ingest.programs.map fun e => hits e.2).foldl (· + ·) 0
  let drop := fun (_ : Nat) (g : ProgSlot) => { g with
    rerun := g.rerun + hits g
    run := g.run.map fun r => { r with started := r.started.filter fun x => x.2 != lane } }
  let s : State := { s with ingest := { s.ingest with programs := Tab.mapVal drop s.ingest.programs } }
  s.bump Reg.feaStripesRerun total

/-- The sample a fenced decode lane holds starts again on another lane (R249). -/
def State.dropSample (s : State) (lane : Nat) : State :=
  let mine := fun (e : WindowEntry) => e.lane == some lane && e.result.isNone
  let drop := fun (e : WindowEntry) => if mine e then { e with lane := none } else e
  let n := ((s.samples.window0 ++ s.samples.window1).filter mine).length
  let q := { s.samples with window0 := s.samples.window0.map drop, window1 := s.samples.window1.map drop }
  ({ s with samples := q } : State).bump Reg.smpLaneRestart n

/-- Everything a fenced unit runs or holds staged goes back, the staged task first so that the running one heads the
list (R312). Duplicate runs on it are queued again. -/
def State.evict (s : State) (unit : Nat) : State :=
  let held := (Tab.get [] s.graph.units unit).reverse
  let requeue := fun (d : DupRun) => if d.on = some unit then { d with on := none } else d
  let runs := Tab.mapVal (fun _ (g : GraphRun) => { g with dups := g.dups.map requeue }) s.graph.runs
  let s : State := { s with graph := { s.graph with
    units := Tab.del s.graph.units unit
    runs := runs
    transfers := Tab.del s.graph.transfers unit
    halves := if unitType unit = 1 then s.graph.halves.filter fun e => e.1 / 4 != unitIndex unit else s.graph.halves } }
  let s := held.foldl (fun t e => t.migrateOne e) s
  if unitType unit = 2 then s.dropStripes (unitIndex unit)
  else if unitType unit = 3 then s.dropSample (unitIndex unit)
  else s

/-! ## Fault fences -/

/-- Clear the local store of an array (R480). -/
def State.clearLocal (s : State) (unit : Nat) : State :=
  if unitType unit = 1 then
    let r := localRange (unitIndex unit)
    s.zero r.lo r.len
  else s

/-- The units a fence covers, ascending. -/
def Fence.units (f : Fence) : List Nat :=
  ([1, 2, 3, 4, 5, 6, 7].flatMap unitsOf).filter fun u => f.covers u

/-- Fence the module at package level (R28, level 5): ports go down, and GLB shows the first cause. -/
def State.fencePackage (s : State) (cause : Nat) : State :=
  if s.packageFenced then s
  else
    let s := Fence.package.units.foldl (fun t u => t.evict u) s
    let s := { s with
      integrity := { s.integrity with fences := s.integrity.fences ++ [Fence.package] }
      glb := { s.glb with cause := if s.glb.cause = 0 then cause else s.glb.cause } }
    (s.log 4 3 3 0xFFFF noJob noJob (leBytes 1 cause)).alert 1

/-- Some unit type has no unit free of fault fences (R29). -/
def State.exhausted (s : State) : Bool := [1, 2, 3, 4, 5, 6, 7].any fun t => (s.inService t).isEmpty

/-- Escalate to a package fence when a fault fence has left no unit of some type (R29). -/
def State.escalate (s : State) : State := if s.exhausted then s.fencePackage 4 else s

/-- Place a fault fence: the units' work migrates, confidential contents are cleared, the ledger and the alert record
it, a region or die fence sets its GLB error bit (R23, R28, R480). -/
def State.placeFence (s : State) (f : Fence) (unit : Nat) (data : List Byte) : State :=
  if s.integrity.fences.contains f then s
  else
    let us := f.units
    let s := us.foldl (fun t u => t.evict u) s
    let s := if s.confidential then us.foldl (fun t u => t.clearLocal u) s else s
    let s := { s with integrity := { s.integrity with fences := s.integrity.fences ++ [f] } }
    let s := (us.filter fun u => unitType u == 6).foldl (fun t u => t.moveBank (unitIndex u)) s
    let s := (s.log 4 2 3 unit noJob noJob data).alert 1
    let s := match f with
      | .region _ => s.error 1
      | .die n =>
        let p := if n = 0 then { s.pwr with die0 := 1 } else { s.pwr with die1 := 1 }
        ({ s with pwr := p } : State).error 1
      | _ => s
    s.escalate

/-- Fault-fence one unit (R28, level 1). -/
def State.fenceUnit (s : State) (unit : Nat) : State := s.placeFence (.unit unit) unit []

/-! ## Strikes (R444, R450, R451, R456) -/

/-- A strike is live until the strike clock has advanced 10^6 beyond it (R451). -/
def State.strikeLive (s : State) (k : Strike) : Bool := decide (s.integrity.clock < k.clock + 1000000)

/-- Live strikes of what was charged. -/
def State.liveOn (s : State) (c : Charged) : Nat :=
  (s.integrity.strikes.filter fun k => k.on == c && s.strikeLive k).length

def State.liveUnit (s : State) (unit : Nat) : Nat := s.liveOn (.unit unit)

/-- OBSERVE mode: some open job has a rank_count above 256 (R452). -/
def Job.rankCount (j : Job) : Nat := leField j.image 16 4
def State.observe (s : State) : Bool := s.job.jobs.any fun e => decide (256 < e.2.rankCount)

/-- A unit with one or two live strikes is observed in OBSERVE mode (R455). -/
def State.observed (s : State) (unit : Nat) : Bool :=
  s.observe && decide (1 ≤ s.liveUnit unit) && decide (s.liveUnit unit ≤ 2)

/-- The array divider its remedy calls for (R453, R455). -/
def State.wantedDivider (s : State) (unit : Nat) : Nat :=
  if s.observe then 8
  else match s.liveUnit unit with
    | 0 => 8
    | 1 => 10
    | _ => 12

/-- The offset in mV that a rail's units call for: 15 mV for each live strike on it, up to 45 (R453, R455). -/
def State.wantedOffset (s : State) (rail : Nat) : Nat :=
  if s.observe then 0
  else
    min 45 (15 * (([1, 2, 3, 4].flatMap unitsOf).filter fun u => unitRail u == some rail).foldl
      (fun n u => n + s.liveUnit u) 0)

def State.divider (s : State) (unit : Nat) : Nat := Tab.get 8 s.graph.divider unit
def State.offset (s : State) (rail : Nat) : Nat := Tab.get 0 s.pwr.offsets rail

/-- Set an array's divider if the array runs nothing; otherwise the change waits for the end of its task (R292, R452,
R559). -/
def State.setDivider (s : State) (unit d : Nat) : State :=
  if s.divider unit = d then { s with graph := { s.graph with dividerNext := Tab.del s.graph.dividerNext unit } }
  else if (Tab.get [] s.graph.units unit).isEmpty then
    { s with graph := { s.graph with
      divider := if d = 8 then Tab.del s.graph.divider unit else Tab.put s.graph.divider unit d
      dividerNext := Tab.del s.graph.dividerNext unit } }
  else { s with graph := { s.graph with dividerNext := Tab.put s.graph.dividerNext unit d } }

/-- Bring an array's divider to its remedy. When the remedy rises the rail steps first, so a higher divider waits until
the rail stands at its offset; when it falls the divider moves first (R561). -/
def State.remedyArray (s : State) (unit : Nat) : State :=
  let want := s.wantedDivider unit
  let rail := unitIndex unit / 4
  if s.divider unit < want ∧ s.offset rail < s.wantedOffset rail then s else s.setDivider unit want

/-- Set remedies again from the live strikes (R452, R454); rail steps follow one at a time (RAIL_STEP_COMPLETE). -/
def State.remedies (s : State) : State :=
  let touched := (s.integrity.strikes.filterMap fun k => match k.on with
    | .unit u => if unitType u = 1 then some u else none
    | _ => none) ++ s.graph.divider.map (fun e => e.1) ++ s.graph.dividerNext.map (fun e => e.1)
  touched.eraseDups.foldl (fun t u => t.remedyArray u) s

/-- The bytes of a strike's ledger entry: cause and strike clock (R521). -/
def strikeData (cause clock : Nat) : List Byte := leBytes 1 cause ++ leBytes 8 clock

/-- The unit ID shown for what was charged, 0xFFFF where it is no unit. -/
def Charged.unitId : Charged → Nat
  | .unit u => u
  | _ => 0xFFFF

/-- Record a strike (R451), set the remedy, and fence a unit on its third live one (R453, R456); a page or
granule with three is retired by PAGE_RETIREMENT (R130). A strike on the unit under test marks the test (R469, R470). -/
def State.strike (s : State) (c : Charged) (cause : Nat) : State :=
  let k : Strike := ⟨c, cause, s.integrity.clock⟩
  let t := s.integrity.testing.map fun q => match c with
    | .unit u => if testCovers q.unit u then { q with struck := true } else q
    | _ => q
  let s := { s with integrity := { s.integrity with strikes := s.integrity.strikes ++ [k], testing := t } }
  let s := s.log 4 1 1 c.unitId noJob noJob (strikeData cause s.integrity.clock)
  let s := s.remedies
  if 3 ≤ s.liveOn c then
    match c with
    | .unit u => s.fenceUnit u
    | .common d => s.placeFence (.die d) 0xFFFF []
    | _ => s
  else s

/-- What a memory address is charged to (R444): its 4 KiB page, its 64 KiB granule, or the array of a local store. -/
def chargeOf (a : Nat) : Option Charged :=
  match (Range.mk a 1).space with
  | some (.hbm _) => some (.page (a / 4096 * 4096))
  | some (.serai _) => some (.granule (a / 65536 * 65536))
  | some (.localStore n) => some (.unit (unitId 1 n))
  | _ => none

/-- A parity error: it is counted, charged and struck (R444). -/
def State.parity (s : State) (c : Option Charged) : State :=
  let s := s.bump Reg.intParityErrors 1
  match c with
  | some (.common d) => (s.error 0).strike (.common d) 2
  | some x => s.strike x 2
  | none => s

/-- A source access fails parity outside a step, and again in the second run: each error is counted and charged (R444,
R445). -/
def State.readTwice (s : State) (a : Nat) : State := (s.parity (chargeOf a)).parity (chargeOf a)

/-- A command whose source reads meet poisoned data ends with DATA_POISONED, after the second failing read of R445 and
R446; `spoil` is what becomes undefined then. -/
def State.orPoisoned (s : State) (p : Packet) (reads : List Range) (spoil : State → State) (go : State → State) : State :=
  match s.poisonedIn reads with
  | some a => (spoil (s.readTwice a)).complete p Status.dataPoisoned a 0 0
  | none => go s

end Sys2Proof.Machine
end

