-- ==== Sys2Proof/Machine/Rings.lean ====
section
/-! DEFINITION. Command rings, status records, interrupts and ring registers: rows PACKET_CONSUMED to CMD_CQ_BASE_WRITE,
NOP and ABORT (R73 to R96). -/

namespace Sys2Proof.Machine

/-! ## Host access -/

/-- A write of BAR0 or BAR2 reaches the device: the function is in D0 with its link up, and in RUN the T bit is needed
(R484, R570). -/
def State.mmioOpen (s : State) : Bool := s.glb.linkUp && !s.glb.d3hot
def State.teeBlocked (s : State) (tee : Bool) : Bool := s.sec.tdi == .run && !tee

/-- Carry out a host access to BAR0 or BAR2, or drop and count it (R484). -/
def State.hostAccess (s : State) (tee : Bool) (f : State → State) : State :=
  if !s.mmioOpen then s
  else if s.teeBlocked tee then s.bump Reg.secNonteeDropped 1
  else f s

/-! ## Ring memory (R73 to R78) -/

/-- BAR2 offset of a slot. -/
def slotOffset (ring slot : Nat) : Nat := ring * 0x40000 + slot % 256 * 64

/-- The 64 bytes stored in a slot. -/
def State.slotBytes (s : State) (ring slot : Nat) : List Byte := Memory.readN s.bar2 (slotOffset ring slot) 64

/-- The bytes of `n` consecutive slots, slot numbers counting modulo 256 (R75). -/
def State.slotsFrom (s : State) (ring slot : Nat) : Nat → List Byte
  | 0 => []
  | n + 1 => s.slotBytes ring slot ++ State.slotsFrom s ring (slot + 1) n

/-- Store host bytes in BAR2: only the 256 slots of a ring's window hold anything (R73). -/
def State.storeBar2 (s : State) (ring : Nat) (stores : List (Nat × Byte)) : State :=
  let put := fun (m : Tab Byte) (e : Nat × Byte) =>
    if e.1 < 0x4000 then Memory.write m (ring * 0x40000 + e.1) e.2 else m
  { s with bar2 := stores.foldl put s.bar2 }

/-- The slot at the consume position is a header: its stored PHASE matches the expected phase (R78). -/
def State.headerThere (s : State) (n : Nat) : Bool :=
  let r := s.ring n
  bitOf (leField (s.slotBytes n r.head) 2 1) 0 == r.phase

/-- Copy the packet at the consume position and advance (R75, R78, R79). -/
def State.consume (s : State) (n : Nat) : State :=
  let r := s.ring n
  let len := leField (s.slotBytes n r.head) 4 1 % 64
  let p : Packet := ⟨n, r.seq, r.era, s.slotsFrom n r.head (1 + len)⟩
  let next := r.head + 1 + len
  s.setRing n { r with
    head := next % 256, phase := if 256 ≤ next then !r.phase else r.phase, seq := r.seq + 1, staged := r.staged ++ [p] }

/-- Start the packets at the head of a ring whose opcode is in no row: each is refused at its start (R84, checks 1 and
2), or completes with UNIT_FENCED after a failed start-up (R568). -/
def State.refuseUnknown (s : State) (n : Nat) : Nat → State
  | 0 => s
  | k + 1 =>
    match (s.ring n).staged.head? with
    | none => s
    | some p =>
      if knownOpcode p.opcode || !s.startable p then s
      else if s.stageRuns p [] then
        let f := (firstFail [p.headerFail, some ⟨Status.badOpcode, 0⟩]).getD ⟨Status.badOpcode, 0⟩
        State.refuseUnknown ((s.unstage p).refuse p f) n k
      else if s.startFault then
        State.refuseUnknown ((s.unstage p).fallDue (s.recordOf p Status.unitFenced 0)) n k
      else s

/-- Refuse the unknown packets at the heads of all rings. -/
def State.settle (s : State) : State :=
  (List.range 16).foldl (fun t n => t.refuseUnknown n (t.ring n).staged.length) s

/-- The model's environment: bytes the host has put in its own memory. -/
def State.storeHost (s : State) (stores : List (Nat × Byte)) : State :=
  { s with host := stores.foldl (fun m e => Memory.write m e.1 e.2) s.host }

/-- PACKET_CONSUMED (R78): host stores into the ring's window, then the look at the consume position. -/
def execPacketConsumed (ring : Nat) (stores hostStores : List (Nat × Byte)) (tee : Bool) (s : State) :
    Host.Outcome State Fault Refusal :=
  .next ((s.storeHost hostStores).hostAccess tee fun s =>
    if 16 ≤ ring then s
    else
      let s := s.storeBar2 ring stores
      if (s.ring ring).state == .active && s.headerThere ring then (s.consume ring).settle else s)

/-! ## Status records (R87, R88, R90) -/

/-- The 32 bytes of a record (R87). -/
def Record.bytes (r : Record) (phase : Bool) : List Byte :=
  leBytes 8 r.handle.toNat ++ leBytes 4 r.seq.toNat ++ leBytes 2 r.opcode.toNat ++ leBytes 2 r.status.toNat ++
    leBytes 8 r.detail.toNat ++ leBytes 4 r.time.toNat ++ leBytes 1 r.ring ++ leBytes 2 0 ++
    leBytes 1 (if phase then 0x80 else 0)

/-- Move the retired count up over written sequence numbers (R79). -/
def advanceRetired (retired : Word) (written : List Word) : Nat → Word × List Word
  | 0 => (retired, written)
  | k + 1 =>
    if written.contains retired then advanceRetired (retired + 1) (written.filter fun w => w != retired) k
    else (retired, written)

/-- The packet's own ring counts a written record, if it belongs to the ring's latest enable (R79). -/
def State.retire (s : State) (r : Record) : State :=
  let h := s.ring r.home
  if r.era = h.era then
    let w := advanceRetired h.retired (h.written ++ [r.seq]) (h.written.length + 1)
    s.setRing r.home { h with retired := w.1, written := w.2 }
  else s

/-- Records and host-window writes of a confidential job wait until the TDI is in RUN (R481); all of them wait in D3hot
(R570). -/
def State.recordBlocked (s : State) (r : Record) : Bool :=
  s.glb.d3hot || (match s.findJob r.job with
    | some (_, j) => j.confidential && s.sec.tdi != .run
    | none => false)

/-- Write one record at the tail of a ring's completion ring (R86 to R88, R90). Bus addresses of 2^47 and above cannot
be reached (R107). -/
def State.writeRecord (s : State) (n : Nat) (r : Record) : State :=
  let q := s.ring n
  let a := q.baseInForce + 32 * q.cqTail
  let s := if a + 32 ≤ 2 ^ 47 then s.store (hostWindow + a) (r.bytes q.cqPhase) else s
  let tail := q.cqTail + 1
  let wraps := decide (q.entries ≤ tail)
  let count := if r.noIrq then q.irqCount else q.irqCount + 1
  let since := if r.noIrq then q.irqSince else some (q.irqSince.getD s.clk)
  let s := s.setRing n { q with
    due := q.due.drop 1, cqTail := if wraps then 0 else tail, cqPhase := if wraps then !q.cqPhase else q.cqPhase,
    irqCount := count, irqSince := since }
  (s.retire r).moderate n r.irqNow

/-- Write the ring's oldest due record if it may be written now; a redirected ring hands it to the held store. -/
def State.writeDue (s : State) (n : Nat) : State :=
  let q := s.ring n
  match q.due with
  | [] => s
  | r :: rest =>
    if q.redirect then
      if s.held.length < heldCapacity then { s.setRing n { q with due := rest } with held := s.held ++ [r] } else s
    else if q.state == .clearing || !q.room || s.recordBlocked r then s
    else s.writeRecord n r

def State.writeDues (s : State) (n : Nat) : Nat → State
  | 0 => s
  | k + 1 => State.writeDues (s.writeDue n) n k

/-- STATUS_RECORD_WRITE (R87): packets that waited for the record may then be refused at their start. -/
def execStatusRecordWrite (ring : Nat) (s : State) : Host.Outcome State Fault Refusal :=
  .next (if 16 ≤ ring then s else (s.writeDue ring).settle)

/-- INTERRUPT_MODERATION_TIMEOUT (R90): the TIME condition of a ring. -/
def execInterruptModerationTimeout (ring : Nat) (s : State) : Host.Outcome State Fault Refusal :=
  .next (if 16 ≤ ring then s else s.moderate ring false)

/-! ## Ring registers (R74, R79, R86, R88, R89, R100) -/

/-- The RW bits of CMD_RING_CTRL. -/
def ctrlMask : Word := 0x00003F1D
/-- m from 6 to 16; other values of LOG2_ENTRIES act as 6 (R100). -/
def Ring.log2Written (r : Ring) : Nat :=
  let m := r.cqSize.toNat % 32
  if 6 ≤ m ∧ m ≤ 16 then m else 6
def Ring.baseWritten (r : Ring) : Nat := r.cqBaseLo.toNat + 2 ^ 32 * r.cqBaseHi.toNat

/-- A write to CMD_RING_CTRL that leaves ENABLE as it is; the conditions of R90 are looked at again. -/
def State.writeCtrl (s : State) (n : Nat) (v : Word) : State :=
  (s.setRing n { s.ring n with ctrl := v &&& ctrlMask }).moderate n false

/-- CMD_RING_ENABLE (R74, R79, R86): ENABLE from 0 to 1. Rings may be enabled from stage 4 (R566). -/
def execCmdRingEnable (ring : Nat) (v : Word) (tee : Bool) (s : State) : Host.Outcome State Fault Refusal :=
  .next (s.hostAccess tee fun s =>
    let r := s.ring ring
    if 16 ≤ ring ∨ r.enabled ∨ v.toNat % 2 = 0 ∨ s.glb.stage < 4 then s
    else
      let keep := fun (k : Nat) (_ : Byte) => !(decide (ring * 0x40000 ≤ k) && decide (k < (ring + 1) * 0x40000))
      State.setRing { s with bar2 := Tab.keep keep s.bar2 } ring { r with
        ctrl := v &&& ctrlMask, state := .clearing, head := 0, phase := true, seq := 0, retired := 0, written := [],
        era := r.era + 1, baseInForce := r.baseWritten, log2InForce := r.log2Written, cqTail := 0, cqPhase := true,
        irqCount := 0, irqSince := none })

/-- RING_CLEAR_COMPLETE (R74, R89, R96): STATE becomes ACTIVE, and the ring's held records are written first. -/
def execRingClearComplete (ring : Nat) (s : State) : Host.Outcome State Fault Refusal :=
  .next (
    let r := s.ring ring
    if 16 ≤ ring ∨ r.state ≠ .clearing then s
    else
      let mine := s.held.filter fun h => h.ring == ring
      let s := { s with held := s.held.filter fun h => h.ring != ring }
      let s := s.setRing ring { r with state := .active, redirect := false, due := mine ++ r.due }
      (s.writeDues ring (mine.length + r.due.length)).settle)

/-- CMD_RING_DISABLE (R74, R89): ENABLE from 1 to 0. Packets already consumed run to completion. -/
def execCmdRingDisable (ring : Nat) (v : Word) (tee : Bool) (s : State) : Host.Outcome State Fault Refusal :=
  .next (s.hostAccess tee fun s =>
    let r := s.ring ring
    if 16 ≤ ring ∨ !r.enabled ∨ v.toNat % 2 = 1 then s
    else s.setRing ring { r with ctrl := v &&& ctrlMask, state := .disabled })

/-- CMD_CQ_HEAD_WRITE (R88): a full completion ring is released. -/
def execCmdCqHeadWrite (ring : Nat) (v : Word) (tee : Bool) (s : State) : Host.Outcome State Fault Refusal :=
  .next (s.hostAccess tee fun s => if 16 ≤ ring then s else s.setRing ring { s.ring ring with cqHead := v })

/-- CMD_CQ_BASE_WRITE (R89): after a disable, due records go to the held store from then on. While ENABLE is 1 the
write takes effect at the next enable. -/
def execCmdCqBaseWrite (ring : Nat) (hi : Bool) (v : Word) (tee : Bool) (s : State) :
    Host.Outcome State Fault Refusal :=
  .next (s.hostAccess tee fun s =>
    if 16 ≤ ring then s
    else
      let r := s.ring ring
      let r := if hi then { r with cqBaseHi := v } else { r with cqBaseLo := v }
      s.setRing ring { r with redirect := r.redirect || !r.enabled })

/-- Take an ABORT or a packet that has not started out of its ring's waiting packets, and complete it with ABORTED. -/
def State.abortStaged (s : State) (p : Packet) : State :=
  (s.unstage p).fallDue (s.recordOf p Status.aborted 0)

/-! ## Host resets (R96, R570) -/

/-- Every ring is disabled; packets written but not consumed are discarded, and due records go to the held store. -/
def State.disableRings (s : State) (st : RingState) : State :=
  (List.range 16).foldl (fun t n =>
    let r := t.ring n
    t.setRing n { r with ctrl := r.ctrl &&& ~~~(1#32), state := st, redirect := true }) { s with bar2 := [] }

end Sys2Proof.Machine
end

