-- ==== Sys2Proof/Machine/Hash.lean ====
section
/-! DEFINITION. SHA3-512 (FIPS 202) and the CRC-32 of IEEE 802.3, which the manual names for digests and for the meter
link (R60, R519, R536), and the lengths of what other published primitives give. -/

namespace Sys2Proof.Machine

/-! ## Keccak-f[1600] -/

/-- Lane (x, y) of the 1,600-bit state: the 64 bits from bit 64 (x + 5 y) on. -/
def lane (a x y : Nat) : Nat := a >>> (64 * (x % 5 + 5 * (y % 5))) % 2 ^ 64

/-- The state with given lanes. -/
def lanes (f : Nat → Nat → Nat) : Nat := (List.range 25).foldl (fun n i => n + f (i % 5) (i / 5) <<< (64 * i)) 0

/-- A lane rotated left by n bits. -/
def rotLane (v n : Nat) : Nat := (v <<< n ||| v >>> (64 - n)) % 2 ^ 64

/-- Rotation offsets of the rho step, at index x + 5 y. -/
def rhoOffsets : List Nat :=
  [0, 1, 62, 28, 27, 36, 44, 6, 55, 20, 3, 10, 43, 25, 39, 41, 45, 15, 21, 8, 18, 2, 61, 56, 14]

/-- Round constants of the iota step. -/
def iotaConstants : List Nat :=
  [0x0000000000000001, 0x0000000000008082, 0x800000000000808A, 0x8000000080008000, 0x000000000000808B,
   0x0000000080000001, 0x8000000080008081, 0x8000000000008009, 0x000000000000008A, 0x0000000000000088,
   0x0000000080008009, 0x000000008000000A, 0x000000008000808B, 0x800000000000008B, 0x8000000000008089,
   0x8000000000008003, 0x8000000000008002, 0x8000000000000080, 0x000000000000800A, 0x800000008000000A,
   0x8000000080008081, 0x8000000000008080, 0x0000000080000001, 0x8000000080008008]

/-- Parity of column x. -/
def column (a x : Nat) : Nat := lane a x 0 ^^^ lane a x 1 ^^^ lane a x 2 ^^^ lane a x 3 ^^^ lane a x 4

def keccakTheta (a : Nat) : Nat := lanes fun x y => lane a x y ^^^ column a (x + 4) ^^^ rotLane (column a (x + 1)) 1

/-- Rho and pi together: lane (y, 2x + 3y) receives lane (x, y) rotated. -/
def keccakRhoPi (a : Nat) : Nat :=
  lanes fun x y =>
    let sx := (x + 3 * y) % 5
    rotLane (lane a sx x) (rhoOffsets.getD (sx + 5 * x) 0)

def keccakChi (a : Nat) : Nat := lanes fun x y => lane a x y ^^^ ((2 ^ 64 - 1 - lane a (x + 1) y) &&& lane a (x + 2) y)

def keccakRound (a rc : Nat) : Nat := keccakChi (keccakRhoPi (keccakTheta a)) ^^^ rc

def keccakF (a : Nat) : Nat := iotaConstants.foldl keccakRound a

/-- Absorb a block of 72 bytes. -/
def absorb (a : Nat) (block : List Byte) : Nat := keccakF (a ^^^ leNat (block.take 72))

def absorbAll : Nat → Nat → List Byte → Nat
  | 0, a, _ => a
  | n + 1, a, b => absorbAll n (absorb a (b.take 72)) (b.drop 72)

/-- SHA3-512: 64 bytes. -/
def sha3 (m : List Byte) : List Byte :=
  let gap := 72 - m.length % 72
  let pad : List Byte := if gap = 1 then [0x86] else [0x06] ++ List.replicate (gap - 2) 0 ++ [0x80]
  let b := m ++ pad
  leBytes 64 (absorbAll (b.length / 72) 0 b)

/-! ## CRC-32 -/

def crcBit : Nat → BitVec 32 → BitVec 32
  | 0, c => c
  | n + 1, c => crcBit n (if c.getLsbD 0 then (c >>> 1) ^^^ 0xEDB88320#32 else c >>> 1)

/-- CRC-32 under the IEEE 802.3 polynomial, reflected, with initial value and final inversion of all ones. -/
def crc32 (m : List Byte) : BitVec 32 :=
  ~~~(m.foldl (fun c b => crcBit 8 (c ^^^ b.zeroExtend 32)) 0xFFFFFFFF#32)

/-- The bytes of an ASCII label. -/
def ascii (s : String) : List Byte := s.toList.map fun c => BitVec.ofNat 8 c.toNat

/-! ## Outputs of the published primitives, at the lengths their standards give -/

/-- A DRBG output of n bytes (R478). -/
def drawBytes (draw n : Nat) : List Byte := slice (Config.random draw n) 0 n

/-- The ML-DSA-87 signature by the alias key. -/
def aliasSignature (firmware message : List Byte) : List Byte := slice (Config.signAlias firmware message) 0 4627

/-- The encapsulation key of a session KEM key pair. -/
def kemKey (n : Nat) : List Byte := slice (Config.kemPublic n) 0 1568

/-- ML-KEM-1024 encapsulation: ciphertext and shared secret. -/
def kemSeal (key : List Byte) (draw : Nat) : List Byte × List Byte :=
  let e := Config.kemEncapsulate key draw
  (slice e.1 0 1568, slice e.2 0 32)

/-- ML-KEM-1024 decapsulation. -/
def kemOpen (n : Nat) (cipher : List Byte) : List Byte := slice (Config.kemDecapsulate n cipher) 0 32

end Sys2Proof.Machine
end

