-- ==== Sys2Proof/Machine/Semantics.lean ====
section
/-! DEFINITION. Firmware images and the compute-semantics versions the module implements (R36, R512, R524, R528). -/

namespace Sys2Proof.Machine

/-- The bank record of the running image, and of the other bank (R510). -/
def MgtState.activeBank (m : MgtState) : Bank := if m.active = 0 then m.bankA else m.bankB
def MgtState.inactiveBank (m : MgtState) : Bank := if m.active = 0 then m.bankB else m.bankA
/-- Version and security version of an image (R524). -/
def Bank.version (b : Bank) : Nat := leField b.image 8 4
def Bank.security (b : Bank) : Nat := leField b.image 12 1
/-- The compute-semantics versions an image lists. An empty image stands for the firmware the module left the factory
with. -/
def Bank.semantics (b : Bank) : List Nat :=
  if b.image.isEmpty then Config.factorySemantics
  else (List.range (leField b.image 20 4)).map fun i => leField b.image (24 + 4 * i) 4

/-- The component of a type (1 to 3) in an image (R524). -/
def Bank.component (b : Bank) (t : Nat) : List Byte :=
  match (List.range 3).find? fun i => leField b.image (64 + 32 * i) 1 == t with
  | some i => slice b.image (leField b.image (68 + 32 * i) 4) (leField b.image (72 + 32 * i) 4)
  | none => []

/-- The digest of a component (measurement blocks 2 to 4, R483). -/
def Bank.measure (b : Bank) (t : Nat) : List Byte :=
  if b.image.isEmpty then slice (Config.factoryDigest t) 0 64 else sha3 (b.component t)

/-- The SHA3-512 of the measured firmware (R475). -/
def Bank.measured (b : Bank) : List Byte := sha3 (b.measure 1 ++ b.measure 2 ++ b.measure 3)

/-- The active firmware implements a version; while stage 1 of an activation waits, so must the staged image (R528). -/
def State.implements (s : State) (v : Nat) : Bool :=
  s.mgt.activeBank.semantics.contains v &&
    (match s.mgt.activation with
     | some a => a.stage != 1 || s.mgt.inactiveBank.semantics.contains v
     | none => true)

end Sys2Proof.Machine
end

