-- ==== Sys2Proof/Machine/Power.lean ====
section
/-! DEFINITION. Power, rails, thermal limits, start-up and host resets: rows PAGE_RETIREMENT, STRIKE_EXPIRY,
RAIL_STEP_COMPLETE to CONFIGURATION_REQUEST, POWER_CAP_SET, THROTTLE_WINDOW and the faults of R28 (R130, R454, R552 to
R573). -/

namespace Sys2Proof.Machine

/-! ## Retirement and expiry -/

/-- Remap a page or granule to the next free unit of its die's pool; accesses that failed parity during the copy are
poisoned in the pool copy. An empty pool leads to a die fence (R130, R131). -/
def State.retire' (s : State) (granule : Bool) (a : Nat) (poison : List Nat) : State :=
  let die := if granule then (if a < 0x010008000000 then 0 else 1) else (if a < 0x006000000000 then 0 else 1)
  let p := if die = 0 then s.memory.pool0 else s.memory.pool1
  let used := if granule then p.granules.length else p.pages.length
  let cap := if granule then 32 else 32768
  if cap ≤ used then s.placeFence (.die die) 0xFFFF (leBytes 8 a)
  else
    let p := if granule then { p with granules := p.granules ++ [a] } else { p with pages := p.pages ++ [a] }
    let unit := if granule then 65536 else 4096
    let bad := poison.filter fun x => x % 64 == 0 && (Range.mk x 64).inside ⟨a, unit⟩
    let m := if die = 0 then { s.memory with pool0 := p } else { s.memory with pool1 := p }
    let s : State := { s with memory := { m with poisoned := m.poisoned ++ bad } }
    let s := s.log 4 1 6 0xFFFF noJob noJob (leBytes 8 a)
    if used + 1 = cap then s.log 4 2 7 0xFFFF noJob noJob (leBytes 8 a) else s

/-- PAGE_RETIREMENT (R130): a page or granule that has its third live strike. -/
def execPageRetirement (granule : Bool) (addr : Nat) (poison : List Nat) (s : State) :
    Host.Outcome State Fault Refusal :=
  .next (
    let c : Charged := if granule then .granule addr else .page addr
    let gone := (s.memory.pool0.pages ++ s.memory.pool1.pages ++ s.memory.pool0.granules ++
      s.memory.pool1.granules).contains addr
    if s.liveOn c < 3 ∨ gone then s else s.retire' granule addr poison)

/-- STRIKE_EXPIRY (R451, R454): strikes that are no longer live are dropped, and remedies fall. -/
def execStrikeExpiry (s : State) : Host.Outcome State Fault Refusal :=
  .next (
    let keep := s.integrity.strikes.filter fun k => s.strikeLive k
    if keep.length = s.integrity.strikes.length then s
    else State.remedies { s with integrity := { s.integrity with strikes := keep } })

/-! ## The throttle (R553 to R557) -/

/-- The effective cap (R553). -/
def State.effectiveCap (s : State) : Nat := if s.pwr.brk then 600 else s.pwr.hostCap

/-- The throttle level T in force: the largest of the three (R555, R556). -/
def State.throttle (s : State) : Nat :=
  max s.pwr.capLevel (max (if s.pwr.fastLimit then 63 else 0) s.pwr.thermalLevel)

def powerCapSetCommand : Command where
  code := 0x0C04
  lens := fun n => n == 1
  job := .optional
  params := fun _ p =>
    firstFail [need (decide (600 ≤ p.param 0 2) && decide (p.param 0 2 ≤ 2000)) 64, p.spare 66 1, p.zeros 67 61]
  effect := fun p s =>
    let w := p.param 0 2
    let kept := if bitOf (p.param 2 1) 0 then some w else s.pwr.keptCap
    let s' : State := { s with pwr := { s.pwr with hostCap := w, keptCap := kept } }
    (s'.logPlain 2 0 1 (leBytes 2 s.pwr.hostCap ++ leBytes 2 w)).enroll p (.capSet s.pwr.hostCap) [] 0

/-- POWER_CAP_SET (R557): it completes once the cap loop has used the new cap. -/
def execPowerCapSet (p : Packet) (s : State) : Host.Outcome State Fault Refusal := .next (powerCapSetCommand.start p s)

/-- Complete the cap commands the loop has now used. -/
def State.capUsed (s : State) : State :=
  (s.running.filter fun o => match o.kind with
    | .capSet _ => true
    | _ => false).foldl (fun t o => t.finish o Status.ok (match o.kind with
      | .capSet w => w
      | _ => 0)) s

/-- CAP_LOOP_TICK (R555): `want` is the lowest level whose predicted power keeps the effective cap, `unmet` that level 63
does not. The level rises by any amount and falls by at most 8. -/
def execCapLoopTick (want : Nat) (unmet : Bool) (s : State) : Host.Outcome State Fault Refusal :=
  .next (
    if s.glb.stage < 3 then s
    else
      let w := if unmet then 63 else min want 63
      let level := if s.pwr.capLevel ≤ w then w else max w (s.pwr.capLevel - 8)
      let fresh := unmet && !s.pwr.capUnmet
      let s := { s with pwr := { s.pwr with capLevel := level, capUnmet := unmet } }
      let s := if fresh then (s.logPlain 2 1 2 (leBytes 2 s.effectiveCap)).error 4 else s
      let s := if 0 < s.throttle then s.bump Reg.pwrThrottleMs 1 else s
      s.capUsed)

/-- FAST_LIMITER_TRIP (R555). -/
def execFastLimiterTrip (s : State) : Host.Outcome State Fault Refusal :=
  .next (if s.pwr.fastLimit then s
    else State.bump { s with pwr := { s.pwr with fastLimit := true } } Reg.pwrExcursions 1)

/-- FAST_LIMITER_RELEASE (R555): the cap loop takes over. -/
def execFastLimiterRelease (s : State) : Host.Outcome State Fault Refusal :=
  .next { s with pwr := { s.pwr with fastLimit := false } }

/-- PWR_BRK_ASSERT (R556): level 63 at once, and an effective cap of 600 W; one ledger entry. -/
def execPwrBrkAssert (s : State) : Host.Outcome State Fault Refusal :=
  .next (if s.pwr.brk then s
    else State.logPlain { s with pwr := { s.pwr with brk := true, capLevel := 63 } } 2 1 3 (leBytes 2 600))

/-- PWR_BRK_RELEASE (R556): the effective cap returns to the host cap. -/
def execPwrBrkRelease (s : State) : Host.Outcome State Fault Refusal :=
  .next (if s.pwr.brk then
      State.logPlain { s with pwr := { s.pwr with brk := false } } 2 0 4 (leBytes 2 s.pwr.hostCap)
    else s)

/-- THROTTLE_WINDOW (R554): a new run of 64 windows begins. The throttle changes timing only, and no unit's work is
counted in windows here, so nothing else changes. -/
def execThrottleWindow (s : State) : Host.Outcome State Fault Refusal := .next s

/-! ## Rails (R560, R561) -/

/-- Arrays of a cluster rail. -/
def railArrays (rail : Nat) : List Nat := if rail < 36 then (List.range 4).map fun i => unitId 1 (4 * rail + i) else []

/-- RAIL_STEP_COMPLETE (R561): a rail moves one 15 mV step toward the offset its units call for. It steps down only once
its arrays' dividers have moved; the dividers that waited for it move when it stands at its offset. -/
def execRailStepComplete (rail : Nat) (s : State) : Host.Outcome State Fault Refusal :=
  .next (
    let want := s.wantedOffset rail
    let have_ := s.offset rail
    let put := fun (s : State) (v : Nat) =>
      let offs := if v = 0 then Tab.del s.pwr.offsets rail else Tab.put s.pwr.offsets rail v
      ({ s with pwr := { s.pwr with offsets := offs } } : State)
    if 52 ≤ rail ∨ want = have_ then s
    else if have_ < want then
      (railArrays rail).foldl (fun t u => t.remedyArray u) (put s (have_ + 15))
    else if (railArrays rail).all fun u => s.divider u == s.wantedDivider u then put s (have_ - 15)
    else s)

/-- RAIL_OUT_OF_REGULATION (R561): rails 0 to 35 cluster rails, 36 to 51 lane-group rails, 52 and 53 common-domain rails
of AD_0 and AD_1, 54 the port-die rail, 55 to 66 the HBM rails. The HBM rail of a stack is taken to fence its die. -/
def execRailOutOfRegulation (rail : Nat) (s : State) : Host.Outcome State Fault Refusal :=
  .next (
    if 67 ≤ rail then s
    else
      let s := (s.error 3).logPlain 2 2 5 (leBytes 1 rail)
      if rail < 36 then s.placeFence (.cluster rail) (unitId 8 rail) []
      else if rail < 52 then
        (([2, 3, 4].flatMap unitsOf).filter fun u => unitRail u == some rail).foldl (fun t u => t.fenceUnit u) s
      else if rail < 54 then s.placeFence (.die (rail - 52)) 0xFFFF []
      else if rail = 54 then s.fencePackage 7
      else s.placeFence (.die ((rail - 55) / 6)) 0xFFFF [])

/-! ## Sensors and heat (R513, R563 to R565) -/

/-- Die sensors are 0 to 32, HBM sensors 33 to 44 (R513). -/
def dieSensors : List Nat := List.range 33
def hbmSensors : List Nat := (List.range 12).map (· + 33)

/-- Some die sensor is at `die` degrees or more, or some HBM sensor at `hbm` or more (R563), by the latest samples. -/
def State.hot (s : State) (die hbm : Int) : Bool :=
  (dieSensors.any fun i => decide (16 * die ≤ Tab.get 0 s.mgt.sensors i)) ||
    hbmSensors.any fun i => decide (16 * hbm ≤ Tab.get 0 s.mgt.sensors i)

/-- The thresholds of R563 for a sensor, in 1/16 degree, with the severity of the entry a crossing writes. -/
def sensorLimits (i : Nat) : List (Int × Nat) :=
  if i ≤ 32 then [(1600, 1), (1680, 2), (1840, 3)]
  else if i ≤ 44 then [(1520, 1), (1600, 2), (1760, 3)]
  else if i = 45 then [(641, 1)]
  else []

/-- Write one SENSOR entry for each threshold that the new sample has crossed (R563). -/
def State.crossings (s : State) (i : Nat) (old new : Int) : State :=
  (sensorLimits i).foldl (fun t l =>
    if decide (old < l.1) == decide (new < l.1) then t
    else
      let t := t.logPlain 7 l.2 1 (leBytes 2 i ++ leBytes 4 (unsignedOf 32 new))
      if l.2 ≥ 2 ∧ l.1 ≤ new then t.error 2 else t) s

/-- Take in one sample of a sensor. -/
def State.sample (s : State) (i : Nat) (v : Int) : State :=
  let old := Tab.get 0 s.mgt.sensors i
  let m := { s.mgt with
    sensors := Tab.put s.mgt.sensors i v, sums := Tab.put s.mgt.sums i (Tab.get 0 s.mgt.sums i + v) }
  State.crossings { s with mgt := m } i old v

/-- SENSOR_SAMPLE (R513): all 187 sensors, once per millisecond. -/
def execSensorSample (values : List Int) (s : State) : Host.Outcome State Fault Refusal :=
  .next (
    if s.glb.stage < 3 ∨ values.length ≠ 187 then s
    else
      let s := (List.range 187).foldl (fun t i => t.sample i (values.getD i 0)) s
      { s with mgt := { s.mgt with samples := s.mgt.samples + 1 } })

/-- THERMAL_LOOP_TICK (R563, R564). -/
def execThermalLoopTick (s : State) : Host.Outcome State Fault Refusal :=
  .next (
    if s.glb.stage < 3 then s
    else
      let engage := s.hot 100 95
      let begin_ := engage && !s.pwr.thermalEngaged
      let on := engage || s.pwr.thermalEngaged
      let cool := (dieSensors.all fun i => decide (Tab.get 0 s.mgt.sensors i ≤ 16 * 98)) &&
        hbmSensors.all fun i => decide (Tab.get 0 s.mgt.sensors i ≤ 16 * 93)
      let level :=
        if s.hot 105 100 then 63
        else if engage then min 63 (s.pwr.thermalLevel + 4)
        else if cool then s.pwr.thermalLevel - 1
        else s.pwr.thermalLevel
      let s := { s with pwr := { s.pwr with
        thermalLevel := if on then level else 0, thermalEngaged := on && (engage || decide (0 < level)) } }
      if begin_ then (s.bump Reg.pwrThermalEvents 1).logPlain 2 1 6 (leBytes 1 level) else s)

/-- Array-die, HBM and lane rails go off: what HBM, the serai and the local stores held is lost (R562, R565). -/
def State.loseMemory (s : State) : State := { s with mem := [] }

/-- THERMAL_TRIP (R565). -/
def execThermalTrip (s : State) : Host.Outcome State Fault Refusal :=
  .next (
    if s.pwr.tripped then s
    else
      let s := (s.fencePackage 3).loseMemory
      let s := { s with pwr := { s.pwr with tripped := true, thermTrip := true, die0 := 2, die1 := 2 } }
      (s.bump Reg.pwrThermalEvents 1).logPlain 2 3 7 [])

/-- PLL_LOSS_OF_LOCK (R558): every die stops, and the module is fenced at package level. -/
def execPllLossOfLock (s : State) : Host.Outcome State Fault Refusal := .next (s.fencePackage 2)

/-- CLOCK_TREE_OR_RESET_DOMAIN_FAULT (R28, level 3): the region is fenced. -/
def execClockTreeOrResetDomainFault (region : Nat) (s : State) : Host.Outcome State Fault Refusal :=
  .next (if 4 ≤ region then s else s.placeFence (.region region) 0xFFFF (leBytes 1 region))

/-- PORT_DIE_FAULT (R28, level 5). -/
def execPortDieFault (s : State) : Host.Outcome State Fault Refusal := .next (s.fencePackage 5)

/-! ## Loss of input (R552, R562) -/

/-- What flash, fuses and the sealed meter keep when input power is lost (R451, R510, R562); everything else returns to
its reset value. Fences made at package level by a trip end with the input (R565). -/
def State.afterPowerLoss (s : State) (cause : Nat) : State :=
  let r := State.reset
  { r with
    clk := s.clk
    free := s.free
    host := s.host
    memory := { r.memory with pool0 := s.memory.pool0, pool1 := s.memory.pool1 }
    integrity := { s.integrity with
      fences := s.integrity.fences.filter fun f => f != .package
      testing := [], waiting := [], eligible := [] }
    sec := { r.sec with session := s.sec.session, kem := s.sec.kem }
    mgt := { r.mgt with
      fused := s.mgt.fused, bankA := s.mgt.bankA, bankB := s.mgt.bankB, active := s.mgt.active, floor := s.mgt.floor
      timeCtrl := s.mgt.timeCtrl, ledger := { s.mgt.ledger with buffer := [], suppressed := 0 } }
    meter := s.meter
    pwr := { r.pwr with keptCap := s.pwr.keptCap, die0 := 3, die1 := 3 }
    glb := { r.glb with offFor := cause, perst := s.glb.perst }
    sent := s.sent
    irqs := s.irqs
    pending := s.pending }

/-- POWER_FAIL (R562). -/
def execPowerFail (s : State) : Host.Outcome State Fault Refusal :=
  .next (if s.glb.started then s.afterPowerLoss 5 else s)

/-- OVERVOLTAGE (R552): the power stage switches off. -/
def execOvervoltage (s : State) : Host.Outcome State Fault Refusal :=
  .next (if s.glb.started then s.afterPowerLoss 6 else s)

/-! ## Start-up (R566 to R568) -/

/-- Progress entry 0 shows the stages completed (R91, R566). -/
def State.showStage (s : State) (state : Nat) (status : Status) : State :=
  let n := s.glb.stage
  s.setEntry 0 ⟨0, state, 6, status, 0, 0, 0, 0, n, 10, permille n 10⟩

/-- Start-up begins at stage 1 (R566). -/
def State.begin (s : State) : State :=
  let pwr := { s.pwr with die0 := 3, die1 := 3, hostCap := s.pwr.keptCap.getD 2000 }
  ({ s with glb := { s.glb with started := true, stage := 0, lastStart := s.glb.offFor }, pwr := pwr } : State).showStage 1 0

/-- INPUT_REACHES_40V (R566): a cold power-on. -/
def execInputReaches40v (s : State) : Host.Outcome State Fault Refusal :=
  .next (if s.glb.started ∨ s.glb.offFor ≠ 4 then s else s.begin)

/-- RESTART_DELAY_EXPIRY (R552, R562): the input has stayed valid for 100 ms after a power-fail or overvoltage. -/
def execRestartDelayExpiry (s : State) : Host.Outcome State Fault Refusal :=
  .next (if s.glb.started ∨ s.glb.offFor = 4 then s else s.begin)

/-- Complete with UNIT_FENCED every packet that waits at its start (R568). -/
def State.failWaiting (s : State) : State :=
  (List.range 16).foldl (fun t n =>
    (t.ring n).staged.foldl (fun u p => (u.unstage p).fallDue (u.recordOf p Status.unitFenced 0)) t) s

/-- Start-up ends in FAULT with a cause (R567): management keeps running. -/
def State.startFaults (s : State) (cause ms : Nat) : State :=
  let s := s.fencePackage cause
  let s := { s with glb := { s.glb with cause := cause, startMs := ms } }
  (s.showStage 2 Status.unitFenced).failWaiting

/-- The firmware a bank holds verifies under the vendor key and the boot rules (R512, R524, R525). An empty image stands
for the firmware the module left the factory with. -/
def State.bankBoots (s : State) (b : Bank) : Bool :=
  b.bootable && (b.image.isEmpty || (Config.vendorSigned b.image && decide (s.mgt.floor ≤ leField b.image 12 1)))

/-- The bank the boot ROM selects (R512): the higher activation count among those that verify. -/
def State.bootBank (s : State) : Option Nat :=
  let a := s.bankBoots s.mgt.bankA
  let b := s.bankBoots s.mgt.bankB
  if a && (!b || decide (s.mgt.bankB.count ≤ s.mgt.bankA.count)) then some 0
  else if b then some 1
  else none

/-- The first ledger entry after a start that followed a loss of power (R520). -/
def State.powerLossEntry (s : State) : State :=
  if s.glb.lastStart = 4 ∧ s.mgt.ledger.next = 0 then s
  else s.logPlain 8 0 2 (leBytes 8 (s.mgt.ledger.next - 1))

/-- The work of a stage that has completed. `failed` names what failed its test: dies in stage 5, regions in stage 7,
unit IDs in stage 8. -/
def State.stageWork (s : State) (n : Nat) (failed : List Nat) (ms : Nat) : State :=
  match n with
  | 1 => { s with glb := { s.glb with slotId := s.mgt.fused.slotStraps % 32 } }
  | 2 => { s with mgt := { s.mgt with active := (s.bootBank).getD 0 } }
  | 3 =>
    let s : State := { s with
      sec := { s.sec with
        session := s.sec.session + 1, kem := s.sec.kem + 1, measured := s.mgt.activeBank.measured }
      mgt := { s.mgt with time := 0, frac := 0, rate := 0, timeMode := s.mgt.timeCtrl } }
    let s := s.powerLossEntry
    (s.logPlain 1 0 2 (leBytes 1 s.mgt.active)).logPlain 1 0 3
      (leBytes 4 s.mgt.activeBank.version ++ leBytes 1 s.mgt.activeBank.security)
  | 5 => failed.foldl (fun t d => t.placeFence (.die d) 0xFFFF []) { s with pwr := { s.pwr with die0 := 0, die1 := 0 } }
  | 6 => (s.zero 0 0x6000000000).zero 0x6000000000 0x6000000000
  | 7 => failed.foldl (fun t r => t.placeFence (.region r) 0xFFFF (leBytes 1 r)) s
  | 8 => failed.foldl (fun t u => t.fenceUnit u) s
  | 10 => State.logPlain { s with glb := { s.glb with startMs := ms, uptimeS := 0 } } 1 0 1 []
  | _ => s

/-- START_UP_STAGE_COMPLETE (R566, R567). -/
def execStartUpStageComplete (failed : List Nat) (ms : Nat) (s : State) : Host.Outcome State Fault Refusal :=
  .next (
    if !s.glb.started ∨ 10 ≤ s.glb.stage ∨ s.glb.cause ≠ 0 then s
    else if s.glb.stage = 1 ∧ s.bootBank.isNone then s.startFaults 1 ms
    else
      let n := s.glb.stage + 1
      let s := s.stageWork n failed ms
      if s.packageFenced then s.startFaults (if s.glb.cause = 0 then 4 else s.glb.cause) ms
      else
        let s := { s with glb := { s.glb with stage := n } }
        s.showStage (if n = 10 then 2 else 1) 0)

/-- START_UP_STAGE_TIMEOUT (R567). -/
def execStartUpStageTimeout (ms : Nat) (s : State) : Host.Outcome State Fault Refusal :=
  .next (if !s.glb.started ∨ 10 ≤ s.glb.stage ∨ s.glb.cause ≠ 0 then s else s.startFaults 6 ms)

/-! ## Host resets (R481, R570) -/

/-- The TDI leaves RUN or its configuration: the module is LOCKED where it was ATTESTED (R479, R481). -/
def State.leaveRun (s : State) (t : TdiState) : State :=
  let s' : State := { s with sec := { s.sec with tdi := t, mode := if s.sec.mode = .attested then .locked else s.sec.mode } }
  if s.sec.tdi = .run then s'.logPlain 5 1 1 (leBytes 1 1) else s'

/-- GLB_RESET_CAUSE bits. -/
def State.resetSeen (s : State) (bit : Nat) : State :=
  s.setReg Reg.glbResetCause (s.reg Reg.glbResetCause ||| BitVec.ofNat 32 (2 ^ bit))

/-- The PCIe function returns to its reset values: configuration space, MSI-X table. -/
def State.resetFunction (s : State) : State :=
  { s with msix := [], pba := 0, glb := { s.glb with config := [] } }

/-- A function reset or PERST# ends the SPDM connection and the IDE streams and stops the TDI; an interface that was not locked stays
unlocked (R481). -/
def State.resetTdi (s : State) : State :=
  let s : State := { s with sec := { s.sec with spdm := .fresh, secured := 0, stream0 := ⟨false, false⟩, stream1 := ⟨false, false⟩ } }
  if s.sec.tdi = .unlocked then s else s.leaveRun .unlocked

/-- PERST_ASSERT (R570). -/
def execPerstAssert (s : State) : Host.Outcome State Fault Refusal :=
  .next (
    if s.glb.perst then s
    else
      let s := ((s.disableRings .disabled).resetFunction.resetTdi).resetSeen 1
      { s with glb := { s.glb with perst := true, linkUp := false, d3hot := false } })

/-- PERST_DEASSERT (R569): link training begins; the link is taken as trained. -/
def execPerstDeassert (s : State) : Host.Outcome State Fault Refusal :=
  .next { s with glb := { s.glb with perst := false, linkUp := s.glb.started && decide (1 ≤ s.glb.stage) } }

/-- FLR (R570): the link stays up. -/
def execFlr (s : State) : Host.Outcome State Fault Refusal :=
  .next (
    if !s.glb.linkUp then s
    else
      let s := ((s.disableRings .disabled).resetFunction.resetTdi).resetSeen 2
      { s with glb := { s.glb with d3hot := false } })

/-- D3HOT_ENTRY (R570): rings become CLOSED; records and host-window writes wait. -/
def execD3hotEntry (s : State) : Host.Outcome State Fault Refusal :=
  .next (
    if !s.glb.linkUp ∨ s.glb.d3hot then s
    else
      let s := s.disableRings .closed
      { s with glb := { s.glb with d3hot := true } })

/-- D3HOT_EXIT (R570): memory space returns, configuration is kept. -/
def execD3hotExit (s : State) : Host.Outcome State Fault Refusal :=
  .next (if s.glb.d3hot then State.resetSeen { s with glb := { s.glb with d3hot := false } } 3 else s)

/-- CONFIGURATION_REQUEST (R569): answered with Configuration Request Retry Status until stage 3 is complete and, as
`early` says, the 100 ms and 1.2 s moments have passed; then it completes. The layout of configuration space is PCIe's;
the model keeps the words software writes. -/
def execConfigurationRequest (write : Bool) (off : Nat) (v : Word) (early : Bool) (s : State) :
    Host.Outcome State Fault Refusal :=
  .next (
    if !s.glb.linkUp ∨ s.glb.stage < 1 then s
    else if s.glb.stage < 3 ∨ early then { s with sent := s.sent ++ [.config 2 0] }
    else if write then
      let cfg := Tab.put s.glb.config off v
      { s with glb := { s.glb with config := cfg }, sent := s.sent ++ [.config 0 0] }
    else { s with sent := s.sent ++ [.config 0 (Tab.get 0 s.glb.config off).toNat] })

end Sys2Proof.Machine
end

