-- ==== Sys2Proof/Machine/Lock.lean ====
section
/-! DEFINITION. Entering confidential mode (R479) and the values published there (R499). -/

namespace Sys2Proof.Machine

/-- Key of a published counter that a selector register chooses: its offset and the selection. -/
def selKey (off sel : Nat) : Nat := off + 2 ^ 32 * sel

/-- Totals are published rounded down to a multiple of 1,024. -/
def coarse (n : Nat) : Nat := n / 1024 * 1024

/-- The counters of the open jobs (R72), of the arrays (R297) and of the program slots (R166), by selector. -/
def State.selectedCounters (s : State) : List (Nat × Nat) :=
  (s.job.jobs.flatMap fun e =>
    [(selKey Reg.manTagRefused e.1, e.2.tagRefused.toNat), (selKey Reg.manStaleAttempt e.1, e.2.staleAttempt.toNat),
     (selKey Reg.manStaleGeneration e.1, e.2.staleGen.toNat), (selKey Reg.manReplays e.1, e.2.replays.toNat)]) ++
    (s.graph.tiles.map fun e => (selKey Reg.arrTilesLo e.1, e.2)) ++
    s.ingest.programs.flatMap fun e =>
      [(selKey Reg.feaStripesDone e.1, match e.2.run with
        | some r => r.stripes
        | none => 0)]

/-- Publish the counters (R499). -/
def State.publish (s : State) : State :=
  let all := (s.regs.map fun e => (e.1, e.2.toNat)) ++ s.wide ++ s.selectedCounters
  { s with published := all.foldl (fun t e => Tab.put t e.1 (coarse e.2)) [] }

/-- The first LOCKED trigger takes the module from OPEN to LOCKED; the values then published are those of that moment. -/
def State.lock (s : State) : State :=
  if s.sec.mode = .opened then
    let s := s.publish
    State.logPlain { s with sec := { s.sec with mode := .locked } } 5 0 1 (leBytes 1 1)
  else s

end Sys2Proof.Machine
end

