-- ==== Sys2Proof/Machine/Meter.lean ====
section
/-! DEFINITION. The weigh-house energy meter and the port die's mirror of it (R535 to R551): rows METER_LINK_POLL to
OVERRANGE, REVERIFICATION and WGH_LOG_SEL_WRITE. -/

namespace Sys2Proof.Machine

/-- The meter is fitted on FDN-8412-M alone (R1, R550). -/
def State.metered (s : State) : Bool := s.mgt.fused.build == 1

/-- A meter row has its effect only where the meter is fitted. -/
def State.ifMetered (s : State) (f : State → State) : State := if s.metered then f s else s

/-- The pulse gate is asserted while the module is in confidential mode (R544). -/
def State.gate (s : State) : Bool := s.confidential

def State.setMeter (s : State) (m : MeterState) : State := { s with meter := m }

/-- Entries that a full log may overwrite (R548). -/
def MeterEvent.replaceable (e : MeterEvent) : Bool := [1, 2, 7, 8].contains e.code

/-- Drop the first member a test accepts. -/
def dropFirst {α : Type} (f : α → Bool) : List α → List α
  | [] => []
  | a :: t => if f a then t else a :: dropFirst f t

/-- Record an event in the metrological log (R548). -/
def MeterState.record (m : MeterState) (code detail : Nat) : MeterState :=
  let e : MeterEvent := ⟨m.logNext, m.seconds, m.energy, code, detail⟩
  if m.log.length < 1024 then { m with log := m.log ++ [e], logNext := m.logNext + 1 }
  else if m.log.any MeterEvent.replaceable then
    { m with log := dropFirst MeterEvent.replaceable m.log ++ [e], logNext := m.logNext + 1 }
  else { m with logFull := true }

/-- The first open reading of the seal sets UNSEALED in non-volatile memory and logs SEAL_BROKEN (R545). -/
def MeterState.seeSeal (m : MeterState) (isOpen : Bool) : MeterState :=
  let m := { m with sealOpen := isOpen }
  if isOpen ∧ m.sealedNv = 0 then
    { m with sealedNv := 1, state := if m.state = 0 then 1 else m.state }.record 4 0
  else m

/-- A failed self-test freezes the counters in FAULT; a pass at start clears it (R546). -/
def MeterState.selfTest (m : MeterState) (failed : Option Nat) : MeterState :=
  match failed with
  | some n => { m with state := 2 }.record 6 n
  | none => m

/-- The record used at start: the valid copy with the higher sequence number (R541). -/
def MeterState.newest (m : MeterState) : Option CounterRecord :=
  if m.recordA.valid && (!m.recordB.valid || decide (m.recordB.seq ≤ m.recordA.seq)) then some m.recordA
  else if m.recordB.valid then some m.recordB
  else none

/-- Write a counter record over the older copy (R541). -/
def MeterState.save (m : MeterState) (clean : Bool) : MeterState :=
  let seq := (m.newest.map fun r => r.seq + 1).getD 0
  let r : CounterRecord := ⟨seq, m.energy, m.seconds, m.powerUps, clean, true⟩
  let intoB := m.recordA.valid && (!m.recordB.valid || decide (m.recordB.seq ≤ m.recordA.seq))
  if intoB then { m with recordB := r } else { m with recordA := r }

/-- METER_START (R540 to R546): the counter record is loaded, the power-up counted and logged, the seal sampled, the
firmware identified and the self-test run. `failed` is the number of a self-test that fails. -/
def execMeterStart (sealOpen : Bool) (version checksum : Nat) (failed : Option Nat) (s : State) :
    Host.Outcome State Fault Refusal :=
  .next (s.ifMetered fun s =>
    let m := s.meter
    let r := m.newest.getD ⟨0, m.energy, m.seconds, m.powerUps, true, true⟩
    let m := { m with
      powered := true, energy := r.energy, seconds := r.seconds, powerUps := r.powerUps + 1, unsaved := !r.clean
      state := m.sealedNv, heldPulses := 0, pulses := 0 }
    let m := if r.clean then m else m.record 3 0
    let m := m.record 1 0
    let m := if m.fwVersion = version ∧ m.checksum = checksum then m else m.record 5 (version % 256)
    let m := ({ m with fwVersion := version, checksum := checksum }.seeSeal sealOpen).selfTest failed
    s.setMeter m)

/-- COUNTER_RECORD_WRITE (R541): every 60 s, with CLEAN 0. -/
def execCounterRecordWrite (s : State) : Host.Outcome State Fault Refusal :=
  .next (s.ifMetered fun s =>
    if s.meter.powered then s.setMeter ({ s.meter with seconds := s.meter.seconds + 60 }.save false) else s)

/-- METER_POWER_FAIL (R541): the input falls below 37 V; a clean record is written and the event logged. -/
def execMeterPowerFail (s : State) : Host.Outcome State Fault Refusal :=
  .next (s.ifMetered fun s =>
    if s.meter.powered then s.setMeter { (s.meter.record 2 0).save true with powered := false } else s)

/-- SEAL_SAMPLE (R545). -/
def execSealSample (isOpen : Bool) (s : State) : Host.Outcome State Fault Refusal :=
  .next (s.ifMetered fun s => if s.meter.powered then s.setMeter (s.meter.seeSeal isOpen) else s)

/-- METER_SELF_TEST (R546): hourly. -/
def execMeterSelfTest (failed : Option Nat) (s : State) : Host.Outcome State Fault Refusal :=
  .next (s.ifMetered fun s => if s.meter.powered then s.setMeter (s.meter.selfTest failed) else s)

/-- MTR_PULSE (R539, R544): one more 0.1 Wh is counted. A pulse leaves at once, or, while the gate is asserted, pulses
are held and leave in bursts of 10 as the energy reading crosses a whole Wh. -/
def execMtrPulse (s : State) : Host.Outcome State Fault Refusal :=
  .next (s.ifMetered fun s =>
    let m := s.meter
    if !m.powered || m.state == 2 then s
    else
      let m := { m with energy := m.energy + 1 }
      let m := if s.gate then
          let h := m.heldPulses + 1
          if m.energy % 10 = 0 then { m with heldPulses := 0, pulses := m.pulses + h } else { m with heldPulses := h }
        else { m with heldPulses := 0, pulses := m.pulses + m.heldPulses + 1 }
      s.setMeter m)

/-- REVERSE (R538): logged once for each flow above 1 W of more than 1 s. -/
def execReverse (s : State) : Host.Outcome State Fault Refusal :=
  .next (s.ifMetered fun s => if s.meter.powered then s.setMeter (s.meter.record 8 0) else s)

/-- OVERRANGE (R539): logged once for each period above I_max. -/
def execOverrange (s : State) : Host.Outcome State Fault Refusal :=
  .next (s.ifMetered fun s => if s.meter.powered then s.setMeter (s.meter.record 7 0) else s)

/-- REVERIFICATION (R537, R545, R547): through the programming contacts the state returns to SEALED and VERIFIED is
logged; a change of firmware is logged first. -/
def execReverification (version checksum : Nat) (s : State) : Host.Outcome State Fault Refusal :=
  .next (s.ifMetered fun s =>
    let m := s.meter
    if !m.powered then s
    else
      let m := if m.fwVersion = version ∧ m.checksum = checksum then m else m.record 5 (version % 256)
      let m := { m with
        fwVersion := version, checksum := checksum, sealedNv := 0, state := if m.state = 2 then 2 else 0 }
      s.setMeter (m.record 9 0))

/-! ## The meter link (R536, R543) -/

/-- What the counter record shows. -/
def State.meterReading (s : State) : MeterReading :=
  let m := s.meter
  ⟨m.energy, m.seconds, m.powerUps, m.state, m.sealOpen, m.logFull, m.unsaved, s.gate, m.logNext - 1, m.log.length,
    m.ignored, m.fwVersion, m.checksum, m.serial⟩

/-- METER_LINK_POLL (R543): the port die asks for the counter record; 100 ms more without a frame. -/
def execMeterLinkPoll (s : State) : Host.Outcome State Fault Refusal :=
  .next (s.ifMetered fun s =>
    let age := if s.mirror.seen then min 0xFFFFFFFF (s.mirror.age + 100) else s.mirror.age
    { s with mirror := { s.mirror with age := age, sent := s.mirror.sent ++ [.requestCounters] } })

/-- METER_READ_REQUEST (R536): the weigh-house answers a read request for a record and ignores and counts any other
frame. -/
def execMeterReadRequest (f : MeterFrame) (crcGood : Bool) (s : State) : Host.Outcome State Fault Refusal :=
  .next (s.ifMetered fun s =>
    let m := s.meter
    if !m.powered then s
    else if !crcGood then s.setMeter { m with ignored := min 0xFFFFFFFF (m.ignored + 1) }
    else match f with
      | .requestCounters => s.setMeter { m with sent := m.sent ++ [.reading s.meterReading] }
      | .requestLog n => s.setMeter { m with sent := m.sent ++ [.logEntry n (m.log.find? fun e => e.seq == n)] }
      | _ => s.setMeter { m with ignored := min 0xFFFFFFFF (m.ignored + 1) })

/-- METER_LINK_FRAME (R536, R543): the mirror is updated only from a frame whose CRC verifies. -/
def execMeterLinkFrame (f : MeterFrame) (crcGood : Bool) (s : State) : Host.Outcome State Fault Refusal :=
  .next (s.ifMetered fun s =>
    if !crcGood then s
    else match f with
      | .reading r => { s with mirror := { s.mirror with reading := r, seen := true, age := 0 } }
      | .logEntry n e =>
        let hit := n == (s.reg Reg.wghLogSel).toNat
        { s with mirror := { s.mirror with
          entry := if hit then e else s.mirror.entry, seen := true, age := 0 } }
      | _ => s)

/-- WGH_LOG_SEL_WRITE (R551): only a read request is sent; WGH_LOG_DATA reads 0 until the entry arrives. -/
def execWghLogSelWrite (v : Word) (tee : Bool) (s : State) : Host.Outcome State Fault Refusal :=
  .next (s.hostAccess tee fun s =>
    s.ifMetered fun s =>
      let m := { s.mirror with entry := none, sent := s.mirror.sent ++ [.requestLog v.toNat] }
      State.setReg { s with mirror := m } Reg.wghLogSel v)

end Sys2Proof.Machine
end

