-- ==== Sys2Proof/Machine/Aes.lean ====
section
/-! DEFINITION. AES-256 (FIPS 197) and AES-256-GCM (NIST SP 800-38D), which seal weight packages, key blobs and relay
packets (R434, R491 to R497). -/

namespace Sys2Proof.Machine

/-- Multiply by x in GF(2^8). -/
def xtime (b : Byte) : Byte := if b.getLsbD 7 then (b <<< 1) ^^^ 0x1B else b <<< 1

/-- The S-box of FIPS 197, entry 255 first. -/
def sBox : Nat :=
  0x16bb54b00f2d99416842e6bf0d89a18cdf2855cee9871e9b948ed9691198f8e19e1dc186b95735610ef6034866b53e708a8bbd4b1f74dde8c6b4a61c2e2578ba08ae7a65eaf4566ca94ed58d6d37c8e779e4959162acd3c25c2406490a3a32e0db0b5ede14b8ee4688902a22dc4f816073195d643d7ea7c41744975fec130ccdd2f3ff1021dab6bcf5389d928f40a351a89f3c507f02f94585334d43fbaaefd0cf584c4a39becb6a5bb1fc20ed00d153842fe329b3d63b52a05a6e1b1a2c830975b227ebe28012079a059618c323c7041531d871f1e5a534ccf73f362693fdb7c072a49cafa2d4adf04759fa7dc982ca76abd7fe2b670130c56f6bf27b777c63

/-- SubBytes of one byte. -/
def subByte (b : Byte) : Byte := BitVec.ofNat 8 (sBox >>> (8 * b.toNat))

def xorBytes (a b : List Byte) : List Byte := List.zipWith (· ^^^ ·) a b

/-- Expand a 256-bit key: words of four bytes, newest first. -/
def expandKey : Nat → List (List Byte) → Byte → List (List Byte)
  | 0, w, _ => w
  | n + 1, w, rc =>
    let i := w.length
    let last := w.headD []
    let t := if i % 8 = 0 then
        match (last.drop 1 ++ last.take 1).map subByte with
        | [] => []
        | h :: r => (h ^^^ rc) :: r
      else if i % 8 = 4 then last.map subByte else last
    expandKey n (xorBytes (w.getD 7 []) t :: w) (if i % 8 = 0 then xtime rc else rc)

/-- The fifteen round keys of AES-256, 16 bytes each. -/
def roundKeys (key : List Byte) : List (List Byte) :=
  let w0 := ((List.range 8).map fun i => (key.drop (4 * i)).take 4).reverse
  let w := (expandKey 52 w0 1).reverse
  (List.range 15).map fun i => ((w.drop (4 * i)).take 4).flatten

/-- ShiftRows on 16 bytes in column order. -/
def shiftRows (s : List Byte) : List Byte :=
  (List.range 16).map fun i => s.getD ((i + 4 * (i % 4)) % 16) 0

def mixColumn (c : List Byte) : List Byte :=
  let at_ := fun (i : Nat) => c.getD (i % 4) 0
  (List.range 4).map fun i => xtime (at_ i) ^^^ xtime (at_ (i + 1)) ^^^ at_ (i + 1) ^^^ at_ (i + 2) ^^^ at_ (i + 3)

def mixColumns (s : List Byte) : List Byte :=
  (List.range 4).flatMap fun i => mixColumn ((s.drop (4 * i)).take 4)

/-- Encrypt one block under expanded keys. -/
def aesBlock (rk : List (List Byte)) (b : List Byte) : List Byte :=
  let s := xorBytes b (rk.headD [])
  let s := ((rk.drop 1).take 13).foldl (fun s k => xorBytes (mixColumns (shiftRows (s.map subByte))) k) s
  xorBytes (shiftRows (s.map subByte)) (rk.getD 14 [])

/-- A block as the big-endian number GCM treats as a polynomial, bit 127 first. -/
def beNat (l : List Byte) : Nat := l.foldl (fun n b => n * 256 + b.toNat) 0
def beBytes (n v : Nat) : List Byte := (leBytes n v).reverse

/-- GHASH's product of two blocks, as 128-bit numbers whose bit 127 is the coefficient of 1: n bits of x are left. -/
def ghashMulN : Nat → Nat → Nat → Nat → Nat
  | 0, _, _, z => z
  | n + 1, x, v, z =>
    ghashMulN n x (if v % 2 = 1 then v / 2 ^^^ 0xE1 <<< 120 else v / 2) (if x.testBit n then z ^^^ v else z)

/-- The product of GHASH. -/
def ghashMul (x y : Nat) : Nat := ghashMulN 128 x y 0

/-- Cut bytes into blocks of 16, the last padded with zeros. -/
def blocks16 (l : List Byte) : List (List Byte) :=
  (List.range (ceilDiv l.length 16)).map fun i => slice l (16 * i) 16

def ghash (h : Nat) (aad cipher : List Byte) : Nat :=
  let len := beBytes 8 (8 * aad.length) ++ beBytes 8 (8 * cipher.length)
  (blocks16 aad ++ blocks16 cipher ++ [len]).foldl (fun y b => ghashMul (y ^^^ beNat b) h) 0

/-- The GCM keystream applied to data, from counter 2 on. -/
def gcmStream (rk : List (List Byte)) (iv data : List Byte) : List Byte :=
  (List.range (ceilDiv data.length 16)).flatMap fun i =>
    xorBytes ((data.drop (16 * i)).take 16) (aesBlock rk (iv ++ beBytes 4 (i + 2)))

/-- The 16-byte GCM tag, for a 12-byte IV. -/
def gcmTag (key iv aad cipher : List Byte) : List Byte :=
  let rk := roundKeys key
  let h := beNat (aesBlock rk (List.replicate 16 0))
  xorBytes (beBytes 16 (ghash h aad cipher)) (aesBlock rk (iv ++ beBytes 4 1))

/-- AES-256-GCM sealing: ciphertext and tag. -/
def gcmSeal (key iv aad plain : List Byte) : List Byte × List Byte :=
  let c := gcmStream (roundKeys key) iv plain
  (c, gcmTag key iv aad c)

/-- AES-256-GCM opening: the plaintext when the tag verifies. -/
def gcmOpen (key iv aad cipher tag : List Byte) : Option (List Byte) :=
  if gcmTag key iv aad cipher = tag then some (gcmStream (roundKeys key) iv cipher) else none

end Sys2Proof.Machine
end

