-- ==== Sys2Proof/Machine/Packages.lean ====
section
/-! DEFINITION. Weight packages (R492, R493): sealing and opening. -/

namespace Sys2Proof.Machine

/-- Fields of a package header. -/
def packKeyId (h : List Byte) : List Byte := slice h 8 16
def packSalt (h : List Byte) : List Byte := slice h 24 32
def packChunk (h : List Byte) : Nat := leField h 56 4
def packLength (h : List Byte) : Nat := leField h 64 8

/-- The package key of a model key and a salt. -/
def packageKey (model salt : List Byte) : List Byte := (sha3 (ascii "SNRL-PACK" ++ model ++ salt)).take 32

/-- Chunks of a plaintext of n bytes. -/
def chunkCount (n chunk : Nat) : Nat := ceilDiv n (2 ^ chunk)
/-- Bytes of a package with n bytes of plaintext. -/
def packageBytes (n chunk : Nat) : Nat := 256 + n + 16 * chunkCount n chunk

def chunkIv (i : Nat) : List Byte := leBytes 8 i ++ leBytes 4 0
def headerIv : List Byte := List.replicate 12 0xFF

/-- Seal a plaintext. -/
def sealPackage (k : ModelKey) (salt : List Byte) (chunk : Nat) (plain : List Byte) : List Byte :=
  let key := packageKey k.key salt
  let head := leBytes 4 0x4B505753 ++ leBytes 2 1 ++ leBytes 2 0 ++ k.keyId ++ salt ++ leBytes 4 chunk ++ leBytes 4 0 ++
    leBytes 8 plain.length ++ leBytes 56 0
  let part := fun (i : Nat) => slice plain (i * 2 ^ chunk) (min (2 ^ chunk) (plain.length - i * 2 ^ chunk))
  let chunks := (List.range (chunkCount plain.length chunk)).flatMap fun i =>
    let c := gcmSeal key (chunkIv i) head (part i)
    c.1 ++ c.2
  head ++ (gcmSeal key headerIv head []).2 ++ leBytes 112 0 ++ chunks

/-- The header of a package is one for a model key: its fields, its tag, and the length it states. -/
def packageHeaderOk (k : ModelKey) (b : List Byte) : Bool :=
  let head := b.take 128
  decide (256 ≤ b.length) && leField b 0 4 == 0x4B505753 && leField b 4 2 == 1 && leField b 6 2 == 0 && packKeyId b == k.keyId &&
    decide (16 ≤ packChunk b) && decide (packChunk b ≤ 24) && leField b 60 4 == 0 && (slice b 72 56).all (· == 0#8) &&
    (slice b 144 112).all (· == 0#8) && b.length == packageBytes (packLength b) (packChunk b) &&
    (gcmOpen (packageKey k.key (packSalt b)) headerIv head [] (slice b 128 16)).isSome

/-- Plaintext of chunk i of a package, if its tag verifies. -/
def openChunk (k : ModelKey) (b : List Byte) (i : Nat) : Option (List Byte) :=
  let size := 2 ^ packChunk b
  let n := min size (packLength b - i * size)
  let at_ := 256 + i * (size + 16)
  gcmOpen (packageKey k.key (packSalt b)) (chunkIv i) (b.take 128) (slice b at_ n) (slice b (at_ + n) 16)

/-- The plaintext of a package, or the detail of PACKAGE_INVALID: the first chunk that does not open, all ones for the header. -/
def openPackage (k : ModelKey) (b : List Byte) : Except Nat (List Byte) :=
  if !packageHeaderOk k b then .error 0xFFFFFFFFFFFFFFFF
  else (List.range (chunkCount (packLength b) (packChunk b))).foldl (fun r i => match r with
    | .error e => .error e
    | .ok l => match openChunk k b i with
      | some c => .ok (l ++ c)
      | none => .error i) (.ok [])

end Sys2Proof.Machine
end

