-- ==== Sys2Proof/Machine/Columns.lean ====
section
/-! DEFINITION. Tables: reading the record and the values of a table (R133 to R139), and placing a new table in its
allocations (R142). -/

namespace Sys2Proof.Machine

/-! ## Column types (R137) -/

/-- Bytes of a fixed-width column type; none for BOOL, the variable-width types and codes outside R137. -/
def codeWidth : Nat → Nat → Option Nat
  | 0x02, _ => some 1
  | 0x03, _ => some 1
  | 0x04, _ => some 2
  | 0x05, _ => some 2
  | 0x06, _ => some 4
  | 0x07, _ => some 4
  | 0x08, _ => some 8
  | 0x0C, _ => some 2
  | 0x0D, _ => some 4
  | 0x0E, _ => some 8
  | 0x31, _ => some 8
  | 0x32, _ => some 4
  | 0x33, _ => some 8
  | 0x34, _ => some 4
  | 0x35, _ => some 8
  | 0x36, w => some w
  | _, _ => none

/-- A code of R137. -/
def codeKnown (c : Nat) : Bool := (codeWidth c 1).isSome || [0x30, 0x37, 0x38].contains c
/-- BINARY and UTF8. -/
def codeVariable (c : Nat) : Bool := c == 0x37 || c == 0x38
def codeFloat (c : Nat) : Bool := c == 0x0C || c == 0x0D || c == 0x0E
/-- Integer-class types (R169). -/
def codeInteger (c : Nat) : Bool :=
  [0x02, 0x03, 0x04, 0x05, 0x06, 0x07, 0x08, 0x30, 0x31, 0x32, 0x33, 0x34, 0x35].contains c
def codeNumeric (c : Nat) : Bool := codeInteger c || codeFloat c
def codeUnsigned (c : Nat) : Bool := [0x03, 0x05, 0x07, 0x30, 0x31].contains c

/-- A column type is one a table may have (R136, R137). -/
def Column.valid (c : Column) : Bool :=
  codeKnown c.code && !(c.dict && c.list) &&
    (if c.dict then [0x02, 0x04, 0x06].contains c.indexType && c.code != 0x30 else c.indexType == 0) &&
    (if c.list then (codeWidth c.code 1).isSome && c.code != 0x36 else true) &&
    (match c.code with
     | 0x33 => decide (c.unitScale ≤ 3)
     | 0x34 => decide (c.unitScale ≤ 9)
     | 0x35 => decide (c.unitScale ≤ 18)
     | _ => c.unitScale == 0) &&
    (if c.code = 0x36 then decide (1 ≤ c.fixedWidth) && decide (c.fixedWidth ≤ 64) else c.fixedWidth == 0)

/-- A schema entry's 16 bytes (R136). -/
def Column.bytes (c : Column) (nameHash : Nat) : List Byte :=
  leBytes 1 c.code ++
    leBytes 1 ((if c.nullable then 1 else 0) + (if c.dict then 2 else 0) + (if c.list then 4 else 0)) ++
    leBytes 1 c.indexType ++ leBytes 1 c.unitScale ++ leBytes 2 c.fixedWidth ++ leBytes 2 0 ++ leBytes 8 nameHash

/-- The schema entry at an offset of a list of bytes. -/
def columnAt (b : List Byte) (o : Nat) : Column where
  code := leField b o 1
  nullable := bitOf (leField b (o + 1) 1) 0
  dict := bitOf (leField b (o + 1) 1) 1
  list := bitOf (leField b (o + 1) 1) 2
  indexType := leField b (o + 2) 1
  unitScale := leField b (o + 3) 1
  fixedWidth := leField b (o + 4) 2

/-! ## Values -/

def Val.null : Val := .one .null
def Val.isNull : Val → Bool
  | .one .null => true
  | .coded _ _ .null => true
  | _ => false
/-- The decoded scalar. -/
def Val.scalar : Val → Scalar
  | .one x => x
  | .coded _ _ x => x
  | _ => .null
/-- A dictionary index of this value wrapped. -/
def Val.wrapped : Val → Bool
  | .coded _ w _ => w
  | _ => false

/-! ## Reading a table (R135 to R139) -/

def State.tableRows (s : State) (rec : Nat) : Nat := s.loadNat (rec + 16) 8
def State.tableColumns (s : State) (rec : Nat) : Nat := s.loadNat (rec + 8) 2
def State.tableBatches (s : State) (rec : Nat) : Nat := s.loadNat (rec + 12) 4
def State.tableColumn (s : State) (rec c : Nat) : Column := columnAt (s.load (s.loadNat (rec + 24) 8 + 16 * c) 16) 0

/-- First row, row count and buffer entries of a batch. -/
def State.batchEntry (s : State) (rec b : Nat) : Nat × Nat × Nat :=
  let e := s.load (s.loadNat (rec + 32) 8 + 32 * b) 32
  (leField e 0 8, leField e 8 4, leField e 16 8)

/-- The batch that holds a row: its first row, row count and buffer entries. -/
def State.batchOf (s : State) (rec row : Nat) : Option (Nat × Nat × Nat) :=
  ((List.range (s.tableBatches rec)).map fun b => s.batchEntry rec b).find? fun e =>
    decide (e.1 ≤ row) && decide (row < e.1 + e.2.1)

/-- Bit i of a bitmap; every row is valid where there is none. -/
def State.bitmap (s : State) (addr i : Nat) : Bool := addr == 0 || bitOf (s.loadNat (addr + i / 8) 1) (i % 8)

/-- Item i of an array of values of a type. -/
def State.item (s : State) (c : Column) (data i : Nat) : Nat :=
  match codeWidth c.code c.fixedWidth with
  | some w => s.loadNat (data + w * i) w
  | none => if bitOf (s.loadNat (data + i / 8) 1) (i % 8) then 1 else 0

/-- Bytes i of a variable-width array. -/
def State.stringItem (s : State) (offsets data i : Nat) : List Byte :=
  let a := s.loadNat (offsets + 4 * i) 4
  let b := s.loadNat (offsets + 4 * (i + 1)) 4
  s.load (data + a) (b - a)

/-- Item i of an array as a scalar. -/
def State.scalarItem (s : State) (c : Column) (offsets data i : Nat) : Scalar :=
  if codeVariable c.code then .bytes (s.stringItem offsets data i)
  else if c.code = 0x36 then .bytes (s.load (data + c.fixedWidth * i) c.fixedWidth)
  else .bits (s.item c data i)

/-- The value of a column in row i of a batch, from its buffer entry. -/
def State.value (s : State) (c : Column) (entry i : Nat) : Val :=
  let e := s.load entry 64
  let data := leField e 16 8
  if !s.bitmap (leField e 0 8) i then .null
  else if c.dict then
    let w := (codeWidth c.indexType 0).getD 1
    let raw := s.loadNat (data + w * i) w
    let n := leField e 56 4
    let idx := wrapIndex (signedOf (8 * w) raw) n
    .coded raw (decide (signedOf (8 * w) raw ≠ (idx : Int))) (s.scalarItem c (leField e 40 8) (leField e 48 8) idx)
  else if c.list then
    let a := s.loadNat (leField e 8 8 + 4 * i) 4
    let b := s.loadNat (leField e 8 8 + 4 * (i + 1)) 4
    .many ((List.range (b - a)).map fun k =>
      if s.bitmap (leField e 40 8) (a + k) then some (s.item c data (a + k)) else none)
  else .one (s.scalarItem c (leField e 8 8) data i)

/-- The value of column c in table row r. -/
def State.cell (s : State) (rec c r : Nat) : Val :=
  match s.batchOf rec r with
  | none => .null
  | some (first, _, entries) => s.value (s.tableColumn rec c) (entries + 64 * c) (r - first)

/-! ## Making buffers -/

/-- A bitmap of a list of bits (R139). -/
def bitmapBytes (l : List Bool) : List Byte :=
  (List.range (ceilDiv l.length 8)).map fun i =>
    BitVec.ofNat 8 ((List.range 8).foldl (fun n k => if l.getD (8 * i + k) false then n + 2 ^ k else n) 0)

/-- The validity bitmap of a column: none where every row is valid. -/
def validityOf (l : List Bool) : Option (List Byte) := if l.all (· == true) then none else some (bitmapBytes l)

/-- 32-bit offsets of pieces of given lengths. -/
def offsetsFrom : Nat → List Nat → List Byte
  | a, [] => leBytes 4 a
  | a, n :: t => leBytes 4 a ++ offsetsFrom (a + n) t

/-- The bits of a scalar in a fixed width, 0 where it is null. -/
def Scalar.nat : Scalar → Nat
  | .bits n => n
  | .bytes b => leNat b
  | .null => 0
def Scalar.string : Scalar → List Byte
  | .bytes b => b
  | _ => []

/-- The buffers of a column of values that is no dictionary (R139): null rows hold zeros, or have zero length. -/
def buffersOf (c : Column) (v : List Val) : Buffers :=
  let valid := v.map fun x => !x.isNull
  let nulls := (valid.filter fun b => !b).length
  if c.list then
    let items := v.map fun x => match x with
      | .many l => l
      | _ => []
    let all := items.flatten
    let w := (codeWidth c.code 0).getD 1
    ⟨validityOf valid, some (offsetsFrom 0 (items.map List.length)), all.flatMap fun x => leBytes w (x.getD 0),
      validityOf (all.map Option.isSome), none, all.length, 0, nulls⟩
  else if codeVariable c.code then
    let strs := v.map fun x => x.scalar.string
    ⟨validityOf valid, some (offsetsFrom 0 (strs.map List.length)), strs.flatten, none, none, 0, 0, nulls⟩
  else
    let data := match codeWidth c.code c.fixedWidth with
      | some w => v.flatMap fun x => leBytes w x.scalar.nat
      | none => bitmapBytes (v.map fun x => x.scalar.nat % 2 == 1)
    ⟨validityOf valid, none, data, none, none, 0, 0, nulls⟩

/-! ## Placing a table (R142) -/

def align64 (n : Nat) : Nat := 64 * ceilDiv n 64

/-- The buffers of a column in placement order. -/
def Buffers.list (b : Buffers) : List (Option (List Byte)) := [b.validity, b.offsets, some b.data, b.aux0, b.aux1]
def Buffers.size (b : Buffers) : Nat := (b.list.map fun x => align64 (x.getD []).length).foldl (· + ·) 0
def Batch.size (b : Batch) : Nat := (b.columns.map Buffers.size).foldl (· + ·) 0

/-- Bytes of a table record (R134). -/
def recordSize (cols batches : Nat) : Nat := 64 + align64 (16 * cols) + align64 (32 * batches) + 64 * cols * batches

/-- The start of each batch of given sizes, or the index of the first that does not fit; then the bytes used in each
allocation. `second` is whether an earlier batch has gone to the second allocation. -/
def placeBatches (a : Allocs) : Bool → Nat → Nat → Nat → List Nat → Except Nat (List Nat × Nat × Nat)
  | _, _, u1, u2, [] => .ok ([], u1, u2)
  | second, i, u1, u2, n :: t =>
    if !second && decide (u1 + n ≤ a.size) then
      (placeBatches a false (i + 1) (u1 + n) u2 t).map fun r => ((a.base + u1) :: r.1, r.2)
    else if u2 + n ≤ a.size2 then
      (placeBatches a true (i + 1) u1 (u2 + n) t).map fun r => ((a.base2 + u2) :: r.1, r.2)
    else .error i

/-- The addresses of a batch's buffers placed from an address on: one list of five per column. -/
def bufferAddrs : Nat → List Buffers → List (List Nat)
  | _, [] => []
  | a, b :: t =>
    let step := fun (r : Nat × List Nat) (x : Option (List Byte)) => match x with
      | none => (r.1, r.2 ++ [0])
      | some d => (r.1 + align64 d.length, r.2 ++ [r.1])
    let r := b.list.foldl step (a, [])
    r.2 :: bufferAddrs r.1 t

/-- A buffer entry (R138). An empty buffer that is there keeps its address. -/
def bufferEntry (b : Buffers) (addrs : List Nat) : List Byte :=
  leBytes 8 (addrs.getD 0 0) ++ leBytes 8 (addrs.getD 1 0) ++ leBytes 8 (addrs.getD 2 0) ++ leBytes 8 b.data.length ++
    leBytes 8 b.nullCount ++ leBytes 8 (addrs.getD 3 0) ++ leBytes 8 (addrs.getD 4 0) ++ leBytes 4 b.auxCount ++
    leBytes 4 b.auxLength

/-- A list of bytes padded with zeros to a multiple of 64. -/
def arrowPad (b : List Byte) : List Byte := b ++ List.replicate (align64 b.length - b.length) 0

/-- First rows of batches of given row counts. -/
def firstRows : Nat → List Nat → List Nat
  | _, [] => []
  | a, n :: t => a :: firstRows (a + n) t

/-- A table record (R134, R135) at an address, from the schema and the batches with the addresses of their buffers. -/
def recordBytes (id rec used : Nat) (schema : List (Column × Nat)) (batches : List (Batch × List (List Nat))) :
    List Byte :=
  let nc := schema.length
  let nb := batches.length
  let rows := (batches.map fun b => b.1.rows).foldl (· + ·) 0
  let schemaAt := rec + 64
  let dirAt := schemaAt + align64 (16 * nc)
  let entriesAt := dirAt + align64 (32 * nb)
  let firsts := firstRows 0 (batches.map fun b => b.1.rows)
  let header := leBytes 4 0x4C425446 ++ leBytes 4 id ++ leBytes 2 nc ++ leBytes 2 0 ++ leBytes 4 nb ++ leBytes 8 rows ++
    leBytes 8 schemaAt ++ leBytes 8 dirAt ++ leBytes 8 used ++ leBytes 16 0
  let dir := ((List.range nb).map fun i =>
    leBytes 8 (firsts.getD i 0) ++ leBytes 4 ((batches.map fun b => b.1.rows).getD i 0) ++ leBytes 4 0 ++
      leBytes 8 (entriesAt + 64 * nc * i) ++ leBytes 8 0).flatten
  let entries := (batches.map fun b => ((b.1.columns.zip b.2).map fun e => bufferEntry e.1 e.2).flatten).flatten
  header ++ arrowPad ((schema.map fun e => e.1.bytes e.2).flatten) ++ arrowPad dir ++ entries

/-- Write a batch's buffers at their addresses. -/
def State.writeBuffers (s : State) (b : List Buffers) (addrs : List (List Nat)) : State :=
  (b.zip addrs).foldl (fun t e => (e.1.list.zip e.2).foldl (fun u x => match x.1 with
    | some d => u.store x.2 d
    | none => u) t) s

/-- Place a table: the record first, then the batches. It answers the state and the bytes used, or the first row of the
batch that does not fit (0 for the record itself). -/
def State.placeTable (s : State) (id : Nat) (a : Allocs) (schema : List (Column × Nat)) (batches : List Batch) :
    Except Nat (State × Nat) :=
  let head := recordSize schema.length batches.length
  if a.size < head then .error 0
  else
    match placeBatches a false 0 head 0 (batches.map Batch.size) with
    | .error i => .error ((firstRows 0 (batches.map Batch.rows)).getD i 0)
    | .ok (starts, u1, u2) =>
      let addrs := (batches.zip starts).map fun e => bufferAddrs e.2 e.1.columns
      let t := (batches.zip addrs).foldl (fun t e => t.writeBuffers e.1.columns e.2) s
      .ok (t.store a.base (recordBytes id a.base (u1 + u2) schema (batches.zip addrs)), u1 + u2)

/-- The record address of a defined table (the start of its first allocation, R134). -/
def State.tableAt (s : State) (id : Nat) : Option Nat := (Tab.look s.ingest.tables id).map fun a => a.base

/-- Define a table: its allocations are guarded (R134). -/
def State.defineTable (s : State) (id : Nat) (a : Allocs) (extra : List Range) : State :=
  let s := { s with ingest := { s.ingest with tables := Tab.put s.ingest.tables id a } }
  ((Range.mk a.base a.size :: Range.mk a.base2 a.size2 :: extra).filter fun r => r.len != 0).foldl
    (fun t r => t.guard .table id r false) s

end Sys2Proof.Machine
end

