-- ==== Sys2Proof/Machine/Ingest.lean ====
section
/-! DEFINITION. TABLE_LOAD and TABLE_RELEASE (R133, R134, R140 to R148). -/

namespace Sys2Proof.Machine

/-! ## Parameters (R140) -/

def loadFormat (p : Packet) : Nat := p.param 4 1
def loadSource (p : Packet) : Nat := p.param 5 1
def loadInPlace (p : Packet) : Bool := bitOf (p.param 6 2) 0
def loadKeepDict (p : Packet) : Bool := bitOf (p.param 6 2) 1
def loadAllocs (p : Packet) : Allocs := ⟨p.param 32 8, p.param 40 8, p.param 48 8, p.param 56 8⟩
def loadLanding (p : Packet) : Range := ⟨p.param 64 8, p.param 72 8⟩

/-- An allocation of a table: 4 KiB aligned, a multiple of 4 KiB, within one die's HBM (R133, R140). -/
def allocFail (base size off : Nat) : Option Fail :=
  firstFail [need (base % 4096 == 0 && (size == 0 || (Range.mk base size).inHbm)) off,
    need (size % 4096 == 0 && size != 0) (off + 8)]

/-- The second allocation: as the first, or base and size 0. -/
def alloc2Fail (base size off : Nat) : Option Fail :=
  if base = 0 ∧ size = 0 then none else allocFail base size off

/-- Check 6 of TABLE_LOAD. -/
def tableLoadParams (p : Packet) : Option Fail :=
  let parquet := loadFormat p == 2
  let remote := loadSource p == 3 || loadSource p == 4
  let lands := parquet && loadSource p != 1
  lowestFail [need (decide (p.param 0 4 ≤ 4095)) 64, need (loadFormat p == 1 || parquet) 68,
    need (decide (1 ≤ loadSource p) && decide (loadSource p ≤ 4)) 69,
    need (decide (p.param 6 2 < 4) && (!loadInPlace p || (!parquet && loadSource p == 1)) && (!loadKeepDict p || parquet)) 70,
    need (parquet || p.param 8 8 % 64 == 0) 72,
    need (if parquet then p.param 16 8 != 0 else p.param 16 8 == 0) 80,
    need (if remote then p.param 24 4 != 0xFFFFFFFF else p.param 24 4 == 0xFFFFFFFF) 88,
    need (loadSource p == 4 || p.param 28 4 == 0) 92,
    allocFail (p.param 32 8) (p.param 40 8) 96, alloc2Fail (p.param 48 8) (p.param 56 8) 112,
    need (if lands then p.param 64 8 != 0 else p.param 64 8 == 0) 128,
    need (if lands then decide (p.param 16 8 ≤ p.param 72 8) else p.param 72 8 == 0) 136,
    need (parquet || p.param 80 8 == 0) 144,
    need (decide (p.param 88 2 ≤ 1024) && (parquet || p.param 88 2 == 0)) 152,
    p.zeros 154 6, p.zeros 168 152]

/-! ## The source (R141) -/

/-- The state with module memory standing for the source's space: source addresses are read through it. `fetched` is
what a peer or a storage node returned, by its own addresses. -/
def sourceView (s : State) (source : Nat) (fetched : Tab Byte) : State :=
  match source with
  | 1 => s
  | 2 => { s with mem := s.host }
  | _ => { s with mem := fetched }

/-- Offsets and data buffers of one column of a source batch, with the bytes that its data buffer takes. -/
structure SourceColumn where
  column : Column
  buffers : Buffers
  /-- bytes of the data buffer in the source, which the copy reserves -/
  room : Nat
  /-- the first table row that breaks R139, if one does -/
  bad : Option Nat
  /-- some null row holds bytes or a length (R143, IN_PLACE) -/
  dirty : Option Nat
  deriving DecidableEq, Repr

/-- First index at which offsets fall, do not start at 0, or do not end at the length given. -/
def offsetsBad (l : List Nat) (len : Nat) : Option Nat :=
  if l.headD 0 ≠ 0 then some 0
  else match firstIdx (fun i => decide (l.getD (i + 1) 0 < l.getD i 0)) 0 (List.range (l.length - 1)) with
    | some i => some i
    | none => if l.getLastD 0 ≠ len then some (l.length - 2) else none

/-- Read one column of a source batch, cleaning its null rows (R139, R143). -/
def State.readColumn (s : State) (c : Column) (entry rows : Nat) : SourceColumn :=
  let e := s.load entry 64
  let validity := leField e 0 8
  let valid := (List.range rows).map fun i => s.bitmap validity i
  let nulls := (valid.filter fun b => !b).length
  let bits := if validity = 0 then none else some (bitmapBytes valid)
  let aux := leField e 56 4
  let offs := (List.range (rows + 1)).map fun i => s.loadNat (leField e 8 8 + 4 * i) 4
  let lens := (List.range rows).map fun i => offs.getD (i + 1) 0 - offs.getD i 0
  let kept := (List.range rows).filter fun i => valid.getD i false
  let keptLens := (List.range rows).map fun i => if valid.getD i false then lens.getD i 0 else 0
  let stray := firstIdx (fun i => !valid.getD i false && lens.getD i 0 != 0) 0 (List.range rows)
  if c.dict then
    let w := (codeWidth c.indexType 0).getD 1
    let row := fun i => s.load (leField e 16 8 + w * i) w
    let data := (List.range rows).flatMap fun i => if valid.getD i false then row i else leBytes w 0
    let var := codeVariable c.code
    let width := (codeWidth c.code c.fixedWidth).getD 1
    ⟨c, ⟨bits, none, data, if var then some (s.load (leField e 40 8) (4 * (aux + 1))) else none,
        some (s.load (leField e 48 8) (if var then leField e 60 4 else width * aux)), aux, leField e 60 4, nulls⟩,
      data.length, none,
      firstIdx (fun i => !valid.getD i false && (row i).any (· != 0)) 0 (List.range rows)⟩
  else if c.list then
    let w := (codeWidth c.code 0).getD 1
    let child := fun k => if s.bitmap (leField e 40 8) k then s.load (leField e 16 8 + w * k) w else leBytes w 0
    let ks := kept.flatMap fun i => (List.range (lens.getD i 0)).map fun k => offs.getD i 0 + k
    ⟨c, ⟨bits, some (offsetsFrom 0 keptLens), ks.flatMap child,
        if leField e 40 8 = 0 then none else some (bitmapBytes (ks.map fun k => s.bitmap (leField e 40 8) k)), none,
        ks.length, 0, nulls⟩,
      w * offs.getLastD 0, offsetsBad offs aux, stray⟩
  else if codeVariable c.code then
    ⟨c, ⟨bits, some (offsetsFrom 0 keptLens),
        kept.flatMap fun i => s.load (leField e 16 8 + offs.getD i 0) (lens.getD i 0), none, none, 0, 0, nulls⟩,
      offs.getLastD 0, offsetsBad offs (leField e 24 8), stray⟩
  else
    match codeWidth c.code c.fixedWidth with
    | some w =>
      let row := fun i => s.load (leField e 16 8 + w * i) w
      let data := (List.range rows).flatMap fun i => if valid.getD i false then row i else leBytes w 0
      ⟨c, ⟨bits, none, data, none, none, 0, 0, nulls⟩, data.length, none,
        firstIdx (fun i => !valid.getD i false && (row i).any (· != 0)) 0 (List.range rows)⟩
    | none =>
      let bit := fun i => s.bitmap (leField e 16 8) i
      let data := bitmapBytes ((List.range rows).map fun i => valid.getD i false && bit i)
      ⟨c, ⟨bits, none, data, none, none, 0, 0, nulls⟩, data.length, none,
        firstIdx (fun i => !valid.getD i false && bit i) 0 (List.range rows)⟩

/-! ## Arrow sources (R143) -/

/-- Number of leading batches that stay within a row limit; 0 means no limit. -/
def batchesWithin (limit : Nat) : Nat → List Nat → Nat
  | _, [] => 0
  | sum, n :: t => if limit = 0 ∨ sum + n ≤ limit then 1 + batchesWithin limit (sum + n) t else 0

/-- The source table's columns, and its batches as first row, row count and buffer entries, up to the row limit. -/
def arrowColumns (v : State) (a : Nat) : List Column := (List.range (v.tableColumns a)).map fun c => v.tableColumn a c
def arrowBatches (v : State) (a limit : Nat) : List (Nat × Nat × Nat) :=
  let all := (List.range (v.tableBatches a)).map fun b => v.batchEntry a b
  all.take (batchesWithin limit 0 (all.map fun e => e.2.1))

/-- Every address of the source's buffers, with the place in the record that names it. -/
def arrowAddresses (v : State) (a : Nat) (batches : List (Nat × Nat × Nat)) : List Nat :=
  [v.loadNat (a + 24) 8, v.loadNat (a + 32) 8] ++ batches.flatMap fun b => b.2.2 :: (List.range (v.tableColumns a)).flatMap
    fun c => [0, 8, 16, 40, 48].map fun o => v.loadNat (b.2.2 + 64 * c + o) 8

/-- The ranges of a source table in module memory. -/
def arrowRanges (v : State) (a limit : Nat) : List Range :=
  let cols := arrowColumns v a
  let bs := arrowBatches v a limit
  [⟨a, 64⟩, ⟨v.loadNat (a + 24) 8, 16 * cols.length⟩, ⟨v.loadNat (a + 32) 8, 32 * v.tableBatches a⟩] ++
    bs.flatMap fun b => ⟨b.2.2, 64 * cols.length⟩ :: ((List.range cols.length).zip cols).flatMap fun c =>
      let e := v.load (b.2.2 + 64 * c.1) 64
      let r := v.readColumn c.2 (b.2.2 + 64 * c.1) b.2.1
      [⟨leField e 0 8, if leField e 0 8 = 0 then 0 else ceilDiv b.2.1 8⟩,
       ⟨leField e 8 8, if r.buffers.offsets.isSome then 4 * (b.2.1 + 1) else 0⟩, ⟨leField e 16 8, r.room⟩,
       ⟨leField e 40 8, (r.buffers.aux0.getD []).length⟩, ⟨leField e 48 8, (r.buffers.aux1.getD []).length⟩]

/-- Faults of the source record's fields: the checks of R84 it falls under are 6, 7, 9 and 11. -/
def arrowRecordFail (v : State) (p : Packet) : Option Fail :=
  let a := p.param 8 8
  if v.loadNat a 4 ≠ 0x4C425446 then some ⟨Status.formatInvalid, 0⟩
  else if v.tableColumns a = 0 ∨ 1024 < v.tableColumns a then some ⟨Status.badParam, inStruct 72 8⟩
  else none
def arrowAlignFail (v : State) (p : Packet) : Option Fail :=
  let a := p.param 8 8
  demand ((arrowAddresses v a (arrowBatches v a (p.param 96 8))).all fun x => x % 64 == 0) Status.align 72
def arrowTypeFail (v : State) (p : Packet) : Option Fail :=
  let a := p.param 8 8
  (firstIdx (fun c => !(v.tableColumn a c).valid) 0 (List.range (v.tableColumns a))).map fun c =>
    ⟨Status.typeMismatch, inStruct 72 (v.loadNat (a + 24) 8 - a + 16 * c)⟩
/-- The limits of R133. -/
def arrowLimitFail (v : State) (p : Packet) : Option Fail :=
  let a := p.param 8 8
  let bs := arrowBatches v a (p.param 96 8)
  demand (decide (v.tableBatches a ≤ 2 ^ 20) && decide (1 ≤ v.tableBatches a) &&
    (bs.all fun b => decide (b.2.1 ≤ 2 ^ 26)) && decide ((bs.map fun b => b.2.1).foldl (· + ·) 0 ≤ 2 ^ 40) &&
    bs.all fun b => (List.range (v.tableColumns a)).all fun c =>
      !(codeVariable (v.tableColumn a c).code) || decide (v.loadNat (b.2.2 + 64 * c + 24) 8 < 2 ^ 31))
    Status.formatUnsupported 72

/-- The source's columns of each batch, read and cleaned. -/
def arrowRead (v : State) (p : Packet) : List (Nat × Nat × List SourceColumn) :=
  let a := p.param 8 8
  let cols := arrowColumns v a
  (arrowBatches v a (p.param 96 8)).map fun b =>
    (b.1, b.2.1, ((List.range cols.length).zip cols).map fun c => v.readColumn c.2 (b.2.2 + 64 * c.1) b.2.1)

/-- The first violation in placement order: column in [63:48], table row in [47:0] (R143). -/
def firstViolation (inPlace : Bool) : List (Nat × Nat × List SourceColumn) → Option Nat
  | [] => none
  | (first, _, cols) :: t =>
    let bad := fun (c : SourceColumn) => match c.bad, (if inPlace then c.dirty else none) with
      | none, x => x
      | some a, none => some a
      | some a, some b => some (min a b)
    match (cols.map bad).zipIdx.find? (fun e => e.1.isSome) with
    | some (r, c) => some (c * 2 ^ 48 + (first + r.getD 0))
    | none => firstViolation inPlace t

/-- The two allocations become undefined (R147). -/
def State.spoilAllocs (s : State) (a : Allocs) : State := (s.scramble a.base a.size).scramble a.base2 a.size2

/-- Schema entries of a source record with their name hashes. -/
def arrowSchema (v : State) (a : Nat) : List (Column × Nat) :=
  (List.range (v.tableColumns a)).map fun c => (v.tableColumn a c, v.loadNat (v.loadNat (a + 24) 8 + 16 * c + 8) 8)

/-- Bytes a source batch takes in the allocations. -/
def sourceBatchSize (cols : List SourceColumn) : Nat :=
  (cols.map fun c => c.buffers.size - align64 c.buffers.data.length + align64 c.room).foldl (· + ·) 0

/-- Addresses of a batch's buffers, its data buffers taking the room of the source's. -/
def sourceAddrs : Nat → List SourceColumn → List (List Nat)
  | _, [] => []
  | a, c :: t =>
    let b := { c.buffers with data := List.replicate c.room 0 }
    (bufferAddrs a [b]).headD [] :: sourceAddrs (a + b.size) t

/-- The end of a load that failed: the counter of FORMAT codes, and the record. -/
def State.loadFails (s : State) (p : Packet) (st : Status) (detail : Nat) : State :=
  let s := if st = Status.formatInvalid ∨ st = Status.formatUnsupported then s.bump Reg.feaFormatRefused 1 else s
  s.complete p st detail 0 0

/-- The end of a load that succeeded: the table is defined, and its rows are counted. -/
def State.loadDone (s : State) (p : Packet) (extra : List Range) (used rows : Nat) : State :=
  ((s.defineTable (p.param 0 4) (loadAllocs p) extra).bumpWide Reg.feaIngestRowsLo rows).complete p Status.ok used rows rows

/-- An Arrow load that copies. -/
def State.arrowCopy (s : State) (v : State) (p : Packet) : State :=
  let a := loadAllocs p
  let src := arrowRead v p
  let schema := arrowSchema v (p.param 8 8)
  let head := recordSize schema.length src.length
  let rows := (src.map fun b => b.2.1).foldl (· + ·) 0
  if a.size < head then s.loadFails p Status.tableFull 0
  else
    match placeBatches a false 0 head 0 (src.map fun b => sourceBatchSize b.2.2) with
    | .error _ => s.loadFails p Status.tableFull 0
    | .ok (starts, u1, u2) =>
      match firstViolation false src with
      | some d => (s.spoilAllocs a).loadFails p Status.formatInvalid d
      | none =>
        let addrs := (src.zip starts).map fun e => sourceAddrs e.2 e.1.2.2
        let batches := src.map fun b => (Batch.mk b.2.1 (b.2.2.map fun c => c.buffers))
        let t := (batches.zip addrs).foldl (fun t e => t.writeBuffers e.1.columns e.2) s
        (t.store a.base (recordBytes (p.param 0 4) a.base (u1 + u2) schema (batches.zip addrs))).loadDone p [] (u1 + u2) rows

/-- An Arrow load that writes only the record (R143). -/
def State.arrowInPlace (s : State) (p : Packet) : State :=
  let a := loadAllocs p
  let src := arrowRead s p
  let at_ := p.param 8 8
  let schema := arrowSchema s at_
  let head := recordSize schema.length src.length
  let rows := (src.map fun b => b.2.1).foldl (· + ·) 0
  if a.size < head then s.loadFails p Status.tableFull 0
  else
    match firstViolation true src with
    | some d => (s.scramble a.base a.size).loadFails p Status.formatInvalid d
    | none =>
      let addrs := (arrowBatches s at_ (p.param 96 8)).map fun b => (List.range schema.length).map fun c =>
        [0, 8, 16, 40, 48].map fun o => s.loadNat (b.2.2 + 64 * c + o) 8
      let batches := src.map fun b => (Batch.mk b.2.1 (b.2.2.map fun c => c.buffers))
      let t := s.store a.base (recordBytes (p.param 0 4) a.base head schema (batches.zip addrs))
      t.loadDone p (arrowRanges s at_ (p.param 96 8)) head rows

/-! ## Parquet sources (R144 to R146) -/

/-- The leaves column_map selects; none for all. -/
def State.columnMap (s : State) (p : Packet) : List Nat :=
  (List.range (p.param 88 2)).map fun i => s.loadNat (p.param 80 8 + 2 * i) 2

/-- A Parquet load. The landing area receives the file byte for byte; the file is then decoded and placed. -/
def State.parquetLoad (s : State) (v : State) (p : Packet) : State :=
  let a := loadAllocs p
  let file := v.load (p.param 8 8) (p.param 16 8)
  let s := if loadSource p = 1 then s else s.store (loadLanding p).lo file
  let spoil := fun (t : State) =>
    let t := t.spoilAllocs a
    if loadSource p = 1 then t else t.scramble (loadLanding p).lo (loadLanding p).len
  match Config.parquet file (s.columnMap p) (loadKeepDict p) with
  | .unsupported o => (spoil s).loadFails p Status.formatUnsupported o
  | .invalid o => (spoil s).loadFails p Status.formatInvalid o
  | .table cols all =>
    let batches := all.take (batchesWithin (p.param 96 8) 0 (all.map Batch.rows))
    let schema := cols.map fun c => (c.1, (bytesWord c.2 0).toNat)
    let rows := (batches.map Batch.rows).foldl (· + ·) 0
    match s.placeTable (p.param 0 4) a schema batches with
    | .error row => (spoil s).loadFails p Status.tableFull row
    | .ok (t, used) => t.loadDone p [] used rows

/-! ## The command -/

/-- The ranges a load reads in module or host memory, and those it writes. -/
def tableLoadUses (v : State) (p : Packet) : List Use :=
  let a := loadAllocs p
  let reads : List Use :=
    if loadFormat p = 2 then
      (if loadSource p = 1 then [⟨72, ⟨p.param 8 8, p.param 16 8⟩, false⟩]
       else if loadSource p = 2 then [⟨72, ⟨hostWindow + p.param 8 8, p.param 16 8⟩, false⟩] else []) ++
        [⟨144, ⟨p.param 80 8, 2 * p.param 88 2⟩, false⟩]
    else if loadSource p = 1 then (arrowRanges v (p.param 8 8) (p.param 96 8)).map fun r => ⟨72, r, false⟩
    else if loadSource p = 2 then
      (arrowRanges v (p.param 8 8) (p.param 96 8)).map fun r => ⟨72, ⟨hostWindow + r.lo, r.len⟩, false⟩
    else []
  reads ++ [⟨96, ⟨a.base, a.size⟩, true⟩, ⟨112, ⟨a.base2, a.size2⟩, true⟩, ⟨128, loadLanding p, true⟩]

/-- The source of an Arrow load can be read: it is local, or the peer or storage node has answered. -/
def arrowThere (p : Packet) (fetched : Option (Tab Byte)) : Bool :=
  loadFormat p == 1 && (decide (loadSource p ≤ 2) || fetched.isSome)

/-- TABLE_LOAD with the bytes that a peer or storage node returns (none when it does not answer). A source that does
not answer ends the load with PEER_UNREACHABLE. -/
def tableLoadCommand (fetched : Option (Tab Byte)) : Command where
  code := 0x0205
  lens := fun n => n == 4
  job := .optional
  params := fun s p =>
    let v := sourceView s (loadSource p) (fetched.getD [])
    firstFail [tableLoadParams p,
      if arrowThere p fetched then arrowRecordFail v p else none]
  aligns := fun s p =>
    if arrowThere p fetched then arrowAlignFail (sourceView s (loadSource p) (fetched.getD [])) p else none
  uses := fun s p => tableLoadUses (sourceView s (loadSource p) (fetched.getD [])) p
  overlaps := fun _ p =>
    let a := loadAllocs p
    disjointFail [⟨96, ⟨a.base, a.size⟩, true⟩, ⟨112, ⟨a.base2, a.size2⟩, true⟩, ⟨128, loadLanding p, true⟩]
  types := fun s p =>
    if arrowThere p fetched then arrowTypeFail (sourceView s (loadSource p) (fetched.getD [])) p else none
  security := fun s p => s.openFail (tableLoadUses (sourceView s (loadSource p) (fetched.getD [])) p)
  own := fun s p =>
    firstFail [need ((Tab.look s.ingest.tables (p.param 0 4)).isNone &&
        !s.running.any fun o => o.kind == .tableRelease (p.param 0 4)) 64,
      if arrowThere p fetched then arrowLimitFail (sourceView s (loadSource p) (fetched.getD [])) p else none]
  unit := 2
  effect := fun p s =>
    let v := sourceView s (loadSource p) (fetched.getD [])
    let reads := ((tableLoadUses v p).filter fun u => !u.write).map fun u => u.range
    if 3 ≤ loadSource p ∧ fetched.isNone then (s.spoilAllocs (loadAllocs p)).loadFails p Status.peerUnreachable 0
    else s.orPoisoned p reads (fun t => t.spoilAllocs (loadAllocs p)) fun s =>
      if loadFormat p = 2 then s.parquetLoad v p
      else if loadInPlace p then s.arrowInPlace p
      else s.arrowCopy v p

/-- TABLE_LOAD. -/
def execTableLoad (p : Packet) (fetched : Option (List (Nat × Byte))) (s : State) : Host.Outcome State Fault Refusal :=
  .next ((tableLoadCommand (fetched.map fun l => l.foldl (fun m e => Memory.write m e.1 e.2) [])).start p s)

/-! ## TABLE_RELEASE (R148) -/

def tableReleaseCommand : Command where
  code := 0x0206
  lens := fun n => n == 1
  job := .optional
  params := fun _ p => firstFail [need (decide (p.param 0 4 ≤ 4095)) 64, p.zeros 68 60]
  own := fun s p => need (Tab.look s.ingest.tables (p.param 0 4)).isSome 64
  effect := fun p s =>
    let id := p.param 0 4
    match Tab.look s.ingest.tables id with
    | none => s
    | some _ =>
      let s := { s with ingest := { s.ingest with tables := Tab.del s.ingest.tables id } }
      (s.enroll p (.tableRelease id) [] 0).wake

/-- TABLE_RELEASE. -/
def execTableRelease (p : Packet) (s : State) : Host.Outcome State Fault Refusal := .next (tableReleaseCommand.start p s)

end Sys2Proof.Machine
end

