-- ==== Sys2Proof/Machine/Float.lean ====
section
/-! DEFINITION. Floating-point arithmetic of the arrays, the vector units and the feature lanes: number encodings (R287,
R288), exact values and their one rounding to nearest even (R169, R283, R289, R293), and the correctly rounded
functions of R293. -/

namespace Sys2Proof.Machine

/-! ## Formats (R287) -/

/-- Which codes of the top exponent are special. -/
inductive Special where
  /-- infinities and NaNs as in IEEE 754 -/
  | ieee
  /-- no infinity, and the all-ones code of each sign is NaN (FP8 E4M3) -/
  | nanOnly
  /-- every code is finite (MXFP6, MXFP4) -/
  | none
  deriving DecidableEq, Repr

/-- A floating format: exponent bits, mantissa bits, bias. -/
structure FloatFormat where
  ebits : Nat
  mbits : Nat
  bias : Nat
  special : Special
  deriving DecidableEq, Repr

def fp64 : FloatFormat := ⟨11, 52, 1023, .ieee⟩
def fp32 : FloatFormat := ⟨8, 23, 127, .ieee⟩
def bf16 : FloatFormat := ⟨8, 7, 127, .ieee⟩
def fp16 : FloatFormat := ⟨5, 10, 15, .ieee⟩
def e4m3 : FloatFormat := ⟨4, 3, 7, .nanOnly⟩
def e5m2 : FloatFormat := ⟨5, 2, 15, .ieee⟩
def e2m3 : FloatFormat := ⟨2, 3, 1, .none⟩
def e3m2 : FloatFormat := ⟨3, 2, 3, .none⟩
def e2m1 : FloatFormat := ⟨2, 1, 1, .none⟩

/-- Bits of a code. -/
def FloatFormat.width (f : FloatFormat) : Nat := 1 + f.ebits + f.mbits
def FloatFormat.signBit (f : FloatFormat) : Nat := 2 ^ (f.ebits + f.mbits)
def FloatFormat.topExp (f : FloatFormat) : Nat := 2 ^ f.ebits - 1
/-- The exponent of the least bit of a subnormal. -/
def FloatFormat.minUlp (f : FloatFormat) : Int := 1 - (f.bias : Int) - f.mbits

/-- The value a code stands for: `fin neg m e` is m times 2^e, with its sign. -/
inductive Num where
  | nan
  | inf (neg : Bool)
  | fin (neg : Bool) (m : Nat) (e : Int)
  deriving DecidableEq, Repr

/-- The value of a code (R287). -/
def FloatFormat.value (f : FloatFormat) (code : Nat) : Num :=
  let neg := bitOf code (f.ebits + f.mbits)
  let e := code / 2 ^ f.mbits % 2 ^ f.ebits
  let m := code % 2 ^ f.mbits
  if f.special = .ieee ∧ e = f.topExp then (if m = 0 then .inf neg else .nan)
  else if f.special = .nanOnly ∧ e = f.topExp ∧ m + 1 = 2 ^ f.mbits then .nan
  else if e = 0 then .fin neg m f.minUlp
  else .fin neg (2 ^ f.mbits + m) ((e : Int) - 1 + f.minUlp)

/-! ## Exact values -/

/-- An exact dyadic number m times 2^e. -/
structure Exact where
  m : Int
  e : Int
  deriving DecidableEq, Repr

/-- 2 to a power that is at least 0. -/
def pow2 (e : Int) : Nat := 2 ^ e.toNat

def Exact.add (a b : Exact) : Exact :=
  let e := min a.e b.e
  ⟨a.m * pow2 (a.e - e) + b.m * pow2 (b.e - e), e⟩
def Exact.mul (a b : Exact) : Exact := ⟨a.m * b.m, a.e + b.e⟩
def Exact.zero : Exact := ⟨0, 0⟩
/-- a < b, exactly. -/
def Exact.lt (a b : Exact) : Bool :=
  let e := min a.e b.e
  decide (a.m * pow2 (a.e - e) < b.m * pow2 (b.e - e))

/-- The signed dyadic of a finite value; 0 for the others. -/
def Num.dyadic : Num → Exact
  | .fin neg m e => ⟨if neg then -(m : Int) else m, e⟩
  | _ => .zero

def Num.isNan : Num → Bool
  | .nan => true
  | _ => false
def Num.isInf : Num → Bool
  | .inf _ => true
  | _ => false
def Num.isZero : Num → Bool
  | .fin _ m _ => m == 0
  | _ => false
/-- The sign; false for NaN. -/
def Num.neg : Num → Bool
  | .nan => false
  | .inf n => n
  | .fin n _ _ => n
def Num.finite (x : Num) : Bool := !x.isNan && !x.isInf
def Num.negate : Num → Num
  | .nan => .nan
  | .inf n => .inf !n
  | .fin n m e => .fin (!n) m e
def Num.magnitude : Num → Num
  | .nan => .nan
  | .inf _ => .inf false
  | .fin _ m e => .fin false m e
def Num.zero : Num := .fin false 0 0

/-- An integer as a value. -/
def Num.ofInt (i : Int) : Num := .fin (decide (i < 0)) i.natAbs 0

/-- -0 equals +0; false for NaN. -/
def Num.eq (x y : Num) : Bool :=
  match x, y with
  | .nan, _ => false
  | _, .nan => false
  | .inf a, .inf b => a == b
  | .inf _, _ => false
  | _, .inf _ => false
  | a, b => !(a.dyadic.lt b.dyadic) && !(b.dyadic.lt a.dyadic)

/-- x < y; false for NaN. -/
def Num.lt (x y : Num) : Bool :=
  match x, y with
  | .nan, _ => false
  | _, .nan => false
  | .inf a, .inf b => a && !b
  | .inf a, _ => a
  | _, .inf b => !b
  | a, b => a.dyadic.lt b.dyadic

/-! ## Rounding -/

/-- The quotient rounded to the nearest integer, a tie to the even one. -/
def divNearest (n d : Nat) : Nat :=
  let q := n / d
  let r := n % d
  if d < 2 * r ∨ (2 * r = d ∧ q % 2 = 1) then q + 1 else q

/-- floor(log2(n / d)) of a positive quotient. -/
def floorLog (n d : Nat) : Int :=
  let k : Int := (Nat.log2 n : Int) - (Nat.log2 d : Int)
  if n * pow2 (-k) < d * pow2 k then k - 1 else k

/-- The largest finite magnitude (R287). -/
def FloatFormat.largest (f : FloatFormat) : Nat × Int :=
  match f.special with
  | .ieee => (2 ^ (f.mbits + 1) - 1, (f.topExp : Int) - 2 + f.minUlp)
  | .nanOnly => (2 ^ (f.mbits + 1) - 2, (f.topExp : Int) - 1 + f.minUlp)
  | .none => (2 ^ (f.mbits + 1) - 1, (f.topExp : Int) - 1 + f.minUlp)

/-- A positive quotient rounded to nearest even to the format's precision, its exponent unbounded above. -/
def FloatFormat.nearest (f : FloatFormat) (n d : Nat) : Nat × Int :=
  if n = 0 ∨ d = 0 then (0, f.minUlp)
  else
    let u := max (floorLog n d - f.mbits) f.minUlp
    let q := divNearest (n * pow2 (-u)) (d * pow2 u)
    if q = 2 ^ (f.mbits + 1) then (2 ^ f.mbits, u + 1) else (q, u)

/-- m times 2^e lies above the largest finite value. -/
def FloatFormat.exceeds (f : FloatFormat) (v : Nat × Int) : Bool :=
  let l := f.largest
  (Exact.mk l.1 l.2).lt ⟨v.1, v.2⟩

/-- The code of a rounded magnitude that does not exceed the largest finite value. -/
def FloatFormat.magnitudeCode (f : FloatFormat) (v : Nat × Int) : Nat :=
  if v.1 < 2 ^ f.mbits then v.1 else (v.2 - f.minUlp + 1).toNat * 2 ^ f.mbits + (v.1 - 2 ^ f.mbits)

def FloatFormat.signed (f : FloatFormat) (neg : Bool) (code : Nat) : Nat := if neg then f.signBit + code else code
/-- The code of an infinity (formats that have one). -/
def FloatFormat.infinity (f : FloatFormat) (neg : Bool) : Nat := f.signed neg (f.topExp * 2 ^ f.mbits)
/-- The canonical NaN code (R173, R286, R289). -/
def FloatFormat.canonicalNan (f : FloatFormat) : Nat :=
  match f.special with
  | .nanOnly => 2 ^ (f.ebits + f.mbits) - 1
  | _ => f.topExp * 2 ^ f.mbits + 2 ^ (f.mbits - 1)

/-- A signed quotient as a value of the format, overflow giving infinity of the same sign. -/
def FloatFormat.round (f : FloatFormat) (neg : Bool) (n d : Nat) : Num :=
  let v := f.nearest n d
  if f.exceeds v then .inf neg else .fin neg v.1 v.2

/-- A value rounded once to a format (IEEE formats). -/
def FloatFormat.toFormat (f : FloatFormat) : Num → Num
  | .nan => .nan
  | .inf n => .inf n
  | .fin neg m e => f.round neg (m * pow2 e) (pow2 (-e))

/-- A dyadic rounded once; an exact zero takes the sign given. -/
def FloatFormat.roundDyadic (f : FloatFormat) (zeroNeg : Bool) (x : Exact) : Num :=
  if x.m = 0 then .fin zeroNeg 0 0
  else f.round (decide (x.m < 0)) (x.m.natAbs * pow2 x.e) (pow2 (-x.e))

/-- The code of a value of the format: the value is rounded first, so any value is taken. -/
def FloatFormat.code (f : FloatFormat) (x : Num) : Nat :=
  match f.toFormat x with
  | .nan => f.canonicalNan
  | .inf n => f.infinity n
  | .fin neg m e =>
    let v := f.nearest (m * pow2 e) (pow2 (-e))
    f.signed neg (f.magnitudeCode v)

/-! ## IEEE operations (one rounding each) -/

def FloatFormat.add (f : FloatFormat) (x y : Num) : Num :=
  match x, y with
  | .nan, _ => .nan
  | _, .nan => .nan
  | .inf a, .inf b => if a = b then .inf a else .nan
  | .inf a, _ => .inf a
  | _, .inf b => .inf b
  | a, b => f.roundDyadic (a.neg && b.neg) (a.dyadic.add b.dyadic)

def FloatFormat.sub (f : FloatFormat) (x y : Num) : Num := f.add x y.negate

/-- The exact product; NaN for infinity times zero. -/
def Num.times (x y : Num) : Num :=
  match x, y with
  | .nan, _ => .nan
  | _, .nan => .nan
  | .fin a m e, .fin b n k => .fin (a != b) (m * n) (e + k)
  | a, b => if a.isZero || b.isZero then .nan else .inf (a.neg != b.neg)

def FloatFormat.mul (f : FloatFormat) (x y : Num) : Num := f.toFormat (x.times y)

/-- x * y + z with one rounding. -/
def FloatFormat.fma (f : FloatFormat) (x y z : Num) : Num := f.add (x.times y) z

def FloatFormat.div (f : FloatFormat) (x y : Num) : Num :=
  match x, y with
  | .nan, _ => .nan
  | _, .nan => .nan
  | .inf _, .inf _ => .nan
  | .inf a, b => .inf (a != b.neg)
  | a, .inf b => .fin (a.neg != b) 0 0
  | .fin a m e, .fin b n k =>
    if n = 0 then (if m = 0 then .nan else .inf (a != b))
    else f.round (a != b) (m * pow2 (e - k)) (n * pow2 (k - e))

/-- floor of the square root, by bisection from the top bit down. -/
def sqrtBits (n : Nat) : Nat → Nat → Nat
  | 0, r => r
  | b + 1, r =>
    let t := r + 2 ^ b
    sqrtBits n b (if t * t ≤ n then t else r)

def natSqrt (n : Nat) : Nat := sqrtBits n (Nat.log2 n / 2 + 1) 0

/-- The correctly rounded square root of a positive quotient: enough bits of the root, and whether anything follows
them. -/
def FloatFormat.rootRound (f : FloatFormat) (n d : Nat) : Num :=
  let k := 2 * (Nat.log2 n + Nat.log2 d + f.mbits + 8)
  let x := n * 2 ^ (2 * k) / d
  let r := natSqrt x
  let sticky := if r * r * d = n * 2 ^ (2 * k) then 0 else 1
  f.round false (4 * r + sticky) (4 * 2 ^ k)

def FloatFormat.sqrt (f : FloatFormat) (x : Num) : Num :=
  match x with
  | .nan => .nan
  | .inf n => if n then .nan else .inf false
  | .fin neg m e =>
    if m = 0 then .fin neg 0 0
    else if neg then .nan
    else f.rootRound (m * pow2 e) (pow2 (-e))

/-- Reciprocal square root, correctly rounded; of zero it is infinity of the zero's sign. -/
def FloatFormat.rsqrt (f : FloatFormat) (x : Num) : Num :=
  match x with
  | .nan => .nan
  | .inf n => if n then .nan else .fin false 0 0
  | .fin neg m e =>
    if m = 0 then .inf neg
    else if neg then .nan
    else f.rootRound (pow2 (-e)) (m * pow2 e)

def FloatFormat.rcp (f : FloatFormat) (x : Num) : Num := f.div (.fin false 1 0) x

/-- min and max of R293: -0 below +0, a NaN operand gives NaN. -/
def Num.below (x y : Num) : Bool := x.lt y || (x.eq y && x.neg && !y.neg)
def Num.min (x y : Num) : Num := if x.isNan || y.isNan then .nan else if y.below x then y else x
def Num.max (x y : Num) : Num := if x.isNan || y.isNan then .nan else if x.below y then y else x

/-! ## exp, log and tanh, correctly rounded (R293)

Each is computed in fixed point with so many bits that rounding the approximation is rounding the exact value. -/

/-- Bits after the point in the FP32 functions. -/
def funcBits : Nat := 400

/-- The partial sum of the exponential series: terms from number `n` on. -/
def expSeries (p x : Nat) : Nat → Nat → Nat → Nat
  | 0, _, _ => 0
  | k + 1, n, term => term + expSeries p x k (n + 1) (term * x / (2 ^ p * n))

/-- e to the power x / 2^p, times 2^p, for 0 ≤ x / 2^p < 128. -/
def expFixed (p x : Nat) : Nat := expSeries p x 640 1 (2 ^ p)

/-- |x| in fixed point, at most `top`. -/
def fixedOf (p top : Nat) (m : Nat) (e : Int) : Nat := min (m * pow2 ((p : Int) + e) / pow2 (-((p : Int) + e))) (top * 2 ^ p)

def exp32 (x : Num) : Num :=
  match x with
  | .nan => .nan
  | .inf n => if n then .fin false 0 0 else .inf false
  | .fin neg m e =>
    let v := expFixed funcBits (fixedOf funcBits 110 m e)
    if neg then fp32.round false (2 ^ funcBits) v else fp32.round false v (2 ^ funcBits)

/-- The series of atanh(t) in fixed point: terms t^n / n for odd n. -/
def atanhSeries (p sq : Nat) : Nat → Nat → Nat → Nat
  | 0, _, _ => 0
  | k + 1, n, pow => pow / n + atanhSeries p sq k (n + 2) (pow * sq / 2 ^ p)

/-- 2 atanh(a / b) times 2^p, for a / b at most 1/3. -/
def twoAtanh (p a b : Nat) : Nat :=
  let t := a * 2 ^ p / b
  2 * atanhSeries p (t * t / 2 ^ p) (p / 3 + 2) 1 t

/-- log of m times 2^e in fixed point, signed. -/
def logFixed (p m : Nat) (e : Int) : Int :=
  let k : Int := Nat.log2 m
  let one := pow2 k
  (e + k) * (twoAtanh p 1 3 : Int) + (twoAtanh p (m - one) (m + one) : Int)

def log32 (x : Num) : Num :=
  match x with
  | .nan => .nan
  | .inf n => if n then .nan else .inf false
  | .fin neg m e =>
    if m = 0 then .inf true
    else if neg then .nan
    else fp32.roundDyadic false ⟨logFixed funcBits m e, -(funcBits : Int)⟩

def tanh32 (x : Num) : Num :=
  match x with
  | .nan => .nan
  | .inf n => .fin n 1 0
  | .fin neg m e =>
    if m = 0 then .fin neg 0 0
    else
      let v := expFixed funcBits (2 * fixedOf funcBits 40 m e)
      fp32.round neg (v - 2 ^ funcBits) (v + 2 ^ funcBits)

/-! ## FP64 on the feature lanes (R169) -/

/-- The NaN a feature lane makes: some NaN code of the format, which the spec does not state. -/
def FloatFormat.freeNan (f : FloatFormat) : Nat :=
  f.signed (Config.freeNan f.mbits % 2 == 1) (f.topExp * 2 ^ f.mbits + 1 + Config.freeNan f.mbits / 2 % (2 ^ f.mbits - 1))

/-- The code a feature lane writes for a value. -/
def FloatFormat.laneCode (f : FloatFormat) (x : Num) : Nat := if x.isNan then f.freeNan else f.code x

/-- Bits after the point in the FP64 logarithm. -/
def logBits : Nat := 1300

/-- log(1 + x) in fixed point for a finite x above -1. -/
def log1pFixed (neg : Bool) (m : Nat) (e : Int) : Int :=
  let x : Exact := ⟨if neg then -(m : Int) else m, e⟩
  let y := x.add ⟨1, 0⟩
  if x.lt ⟨1, -1⟩ ∧ (Exact.mk (-1) (-1)).lt x then
    -- log(1 + x) = 2 atanh(x / (2 + x))
    let z := x.add ⟨2, 0⟩
    let s := (twoAtanh logBits (m * pow2 (e - z.e)) z.m.natAbs : Int)
    if neg then -s else s
  else logFixed logBits y.m.natAbs y.e

/-- LOG1P (R181): the exact value lies between two neighbours, each within 1 ulp; which of them the lane's algorithm
gives is not stated. -/
def log1p (x : Num) : Num :=
  match x with
  | .nan => .nan
  | .inf n => if n then .nan else .inf false
  | .fin neg m e =>
    if m = 0 then .fin neg 0 0
    else
      let one : Exact := ⟨-1, 0⟩
      let v := x.dyadic
      if v.lt one then .nan
      else if !(one.lt v) then .inf true
      else
        let r := log1pFixed neg m e
        let n := r.natAbs
        let u := Max.max (floorLog n (2 ^ logBits) - 52) fp64.minUlp
        let q := n * pow2 (-u) / (2 ^ logBits * pow2 u)
        .fin (decide (r < 0)) (if Config.log1pUp (fp64.code x) then q + 1 else q) u

end Sys2Proof.Machine
end

