-- ==== Sys2Proof/Machine/Manifest.lean ====
section
/-! DEFINITION. Manifests: their fields and checks (R60 to R64, R230, R231, R260, R302, R325, R328, R412), and the commands
MANIFEST_LOAD, MANIFEST_STAGE and MANIFEST_QUERY (R65 to R68). -/

namespace Sys2Proof.Machine

/-! ## Fields of a base (R61) -/

def manRanks (m : List Byte) : Nat := leField m 16 4
def manShards (m : List Byte) : Nat := leField m 20 4
def manSemantics (m : List Byte) : Nat := leField m 12 4
def manSeed (m : List Byte) : Nat := leField m 24 8
def manMuster (m : List Byte) : Nat := leField m 32 2
def manDupShift (m : List Byte) : Nat := leField m 34 1
def manLookahead (m : List Byte) : Nat := leField m 35 1
def manVoteMs (m : List Byte) : Nat := leField m 44 4
def manHold (m : List Byte) : Nat := leField m 48 8
def manSections (m : List Byte) : Nat := leField m 56 2

/-- Type, byte length and offset of section entry i. -/
def sectionEntry (m : List Byte) (i : Nat) : Nat × Nat × Nat :=
  (leField m (64 + 8 * i) 2, 64 * leField m (66 + 8 * i) 2, leField m (68 + 8 * i) 4)

/-- The bytes of the section of a type (R62). -/
def manSection (m : List Byte) (t : Nat) : Option (List Byte) :=
  (((List.range (manSections m)).map (sectionEntry m)).find? fun e => e.1 == t).map fun e => slice m e.2.2 e.2.1

/-! ## Section contents -/

/-- The k fixed-size entries after a section's 64-byte header. -/
def sectionItems (b : List Byte) (k size : Nat) : List (List Byte) :=
  (List.range k).map fun i => slice b (64 + size * i) size

/-- Section 1 (R302): graph number and digest prefix of each entry; step_graph. -/
def graphEntries (b : List Byte) : List (List Byte) := sectionItems b (leField b 0 2) 64
def graphEntryNumber (e : List Byte) : Nat := leField e 0 2
def graphEntryPrefix (e : List Byte) : List Byte := slice e 32 32
def stepGraphNumber (b : List Byte) : Nat := leField b 2 2
def section1Fault (b : List Byte) : Option Nat :=
  let k := leField b 0 2
  lowestAt [faultAt (decide (k ≤ 32) && decide (64 + 64 * k ≤ b.length)) 0, spareAt b 4 60,
    entryAt b 64 64 (min k 32) fun e => spareAt e 2 30,
    (repeatAt ((graphEntries b).map graphEntryNumber)).map fun i => 64 + 64 * i]

/-- Embedding table types (R325). -/
def embElem (c : Nat) : Bool := [0x0D, 0x0B, 0x0C, 0x09, 0x0A].contains c
/-- Slice width in bytes (R325). -/
def sliceWidth (elem dim group : Nat) : Nat := dim / group * (elemBits elem).getD 8 / 8

/-- Section 3 (R328). -/
def tableEntries (b : List Byte) : List (List Byte) := sectionItems b (leField b 0 2) 32
def tableEntryFault (shards : Nat) (e : List Byte) : Option Nat :=
  let group := leField e 4 2
  let width := sliceWidth (leField e 2 1) (leField e 16 4) group
  lowestAt [faultAt (decide (leField e 0 2 ≤ 1023)) 0, faultAt (embElem (leField e 2 1)) 2, faultAt (decide (leField e 3 1 < 2)) 3,
    faultAt (isPow2 group && decide (group ≤ 64) && shards % group == 0) 4, spareAt e 6 2,
    faultAt (decide (1 ≤ leField e 8 8) && decide (leField e 8 8 ≤ 2 ^ 40)) 8,
    faultAt (leField e 16 4 % group == 0 && decide (1 ≤ width) && width % 64 == 0 && decide (width ≤ 16384)) 16, spareAt e 20 12]
def section3Fault (shards : Nat) (b : List Byte) : Option Nat :=
  let k := leField b 0 2
  lowestAt [faultAt (decide (k ≤ 256) && decide (64 + 32 * k ≤ b.length)) 0, spareAt b 2 62,
    entryAt b 64 32 (min k 256) (tableEntryFault shards),
    (repeatAt ((tableEntries b).map fun e => leField e 0 2)).map fun i => 64 + 32 * i]

/-- Section 4 (R412). -/
def storeEntries (b : List Byte) : List (List Byte) := sectionItems b (leField b 0 2) 16
def section4Fault (b : List Byte) : Option Nat :=
  let k := leField b 0 2
  lowestAt [faultAt (decide (k ≤ 64) && decide (64 + 16 * k ≤ b.length)) 0, spareAt b 2 62,
    entryAt b 64 16 (min k 64) fun e => lowestAt [faultAt (decide (leField e 0 1 ≤ 63)) 0, spareAt e 1 7]]

/-- Section 5 (R230, R231). -/
def pipeBatch (b : List Byte) : Nat := leField b 0 4
def pipeDivisor (b : List Byte) : Nat := leField b 4 4
def pipeSlice (ranks : Nat) (b : List Byte) : Nat := pipeBatch b / (ranks / pipeDivisor b)
def section5Fault (ranks : Nat) (b : List Byte) : Option Nat :=
  let d := pipeDivisor b
  let divides := isPow2 d && ranks % d == 0
  lowestAt [faultAt (decide (1 ≤ pipeBatch b) && decide (pipeBatch b ≤ 2 ^ 24) && (!divides || pipeBatch b % (ranks / d) == 0)) 0,
    faultAt divides 4, faultAt (decide (1 ≤ leField b 8 4)) 8,
    faultAt (decide (1 ≤ leField b 12 2) && decide (leField b 12 2 ≤ 16384)) 12,
    faultAt (decide (1 ≤ leField b 14 2) && decide (leField b 14 2 ≤ 16384)) 14, faultAt ([0x0B, 0x09].contains (leField b 16 1)) 16,
    faultAt ([1, 2].contains (leField b 17 1)) 17, faultAt ([0, 0x06, 0x08, 0x0D].contains (leField b 18 1)) 18, spareAt b 19 45]

/-- Section 6 (R260). -/
def setEntries (b : List Byte) : List (List Byte) := sectionItems b (leField b 0 2) 64
def section6Fault (b : List Byte) : Option Nat :=
  let k := leField b 0 2
  let scratch := leField b 8 8
  let fin := fun (o : Nat) => lowestAt ((List.range 3).map fun i =>
    faultAt (fp32.value (leField b (o + 4 * i) 4)).finite (o + 4 * i))
  lowestAt [faultAt (decide (k ≤ 256) && decide (64 + 64 * k ≤ b.length)) 0, faultAt ([1, 2].contains (leField b 2 1)) 2,
    faultAt ([1, 2].contains (leField b 3 1)) 3, faultAt (decide (leField b 4 1 < 2)) 4, spareAt b 5 3,
    faultAt (scratch % 4096 == 0 && decide (2 ^ 20 ≤ scratch) && decide (scratch ≤ 2 ^ 32)) 8, spareAt b 22 2, fin 24, fin 36,
    spareAt b 48 16, entryAt b 64 64 (min k 256) fun e => spareAt e 2 30,
    (repeatAt ((setEntries b).map fun e => leField e 0 2)).map fun i => 64 + 64 * i]

/-- The first fault of a section of a type (R62), as an offset in the section. -/
def sectionFault (m : List Byte) (t : Nat) (b : List Byte) : Option Nat :=
  match t with
  | 1 => section1Fault b
  | 3 => section3Fault (manShards m) b
  | 4 => section4Fault b
  | 5 => section5Fault (manRanks m) b
  | 6 => section6Fault b
  | _ => none

/-- The first fault of entry i of the section table (R61, R62): its type, its length, its offset. -/
def sectionEntryFault (m : List Byte) (es : List (Nat × Nat × Nat)) (i : Nat) : Option Nat :=
  let e := es.getD i (0, 0, 0)
  let before := es.take i
  lowestAt [faultAt (decide (1 ≤ e.1) && decide (e.1 ≤ 7) && before.all fun x => x.1 != e.1) (64 + 8 * i),
    faultAt (e.1 != 5 || e.2.1 != 0) (66 + 8 * i),
    faultAt (e.2.2 % 64 == 0 && decide (256 ≤ e.2.2) && decide (e.2.2 + e.2.1 ≤ leField m 8 4) &&
      before.all fun x => decide (x.2.2 + x.2.1 ≤ e.2.2) || decide (e.2.2 + e.2.1 ≤ x.2.2)) (68 + 8 * i)]

/-- The first fault of the header of a base (R61), its section table with it. -/
def headFault (m : List Byte) : Option Nat :=
  let n := manSections m
  let es := (List.range (min n 24)).map (sectionEntry m)
  lowestAt ([faultAt (leField m 0 4 == 0x464D4E53) 0, faultAt (leField m 4 2 == 1) 4, faultAt (leField m 6 2 == 256) 6,
    faultAt (decide (256 ≤ leField m 8 4) && decide (leField m 8 4 ≤ 65536) && leField m 8 4 % 64 == 0) 8,
    faultAt (decide (1 ≤ manRanks m) && decide (manRanks m ≤ 65536)) 16,
    faultAt (isPow2 (manShards m) && manRanks m % manShards m == 0) 20,
    faultAt (decide (1 ≤ manMuster m) && decide (manMuster m ≤ 256)) 32,
    faultAt (decide (3 ≤ manDupShift m) && decide (manDupShift m ≤ 12)) 34, faultAt (decide (manLookahead m ≤ 2)) 35,
    (firstIdx (fun i => leField m (36 + i) 1 == 0) 0 (List.range 5)).map fun i => 36 + i,
    spareAt m 41 3, faultAt (decide (100 ≤ manVoteMs m) && decide (manVoteMs m ≤ 600000)) 44,
    faultAt (decide (n ≤ 24)) 56, spareAt m 58 6, spareAt m (64 + 8 * n) (8 * (24 - n))] ++
    (List.range es.length).map (sectionEntryFault m es))

/-- A base obeys R61, R62 and the sections' chapters; otherwise the first field at fault. -/
def baseFault (m : List Byte) : Option Nat :=
  match headFault m with
  | some o => some o
  | none => lowestAt ((List.range (manSections m)).map fun i =>
      let e := sectionEntry m i
      (sectionFault m e.1 (slice m e.2.2 e.2.1)).map fun o => e.2.2 + o)

/-! ## Overlays (R63, R64) -/

def overlayMode (o : List Byte) : Nat := leField o 4 1
def overlayConfidential (o : List Byte) : Bool := bitOf (leField o 5 1) 0

/-- Patches as (overlay offset, base offset, data); the field at fault where one does not fit. -/
def patchesFrom (o : List Byte) : Nat → Nat → Except Nat (List (Nat × Nat × List Byte))
  | 0, _ => .ok []
  | k + 1, at_ =>
    let len := leField o (at_ + 2) 2
    let step := 8 * ceilDiv (4 + len) 8
    if o.length < at_ + 4 then .error at_
    else if len = 0 ∨ 64 < len then .error (at_ + 2)
    else if o.length < at_ + step then .error at_
    else match patchesFrom o k (at_ + step) with
      | .ok t => .ok ((at_, leField o at_ 2, slice o (at_ + 4) len) :: t)
      | .error n => .error n

def patches (o : List Byte) : Except Nat (List (Nat × Nat × List Byte)) := patchesFrom o (leField o 8 2) 64
/-- The patches of an overlay that holds them. -/
def patchList (o : List Byte) : List (Nat × Nat × List Byte) := match patches o with
  | .ok l => l
  | .error _ => []

def overlayFault (o : List Byte) : Option Nat :=
  lowestAt [faultAt (leField o 0 4 == 0x4F4D4E53) 0, faultAt (decide (1 ≤ overlayMode o) && decide (overlayMode o ≤ 3)) 4,
    faultAt (decide (leField o 5 1 < 2)) 5,
    faultAt (decide (64 ≤ leField o 6 2) && decide (leField o 6 2 ≤ 4096) && leField o 6 2 % 64 == 0) 6, spareAt o 10 6,
    spareAt o 48 16, match patches o with
      | .ok _ => none
      | .error n => some n]

/-- Ranges of a base that a patch may cover: header bytes 32 to 47, and sections of types 5 and 6. -/
def patchable (m : List Byte) : List Range :=
  ⟨32, 16⟩ :: (((List.range (manSections m)).map (sectionEntry m)).filter fun e => e.1 == 5 || e.1 == 6).map fun e => ⟨e.2.2, e.2.1⟩

/-- The base with an overlay's patches applied in order. -/
def patched (m o : List Byte) : List Byte := (patchList o).foldl (fun b x => overlay b x.2.1 x.2.2) m

/-- Digest of a pair (R60). -/
def pairDigest (m o : List Byte) : List Byte := sha3 (m ++ o)

/-- The pairing checks of R64. -/
def pairs (m o : List Byte) : Bool :=
  slice o 16 32 == (sha3 m).take 32 &&
    (patchList o).all (fun x => (patchable m).any fun r => (Range.mk x.2.1 x.2.2.length).inside r) &&
    (baseFault (patched m o)).isNone

/-! ## The pair of a job -/

def State.baseOf (s : State) (n : Nat) : Option (List Byte) := Tab.look s.job.bases n
def State.overlayOf (s : State) (n : Nat) : Option (List Byte) := Tab.look s.job.overlays n

/-- The manifest image a job's step runs under (R66): the staged one from its switch step on. -/
def Job.imageAt (j : Job) (step : Nat) : List Byte := match j.staged with
  | some x => if x.step ≤ step then x.image else j.image
  | none => j.image
def Job.digestAt (j : Job) (step : Nat) : List Byte := match j.staged with
  | some x => if x.step ≤ step then x.digest else j.digest
  | none => j.digest

/-- A tag: digest bytes 0 to 7 (R60). -/
def digestTag (d : List Byte) : Nat := leField d 0 8

/-- Semantics version of an open job under an identifier. -/
def State.jobSemantics (s : State) (id : Word) : Option Nat := (s.findJob id).map fun e => manSemantics e.2.image

/-- Slot use: 0 bases, 1 overlays; an open job uses or has staged a manifest slot (R59). -/
def State.manifestBusy (s : State) (overlaySlot : Bool) (n : Nat) : Bool :=
  s.job.jobs.any fun e =>
    if overlaySlot then e.2.overlaySlot == n || e.2.staged.any fun x => x.overlaySlot == n
    else e.2.baseSlot == n || e.2.staged.any fun x => x.baseSlot == n

/-! ## MANIFEST_LOAD (R65) -/

/-- The bytes a load names. -/
def State.loadSourceBytes (s : State) (p : Packet) : List Byte := s.load (p.param 0 8) (p.param 8 4)

def manifestLoadCommand : Command where
  code := 0x0D01
  lens := fun n => n == 1
  job := .optional
  params := fun s p =>
    let kind := p.param 12 1
    let len := p.param 8 4
    let b := s.loadSourceBytes p
    let stated := if kind = 1 then leField b 8 4 else leField b 6 2
    firstFail [lowestFail [need (decide (1 ≤ len) && decide (len ≤ if kind = 1 then 65536 else 4096)) 72,
        need (kind == 1 || kind == 2) 76, need (decide (p.param 13 1 ≤ if kind = 1 then 7 else 47)) 77, p.zeros 78 50],
      if (Range.mk (p.param 0 8) len).space.isNone then none
      else (if kind = 1 then baseFault b else overlayFault b).map fun o => ⟨Status.badParam, inStruct 64 o⟩,
      need ((Range.mk (p.param 0 8) len).space.isNone || len == stated) 72]
  uses := fun _ p => [⟨64, ⟨p.param 0 8, p.param 8 4⟩, false⟩]
  overlaps := fun _ p => need (Range.mk (p.param 0 8) (p.param 8 4)).inModule 64
  security := fun s p => s.openFail [⟨64, ⟨p.param 0 8, p.param 8 4⟩, false⟩]
  own := fun s p => demand (!s.manifestBusy (p.param 12 1 == 2) (p.param 13 1)) Status.manifestSlotBusy 77
  effect := fun p s =>
    s.orPoisoned p [⟨p.param 0 8, p.param 8 4⟩] id fun s =>
      let b := s.loadSourceBytes p
      let j := if p.param 12 1 = 1 then { s.job with bases := Tab.put s.job.bases (p.param 13 1) b }
        else { s.job with overlays := Tab.put s.job.overlays (p.param 13 1) b }
      ({ s with job := j } : State).complete p Status.ok 0 0 0

/-- MANIFEST_LOAD. -/
def execManifestLoad (p : Packet) (s : State) : Host.Outcome State Fault Refusal := .next (manifestLoadCommand.start p s)

/-! ## MANIFEST_STAGE (R66, R67, R487) -/

/-- The switch may change no rank count, shard layout, semantics version or confidential flag (R67, R487). -/
def stageContent (j : Job) (m o : List Byte) : Bool :=
  manRanks m == manRanks j.image && manShards m == manShards j.image && manSemantics m == manSemantics j.image &&
    manSection m 3 == manSection j.image 3 && overlayConfidential o == j.confidential

def manifestStageCommand : Command where
  code := 0x0D02
  lens := fun n => n == 2
  job := .paramOpen 0
  params := fun s p =>
    lowestFail [need (s.jobOpen (BitVec.ofNat 32 (p.param 0 4))) 64,
      (s.findJob (BitVec.ofNat 32 (p.param 0 4))).bind fun e => need (decide (e.2.next + 3 ≤ p.param 4 4) && decide (p.param 4 4 < 2 ^ 29)) 68,
      need (decide (p.param 8 1 ≤ 7) && (s.baseOf (p.param 8 1)).isSome) 72,
      need (decide (p.param 9 1 ≤ 47) && (s.overlayOf (p.param 9 1)).isSome) 73, p.zeros 74 54]
  own := fun s p =>
    match s.findJob p.job, s.baseOf (p.param 8 1), s.overlayOf (p.param 9 1) with
    | some (_, j), some m, some o =>
      firstFail [need (pairs m o) 73, need (stageContent j m o) 72,
        demand (pairDigest m o == p.paramBytes 64 64) Status.manifestMismatch 128]
    | _, _, _ => need false 64
  effect := fun p s =>
    match s.findJob p.job, s.baseOf (p.param 8 1), s.overlayOf (p.param 9 1) with
    | some (slot, j), some m, some o =>
      let x : Staged := ⟨p.param 4 4, p.param 8 1, p.param 9 1, pairDigest m o, patched m o⟩
      (s.setJob slot { j with staged := some x }).complete p Status.ok 0 0 0
    | _, _, _ => s

/-- MANIFEST_STAGE. -/
def execManifestStage (p : Packet) (s : State) : Host.Outcome State Fault Refusal := .next (manifestStageCommand.start p s)

/-! ## MANIFEST_QUERY (R68) -/

def Job.manifestRecord (j : Job) : List Byte :=
  let st := match j.staged with
    | some x => (x.digest, leBytes 4 x.step, x.baseSlot, x.overlaySlot)
    | none => (List.replicate 64 0, leBytes 4 0xFFFFFFFF, 0xFF, 0xFF)
  j.digest ++ st.1 ++ st.2.1 ++ leBytes 1 j.baseSlot ++ leBytes 1 j.overlaySlot ++ leBytes 1 st.2.2.1 ++ leBytes 1 st.2.2.2 ++
    leBytes 120 0

def manifestQueryCommand : Command where
  code := 0x0D03
  lens := fun n => n == 1
  job := .paramOpen 0
  params := fun _ p => lowestFail [p.zeros 68 4, need (p.param 8 8 % 64 == 0) 72, p.zeros 80 48]
  uses := fun _ p => [⟨72, ⟨hostWindow + p.param 8 8, 256⟩, true⟩]
  effect := fun p s =>
    match s.findJob p.job with
    | some (_, j) => (s.store (hostWindow + p.param 8 8) j.manifestRecord).complete p Status.ok 0 0 0
    | none => s

/-- MANIFEST_QUERY. -/
def execManifestQuery (p : Packet) (s : State) : Host.Outcome State Fault Refusal := .next (manifestQueryCommand.start p s)

end Sys2Proof.Machine
end

