-- ==== Sys2Proof/Machine/Arith.lean ====
section
/-! DEFINITION. The arithmetic of arrays and vector units (R278 to R295): element values, tile accumulation, conversion on
store, vector functions, reductions and normalisations. -/

namespace Sys2Proof.Machine

/-! ## Element values (R287, R288) -/

/-- The floating format of an element type. -/
def elemFormat : Nat → Option FloatFormat
  | 0x09 => some e4m3
  | 0x0A => some e5m2
  | 0x0B => some bf16
  | 0x0C => some fp16
  | 0x0D => some fp32
  | 0x0E => some fp64
  | 0x10 => some e2m1
  | 0x11 => some e2m3
  | 0x12 => some e3m2
  | 0x13 => some e4m3
  | 0x14 => some e5m2
  | _ => none

/-- Unsigned integer types. -/
def elemUnsigned (c : Nat) : Bool := [0x03, 0x05, 0x07, 0x20].contains c
def elemInteger (c : Nat) : Bool := (elemFormat c).isNone

/-- The integer an integer code stands for. -/
def elemInt (c bits : Nat) : Int := if elemUnsigned c then (bits : Int) else signedOf ((elemBits c).getD 8) bits

/-- A value times a power of two. -/
def Num.scaled (x : Num) (k : Int) : Num :=
  match x with
  | .fin n m e => .fin n m (e + k)
  | y => y

/-- The exact value of an element under an E8M0 scale byte (127 where the type has none). -/
def elemValue (c bits scale : Nat) : Num :=
  match elemFormat c with
  | some f => if elemMx c && scale == 255 then .nan else (f.value bits).scaled ((scale : Int) - 127)
  | none => Num.ofInt (elemInt c bits)

/-- The value of the element at an index vector. -/
def State.elemNum (s : State) (d : Desc) (idx : List Int) : Num := elemValue d.elem (s.elem d idx) (s.scaleOf d idx)

/-! ## Conversion on store (R289) -/

/-- Range of an integer type. -/
def elemRange (c : Nat) : Int × Int :=
  let w := (elemBits c).getD 8
  if elemUnsigned c then (0, ((2 ^ w : Nat) : Int) - 1)
  else (-((2 ^ (w - 1) : Nat) : Int), ((2 ^ (w - 1) : Nat) : Int) - 1)

/-- A stored element: its code, whether it counts as saturated, and whether it is a NaN code. -/
structure Stored where
  code : Nat
  sat : Bool
  nan : Bool
  deriving DecidableEq, Repr

def clampTo (r : Int × Int) (v : Int) : Int := if v < r.1 then r.1 else if r.2 < v then r.2 else v

/-- An integer saturated to an integer type. -/
def storeInt (c : Nat) (v : Int) : Stored :=
  let w := clampTo (elemRange c) v
  ⟨unsignedOf ((elemBits c).getD 8) w, decide (w ≠ v), false⟩

/-- A quotient of an integer by 2^k, half to even. -/
def shiftEven (v : Int) (k : Nat) : Int :=
  let q := divNearest v.natAbs (2 ^ k)
  if v < 0 then -(q : Int) else (q : Int)

/-- A finite value rounded to an integer, half to even. -/
def Num.toIntEven (x : Num) : Int :=
  let d := x.dyadic
  let q := divNearest (d.m.natAbs * pow2 d.e) (pow2 (-d.e))
  if d.m < 0 then -(q : Int) else (q : Int)

/-- The code of a format for a value that saturates at the largest finite magnitude; whether it did. -/
def FloatFormat.satCode (f : FloatFormat) (neg : Bool) (m : Nat) (e : Int) : Nat × Bool :=
  let v := f.nearest (m * pow2 e) (pow2 (-e))
  if f.exceeds v then (f.signed neg (f.magnitudeCode f.largest), true) else (f.signed neg (f.magnitudeCode v), false)

/-- An FP32 value stored to a destination type that is not MX (R289). -/
def storeNum (c : Nat) (x : Num) : Stored :=
  match elemFormat c with
  | none =>
    let r := elemRange c
    let code := fun (v : Int) => unsignedOf ((elemBits c).getD 8) v
    match x with
    | .nan => ⟨0, true, false⟩
    | .inf n => ⟨code (if n then r.1 else r.2), true, false⟩
    | y => storeInt c y.toIntEven
  | some f =>
    match x with
    | .nan => ⟨f.canonicalNan, false, true⟩
    | .inf n =>
      if c = 0x09 then ⟨f.signed n (f.magnitudeCode f.largest), true, false⟩ else ⟨f.infinity n, false, false⟩
    | .fin n m e =>
      if c = 0x09 ∨ c = 0x0A then
        let r := f.satCode n m e
        ⟨r.1, r.2, false⟩
      else ⟨f.code (.fin n m e), false, false⟩

/-- emax of an MX element type (R290). -/
def mxEmax : Nat → Int
  | 0x10 => 2
  | 0x11 => 2
  | 0x12 => 4
  | 0x13 => 8
  | _ => 15

/-- The largest magnitude of a block, as a dyadic. -/
def largestOf (l : List Num) : Exact :=
  l.foldl (fun a x =>
    let y : Exact := ⟨((x.dyadic.m.natAbs : Nat) : Int), x.dyadic.e⟩
    if a.lt y then y else a) .zero

/-- A block of 32 values stored to an MX type (R290): the scale byte and the elements. -/
def storeBlock (c : Nat) (l : List Num) : Nat × List Stored :=
  if l.any fun x => !x.finite then (255, l.map fun _ => ⟨0, false, true⟩)
  else
    let f := (elemFormat c).getD e2m1
    let a := largestOf l
    if a.m = 0 then (0, l.map fun x => ⟨f.signed x.neg 0, false, false⟩)
    else
      let k := floorLog (a.m.natAbs * pow2 a.e) (pow2 (-a.e)) - mxEmax c
      let k := if k < -127 then -127 else if 127 < k then 127 else k
      ((k + 127).toNat, l.map fun x => match x with
        | .fin n m e =>
          let r := f.satCode n m (e - k)
          ⟨r.1, r.2, false⟩
        | _ => ⟨0, false, true⟩)

/-! ## Writing rows through a descriptor -/

/-- Split a row into blocks of 32. -/
def blocks32 : Nat → List Num → List (List Num)
  | 0, _ => []
  | k + 1, l => if l.isEmpty then [] else l.take 32 :: blocks32 k (l.drop 32)

/-- Store values at consecutive indices of dimension 0 from `i0` on, counting what R289 counts; it answers whether a NaN
was stored. -/
def State.storeRow (s : State) (d : Desc) (i0 : Nat) (outer : List Int) (l : List Num) : State × Bool :=
  let put := fun (r : State × Bool) (x : Stored × Nat) =>
    let t := r.1.setElem d (Int.ofNat (i0 + x.2) :: outer) x.1.code
    (if x.1.sat then t.bump Reg.arrSatStores 1 else t, r.2 || x.1.nan)
  if elemMx d.elem then
    ((blocks32 l.length l).zipIdx).foldl (fun r b =>
      let q := storeBlock d.elem b.1
      let at_ := i0 + 32 * b.2
      let t := r.1.store (d.scaleAt (Int.ofNat at_ :: outer)) (leBytes 1 q.1)
      (q.2.zipIdx.map fun x => (x.1, 32 * b.2 + x.2)).foldl put (t, r.2)) (s, false)
  else ((l.map (storeNum d.elem)).zipIdx).foldl put (s, false)

/-- Store one integer element. -/
def State.storeIntElem (s : State) (d : Desc) (idx : List Int) (v : Int) : State :=
  let x := storeInt d.elem v
  let t := s.setElem d idx x.code
  if x.sat then t.bump Reg.arrSatStores 1 else t

/-! ## Tile accumulation (R279, R283, R285, R286) -/

/-- The operand pairs: m in quarters, G, and whether the accumulator is INT32; none for a pair outside R279. -/
def tilePair (a b : Nat) : Option (Nat × Nat × Bool) :=
  let fp8 := fun c => c == 0x09 || c == 0x0A
  let mx := fun c => decide (0x10 ≤ c) && decide (c ≤ 0x14)
  if a = 0x01 ∧ b = 0x01 then some (16, 32, true)
  else if a = 0x10 ∧ b = 0x10 then some (16, 32, false)
  else if a = 0x02 ∧ b = 0x02 then some (8, 32, true)
  else if fp8 a && fp8 b then some (8, 32, false)
  else if mx a && mx b then some (8, 32, false)
  else if a = 0x0B ∧ b = 0x0B then some (4, 16, false)
  else if a = 0x0C ∧ b = 0x0C then some (4, 16, false)
  else if a = 0x0D ∧ b = 0x0D then some (1, 1, false)
  else none

/-- K_max of a type (R280). -/
def tileKmax : Nat → Nat
  | 0x01 => 4096
  | 0x10 => 3840
  | 0x11 => 2592
  | 0x12 => 2592
  | 0x13 => 1984
  | 0x14 => 1984
  | 0x0B => 1024
  | 0x0C => 1024
  | 0x0D => 512
  | _ => 2048

/-- The exact products of a group summed (R286): NaN, an infinity, or an exact number with whether every product is a
zero with negative sign. -/
def groupSum (l : List Num) : Num × Exact × Bool :=
  if l.any Num.isNan then (.nan, .zero, false)
  else if l.any (fun x => x.isInf && x.neg) && l.any (fun x => x.isInf && !x.neg) then (.nan, .zero, false)
  else match l.find? Num.isInf with
    | some x => (x, .zero, false)
    | none => (.zero, l.foldl (fun a x => a.add x.dyadic) .zero, l.all fun x => x.isZero && x.neg)

/-- acc + s with one rounding to FP32. -/
def accRound (acc : Num) (l : List Num) : Num :=
  let g := groupSum l
  match g.1 with
  | .nan => .nan
  | .inf n => fp32.add acc (.inf n)
  | _ => match acc with
    | .nan => .nan
    | .inf n => .inf n
    | a => fp32.roundDyadic (a.isZero && a.neg && g.2.2) (a.dyadic.add g.2.1)

/-- Cut a list into groups of g. -/
def groupsOf {α : Type} (g : Nat) : Nat → List α → List (List α)
  | 0, _ => []
  | k + 1, l => if l.isEmpty then [] else l.take g :: groupsOf g k (l.drop g)

/-- A floating accumulator element: the addend, then groups of products in k_order. -/
def tileFloat (g : Nat) (descending : Bool) (init : Num) (a b : List Num) : Num :=
  let groups := groupsOf g a.length ((a.zip b).map fun x => x.1.times x.2)
  (if descending then groups.reverse else groups).foldl accRound init

/-- The exact integer sum of an element; the accumulator holds its low 32 bits. -/
def tileInt (init : Int) (a b : List Int) : Int := (a.zip b).foldl (fun n x => n + x.1 * x.2) init
def wrap32 (v : Int) : Int := signedOf 32 (unsignedOf 32 v)

/-! ## Vector functions (R293) -/

def one32 : Num := .fin false 1 0
def num32 (code : Nat) : Num := fp32.value code

/-- A value loaded into a lane: INT32 and wider values are rounded, other types are exact. -/
def loadLane (x : Num) : Num := fp32.toFormat x

def silu (x : Num) : Num := fp32.mul x (fp32.rcp (fp32.add one32 (exp32 x.negate)))

def gelu (x : Num) : Num :=
  let c0 := num32 0x3F4C422A
  let c1 := num32 0x3D372712
  let u := fp32.mul c0 (fp32.add x (fp32.mul c1 (fp32.mul x (fp32.mul x x))))
  fp32.mul (fp32.mul (num32 0x3F000000) x) (fp32.add one32 (tanh32 u))

/-- Fixed-order reduction (R294). -/
inductive ReduceOp where
  | add | max | min
  deriving DecidableEq, Repr

def ReduceOp.apply (o : ReduceOp) (x y : Num) : Num :=
  match o with
  | .add => fp32.add x y
  | .max => x.max y
  | .min => x.min y
def ReduceOp.identity : ReduceOp → Num
  | .add => .fin false 0 0
  | .max => .inf true
  | .min => .inf false

/-- Lane i takes lane[i] op lane[i + d], for the first d lanes. -/
def foldLanes (o : ReduceOp) (d : Nat) (l : List Num) : List Num :=
  ((l.take d).zip (l.drop d)).map fun x => o.apply x.1 x.2

/-- One chunk of 128 values, padded with the identity. -/
def reduceChunk (o : ReduceOp) (l : List Num) : Num :=
  let full := l ++ List.replicate (128 - l.length) o.identity
  ([64, 32, 16, 8, 4, 2, 1].foldl (fun t d => foldLanes o d t) full).headD o.identity

def reduceRow (o : ReduceOp) (l : List Num) : Num :=
  match (groupsOf 128 l.length l).map (reduceChunk o) with
  | [] => o.identity
  | r :: t => t.foldl o.apply r

/-! ## Composites (R295) -/

def countRcp (n : Nat) : Num := fp32.rcp (fp32.toFormat (.fin false n 0))

def softmaxRow (x : List Num) : List Num :=
  let mx := reduceRow .max x
  let e := x.map fun v => exp32 (fp32.sub v mx)
  let r := fp32.rcp (reduceRow .add e)
  e.map fun v => fp32.mul v r

def layerNormRow (eps : Num) (x gamma beta : List Num) : List Num :=
  let k := countRcp x.length
  let mu := fp32.mul (reduceRow .add x) k
  let d := x.map fun v => fp32.sub v mu
  let var := fp32.mul (reduceRow .add (d.map fun v => fp32.mul v v)) k
  let r := fp32.rsqrt (fp32.add var eps)
  (d.zip (gamma.zip beta)).map fun v => fp32.fma (fp32.mul v.1 r) v.2.1 v.2.2

def rmsNormRow (eps : Num) (x gamma : List Num) : List Num :=
  let ms := fp32.mul (reduceRow .add (x.map fun v => fp32.mul v v)) (countRcp x.length)
  let r := fp32.rsqrt (fp32.add ms eps)
  (x.zip gamma).map fun v => fp32.mul (fp32.mul v.1 r) v.2

end Sys2Proof.Machine
end

