-- ==== Sys2Proof/Machine/MemCommands.lean ====
section
/-! DEFINITION. Memory regions, copy, fill and the BAR4 aperture (R109 to R129): REGION_DEFINE, REGION_RELEASE, MEM_COPY,
MEM_FILL and BAR4_ACCESS. -/

namespace Sys2Proof.Machine

/-! ## REGION_DEFINE (R111, R112, R486) -/

/-- The alignment of a memory region (R111). -/
def regionUnit (base : Nat) : Nat := if 0x010000000000 ≤ base ∧ base < 0x010010000000 then 0x10000 else 0x1000

/-- The lowest identifier of a memory region that a range meets. -/
def State.overlapId (s : State) (r : Range) : Option Nat :=
  (s.memory.regions.find? fun e => e.2.range.meets r).map fun e => e.1

def regionDefineCommand : Command where
  code := 0x0201
  lens := fun n => n == 1
  job := .optional
  params := fun _ p =>
    let base := p.param 8 8
    let size := p.param 16 8
    firstFail [need (decide (p.param 0 4 ≤ 4095)) 64, need (base % regionUnit base == 0) 72,
      need (size % regionUnit base == 0 && size != 0) 80, p.zeros 88 40]
  overlaps := fun s p =>
    let r : Range := ⟨p.param 8 8, p.param 16 8⟩
    need (s.mapped r && (match r.space with
      | some (.localStore _) => false
      | _ => true)) 72
  own := fun s p =>
    firstFail [need (Tab.look s.memory.regions (p.param 0 4)).isNone 64,
      (s.overlapId ⟨p.param 8 8, p.param 16 8⟩).map fun i => ⟨Status.regionOverlap, i⟩]
  effect := fun p s =>
    let owner := BitVec.ofNat 32 (p.param 4 4)
    let key := (s.findJob owner).bind fun e => e.2.keySlot
    let m := { s.memory with
      regions := Tab.put s.memory.regions (p.param 0 4) ⟨owner, p.param 8 8, p.param 16 8, key⟩ }
    ({ s with memory := m } : State).complete p Status.ok 0 0 0

/-- REGION_DEFINE. -/
def execRegionDefine (p : Packet) (s : State) : Host.Outcome State Fault Refusal := .next (regionDefineCommand.start p s)

/-! ## REGION_RELEASE (R113) -/

def regionReleaseCommand : Command where
  code := 0x0202
  lens := fun n => n == 1
  job := .optional
  params := fun _ p => firstFail [need (decide (p.param 0 4 ≤ 4095)) 64, p.zeros 68 60]
  own := fun s p =>
    need (match Tab.look s.memory.regions (p.param 0 4) with
      | none => false
      | some r => !s.jobOpen r.owner) 64
  effect := fun p s =>
    match Tab.look s.memory.regions (p.param 0 4) with
    | none => s
    | some r =>
      let m := { s.memory with regions := Tab.del s.memory.regions (p.param 0 4) }
      (({ s with memory := m } : State).enroll p (.regionRelease r.base r.size r.key.isSome) [] 0).wake

/-- REGION_RELEASE. -/
def execRegionRelease (p : Packet) (s : State) : Host.Outcome State Fault Refusal :=
  .next (regionReleaseCommand.start p s)

/-! ## MEM_COPY (R124 to R128) -/

/-- Two ranges may be copied between under R498: both outside protected regions, or both inside regions of one
binding. -/
def State.sameProtection (s : State) (a b : Range) : Bool :=
  if !s.protectedHit a && !s.protectedHit b then true
  else
    s.memory.regions.any fun x => x.2.key.isSome && a.inside x.2.range &&
      s.memory.regions.any fun y => y.2.key == x.2.key && b.inside y.2.range

/-- A transposing tile's destination element (i1, i0, outer) is the source element (i0, i1, outer) (R124). -/
def State.transposeRow (s : State) (src dst : Desc) (r : Nat) : State :=
  let idx := src.rowIndex r
  let i1 := idx.headD 0
  (List.range (src.ext 0)).foldl (fun t (i0 : Nat) =>
    t.setElem dst (i1 :: Int.ofNat i0 :: idx.drop 1) (s.elem src (Int.ofNat i0 :: idx))) s

/-- Copy row r and, for an MX type, its scales (R117, R118). -/
def State.copyRow (s : State) (src dst : Desc) (r : Nat) : State :=
  let t := s.store (dst.rowAt r) (s.load (src.rowAt r) src.rowBytes)
  if elemMx src.elem then t.store (dst.scale + r * dst.scaleRow) (s.load (src.scale + r * src.scaleRow) src.blocks) else t

/-- Copy a tensor, with dimensions 0 and 1 exchanged or not (R128). -/
def State.copyTensor (s : State) (transpose : Bool) (src dst : Desc) : State :=
  (List.range src.rows).foldl (fun t r => if transpose then t.transposeRow src dst r else t.copyRow src dst r) s

/-- The bytes of a destination become undefined (R129). -/
def State.scrambleDesc (s : State) (d : Desc) : State :=
  (List.range d.rows).foldl (fun t r => t.scramble (d.rowAt r) d.rowBytes) s

def memCopySrc (p : Packet) : Desc := p.desc 128
def memCopyDst (p : Packet) : Desc := p.desc 256
def memCopyTranspose (p : Packet) : Bool := bitOf (p.param 0 4) 0

/-- dst's extents are src's, with the first two exchanged under TRANSPOSE (R128); the fault is the first extent that
differs. -/
def memCopyExtents (p : Packet) : Option Fail :=
  let s := memCopySrc p
  let d := memCopyDst p
  let want := fun i => if memCopyTranspose p then (if i = 0 then s.ext 1 else if i = 1 then s.ext 0 else s.ext i) else s.ext i
  (firstIdx (fun i => d.ext i != want i) 0 (List.range 6)).map fun i => ⟨Status.badParam, 256 + 16 + 4 * i⟩

def memCopyCommand : Command where
  code := 0x0203
  lens := fun n => n == 5
  job := .optional
  params := fun _ p =>
    firstFail [lowestFail [need (decide (p.param 0 1 < 2)) 64, p.zeros 65 63, p.descFail 128, p.descFail 256],
      need ((memCopySrc p).rank == (memCopyDst p).rank) 265, memCopyExtents p]
  aligns := fun _ p => lowestFail [p.alignFail 128, p.alignFail 256]
  uses := fun _ p => (memCopySrc p).uses 128 false ++ (memCopyDst p).uses 256 true
  overlaps := fun _ p =>
    let a := [(memCopySrc p).footprint, (memCopySrc p).scaleRange]
    let b := [(memCopyDst p).footprint, (memCopyDst p).scaleRange]
    firstFail [need (!(a.any fun x => b.any fun y => x.meets y)) 256, p.aliasFail 256]
  types := fun _ p =>
    lowestFail [demand ((memCopySrc p).elem == (memCopyDst p).elem) Status.typeMismatch 264,
      demand (!memCopyTranspose p || elemTransposable (memCopySrc p).elem) Status.typeMismatch 136]
  security := fun s p =>
    demand (s.sameProtection (memCopySrc p).footprint (memCopyDst p).footprint) Status.protectedRegion 128
  unit := 1
  total := fun _ p => (memCopyDst p).dataBytes
  effect := fun p s =>
    let n := (memCopyDst p).dataBytes
    match s.poisonedIn [(memCopySrc p).footprint, (memCopySrc p).scaleRange] with
    | some a => ((s.readTwice a).scrambleDesc (memCopyDst p)).complete p Status.dataPoisoned a 0 n
    | none => (s.copyTensor (memCopyTranspose p) (memCopySrc p) (memCopyDst p)).complete p Status.ok 0 n n

/-- MEM_COPY. -/
def execMemCopy (p : Packet) (s : State) : Host.Outcome State Fault Refusal := .next (memCopyCommand.start p s)

/-! ## MEM_FILL (R129) -/

/-- The pattern repeated from the row's first byte and cut at its last. -/
def fillRow (pattern : List Byte) (n : Nat) : List Byte := (List.range n).map fun i => pattern.getD (i % 64) 0

def memFillDst (p : Packet) : Desc := p.desc 128

def memFillCommand : Command where
  code := 0x0204
  lens := fun n => n == 3
  job := .optional
  params := fun _ p => p.descFail 128
  aligns := fun _ p => p.alignFail 128
  uses := fun _ p => (memFillDst p).uses 128 true
  overlaps := fun _ p => p.aliasFail 128
  security := fun s p => demand (!s.protectedHit (memFillDst p).footprint) Status.protectedRegion 128
  unit := 1
  total := fun _ p => (memFillDst p).dataBytes
  effect := fun p s =>
    let d := memFillDst p
    let row := fillRow (p.paramBytes 0 64) d.rowBytes
    let t := (List.range d.rows).foldl (fun t r => t.store (d.rowAt r) row) s
    t.complete p Status.ok 0 d.dataBytes d.dataBytes

/-- MEM_FILL. -/
def execMemFill (p : Packet) (s : State) : Host.Outcome State Fault Refusal := .next (memFillCommand.start p s)

/-! ## BAR4_ACCESS (R109, R110) -/

/-- How one 64-byte piece of a host transaction is classified (R110). -/
inductive PieceKind where
  | served | unmapped | closed | immutable
  deriving DecidableEq, Repr

/-- The kind of the piece at a BAR4 offset. A guarded table can be read and not written (R134). -/
def State.pieceKind (s : State) (a n : Nat) : PieceKind :=
  let r : Range := ⟨a, n⟩
  if !(r.inside (hbmRange 0) || r.inside (hbmRange 1)) then .unmapped
  else if s.protectedHit r || s.jobOwners r != [] then .closed
  else if s.guardHit r then .immutable
  else .served

/-- The 64-byte pieces of a transaction: address and length. -/
def pieces (a n : Nat) : List (Nat × Nat) :=
  let first := a / 64
  (List.range (if n = 0 then 0 else (a + n - 1) / 64 + 1 - first)).map fun i =>
    let lo := max a ((first + i) * 64)
    let hi := min (a + n) ((first + i + 1) * 64)
    (lo, hi - lo)

/-- Read one piece, counting it if it is not served. -/
def State.readPiece (s : State) (a n : Nat) : State × List Byte :=
  match s.pieceKind a n with
  | .unmapped => (s.bump Reg.cntBar4Unmapped 1, List.replicate n 0xFF)
  | .closed => (s.bump Reg.cntBar4ProtRead 1, List.replicate n 0xFF)
  | _ => (s, s.load a n)

/-- Write one piece, counting it if it is dropped. -/
def State.writePiece (s : State) (a : Nat) (b : List Byte) : State :=
  match s.pieceKind a b.length with
  | .unmapped => s.bump Reg.cntBar4Unmapped 1
  | .served => s.store a b
  | _ => s.bump Reg.cntBar4ProtWrite 1

/-- BAR4_ACCESS: a host transaction, piece by piece. BAR4 is non-TEE memory, so the T bit plays no part (R484). -/
def execBar4Access (write : Bool) (off len : Nat) (data : List Byte) (_tee : Bool) (s : State) :
    Host.Outcome State Fault Refusal :=
  .next (
    if !s.mmioOpen then s
    else if write then
      (pieces off data.length).foldl (fun t e => t.writePiece e.1 ((data.drop (e.1 - off)).take e.2)) s
    else
      let r := (pieces off len).foldl (fun (t : State × List Byte) e =>
        let x := t.1.readPiece e.1 e.2
        (x.1, t.2 ++ x.2)) (s, [])
      { r.1 with hostRead := r.2 })

end Sys2Proof.Machine
end

