-- ==== Sys2Proof/Machine/Relay.lean ====
section
/-! DEFINITION. The relay's transport: extension packets (R415 to R418), keys and sealing (R434), streams, credit and
acknowledgement (R427 to R431), and the state every relay operation keeps. -/

namespace Sys2Proof.Machine

/-! ## Names -/

def opcodeSealedPut : Nat := 0xC0
def opcodeGetRequest : Nat := 0xC1
def opcodeGetResponse : Nat := 0xC2
def opcodeSlotPut : Nat := 0xC3
def opcodeSignal : Nat := 0xC4
def opcodeFence : Nat := 0xC5
def opcodeAck : Nat := 0xC6

/-- The slot field of an operation without a landing (R417). -/
def noSlot : Nat := 0xFFFFFFFF

/-- NAK codes (R428). -/
inductive Nak where
  | none | notReady | mismatch | noJob | access | versionAbsent
  deriving DecidableEq, Repr

def Nak.code : Nak → Nat
  | .none => 0
  | .notReady => 1
  | .mismatch => 2
  | .noJob => 3
  | .access => 4
  | .versionAbsent => 5

/-- This module's ID (R408), when a LOCAL record has been accepted. -/
def State.moduleId (s : State) : Option Nat := s.relay.local_.map fun r => r.module

def State.setRelay (s : State) (r : RelayState) : State := { s with relay := r }

/-- The module of a rank of a job: its entry of the peer table (R411). -/
def State.rankModule (s : State) (j : Job) (r : Nat) : Nat := s.loadNat (j.peerTable + 4 * r) 2

/-- The key of a stream: peer, pairwise key serial and class. -/
def streamKey (peer serial cls : Nat) : Nat := (peer * 2 ^ 32 + serial) * 4 + cls

/-- The whole 64-bit sequence of a packet number (R417). -/
def seqWord (cls n : Nat) : Nat := cls * 2 ^ 62 + n

/-! ## Keys (R434, R495, R496) -/

/-- The pairwise keys held with a peer, newest first. -/
def State.pairKeys (s : State) (peer : Nat) : List PairKey :=
  (s.sec.pairs.filter fun k => k.peer == peer).foldr
    (fun k l => match l with
      | [] => [k]
      | x :: t => if x.serial < k.serial then k :: x :: t else x :: k :: t) []

/-- The pairwise key a sender uses: the newer one once both sides have installed it. -/
def State.pairToUse (s : State) (peer : Nat) : Option PairKey :=
  match s.pairKeys peer with
  | [] => none
  | [k] => some k
  | k :: o :: _ => some (if Config.peerHolds s.free then k else o)

/-- The newest job key generation held for the job in a slot. -/
def State.jobKey (s : State) (slot : Nat) : Option JobKey :=
  (s.sec.jobKeys.filter fun k => k.slot == slot).foldl (fun a k => match a with
    | none => some k
    | some x => if x.generation < k.generation then some k else some x) none

/-- A key chosen for a packet: its P_Key, its bytes and the serial of the pair's stream. -/
structure Chosen where
  pkey : Nat
  key : List Byte
  serial : Nat
  deriving DecidableEq, Repr

/-- The key of a packet (R434): the job key when both hold the generation in use, else the pairwise key; none while no
pairwise key exists. -/
def State.chooseKey (s : State) (peer : Nat) (b : Body) : Option Chosen :=
  match s.pairToUse peer with
  | none => none
  | some k =>
    let pair : Chosen := ⟨0xFFFF, k.key, k.serial⟩
    if b.cls = 3 then some pair
    else match s.findJob b.job with
      | none => some pair
      | some (slot, _) => match s.jobKey slot with
        | none => some pair
        | some g => some (if Config.peerHolds (s.free + 1) then ⟨0xFF00 + g.generation, g.key, k.serial⟩ else pair)

/-! ## Packets (R415 to R418, R434) -/

/-- The BTH (R416). -/
def bth (opcode pkey qp psn : Nat) : List Byte :=
  leBytes 1 opcode ++ [0] ++ beBytes 2 pkey ++ [0] ++ beBytes 3 qp ++ [0] ++ beBytes 3 (psn % 2 ^ 24)

/-- The extension header (R417). -/
def Body.header (b : Body) (seq : Nat) : List Byte :=
  b.tag ++ leBytes 4 b.job.toNat ++ leBytes 4 (b.step * 8 + b.attempt) ++ leBytes 4 b.rank ++ leBytes 4 b.slot ++
    leBytes 8 (seqWord b.cls seq)

/-- The 12-byte IV (R434). -/
def relayIv (sender receiver word : Nat) : List Byte := leBytes 2 sender ++ leBytes 2 receiver ++ leBytes 8 word

/-- The sealed bytes of a packet from the BTH to the GCM tag. -/
def Body.sealed (b : Body) (me peer seq : Nat) (k : Chosen) : List Byte :=
  let h := bth b.opcode k.pkey (0x010000 + me) (seqWord b.cls seq) ++ b.header seq
  let c := gcmSeal k.key (relayIv me peer (seqWord b.cls seq)) h (b.block ++ b.payload)
  h ++ c.1 ++ c.2

/-! ## Planes (R430) -/

def State.planeUsable (s : State) (peer plane : Nat) : Bool :=
  s.relay.links.contains plane && !s.relay.unusable.contains (8 * peer + plane)

/-- Bytes in flight on a plane. -/
def State.planeLoad (s : State) (plane : Nat) : Nat :=
  (s.relay.flights.filter fun f => f.plane == plane).foldl (fun n f => n + f.frame.length) 0

/-- The usable plane with the fewest queued bytes, the lowest among equals. -/
def State.pickPlane (s : State) (peer : Nat) : Option Nat :=
  ((List.range 8).filter fun p => s.planeUsable peer p).foldl (fun a p => match a with
    | none => some p
    | some q => if s.planeLoad p < s.planeLoad q then some p else some q) none

/-- The next usable plane after one (R429). -/
def State.nextPlane (s : State) (peer plane : Nat) : Option Nat :=
  ((List.range 8).map fun i => (plane + 1 + i) % 8).find? fun p => s.planeUsable peer p

/-! ## Streams -/

def State.sendStream (s : State) (peer serial cls : Nat) : SendStream :=
  Tab.get ⟨0, if cls = 0 then 4 else 0, 0⟩ s.relay.sends (streamKey peer serial cls)
def State.setSend (s : State) (peer serial cls : Nat) (x : SendStream) : State :=
  s.setRelay { s.relay with sends := Tab.put s.relay.sends (streamKey peer serial cls) x }
def State.recvStream (s : State) (peer serial cls : Nat) : RecvStream :=
  Tab.get ⟨0, [], if cls = 0 then 4 else 0, 0, 0⟩ s.relay.recvs (streamKey peer serial cls)
def State.setRecv (s : State) (peer serial cls : Nat) (x : RecvStream) : State :=
  s.setRelay { s.relay with recvs := Tab.put s.relay.recvs (streamKey peer serial cls) x }

/-- Count a packet sent; a non-ACK packet under a pairwise key is a fallback packet (R441). -/
def State.countSent (s : State) (cls pkey : Nat) : State :=
  let s := s.bumpWide Reg.rlyTxPktsLo 1
  if cls ≠ 3 ∧ pkey = 0xFFFF then s.bump Reg.rlyFallbackPkts 1 else s

def State.emit (s : State) (x : Sent) : State := { s with sent := s.sent ++ [x] }

/-- Which bits of sack are set: bit i for packet cum + 1 + i (R428). -/
def RecvStream.sack (r : RecvStream) : Nat :=
  (List.range 64).foldl (fun n i => if r.above.contains (r.cum + 1 + i) then n + 2 ^ i else n) 0

/-- Packets formed for a peer in a class that have not been sent. -/
def State.demandOf (s : State) (peer cls : Nat) : Nat :=
  (s.relay.waiting.filter fun w => w.1 == peer && w.2.cls == cls).length

/-- Send an ACK for a pair and class (R418, R428): it carries this module's demand in the class. With NAK 0, nak_sequence
carries the highest sequence this module has used, plus one. -/
def State.sendAck (s : State) (peer serial cls : Nat) (nak : Nak) (nakSeq detail : Nat) : State :=
  match s.moduleId, (s.pairKeys peer).find? (fun k => k.serial == serial), s.pickPlane peer with
  | some me, some k, some _ =>
    let r := s.recvStream peer serial cls
    let own := s.sendStream peer serial cls
    let demand := s.demandOf peer cls
    let ackSeq := (s.sendStream peer serial 3).next
    let named := if nak = .none then own.next else nakSeq
    let b : Body := ⟨0, 3, opcodeAck, List.replicate 8 0, noJob, 0, 0, 0xFFFFFFFF, noSlot,
      leBytes 1 cls ++ leBytes 1 nak.code ++ leBytes 2 0 ++ leBytes 4 demand ++ leBytes 8 (seqWord cls r.cum),
      leBytes 8 r.sack ++ leBytes 8 (seqWord cls r.limit) ++ leBytes 8 (seqWord cls named) ++ leBytes 8 detail ++
        List.replicate 16 0⟩
    let s := s.setSend peer serial 3 ⟨ackSeq + 1, 0, 0⟩
    let s := s.setRecv peer serial cls { r with unacked := 0 }
    let s := s.setSend peer serial cls { own with demand := demand }
    (s.emit (.relay peer 3 ackSeq (b.sealed me peer ackSeq ⟨0xFFFF, k.key, serial⟩))).countSent 3 0xFFFF
  | _, _, _ => s

/-! ## Sending (R425, R427, R430, R431) -/

/-- A FENCE of the same job and rank toward the peer stands before the packet: sent and not acknowledged (R425). -/
def State.fenceAhead (s : State) (peer : Nat) (b : Body) : Bool :=
  s.relay.flights.any fun f => f.peer == peer && f.body.opcode == opcodeFence && f.body.job == b.job && f.body.rank == b.rank

/-- A packet formed earlier and still unsent holds this one back: one of its class, a FENCE of its rank, or, for a FENCE,
any operation of its rank. -/
def heldBy (b : Body) (peer : Nat) (w : Nat × Body) : Bool :=
  w.1 == peer && (w.2.cls == b.cls || (w.2.rank == b.rank && w.2.job == b.job &&
    (w.2.opcode == opcodeFence || b.opcode == opcodeFence)))

/-- A SEALED_GET request has its packet number once it is sent; its response names it. -/
def numberGet (l : List GetReq) (op seq : Nat) : List GetReq :=
  match firstIdx (fun g => g.op == op && g.seq == 2 ^ 62) 0 l with
  | some i => setAt l i fun g => { g with seq := seq }
  | none => l

/-- Send one packet now, if a key, credit and a plane are there. -/
def State.trySend (s : State) (peer : Nat) (b : Body) : Option State :=
  if s.fenceAhead peer b then none
  else match s.moduleId, s.chooseKey peer b, s.pickPlane peer with
    | some me, some k, some plane =>
      let st := s.sendStream peer k.serial b.cls
      if st.limit ≤ st.next then none
      else
        let high := fun (c : Nat) =>
          let n := (s.sendStream peer k.serial c).next
          if n = 0 then 2 ^ 64 - 1 else seqWord c (n - 1)
        let b := if b.opcode = opcodeFence then { b with block := leBytes 8 (high 1) ++ leBytes 8 (high 2) } else b
        let frame := b.sealed me peer st.next k
        let f : Flight := ⟨peer, k.serial, st.next, b, frame, plane, 0, false⟩
        let s := s.setSend peer k.serial b.cls { st with next := st.next + 1 }
        let gets := if b.opcode = opcodeGetRequest then numberGet s.relay.gets b.op st.next else s.relay.gets
        let s := { s with relay := { s.relay with flights := s.relay.flights ++ [f], gets := gets }, free := s.free + 2 }
        some ((s.emit (.relay peer b.cls st.next frame)).countSent b.cls k.pkey)
    | _, _, _ => none

/-- Send every waiting packet that may go, in order; the others stay. -/
def State.pumpList (s : State) (kept : List (Nat × Body)) : List (Nat × Body) → State
  | [] => s.setRelay { s.relay with waiting := kept }
  | w :: t =>
    if kept.any (heldBy w.2 w.1) then s.pumpList (kept ++ [w]) t
    else match s.trySend w.1 w.2 with
      | some s' => s'.pumpList kept t
      | none => s.pumpList (kept ++ [w]) t

/-- Tell a peer this module's demand in a class where it has changed (R431). -/
def State.reportDemand (s : State) (key : Nat) : State :=
  let cls := key % 4
  let serial := key / 4 % 2 ^ 32
  let peer := key / 4 / 2 ^ 32
  let demand := s.demandOf peer cls
  if cls = 1 ∨ cls = 2 then
    if demand = (s.sendStream peer serial cls).demand then s else s.sendAck peer serial cls .none 0 0
  else s

/-- Send what may be sent, then report demand for credit. -/
def State.pump (s : State) : State :=
  let s := s.pumpList [] s.relay.waiting
  let fresh := s.relay.waiting.filterMap fun w => (s.pairToUse w.1).map fun k => streamKey w.1 k.serial w.2.cls
  (s.relay.sends.map (fun e => e.1) ++ fresh).eraseDups.foldl (fun t k => t.reportDemand k) s

/-- Form packets toward a peer for an operation, and send what may go. -/
def State.post (s : State) (peer : Nat) (bodies : List Body) : State :=
  (s.setRelay { s.relay with waiting := s.relay.waiting ++ bodies.map fun b => (peer, b) }).pump

/-! ## Operations -/

/-- A new operation: its number is the next one. -/
def State.newOp (s : State) (o : RelayOp) : State :=
  s.setRelay { s.relay with ops := Tab.put s.relay.ops s.relay.nextOp o, nextOp := s.relay.nextOp + 1 }

/-- Zeros after a list of bytes, up to a length. -/
def padTo (n : Nat) (l : List Byte) : List Byte := l ++ List.replicate (n - l.length) 0
/-- Zeros up to the next multiple of 64. -/
def pad64 (l : List Byte) : List Byte := padTo (64 * ceilDiv l.length 64) l

/-- Cut bytes into payloads of at most 4,096 bytes, in multiples of 64 (R415): offset and bytes. -/
def payloads (data : List Byte) : List (Nat × List Byte) :=
  (List.range (ceilDiv data.length 4096)).map fun i => (4096 * i, pad64 ((data.drop (4096 * i)).take 4096))

/-- Where the operations of a sender stand (R417): tag, job, step, attempt and rank. -/
structure Origin where
  tag : List Byte
  job : Word
  step : Nat
  attempt : Nat
  rank : Nat
  deriving DecidableEq, Repr

def Origin.body (g : Origin) (op cls opcode slot : Nat) (block payload : List Byte) : Body :=
  ⟨op, cls, opcode, g.tag, g.job, g.step, g.attempt, g.rank, slot, block, payload⟩

/-- SEALED_PUT of bytes to an offset of a remote region (R418). -/
def State.sealedPut (s : State) (owner : OpOwner) (peer cls region offset : Nat) (g : Origin) (data : List Byte) : State :=
  let op := s.relay.nextOp
  let l := (payloads data).map fun x =>
    g.body op cls opcodeSealedPut noSlot (leBytes 4 region ++ leBytes 4 0 ++ leBytes 8 (offset + x.1)) x.2
  (s.newOp ⟨owner, peer, g.job, l.length, 0⟩).post peer l

/-- SLOT_PUT of one plane (R418, R420). -/
def State.slotPut (s : State) (owner : OpOwner) (peer cls slot : Nat) (g : Origin) (data : List Byte) : State :=
  let op := s.relay.nextOp
  let l := (payloads data).map fun x =>
    g.body op cls opcodeSlotPut slot (leBytes 8 data.length ++ leBytes 8 x.1) x.2
  (s.newOp ⟨owner, peer, g.job, l.length, 0⟩).post peer l

/-- A SIGNAL (R418, R424). -/
def State.signal (s : State) (owner : OpOwner) (peer slot : Nat) (g : Origin) (kind cause value : Nat) : State :=
  let op := s.relay.nextOp
  let b := g.body op 0 opcodeSignal slot (leBytes 1 kind ++ leBytes 1 0 ++ leBytes 2 cause ++ leBytes 4 0 ++ leBytes 8 value) []
  (s.newOp ⟨owner, peer, g.job, 1, 0⟩).post peer [b]

/-- A FENCE (R425). -/
def State.fenceOp (s : State) (owner : OpOwner) (peer : Nat) (g : Origin) : State :=
  let op := s.relay.nextOp
  (s.newOp ⟨owner, peer, g.job, 1, 0⟩).post peer [g.body op 0 opcodeFence noSlot (List.replicate 16 0) []]

/-- The part [o, o + n) of a list of target ranges. -/
def targetPart : List (Nat × Nat) → Nat → Nat → List (Nat × Nat)
  | [], _, _ => []
  | (a, l) :: t, o, n =>
    if l ≤ o then targetPart t (o - l) n
    else if n = 0 then []
    else
      let k := min n (l - o)
      (a + o, k) :: targetPart t 0 (n - k)

/-- Write bytes over a list of target ranges. -/
def State.scatterTo (s : State) : List (Nat × Nat) → List Byte → State
  | [], _ => s
  | (a, l) :: t, b => (s.store a (b.take l)).scatterTo t (b.drop l)

/-- SEALED_GET of a length from an offset of a remote region: one request for each 16 MiB (R418). -/
def State.sealedGet (s : State) (owner : OpOwner) (peer cls region offset length : Nat) (g : Origin)
    (target : List (Nat × Nat)) : State :=
  let op := s.relay.nextOp
  let cuts := (List.range (ceilDiv length 0x1000000)).map fun i =>
    (0x1000000 * i, min 0x1000000 (length - 0x1000000 * i))
  let l := cuts.map fun c =>
    g.body op cls opcodeGetRequest noSlot (leBytes 4 region ++ leBytes 4 c.2 ++ leBytes 8 (offset + c.1)) []
  let reqs := cuts.map fun c => (⟨peer, cls, 2 ^ 62, op, targetPart target c.1 c.2⟩ : GetReq)
  let s := s.newOp ⟨owner, peer, g.job, l.length, length⟩
  (s.setRelay { s.relay with gets := s.relay.gets ++ reqs }).post peer l

/-- Drop every operation a test accepts, with its unsent and unacknowledged packets (R429). -/
def State.dropOps (s : State) (f : Nat → RelayOp → Bool) : State :=
  let dead := (s.relay.ops.filter fun e => f e.1 e.2).map fun e => e.1
  s.setRelay { s.relay with
    ops := s.relay.ops.filter fun e => !dead.contains e.1
    gets := s.relay.gets.filter fun g => !dead.contains g.op
    waiting := s.relay.waiting.filter fun w => !dead.contains w.2.op || w.2.cls == 3
    flights := s.relay.flights.filter fun x => !dead.contains x.body.op }

/-- An operation is complete. -/
def RelayOp.done (o : RelayOp) : Bool := o.left == 0 && o.toLand == 0

/-! ## Receiving: keys and authentication (R426, steps 2 and 3) -/

/-- A packet that has passed authentication. `job` says whether it travelled under a job key, `pairOk` whether its pairwise
key was made with a LOCKED or ATTESTED peer. -/
structure Opened where
  peer : Nat
  serial : Nat
  seq : Nat
  body : Body
  jobKey : Bool
  pairOk : Bool
  deriving DecidableEq, Repr

/-- The fields of a decrypted packet. -/
def openedBody (h plain : List Byte) : Body where
  op := 0
  cls := leField h 36 8 / 2 ^ 62
  opcode := leField h 0 1
  tag := slice h 12 8
  job := BitVec.ofNat 32 (leField h 20 4)
  step := leField h 24 4 / 8
  attempt := leField h 24 4 % 8
  rank := leField h 28 4
  slot := leField h 32 4
  block := plain.take 16
  payload := plain.drop 16

/-- The sending module named by DestQP (R416). -/
def Frame.sender (f : Frame) : Option Nat :=
  let qp := beNat (slice f.bytes 5 3)
  if 0x010000 ≤ qp ∧ qp < 0x020000 then some (qp - 0x010000) else none

def Frame.opcode (f : Frame) : Nat := leField f.bytes 0 1
def Frame.pkey (f : Frame) : Nat := beNat (slice f.bytes 2 2)

/-- The additional data of a frame: its BTH with FECN, BECN and the reserved bits 0, then the extension header (R434). -/
def Frame.aad (f : Frame) : List Byte :=
  slice f.bytes 0 4 ++ [0] ++ slice f.bytes 5 3 ++ [(f.bytes.getD 8 0) &&& 0x80] ++ slice f.bytes 9 35

/-- The peer's plane addresses hold the frame's source address (R410, R426). -/
def PeerEntry.has (e : PeerEntry) (src : List Byte) : Bool :=
  (List.range 8).any fun p =>
    let a := slice e.address (16 * p) 16
    if e.ipv6 then a == src else a.take 4 == src.take 4

/-- The keys that P_Key selects for the pair and the job: key bytes, serial of the stream, job key or not, confidential or
not. -/
def State.keysFor (s : State) (peer : Nat) (job : Word) (pkey : Nat) : List (List Byte × Nat × Bool × Bool) :=
  if pkey = 0xFFFF then (s.pairKeys peer).map fun k => (k.key, k.serial, false, k.confidential)
  else match s.findJob job with
    | none => []
    | some (slot, j) =>
      let serial := (Tab.look s.relay.serials peer).getD (((s.pairKeys peer).getLast?.map PairKey.serial).getD 0)
      (s.sec.jobKeys.filter fun k => k.slot == slot && 0xFF00 + k.generation == pkey).map fun k =>
        (k.key, serial, j.confidential, false)

/-- Decrypt and verify a frame (R426 step 3, R434). -/
def State.openFrame (s : State) (f : Frame) : Option Opened :=
  match f.sender, s.moduleId with
  | some peer, some me =>
    match Tab.look s.relay.peers peer with
    | none => none
    | some e =>
      if !e.has f.src ∨ f.bytes.length < 76 then none
      else
        let h := f.bytes.take 44
        let rest := f.bytes.drop 44
        let cipher := rest.take (rest.length - 16)
        let tag := rest.drop (rest.length - 16)
        let word := leField h 36 8
        let tries := s.keysFor peer (BitVec.ofNat 32 (leField h 20 4)) f.pkey
        tries.findSome? fun k => (gcmOpen k.1 (relayIv peer me word) f.aad cipher tag).map fun plain =>
          ⟨peer, k.2.1, word % 2 ^ 62, openedBody h plain, k.2.2.1, k.2.2.2⟩
  | _, _ => none

/-! ## Receiving: transport (R426 step 4, R428, R431) -/

/-- Move the lowest number not received past those received above it. -/
def RecvStream.settle : Nat → RecvStream → RecvStream
  | 0, r => r
  | k + 1, r =>
    if r.above.contains r.cum then
      RecvStream.settle k { r with cum := r.cum + 1, above := r.above.filter fun x => x != r.cum }
    else r

/-- Take in a packet number. -/
def RecvStream.take (r : RecvStream) (n : Nat) : RecvStream :=
  let r' := { r with above := n :: r.above, unacked := r.unacked + 1 }
  RecvStream.settle (r'.above.length + 1) r'

def RecvStream.holds (r : RecvStream) (n : Nat) : Bool := decide (n < r.cum) || r.above.contains n

/-- Packets a class's pool has granted and not had back: granted numbers not yet received, and early packets (R431). -/
def State.poolUsed (s : State) (cls : Nat) : Nat :=
  (s.relay.recvs.filter fun e => e.1 % 4 == cls).foldl (fun n e => n + (e.2.limit - e.2.cum - e.2.above.length)) 0 +
    (s.relay.early.filter fun e => e.body.cls == cls).length

/-- The pool and the unit of a class (R427, R431). -/
def poolSize (cls : Nat) : Nat := if cls = 1 then 1024 else 2048
def grantUnit (cls : Nat) : Nat := if cls = 1 then 16 else 64

/-- The stream to serve next: demand unmet, ascending module ID from after the last sender served. -/
def State.nextServed (s : State) (cls : Nat) : Option Nat :=
  let last := if cls = 1 then s.relay.servedLookup else s.relay.servedBulk
  let l := s.relay.recvs.filter fun e => e.1 % 4 == cls && decide (e.2.limit < e.2.cum + e.2.above.length + e.2.demand)
  match l.find? fun e => decide (last < e.1 / 4 / 2 ^ 32) with
  | some e => some e.1
  | none => (l.head?).map fun e => e.1

/-- Grant credit in units while the pool has room and a sender has demand. -/
def State.grantN (cls : Nat) : Nat → State → State
  | 0, s => s
  | k + 1, s =>
    if poolSize cls < s.poolUsed cls + grantUnit cls then s
    else match s.nextServed cls with
      | none => s
      | some key =>
        let serial := key / 4 % 2 ^ 32
        let peer := key / 4 / 2 ^ 32
        let r := s.recvStream peer serial cls
        let s := s.setRecv peer serial cls { r with limit := r.limit + grantUnit cls }
        let q := if cls = 1 then { s.relay with servedLookup := peer } else { s.relay with servedBulk := peer }
        State.grantN cls k ((s.setRelay q).sendAck peer serial cls .none 0 0)

/-- Give out what credit the pools hold. -/
def State.grant (s : State) : State := State.grantN 2 32 (State.grantN 1 64 s)

/-- The packet is received: its number counts, and the standing grant of CONTROL moves with it (R427). -/
def State.accept (s : State) (o : Opened) : State :=
  let r := (s.recvStream o.peer o.serial o.body.cls).take o.seq
  let r := if o.body.cls = 0 then { r with limit := r.cum + 4 } else r
  s.setRecv o.peer o.serial o.body.cls r

/-- Acknowledge a class if 16 packets wait, or at once (R428). -/
def State.ackIfDue (s : State) (peer serial cls : Nat) (now : Bool) : State :=
  let r := s.recvStream peer serial cls
  if now || decide (16 ≤ r.unacked) then s.sendAck peer serial cls .none 0 0 else s

/-- FENCEs whose earlier sequences have all been placed are received and acknowledged (R425). -/
def State.releaseFences (s : State) : State :=
  let placed := fun (f : HeldFence) (cls high : Nat) =>
    decide (high ≤ (s.recvStream f.peer f.serial cls).cum) &&
      s.relay.early.all fun e => !(e.peer == f.peer && e.body.cls == cls && decide (e.seq < high))
  let ready := s.relay.fences.filter fun f => placed f 1 f.lookup && placed f 2 f.bulk
  let s := s.setRelay { s.relay with fences := s.relay.fences.filter fun f => !ready.contains f }
  ready.foldl (fun t f =>
    let r := (t.recvStream f.peer f.serial 0).take f.seq
    (t.setRecv f.peer f.serial 0 { r with limit := r.cum + 4 }).sendAck f.peer f.serial 0 .none 0 0) s

/-- Answer a packet with a NAK. NOT_READY and NO_JOB leave the packet unreceived, to be sent again. -/
def State.nakPacket (s : State) (o : Opened) (n : Nak) (detail : Nat) : State :=
  let again := decide (n = .notReady) || decide (n = .noJob)
  let s := if again then s.bump Reg.rlyNotReady 1 else s.accept o
  s.sendAck o.peer o.serial o.body.cls n o.seq detail

end Sys2Proof.Machine
end

