-- ==== Sys2Proof/Machine/Select.lean ====
section
/-! DEFINITION. Top-k selection and merging of lists (R384 to R404): keys, the selection order, sums, the list format, the
bodies of SELECT tasks, and SELECT_TOPK and SELECT_MERGE. -/

namespace Sys2Proof.Machine

/-! ## Keys (R384 to R386) -/

/-- Element types a selection unit accepts, with their key width in bits. -/
def selectBits : Nat → Option Nat
  | 0x0D => some 32
  | 0x06 => some 32
  | 0x07 => some 32
  | 0x0B => some 16
  | 0x0C => some 16
  | 0x04 => some 16
  | 0x05 => some 16
  | _ => none

def selectWidth (elem : Nat) : Nat := (selectBits elem).getD 32
def selectBytes (elem : Nat) : Nat := selectWidth elem / 8

/-- The key of a value's bits, complemented with SMALLEST. -/
def selectKey (elem : Nat) (smallest : Bool) (x : Nat) : Nat :=
  let w := selectWidth elem
  let m := 2 ^ (w - 1)
  let flip := if m ≤ x then x - m else x + m
  let key :=
    if (elemFormat elem).isSome then (if x < m then x + m else 2 ^ w - 1 - x)
    else if elemUnsigned elem then x else flip
  if smallest then 2 ^ w - 1 - key else key

/-- An invalid entry (R385). -/
def selectInvalid (elem x : Nat) : Bool :=
  match elemFormat elem with
  | some f => (f.value x).isNan
  | none => false

/-- The number a value's bits stand for. -/
def selectNum (elem x : Nat) : Num := elemValue elem x 127

/-- The value of an unused entry (R388). -/
def selectUnused (elem : Nat) (smallest : Bool) : Nat :=
  let w := selectWidth elem
  match elemFormat elem with
  | some f => f.infinity (!smallest)
  | none =>
    if elemUnsigned elem then (if smallest then 2 ^ w - 1 else 0)
    else (if smallest then 2 ^ (w - 1) - 1 else 2 ^ (w - 1))

/-! ## The selection rule (R387 to R389) -/

/-- A valid entry: its index, its bits and its key. -/
structure Entry where
  index : Nat
  bits : Nat
  key : Nat
  deriving DecidableEq, Repr

/-- Descending key, then ascending index. -/
def Entry.before (x y : Entry) : Bool := decide (y.key < x.key) || (x.key == y.key && decide (x.index ≤ y.index))

def insertEntry (x : Entry) : List Entry → List Entry
  | [] => [x]
  | y :: t => if x.before y then x :: y :: t else y :: insertEntry x t

/-- Entries in selection order. -/
def selectionOrder (l : List Entry) : List Entry := l.foldr insertEntry []

/-- An exact sum rounded once to FP32 (R389). -/
def exactSum (l : List Num) : Nat :=
  let g := groupSum l
  match g.1 with
  | .nan => fp32.canonicalNan
  | .inf n => fp32.infinity n
  | _ => fp32.code (fp32.roundDyadic false g.2.1)

/-- The quantities of R388 and the list's header fields (R393). -/
structure Selected where
  valid : Nat
  ties : Nat
  lo : Nat
  hi : Nat
  sum : Nat
  left : Nat
  entries : List (Nat × Nat)
  deriving DecidableEq, Repr

/-- Entries not taken whose key is that of the k-th, when k are taken. -/
def tieCount (k : Nat) (taken rest : List Entry) : Nat :=
  match taken.getLast? with
  | some e => if taken.length = k then (rest.filter fun x => x.key == e.key).length else 0
  | none => 0

/-- Select k from a row's raw values. -/
def selectRow (elem : Nat) (smallest : Bool) (k base : Nat) (values : List Nat) : Selected :=
  let entries := (values.zipIdx.filter fun v => !selectInvalid elem v.1).map fun v =>
    (⟨base + v.2, v.1, selectKey elem smallest v.1⟩ : Entry)
  let l := selectionOrder entries
  let taken := l.take k
  let rest := l.drop k
  let sum := fun (x : List Entry) => exactSum (x.map fun e => selectNum elem e.bits)
  ⟨l.length, tieCount k taken rest, base, base + values.length - 1, sum taken, sum rest, taken.map fun e => (e.index, e.bits)⟩

/-! ## Lists (R393) -/

def listIndexBytes (k : Nat) : Nat := 64 * ceilDiv (4 * k) 64
/-- list_bytes(k, w). -/
def selectListBytes (k w : Nat) : Nat := 64 + listIndexBytes k + 64 * ceilDiv (k * w) 64

/-- The bytes of a list. -/
def Selected.bytes (r : Selected) (elem : Nat) (smallest : Bool) (k : Nat) : List Byte :=
  let w := selectBytes elem
  let head := leBytes 8 r.valid ++ leBytes 8 r.ties ++ leBytes 4 r.lo ++ leBytes 4 r.hi ++ leBytes 4 r.sum ++
    leBytes 4 r.left ++ leBytes 2 k ++ leBytes 1 elem ++ leBytes 1 (if smallest then 1 else 0) ++
    leBytes 2 r.entries.length ++ List.replicate 26 0
  let spare := k - r.entries.length
  let idx := r.entries.flatMap (fun e => leBytes 4 e.1) ++ List.replicate (4 * spare) 0xFF
  let vals := r.entries.flatMap (fun e => leBytes w e.2) ++
    (List.replicate spare (leBytes w (selectUnused elem smallest))).flatten
  head ++ padTo (listIndexBytes k) idx ++ padTo (64 * ceilDiv (k * w) 64) vals

/-! ## Merging (R395, R396) -/

def listLo (b : List Byte) : Nat := leField b 16 4
def listHi (b : List Byte) : Nat := leField b 20 4
def sameCover (x y : List Byte) : Bool := listLo x == listLo y && listHi x == listHi y

/-- The input agrees with the merge's element type, flag and input k. -/
def inputOk (elem : Nat) (smallest : Bool) (k : Nat) (b : List Byte) : Bool :=
  leField b 34 1 == elem && leField b 35 1 == (if smallest then 1 else 0) && leField b 32 2 == k

/-- Two inputs agree: disjoint ranges, or equal ranges and equal bytes. -/
def inputsAgree (x y : List Byte) : Bool :=
  decide (listHi x < listLo y) || decide (listHi y < listLo x) || (sameCover x y && x == y)

/-- The first input that breaks R395, by itself or against an earlier one. -/
def mergeConflict (elem : Nat) (smallest : Bool) (k : Nat) (inputs : List (List Byte)) : Option Nat :=
  firstIdx (fun i =>
    let x := inputs.getD i []
    !inputOk elem smallest k x || (inputs.take i).any fun y => !inputsAgree y x) 0 (List.range inputs.length)

/-- One input of each copy group, in input order. -/
def copyGroups : List (List Byte) → List (List Byte)
  | [] => []
  | x :: t => x :: (copyGroups t).filter fun y => !sameCover x y

/-- The listed entries of an input. -/
def listEntries (elem : Nat) (smallest : Bool) (k : Nat) (b : List Byte) : List Entry :=
  let w := selectBytes elem
  (List.range (min k (leField b 36 2))).map fun j =>
    let x := leField b (64 + listIndexBytes k + w * j) w
    ⟨leField b (64 + 4 * j) 4, x, selectKey elem smallest x⟩

/-- Merge lists whose k is `inK` into one of k entries (R396). -/
def mergeLists (elem : Nat) (smallest : Bool) (k inK : Nat) (inputs : List (List Byte)) : Selected :=
  let groups := copyGroups inputs
  let l := selectionOrder (groups.flatMap (listEntries elem smallest inK))
  let taken := l.take k
  let rest := l.drop k
  let lastKey := if taken.length = k then taken.getLast?.map fun e => e.key else none
  let groupTies := fun (g : List Byte) =>
    let es := listEntries elem smallest inK g
    if es.length = inK ∧ (es.getLast?.map fun e => e.key) = lastKey ∧ lastKey.isSome then leField g 8 8 else 0
  let num := fun (e : Entry) => selectNum elem e.bits
  ⟨groups.foldl (fun n g => n + leField g 0 8) 0,
   tieCount k taken rest + groups.foldl (fun n g => n + groupTies g) 0,
   inputs.foldl (fun n x => min n (listLo x)) (2 ^ 32), inputs.foldl (fun n x => max n (listHi x)) 0,
   exactSum (taken.map num), exactSum (groups.map (fun g => fp32.value (leField g 28 4)) ++ rest.map num),
   taken.map fun e => (e.index, e.bits)⟩

/-! ## The body of a selection (R399) -/

/-- The fields of task bytes 80 to 127, or of parameter bytes 0 to 47. -/
structure SelectBody where
  elem : Nat
  flags : Nat
  k : Nat
  length : Nat
  rows : Nat
  base : Nat
  dst : Nat
  inputs : Nat
  inK : Nat
  deriving DecidableEq, Repr

def selectBody (b : List Byte) (o : Nat) : SelectBody :=
  ⟨leField b o 1, leField b (o + 1) 1, leField b (o + 2) 2, leField b (o + 4) 4, leField b (o + 8) 4, leField b (o + 12) 4,
   leField b (o + 16) 2, leField b (o + 18) 1, leField b (o + 20) 2⟩

def SelectBody.smallest (x : SelectBody) : Bool := bitOf x.flags 0
def SelectBody.merge (x : SelectBody) : Bool := bitOf x.flags 1
def SelectBody.listBytes (x : SelectBody) : Nat := selectListBytes x.k (selectBytes x.elem)
def SelectBody.inBytes (x : SelectBody) : Nat := selectListBytes x.inK (selectBytes x.elem)

/-- Fields out of range, but for the element type and a row length above 2^24, as offsets within the body. -/
def SelectBody.fault (x : SelectBody) (b : List Byte) (o : Nat) : Option Nat :=
  let bad := fun (c : Bool) (at_ : Nat) => if c then none else some at_
  [bad (decide (x.flags < 4)) 1, bad (decide (1 ≤ x.k ∧ x.k ≤ 4096)) 2,
   bad (if x.merge then x.length == 0 else x.length != 0) 4, bad (decide (1 ≤ x.rows ∧ x.rows ≤ 65536)) 8,
   bad (if x.merge then x.base == 0 else decide (x.base + x.length ≤ 0xFFFFFFFF)) 12,
   bad (if x.merge then decide (2 ≤ x.inputs ∧ x.inputs ≤ 64) else x.inputs == 0) 18, bad (leField b (o + 19) 1 == 0) 19,
   bad (if x.merge then decide (1 ≤ x.inK ∧ x.inK ≤ 4096) else x.inK == 0) 20,
   (firstIdx (fun c => c != 0#8) 22 (slice b (o + 22) 26))].findSome? id

/-- The source and destination descriptors have the types and extents the body asks for. -/
def SelectBody.srcOk (x : SelectBody) (d : Desc) : Bool :=
  if x.merge then d.elem == 0x20 && d.rank == 3 && d.ext 0 == x.inBytes && d.ext 1 == x.inputs && d.ext 2 == x.rows
  else d.elem == x.elem && d.rank == 2 && d.ext 0 == x.length && d.ext 1 == x.rows
def SelectBody.dstOk (x : SelectBody) (d : Desc) : Bool :=
  d.elem == 0x20 && d.rank == 2 && d.ext 0 == x.listBytes && d.ext 1 == x.rows

/-- The raw values of a source row. -/
def State.selectValues (s : State) (d : Desc) (w row : Nat) : List Nat :=
  let b := s.load (d.rowAddr [Int.ofNat row] 1).toNat (d.ext 0 * w)
  (List.range (d.ext 0)).map fun i => leField b (w * i) w

/-- The input lists of an output row. -/
def State.selectInputs (s : State) (x : SelectBody) (d : Desc) (row : Nat) : List (List Byte) :=
  (List.range x.inputs).map fun i => s.load (d.rowAddr [Int.ofNat i, Int.ofNat row] 1).toNat x.inBytes

/-- What one row gives, or the input at which it meets a merge conflict. -/
def State.selectOne (s : State) (x : SelectBody) (d : Desc) (row : Nat) : Except Nat Selected :=
  if x.merge then
    let l := s.selectInputs x d row
    match mergeConflict x.elem x.smallest x.inK l with
    | some i => .error i
    | none => .ok (mergeLists x.elem x.smallest x.k x.inK l)
  else .ok (selectRow x.elem x.smallest x.k x.base (s.selectValues d (selectBytes x.elem) row))

/-- Write a row's list and count it (R404). -/
def State.writeList (s : State) (x : SelectBody) (src dst : Desc) (row : Nat) (r : Selected) : State :=
  let nans := if x.merge then 0 else src.ext 0 - r.valid
  let s := s.store (dst.rowAddr [Int.ofNat row] 1).toNat (r.bytes x.elem x.smallest x.k)
  ((s.bumpWide Reg.selRowsLo 1).bump Reg.selNanEntries nans).bump Reg.selTieRows (if 0 < r.ties then 1 else 0)

/-- All rows in ascending order, from the state `s0` the sources are read in: the state, the rows with ties, and the first
conflict as row and input. -/
def State.selectRows (s0 : State) (x : SelectBody) (src dst : Desc) : List Nat → State → Nat →
    State × Nat × Option (Nat × Nat)
  | [], s, ties => (s, ties, none)
  | row :: t, s, ties =>
    match s0.selectOne x src row with
    | .error i => (s, ties, some (row, i))
    | .ok r => s0.selectRows x src dst t (s.writeList x src dst row r) (ties + if 0 < r.ties then 1 else 0)

/-! ## SELECT_TOPK and SELECT_MERGE (R401) -/

def selectParams (p : Packet) : SelectBody := selectBody p.bytes 64
def selectSrc (p : Packet) : Desc := p.desc 128
def selectDst (p : Packet) : Desc := p.desc 256

def selectEffect (p : Packet) (s : State) : State :=
  let x := selectParams p
  let src := selectSrc p
  let dst := selectDst p
  s.orPoisoned p [src.footprint] (fun t => t.scrambleDesc dst) fun s =>
    match s.selectRows x src dst (List.range x.rows) s 0 with
    | (t, _, some (row, i)) => (t.bump Reg.selMergeConflict 1).complete p Status.mergeConflict (row * 2 ^ 32 + i) 0 0
    | (t, ties, none) => t.complete p Status.ok ties 0 0

def selectCommand (merge : Bool) : Command where
  code := if merge then 0x0802 else 0x0801
  lens := fun n => n == 5
  job := .optional
  params := fun _ p =>
    let x := selectParams p
    firstFail [lowestFail [(x.fault p.bytes 64).map (fun o => ⟨Status.badParam, 64 + o⟩), need (x.merge == merge) 65,
      need (x.dst == 0) 80, p.zeros 112 16], p.descFail 128, p.descFail 256]
  aligns := fun _ p => firstFail [p.alignFail 128, p.alignFail 256]
  uses := fun _ p => (selectSrc p).uses 128 false ++ (selectDst p).uses 256 true
  overlaps := fun _ p => p.aliasFail 256
  types := fun _ p =>
    let x := selectParams p
    firstFail [demand (selectBits x.elem).isSome Status.typeMismatch 64,
      demand (x.srcOk (selectSrc p) || decide (2 ^ 24 < x.length)) Status.typeMismatch 128,
      demand (x.dstOk (selectDst p)) Status.typeMismatch 256]
  security := fun s p => s.openFail ((selectSrc p).uses 128 false ++ (selectDst p).uses 256 true)
  own := fun _ p => demand (decide ((selectParams p).length ≤ 2 ^ 24)) Status.rowTooLong 68
  effect := selectEffect

def selectTopkCommand : Command := selectCommand false
def selectMergeCommand : Command := selectCommand true

/-- SELECT_TOPK. -/
def execSelectTopk (p : Packet) (s : State) : Host.Outcome State Fault Refusal := .next (selectTopkCommand.start p s)

/-- SELECT_MERGE. -/
def execSelectMerge (p : Packet) (s : State) : Host.Outcome State Fault Refusal := .next (selectMergeCommand.start p s)

end Sys2Proof.Machine
end

