-- ==== Sys2Proof/Machine/Graphs.lean ====
section
/-! DEFINITION. Graph images (R298 to R303, R330, R331, R399, R437), their checks (R282, R307, R318), GRAPH_LOAD and
GRAPH_UNLOAD (R318, R319). -/

namespace Sys2Proof.Machine

/-! ## The image (R298, R299, R303) -/

def graphPrepares (g : List Byte) : Nat := leField g 6 1
def graphTasks (g : List Byte) : Nat := leField g 8 4
def graphConsumers (g : List Byte) : Nat := leField g 12 4
def graphDescs (g : List Byte) : Nat := leField g 16 2
def graphLevels (g : List Byte) : Nat := leField g 18 2
def graphSpan (g : List Byte) : Nat := leField g 20 2
def graphBudget (g : List Byte) (die : Nat) : Nat := leField g (24 + 2 * die) 2
def graphSemantics (g : List Byte) : Nat := leField g 28 4
def graphConsumer (g : List Byte) (i : Nat) : Nat × Nat :=
  let o := leField g 36 4 + 8 * i
  (leField g o 4, leField g (o + 4) 1)
def graphDescAt (g : List Byte) (i : Nat) : Nat := leField g 40 4 + 128 * i
def graphDesc (g : List Byte) (i : Nat) : Desc := descAt g (graphDescAt g i)
/-- Descriptor flags (R419: a landing's h is bits [4:0]). -/
def graphDescFlags (g : List Byte) (i : Nat) : Nat := leField g (graphDescAt g i + 10) 2
def prepareBytes : Nat := 1216
def graphPrepare (g : List Byte) (i : Nat) : List Byte := slice g (leField g 44 4 + prepareBytes * i) prepareBytes

/-- A slot entry of a task record. -/
structure SlotEntry where
  source : Nat
  buffer : Nat
  desc : Nat
  arrivals : Nat
  deriving DecidableEq, Repr, Inhabited

/-- A task record; `raw` is its 128 bytes. -/
structure Task where
  type : Nat
  prio : Nat
  commit : Bool
  report : Bool
  level : Nat
  die : Nat
  slots : List SlotEntry
  outFirst : Nat
  outCount : Nat
  raw : List Byte
  deriving DecidableEq, Repr, Inhabited

def slotEntry (r : List Byte) (i : Nat) : SlotEntry :=
  let o := 8 + 8 * i
  ⟨leField r o 1, leField r (o + 1) 1, leField r (o + 2) 2, leField r (o + 4) 4⟩

def taskOf (r : List Byte) : Task where
  type := leField r 0 1
  prio := leField r 1 1
  commit := bitOf (leField r 3 1) 0
  report := bitOf (leField r 3 1) 1
  level := leField r 4 2
  die := leField r 6 1
  slots := (List.range (min 8 (leField r 2 1))).map (slotEntry r)
  outFirst := leField r 72 4
  outCount := leField r 76 2
  raw := r

def graphTask (g : List Byte) (t : Nat) : Task := taskOf (slice g (leField g 32 4 + 128 * t) 128)
def graphTaskList (g : List Byte) : List Task := (List.range (graphTasks g)).map (graphTask g)

/-- A body field of a task, by its offset in the record. -/
def Task.f (t : Task) (o n : Nat) : Nat := leField t.raw o n
def Task.slot (t : Task) (i : Nat) : SlotEntry := t.slots.getD i default

/-- The consumer entries of a task's range, in list order. -/
def taskConsumers (g : List Byte) (t : Task) : List (Nat × Nat) :=
  (List.range t.outCount).map fun i => graphConsumer g (t.outFirst + i)

/-! ## The tile arithmetic block (R281, R282) -/

def tileA (t : Task) : Nat := t.f 80 1
def tileB (t : Task) : Nat := t.f 81 1
def tileAddend (t : Task) : Bool := t.f 82 1 == 1
def tileDescending (t : Task) : Bool := t.f 83 1 == 1
def tileK (t : Task) : Nat := t.f 84 4
def tileChunk (t : Task) : Nat := t.f 88 2
def tileStore (t : Task) : Nat := t.f 90 1
def tileShift (t : Task) : Nat := t.f 92 1
def tileDst (t : Task) : Nat := t.f 112 2
def tileRow (t : Task) : Nat := t.f 116 4
def tileCol (t : Task) : Nat := t.f 120 4

/-- The codes of integer types that tiles and vector tasks store (R289). -/
def storeInteger (c : Nat) : Bool := [0x01, 0x02, 0x06].contains c
/-- The codes of floating and MX types they store. -/
def storeFloating (c : Nat) : Bool := [0x09, 0x0A, 0x0B, 0x0C, 0x0D, 0x10, 0x11, 0x12, 0x13, 0x14].contains c

/-- A fault of the tile arithmetic block (R282). -/
def arithFault (t : Task) : Option Status :=
  let typesOk := (elemBits (tileA t)).isSome && (elemBits (tileB t)).isSome && (elemBits (tileStore t)).isSome
  let k := tileK t
  let c := tileChunk t
  let isInt := storeInteger (tileStore t) || elemUnsigned (tileStore t) || tileStore t == 0x04
  let fields := typesOk && decide (t.f 82 1 ≤ 1) && decide (t.f 83 1 ≤ 1) && decide (32 ≤ k ∧ k ≤ 2 ^ 20) && k % 32 == 0 &&
    decide (32 ≤ c) && c % 32 == 0 && decide (t.f 91 1 ≤ 1) && decide (tileShift t ≤ 31) &&
    (isInt || tileShift t == 0) && (slice t.raw 93 19).all (· == 0#8)
  if !fields then some Status.badParam
  else if tileKmax (tileA t) < c ∨ tileKmax (tileB t) < c then some Status.badParam
  else match tilePair (tileA t) (tileB t) with
    | none => some Status.typeMismatch
    | some (_, _, integer) =>
      if integer then (if storeInteger (tileStore t) then none else some Status.typeMismatch)
      else if storeFloating (tileStore t) then none else some Status.typeMismatch

/-! ## Task bodies -/

/-- A fault of a task: status only, its detail is the task index. -/
abbrev TaskFault := Option Status

def invalidUnless (c : Bool) : TaskFault := if c then none else some Status.graphInvalid
def statusUnless (c : Bool) (st : Status) : TaskFault := if c then none else some st
def firstFault (l : List TaskFault) : TaskFault := l.findSome? id

/-- The descriptors of the slots of a buffer, in slot order. -/
def bufferDescs (g : List Byte) (t : Task) (b : Nat) : List Desc :=
  (t.slots.filter fun x => x.buffer == b).map fun x => graphDesc g x.desc

/-- A TILE task's body (R300) and the fit of its slots to its types. -/
def tileFault (g : List Byte) (t : Task) : TaskFault :=
  let as := bufferDescs g t 1
  let bs := bufferDescs g t 2
  let adds := bufferDescs g t 3
  let ksum := fun (l : List Desc) => l.foldl (fun n d => n + d.ext 0) 0
  let accType := match tilePair (tileA t) (tileB t) with
    | some (_, _, true) => 0x06
    | _ => 0x0D
  firstFault [arithFault t,
    invalidUnless (decide (tileDst t < graphDescs g) && (decide (t.f 114 1 ≤ 7) || t.f 114 1 == 0xFF) && t.f 115 1 == 0 &&
      t.f 124 4 == 0),
    statusUnless ((graphDesc g (tileDst t)).elem == tileStore t) Status.typeMismatch,
    statusUnless (!elemMx (tileStore t) || tileCol t % 32 == 0) Status.badParam,
    invalidUnless (!as.isEmpty && !bs.isEmpty && as.all (fun d => d.elem == tileA t) && bs.all (fun d => d.elem == tileB t) &&
      ksum as == tileK t && ksum bs == tileK t &&
      (if tileAddend t then adds.length == 1 && adds.all (fun d => d.elem == accType) else adds.isEmpty))]

/-- Slots that a vector op takes (R301). -/
def vectorSlots (op n : Nat) : Bool :=
  if op = 1 ∨ op = 8 then decide (1 ≤ n) else if op = 6 then n == 3 else if op = 7 then n == 2 else n == 1

/-- Operands an ELEMENTWISE function takes beside the running value, none for a code outside R301. -/
def vectorOperands (f : Nat) : Option Nat :=
  if f = 4 ∨ f = 7 then some 2
  else if f = 1 ∨ f = 2 ∨ f = 3 ∨ f = 5 ∨ f = 6 then some 1
  else if 8 ≤ f ∧ f ≤ 16 then some 0
  else none

/-- Types a vector unit loads (R293). -/
def loadable (c : Nat) : Bool := storeInteger c || storeFloating c

def vectorOp (t : Task) : Nat := t.f 80 1
def vectorSteps (t : Task) : List (Nat × Nat) := (List.range (t.f 81 1)).map fun i => (t.f (96 + 2 * i) 1, t.f (97 + 2 * i) 1)
def vectorDst (t : Task) : Nat := t.f 82 2
def vectorLength (t : Task) : Nat := t.f 84 4
def vectorRows (t : Task) : Nat := t.f 88 4

/-- A VECTOR task's body (R301). -/
def vectorFault (g : List Byte) (t : Task) : TaskFault :=
  let op := vectorOp t
  let n := t.slots.length
  let stepOk := fun (x : Nat × Nat) => match vectorOperands x.1 with
    | none => false
    | some 0 => x.2 == 0xFF
    | some k => decide (x.2 + k ≤ n)
  firstFault [invalidUnless (decide (1 ≤ op ∧ op ≤ 8)), invalidUnless (vectorSlots op n),
    invalidUnless (if op = 1 then decide (1 ≤ t.f 81 1 ∧ t.f 81 1 ≤ 8) else t.f 81 1 == 0),
    invalidUnless (decide (vectorDst t < graphDescs g)), statusUnless (vectorLength t != 0) Status.badParam,
    invalidUnless (decide (vectorLength t ≤ 2 ^ 24) && decide (1 ≤ vectorRows t ∧ vectorRows t ≤ 2 ^ 24)),
    invalidUnless ((vectorSteps t).all stepOk),
    invalidUnless ((slice t.raw (96 + 2 * t.f 81 1) (16 - 2 * t.f 81 1)).all (· == 0#8) && (slice t.raw 112 16).all (· == 0#8)),
    invalidUnless (loadable (graphDesc g (vectorDst t)).elem && t.slots.all fun x => loadable (graphDesc g x.desc).elem)]

/-! Gather tasks (R330, R331) -/

def gatherTable (t : Task) : Nat := t.f 80 2
def gatherPool (t : Task) : Nat := t.f 82 1
def gatherWeighted (t : Task) : Bool := bitOf (t.f 83 1) 0
def gatherScatter (t : Task) : Bool := bitOf (t.f 83 1) 1
def gatherDirect (t : Task) : Bool := bitOf (t.f 83 1) 2
def gatherCount (t : Task) : Nat := t.f 84 4
def gatherBags (t : Task) : Nat := t.f 88 4
def gatherOut (t : Task) : Nat := t.f 92 1
def gatherDst (t : Task) : Nat := t.f 96 2
def gatherSlot (t : Task) : Nat := t.f 100 4
def gatherScale (t : Task) : Nat := t.f 104 4

/-- Which of slots 0 to 3 a gather uses: indices, offsets, weights, gradients. -/
def gatherRoles (t : Task) : List Nat :=
  [0] ++ (if gatherPool t = 0 then [] else [1]) ++ (if gatherWeighted t then [2] else []) ++ (if gatherScatter t then [3] else [])

/-- The slot number of a role: slots keep their stated numbers. -/
def gatherFault (g : List Byte) (t : Task) : TaskFault :=
  let used := gatherRoles t
  let last := used.getLastD 0
  let d := fun (i : Nat) => graphDesc g (t.slot i).desc
  let vec := fun (i n : Nat) => (d i).ext 0 == n && (d i).rows == 1
  let layout := t.slots.length == last + 1 && used.all fun i => match i with
    | 0 => (d 0).elem == 0x08 && vec 0 (gatherCount t)
    | 1 => (d 1).elem == 0x06 && vec 1 (gatherBags t + 1)
    | 2 => (d 2).elem == 0x0D && vec 2 (gatherCount t)
    | _ => ((d 3).elem == 0x0D || (d 3).elem == 0x0B) && (d 3).ext 1 == gatherBags t
  let consumers := taskConsumers g t
  let directOk := !gatherDirect t || (!gatherScatter t && consumers.length == 1 && consumers.all fun c =>
    ((graphTask g c.1).slots.zipIdx).all fun x => x.2 == c.2 || x.1.source == 6 || x.1.source == 2)
  let dst := graphDesc g (gatherDst t)
  firstFault [invalidUnless (decide (gatherTable t ≤ 1023) && decide (gatherPool t ≤ 3) && decide (t.f 83 1 < 8) &&
      decide (1 ≤ gatherCount t ∧ gatherCount t ≤ 2 ^ 24) && decide (1 ≤ gatherBags t ∧ gatherBags t ≤ 2 ^ 24) &&
      (gatherPool t != 0 || gatherBags t == gatherCount t) &&
      (if gatherScatter t then gatherOut t == 0 else gatherOut t == 0x0D || gatherOut t == 0x0B) && t.f 93 3 == 0 &&
      (if gatherScatter t then gatherDst t == 0xFFFF else decide (gatherDst t < graphDescs g)) && t.f 98 2 == 0 &&
      (gatherScatter t || gatherScale t == 0) && (slice t.raw 108 20).all (· == 0#8)),
    invalidUnless layout, invalidUnless (!(gatherScatter t && gatherPool t == 3)), invalidUnless directOk,
    statusUnless (gatherScatter t || (dst.elem == gatherOut t && dst.rank == 2 && dst.ext 1 == gatherBags t)) Status.typeMismatch]

/-- A SELECT task's body (R399). -/
def selectFault (g : List Byte) (t : Task) : TaskFault :=
  let x := selectBody t.raw 80
  let d := graphDesc g (t.slot 0).desc
  firstFault [invalidUnless (t.slots.length == 1),
    statusUnless (x.fault t.raw 80).isNone Status.badParam,
    statusUnless (decide (x.dst < graphDescs g)) Status.badParam,
    statusUnless ((selectBits x.elem).isSome && (x.srcOk d || decide (2 ^ 24 < x.length)) && x.dstOk (graphDesc g x.dst))
      Status.typeMismatch,
    statusUnless (decide (x.length ≤ 2 ^ 24)) Status.rowTooLong]

/-! Relay tasks (R437) -/

def relayOp (t : Task) : Nat := t.f 80 1
def relayClass (t : Task) : Nat := t.f 81 1
def relayDesc (t : Task) : Nat := t.f 82 2
def relayDests (t : Task) : List Nat := (List.range (t.f 88 4)).map fun d => t.f 84 4 + d * t.f 92 4
def relaySlot (t : Task) : Nat := t.f 96 4
def relayRegion (t : Task) : Nat := t.f 100 4
def relayOffset (t : Task) : Nat := t.f 104 8

/-- The landing number names a descriptor of a graph of so many. -/
def landingOk (descs slot : Nat) : Bool := decide (slot < 2 ^ 16) && decide (slot < descs)

def relayFault (g : List Byte) (earlier : List Task) (t : Task) : TaskFault :=
  let op := relayOp t
  let data := decide (1 ≤ op ∧ op ≤ 3)
  let landing := op == 1 || op == 4
  let region := op == 2 || op == 3
  let n := t.f 88 4
  let reach := (earlier.filter fun x => x.type == 5).flatMap relayDests
  firstFault [invalidUnless (decide (1 ≤ op ∧ op ≤ 5) &&
      (if data then relayClass t == 1 || relayClass t == 2 else relayClass t == 0) &&
      (if data then decide (relayDesc t < graphDescs g) else relayDesc t == 0) && decide (1 ≤ n ∧ n ≤ 65536) &&
      t.f 92 4 != 0 && (if landing then landingOk (graphDescs g) (relaySlot t) else relaySlot t == 0) &&
      (region || (relayRegion t == 0 && relayOffset t == 0)) && (slice t.raw 112 16).all (· == 0#8)),
    invalidUnless (decide (t.f 84 4 + (n - 1) * t.f 92 4 < 65536)),
    invalidUnless (op != 5 || (relayDests t).all reach.contains)]

/-! ## Write footprints (R317) -/

/-- The ranges of the 128 x 128 block a tile stores. -/
def tileRanges (d : Desc) (row col : Nat) : List Range :=
  (List.range 128).flatMap fun i =>
    let outer : List Int := [Int.ofNat (row + i)]
    let base := (d.rowAddr outer 1).toNat
    let c := col % d.ext 0
    let n := min 128 (d.ext 0)
    let first := min n (d.ext 0 - c)
    let part := fun (c n : Nat) =>
      let lo := d.bits * c / 8
      let data : Range := ⟨base + lo, ceilDiv (d.bits * (c + n)) 8 - lo⟩
      let scale : Range := ⟨d.scaleAt (Int.ofNat c :: outer), ceilDiv n 32⟩
      if n = 0 then [] else data :: (if elemMx d.elem then [scale] else [])
    part c first ++ part 0 (n - first)

/-- What a task writes. A REPORT task writes result_words, and a RELAY or scatter task no memory of its own. -/
def taskWrites (g : List Byte) (t : Task) : List Range :=
  let d := fun (i : Nat) => let x := graphDesc g i; [x.footprint, x.scaleRange]
  if t.report then []
  else match t.type with
    | 1 => tileRanges (graphDesc g (tileDst t)) (tileRow t) (tileCol t)
    | 2 => d (vectorDst t)
    | 3 => if gatherScatter t then [] else d (gatherDst t)
    | 4 => d (selectBody t.raw 80).dst
    | _ => []

/-- What a task reads as STATE. -/
def taskStates (g : List Byte) (t : Task) : List Range :=
  (t.slots.filter fun x => x.source == 6).flatMap fun x => let d := graphDesc g x.desc; [d.footprint, d.scaleRange]

def anyMeet (a b : List Range) : Bool := a.any fun x => b.any fun y => x.meets y

/-- A breach of R317 between two tasks. -/
def breach317 (g : List Byte) (x y : Task) : Bool :=
  (!x.commit && (anyMeet (taskWrites g x) (taskWrites g y) || anyMeet (taskWrites g x) (taskStates g y))) ||
    (!y.commit && (anyMeet (taskWrites g y) (taskWrites g x) || anyMeet (taskWrites g y) (taskStates g x)))

/-! ## The checks (R307, R318) -/

/-- Two parts of the image share a byte. -/
def partsMeet : List Range → Bool
  | [] => false
  | x :: t => t.any (fun y => x.meets y) || partsMeet t

/-- Step 1: the header. -/
def graphHeaderOk (g : List Byte) : Bool :=
  let n := g.length
  let parts : List Range := [⟨0, 64⟩, ⟨leField g 32 4, 128 * graphTasks g⟩, ⟨leField g 36 4, 8 * graphConsumers g⟩,
    ⟨leField g 40 4, 128 * graphDescs g⟩, ⟨leField g 44 4, prepareBytes * graphPrepares g⟩]
  let prepZero := fun (i : Nat) => let r := graphPrepare g i
    (slice r 0 8).all (· == 0#8) && (slice r 24 40).all (· == 0#8)
  leField g 0 4 == 0x48505247 && leField g 4 2 == 1 && decide (graphPrepares g ≤ 8) && leField g 7 1 == 0 &&
    decide (1 ≤ graphTasks g ∧ graphTasks g ≤ 262144) && decide (graphConsumers g ≤ 2 ^ 20) &&
    decide (1 ≤ graphLevels g ∧ graphLevels g ≤ 4096) && decide (1 ≤ graphSpan g ∧ graphSpan g ≤ graphLevels g) &&
    leField g 22 2 == 0 && decide (graphBudget g 0 ≤ 16384) && decide (graphBudget g 1 ≤ 16384) &&
    (slice g 48 16).all (· == 0#8) && (parts.all fun r => r.lo % 64 == 0 && decide (r.lo + r.len ≤ n)) && !partsMeet parts &&
    ((leField g 44 4 == 0) == (graphPrepares g == 0)) && (List.range (graphPrepares g)).all prepZero

/-- The common fields of a task. -/
def commonFault (g : List Byte) (t : Task) : TaskFault :=
  invalidUnless (decide (1 ≤ t.type ∧ t.type ≤ 5) && decide (t.prio ≤ 7) && decide (t.f 2 1 ≤ 8) && decide (t.f 3 1 < 4) &&
    decide (t.level < graphLevels g) && decide (t.die ≤ 1) && t.f 7 1 == 0 && t.f 78 2 == 0 &&
    decide (t.outFirst + t.outCount ≤ graphConsumers g) &&
    (slice t.raw (8 + 8 * t.f 2 1) (64 - 8 * t.f 2 1)).all (· == 0#8))

/-- The slot entries of a task. -/
def slotsFault (g : List Byte) (t : Task) : TaskFault :=
  invalidUnless (t.slots.all fun x =>
    decide (1 ≤ x.source ∧ x.source ≤ 6) && (if t.type = 1 then decide (1 ≤ x.buffer ∧ x.buffer ≤ 3) else x.buffer == 0) &&
      decide (x.desc < graphDescs g) && decide (1 ≤ x.arrivals ∧ x.arrivals ≤ 65536) &&
      (x.source != 2 || decide (x.desc + 1 < graphDescs g)) &&
      (!(x.source == 2 || x.source == 4 || x.source == 6) || x.arrivals == 1))

/-- References that name a slot: one for each producer whose range holds an entry, as producer indices. -/
def referencesOf (g : List Byte) (tasks : List Task) (task slot : Nat) : List Nat :=
  tasks.zipIdx.flatMap fun x => ((taskConsumers g x.1).filter fun c => c == (task, slot)).map fun _ => x.2

/-- Rules between a task and itself or earlier ones: arrivals (R304), rule 1 of R307, COMMIT levels, REPORT count and
R317. -/
def relationFault (g : List Byte) (tasks : List Task) (i : Nat) (t : Task) : TaskFault :=
  let earlier := tasks.take i
  let d := graphSpan g
  let feeds := fun (producer consumer : Task) => decide (producer.level < consumer.level) &&
    decide (consumer.level ≤ producer.level + d)
  let level := fun (j : Nat) => (tasks.getD j default)
  let arrivalsOk := t.slots.zipIdx.all fun x => x.1.source != 1 ||
    ((referencesOf g tasks i x.2).length == x.1.arrivals &&
      (referencesOf g tasks i x.2).all fun p => decide (i < p) || feeds (level p) t)
  let fedOk := (taskConsumers g t).all fun c => decide (i < c.1) || feeds t (level c.1)
  firstFault [invalidUnless arrivalsOk, invalidUnless fedOk,
    invalidUnless (earlier.all fun x => (x.commit == t.commit) ||
      (if t.commit then decide (x.level < t.level) else decide (t.level < x.level))),
    invalidUnless (!t.report || (t.type == 2 && !earlier.any fun x => x.report)),
    invalidUnless (!earlier.any fun x => breach317 g x t)]

/-- The consumer entries of a task's range name slots of source TASK. -/
def consumersFault (g : List Byte) (tasks : List Task) (t : Task) : TaskFault :=
  invalidUnless ((taskConsumers g t).all fun c => decide (c.1 < tasks.length) &&
    decide (c.2 < (tasks.getD c.1 default).slots.length) && ((tasks.getD c.1 default).slot c.2).source == 1)

/-- Step 2 for task i. -/
def taskFault (g : List Byte) (tasks : List Task) (i : Nat) (t : Task) : TaskFault :=
  firstFault [commonFault g t, slotsFault g t,
    (match t.type with
     | 1 => tileFault g t
     | 2 => vectorFault g t
     | 3 => gatherFault g t
     | 4 => selectFault g t
     | _ => relayFault g (tasks.take i) t),
    consumersFault g tasks t, relationFault g tasks i t]

/-- Descriptors that RELAY slots or SLOT_PUT and USER tasks name as landings (R419). -/
def landings (tasks : List Task) : List Nat :=
  tasks.flatMap fun t => (t.slots.filter fun x => x.source == 3).map (fun x => x.desc) ++
    (if t.type = 5 ∧ (relayOp t = 1 ∨ relayOp t = 4) then [relaySlot t] else [])

/-- Step 3 for descriptor i: fields, ALIGN, mapping. -/
def State.graphDescFault (s : State) (g : List Byte) (land : List Nat) (i : Nat) : Option Status :=
  let b := slice g (graphDescAt g i) 128
  let flags := leField b 10 2
  let plain := overlay b 10 [0, 0]
  let d := descAt plain 0
  let ok := fun (r : Range) => r.len == 0 || (match r.space with
    | some (.localStore _) => true
    | some _ => s.mapped r
    | none => false)
  if (descFault plain 0).isSome ∨ (flags ≠ 0 ∧ !(land.contains i && decide (flags ≤ 16))) then some Status.badParam
  else if d.alignFault.isSome then some Status.align
  else if ok d.footprint && ok d.scaleRange then none else some Status.badParam

/-- Slots of the tasks at a level of a die (R307). -/
def levelSlots (tasks : List Task) (die level : Nat) : Nat :=
  (tasks.filter fun t => t.die == die && t.level == level).foldl (fun n t => n + t.slots.length) 0

/-- Step 4: the first level whose band needs more slots than a budget. -/
def bandFault (g : List Byte) (tasks : List Task) : Option Nat :=
  let band := fun (die l : Nat) => (List.range (graphSpan g + 1)).foldl (fun n i => n + levelSlots tasks die (l + i)) 0
  firstIdx (fun l => decide (graphBudget g 0 < band 0 l) || decide (graphBudget g 1 < band 1 l)) 0
    (List.range (graphLevels g))

/-- The first fault of an image in the order of R318. -/
def State.graphFault (s : State) (g : List Byte) : Option (Status × Nat) :=
  if !graphHeaderOk g then some (Status.graphInvalid, 0xFFFFFFFF)
  else if !s.implements (graphSemantics g) then some (Status.semanticsUnavailable, 0)
  else
    let tasks := graphTaskList g
    match tasks.zipIdx.findSome? fun x => (taskFault g tasks x.2 x.1).map fun st => (st, x.2) with
    | some f => some f
    | none =>
      match (List.range (graphDescs g)).findSome? fun i => (s.graphDescFault g (landings tasks) i).map fun st => (st, i) with
      | some f => some f
      | none => (bandFault g tasks).map fun l => (Status.slotBudget, l)

/-! ## GRAPH_LOAD (R318) -/

def graphSource (p : Packet) : Range := ⟨p.param 8 8, p.param 16 4⟩

def graphLoadCommand : Command where
  code := 0x0501
  lens := fun n => n == 1
  job := .optional
  params := fun s p =>
    lowestFail [need (decide (p.param 0 1 ≤ 31) && (Tab.look s.graph.graphs (p.param 0 1)).isNone) 64, p.zeros 65 7,
      need (p.param 8 8 % 64 == 0) 72,
      need (decide (64 ≤ p.param 16 4) && decide (p.param 16 4 ≤ 2 ^ 26)) 80, p.zeros 84 44]
  uses := fun _ p => [⟨72, graphSource p, false⟩]
  overlaps := fun _ p => need (graphSource p).inModule 72
  security := fun s p => s.openFail [⟨72, graphSource p, false⟩]
  effect := fun p s =>
    s.orPoisoned p [graphSource p] id fun s =>
      let img := s.load (graphSource p).lo (graphSource p).len
      match s.graphFault img with
      | some (st, d) => s.complete p st d 0 0
      | none =>
        let g : GraphSlot := ⟨p.param 8 8, img, sha3 img⟩
        let s := { s with graph := { s.graph with graphs := Tab.put s.graph.graphs (p.param 0 1) g } }
        (s.guard .graph (p.param 0 1) (graphSource p) false).complete p Status.ok 0 0 0

/-- GRAPH_LOAD. -/
def execGraphLoad (p : Packet) (s : State) : Host.Outcome State Fault Refusal := .next (graphLoadCommand.start p s)

/-! ## GRAPH_UNLOAD (R319) -/

/-- The digest prefixes of section 1 of an open job's active and staged manifests. -/
def State.graphPrefixes (s : State) : List (List Byte) :=
  s.job.jobs.flatMap fun e =>
    let of := fun (m : List Byte) => match manSection m 1 with
      | some b => (graphEntries b).map graphEntryPrefix
      | none => []
    of e.2.image ++ (match e.2.staged with
      | some x => of x.image
      | none => [])

def graphUnloadCommand : Command where
  code := 0x0502
  lens := fun n => n == 1
  job := .optional
  params := fun _ p => lowestFail [need (decide (p.param 0 1 ≤ 31)) 64, p.zeros 65 63]
  own := fun s p => need (match Tab.look s.graph.graphs (p.param 0 1) with
    | none => false
    | some g => !s.graphPrefixes.contains (g.digest.take 32)) 64
  effect := fun p s => (s.enroll p (.graphUnload (p.param 0 1)) [] 0).wake

/-- GRAPH_UNLOAD. -/
def execGraphUnload (p : Packet) (s : State) : Host.Outcome State Fault Refusal := .next (graphUnloadCommand.start p s)

/-- The checked ranges of a GRAPH_RUN: its descriptors outside local stores. -/
def graphUses (img : List Byte) : List Use :=
  let here := fun (r : Range) => decide (0 < r.len) && (match r.space with
    | some (.localStore _) => false
    | _ => true)
  let reads := (List.range (graphDescs img)).flatMap fun i => let d := graphDesc img i; [d.footprint, d.scaleRange]
  (reads.filter here).map (fun r => ⟨64, r, false⟩) ++
    (((graphTaskList img).flatMap (taskWrites img)).filter here).map fun r => ⟨64, r, true⟩

/-- The outputs of a graph become undefined (R321). -/
def State.spoilGraph (s : State) (img : List Byte) : State :=
  (graphUses img).foldl (fun t u => if u.write then t.scramble u.range.lo u.range.len else t) s

end Sys2Proof.Machine
end

