-- ==== Sys2Proof/Machine/Compute.lean ====
section
/-! DEFINITION. What TILE and VECTOR tasks compute and store (R281 to R295, R300, R301, R421), and the digest of a tile
(R448). -/

namespace Sys2Proof.Machine

/-! ## Descriptors as a unit sees them (R106, R419) -/

/-- A local-store address is read relative to the slot of the array that runs the task (R106). -/
def localOn (array a : Nat) : Nat :=
  if 0x010100000000 ≤ a ∧ a < 0x010100000000 + 144 * 0x200000 then (localRange array).lo + (a - 0x010100000000) % 0x200000 else a

def Desc.on (d : Desc) (array : Nat) : Desc := { d with base := localOn array d.base, scale := localOn array d.scale }

/-- Position p of a landing: the tensor without its outermost dimension (R419). -/
def Desc.position (d : Desc) (p : Nat) : Desc :=
  if d.rank ≤ 1 then d
  else
    let r := d.rank - 1
    let inner := { d with rank := r, extent := setAt d.extent r (fun _ => 1), stride := setAt d.stride (r - 1) (fun _ => 0) }
    { inner with
      base := ((d.base : Int) + (p : Int) * d.str r).toNat
      scale := d.scale + p * inner.rows * d.scaleRow }

/-- Positions of a landing. -/
def Desc.positions (d : Desc) : Nat := if d.rank ≤ 1 then 1 else d.ext (d.rank - 1)

/-- The index vector of element x of row r of a vector operand (R301). -/
def Desc.vectorIndex (d : Desc) (x r : Nat) : List Int :=
  if d.rank ≤ 2 then [Int.ofNat x, Int.ofNat r] else Int.ofNat x :: d.rowIndex r

/-- Index vectors of n elements in each of a number of rows that the wrap rule brings in (R123). -/
def Desc.wrapCount (d : Desc) (n rows : Nat) : Nat :=
  let beyond := if d.rank ≤ 2 then rows - d.ext 1 else 0
  n * beyond + (rows - beyond) * (n - d.ext 0)

/-! ## Tiles -/

/-- An accumulator tile: 128 rows of 128 elements, floating values or exact integer sums. -/
inductive AccTile where
  | floats (l : List (List Num))
  | ints (l : List (List Int))
  deriving DecidableEq, Repr

/-- Row i of an operand, joined along K over its slots. -/
def State.operandRow (s : State) (ds : List Desc) (i : Nat) : List Num :=
  ds.flatMap fun d => (List.range (d.ext 0)).map fun k => s.elemNum d [Int.ofNat k, Int.ofNat i]
def State.operandInts (s : State) (ds : List Desc) (i : Nat) : List Int :=
  ds.flatMap fun d => (List.range (d.ext 0)).map fun k => elemInt d.elem (s.elem d [Int.ofNat k, Int.ofNat i])

/-- The accumulator tile of a TILE task on an array (R283, R285). -/
def State.tileAcc (s : State) (g : List Byte) (t : Task) (array : Nat) : AccTile :=
  let on := fun (b : Nat) => (bufferDescs g t b).map fun d => d.on array
  let add := (on 3).head?
  match tilePair (tileA t) (tileB t) with
  | some (_, _, true) =>
    let bs := (List.range 128).map fun j => s.operandInts (on 2) j
    .ints ((List.range 128).map fun i =>
      let a := s.operandInts (on 1) i
      bs.zipIdx.map fun b =>
        let init := match add with
          | some d => elemInt d.elem (s.elem d [Int.ofNat b.2, Int.ofNat i])
          | none => 0
        tileInt init a b.1)
  | some (_, group, false) =>
    let bs := (List.range 128).map fun j => s.operandRow (on 2) j
    .floats ((List.range 128).map fun i =>
      let a := s.operandRow (on 1) i
      bs.zipIdx.map fun b =>
        let init := match add with
          | some d => fp32.toFormat (s.elemNum d [Int.ofNat b.2, Int.ofNat i])
          | none => Num.zero
        tileFloat group (tileDescending t) init a b.1)
  | none => .ints []

/-- The 32-bit codes of an accumulator tile in row-major order. -/
def AccTile.codes : AccTile → List Nat
  | .floats l => l.flatten.map fp32.code
  | .ints l => l.flatten.map fun v => unsignedOf 32 v

/-- Elements that a fault has replaced: index in row-major order and 32-bit code. -/
def AccTile.faulted (a : AccTile) (bad : List (Nat × Nat)) : AccTile :=
  let at_ := fun (i j : Nat) => bad.find? fun b => b.1 == 128 * i + j
  match a with
  | .floats l => .floats (l.zipIdx.map fun r => r.1.zipIdx.map fun x => match at_ r.2 x.2 with
    | some b => fp32.value b.2
    | none => x.1)
  | .ints l => .ints (l.zipIdx.map fun r => r.1.zipIdx.map fun x => match at_ r.2 x.2 with
    | some b => signedOf 32 b.2
    | none => x.1)

/-- Words of 64 bits from a list of 32-bit codes. -/
def pairWords : List Nat → List DWord
  | a :: b :: t => BitVec.ofNat 64 (a + b * 2 ^ 32) :: pairWords t
  | [a] => [BitVec.ofNat 64 a]
  | [] => []

/-- The chain of R448. -/
def chainDigest (start seed : DWord) (words : List DWord) : DWord := words.foldl (fun d w => mix64 (d ^^^ w) seed) (mix64 start seed)

/-- A tile's digest (R448). -/
def AccTile.digest (a : AccTile) (task : Nat) (seed : DWord) : DWord := chainDigest (BitVec.ofNat 64 task) seed (pairWords a.codes)

/-- Index vectors of the stored block that wrap. -/
def blockWraps (d : Desc) (row col : Nat) : Nat :=
  ((List.range 128).flatMap fun i => (List.range 128).filter fun j => decide (d.ext 0 ≤ col + j) || decide (d.ext 1 ≤ row + i)).length

/-- Store an accumulator tile (R289, R290, R300), counting wraps, saturation, wrapped sums and NaN tiles. -/
def State.storeTile (s : State) (g : List Byte) (t : Task) (array : Nat) (a : AccTile) : State :=
  let d := (graphDesc g (tileDst t)).on array
  let s := s.bump Reg.cntWrapArray (blockWraps d (tileRow t) (tileCol t))
  match a with
  | .floats l =>
    let columns := t.f 91 1 == 1 && !elemMx d.elem
    let put := fun (r : State × Bool) (j i : Nat) (v : List Num) =>
      let q := r.1.storeRow d (tileCol t + j) [Int.ofNat (tileRow t + i)] v
      (q.1, r.2 || q.2)
    let r := if columns then
        (List.range 128).foldl (fun r j => l.zipIdx.foldl (fun r x => put r j x.2 [x.1.getD j .zero]) r) (s, false)
      else l.zipIdx.foldl (fun r x => put r 0 x.2 x.1) (s, false)
    if r.2 then r.1.bump Reg.arrNanTiles 1 else r.1
  | .ints l =>
    let cell := fun (t0 : State) (i j : Nat) (v : Int) =>
      t0.storeIntElem d [Int.ofNat (tileCol t + j), Int.ofNat (tileRow t + i)] (shiftEven (wrap32 v) (tileShift t))
    let r := if t.f 91 1 = 1 then
        (List.range 128).foldl (fun r j => l.zipIdx.foldl (fun r x => cell r x.2 j (x.1.getD j 0)) r) s
      else l.zipIdx.foldl (fun r x => x.1.zipIdx.foldl (fun r y => cell r x.2 y.2 y.1) r) s
    if l.flatten.any fun v => decide (v < -(2 ^ 31 : Int)) || decide ((2 ^ 31 : Int) ≤ v) then r.bump Reg.arrIntWrap 1 else r

/-! ## Vector tasks (R301) -/

/-- The operands of a vector task: each slot's descriptor, a RELAY landing of PARTIAL_SUM one per position (R421). -/
def vectorOperandDescs (g : List Byte) (t : Task) (array : Nat) : List Desc :=
  t.slots.flatMap fun x =>
    let d := (graphDesc g x.desc).on array
    if vectorOp t = 8 ∧ x.source = 3 then (List.range d.positions).map d.position else [d]

/-- One row of an operand, loaded into the lanes. -/
def State.laneRow (s : State) (d : Desc) (n r : Nat) : List Num := (List.range n).map fun x => loadLane (s.elemNum d (d.vectorIndex x r))

/-- One step of ELEMENTWISE, other than convert, on a running value; `v i` is the value of slot i. -/
def vectorStep (v : Nat → Num) (x : Num) (f : Nat × Nat) : Num :=
  let a := v f.2
  match f.1 with
  | 1 => fp32.add x a
  | 2 => fp32.sub x a
  | 3 => fp32.mul x a
  | 4 => fp32.fma x a (v (f.2 + 1))
  | 5 => x.min a
  | 6 => x.max a
  | 7 => if x.isNan || !x.isZero then a else v (f.2 + 1)
  | 9 => fp32.rcp x
  | 10 => fp32.sqrt x
  | 11 => fp32.rsqrt x
  | 12 => exp32 x
  | 13 => log32 x
  | 14 => tanh32 x
  | 15 => silu x
  | _ => gelu x

/-- Round a row to a destination type and back to FP32 (R301, function 8); an MX type takes its blocks of 32. -/
def convertRow (elem : Nat) (l : List Num) : List Num :=
  if elemMx elem then
    (blocks32 l.length l).flatMap fun b => let q := storeBlock elem b; q.2.map fun x => elemValue elem x.code q.1
  else l.map fun x => elemValue elem (storeNum elem x).code 127

/-- One step over a row. -/
def stepRow (elem : Nat) (row : Nat → List Num) (l : List Num) (f : Nat × Nat) : List Num :=
  if f.1 = 8 then convertRow elem l
  else l.zipIdx.map fun x => vectorStep (fun i => (row i).getD x.2 .zero) x.1 f

/-- The values that row r of a vector task stores from dimension-0 index 0 on. -/
def State.vectorRow (s : State) (g : List Byte) (t : Task) (array r : Nat) : List Num :=
  let n := vectorLength t
  let ops := (vectorOperandDescs g t array).map fun d => s.laneRow d n r
  let row := fun (i : Nat) => ops.getD i []
  let eps := fp32.value (t.f 92 4)
  match vectorOp t with
  | 1 => (vectorSteps t).foldl (stepRow (graphDesc g (vectorDst t)).elem row) (row 0)
  | 2 => [reduceRow .add (row 0)]
  | 3 => [reduceRow .max (row 0)]
  | 4 => [reduceRow .min (row 0)]
  | 5 => softmaxRow (row 0)
  | 6 => layerNormRow eps (row 0) (row 1) (row 2)
  | 7 => rmsNormRow eps (row 0) (row 1)
  | _ => (ops.drop 1).foldl (fun a b => (a.zip b).map fun x => fp32.add x.1 x.2) (row 0)

/-- Store a vector task's rows through a descriptor. -/
def State.storeVector (s : State) (g : List Byte) (t : Task) (array : Nat) (d : Desc) : State :=
  let n := vectorLength t
  let out := if 2 ≤ vectorOp t ∧ vectorOp t ≤ 4 then 1 else n
  let wraps := (vectorOperandDescs g t array).foldl (fun k x => k + x.wrapCount n (vectorRows t)) (d.wrapCount out (vectorRows t))
  (List.range (vectorRows t)).foldl (fun r i => (r.storeRow d 0 ((d.vectorIndex 0 i).drop 1) (s.vectorRow g t array i)).1)
    (s.bump Reg.cntWrapArray wraps)

/-- The 32 result_words of a REPORT task (R314): the bytes it stores, packed row after row. -/
def State.reportWords (s : State) (g : List Byte) (t : Task) (array : Nat) : State × List Byte :=
  let d := graphDesc g (vectorDst t)
  let at_ := (localRange array).lo
  let d' : Desc := { d with base := at_, scale := at_ + 0x100000, rank := 2, extent := [d.ext 0, vectorRows t, 1, 1, 1, 1],
                            stride := [Int.ofNat d.rowBytes, 0, 0, 0, 0] }
  let r := s.storeVector g t array d'
  ({ r with mem := s.mem, memory := s.memory }, r.load at_ 32)

end Sys2Proof.Machine
end

