-- ==== Sys2Proof/Machine/Gather.lean ====
section
/-! DEFINITION. Gathers and scatters (R330 to R351): requests, their service by members in windows, pooling, responses,
contributions and their application at commit, and the retirement of versions. -/

namespace Sys2Proof.Machine

/-! ## Graph runs -/

def State.graphRun (s : State) (k : Nat) : Option GraphRun := Tab.look s.graph.runs k
def State.setGraphRun (s : State) (k : Nat) (g : GraphRun) : State :=
  { s with graph := { s.graph with runs := Tab.put s.graph.runs k g } }
def State.onGraphRun (s : State) (k : Nat) (f : GraphRun → GraphRun) : State :=
  match s.graphRun k with
  | some g => s.setGraphRun k (f g)
  | none => s
def State.runImage (s : State) (g : GraphRun) : List Byte :=
  match Tab.look s.graph.graphs g.slot with
  | some x => x.image
  | none => []

/-- The tag of a job's manifest for a step (R69). -/
def Job.tagAt (j : Job) (step : Nat) : List Byte :=
  match j.staged with
  | some x => if x.step ≤ step then x.digest.take 8 else j.digest.take 8
  | none => j.digest.take 8

/-- The header fields of a job's packets for a step and attempt, sent as one of its ranks (R417). -/
def Job.origin (j : Job) (step attempt rank : Nat) : Origin := ⟨j.tagAt step, j.id, step, attempt, rank⟩

/-- Record a failure cause of the job a graph run belongs to. -/
def State.blameRun (s : State) (run : Nat) (cause : Status) (named : Nat) : State :=
  match (s.graphRun run).bind fun g => g.job with
  | some slot => s.onJob slot fun j => j.blame cause named
  | none => s

/-! ## Bound versions (R344 to R347) -/

def sliceKeyOf (table slice : Nat) : Nat := 64 * table + slice

/-- The slices of a table held here. -/
def State.tableSlices (s : State) (table : Nat) : List (Nat × Slice) := s.emb.slices.filter fun e => e.1 / 64 == table

/-- The number of the version a table's batches bind to here: the CURRENT version of its lowest slice held. -/
def State.currentVersion (s : State) (table : Nat) : Option Nat :=
  ((s.tableSlices table).findSome? fun e => e.2.current).map fun v => v.number

/-- Some batch is bound to a version of a slice. -/
def State.versionBound (s : State) (key number : Nat) : Bool :=
  (s.graph.runs.any fun e => e.2.bound.contains (key, number)) || s.emb.gathers.any fun e => e.2.bound.contains (key, number)

/-- The guard number of a version. -/
def versionGuard (key vslot : Nat) : Nat := 4 * key + vslot

/-- SUPERSEDED versions that no batch is bound to are RETIRED (R347). -/
def State.retireVersions (s : State) : State :=
  let gone := fun (key : Nat) (v : Version) => v.state == .superseded && !s.versionBound key v.number
  let dead := s.emb.slices.flatMap fun e => (e.2.versions.filter (gone e.1)).map fun v => versionGuard e.1 v.vslot
  let keep := fun (key : Nat) (x : Slice) => { x with versions := x.versions.filter fun v => !gone key v }
  let s := { s with emb := { s.emb with slices := Tab.mapVal keep s.emb.slices } }
  dead.foldl (fun t k => t.unguard .version k) s

/-! ## Requests (R334, R335) -/

/-- The request's header fields; the bytes that follow are the indices, the offsets, the weights and the gradient rows. -/
def requestHead (version table slice pool flags out elems count bags task scale : Nat) : List Byte :=
  leBytes 4 version ++ leBytes 2 table ++ leBytes 1 slice ++ leBytes 1 pool ++ leBytes 1 flags ++ leBytes 1 out ++
    leBytes 2 elems ++ leBytes 4 count ++ leBytes 4 bags ++ leBytes 4 task ++ leBytes 4 scale ++ List.replicate 36 0

def reqVersion (b : List Byte) : Nat := leField b 0 4
def reqTable (b : List Byte) : Nat := leField b 4 2
def reqSlice (b : List Byte) : Nat := leField b 6 1
def reqPool (b : List Byte) : Nat := leField b 7 1
def reqWeighted (b : List Byte) : Bool := bitOf (leField b 8 1) 0
def reqScatter (b : List Byte) : Bool := bitOf (leField b 8 1) 1
def reqOut (b : List Byte) : Nat := leField b 9 1
def reqElems (b : List Byte) : Nat := leField b 10 2
def reqCount (b : List Byte) : Nat := leField b 12 4
def reqBags (b : List Byte) : Nat := leField b 16 4
def reqTask (b : List Byte) : Nat := leField b 20 4
def reqScale (b : List Byte) : Nat := leField b 24 4
def reqIndexAt : Nat := 64
def reqOffsetAt (b : List Byte) : Nat := reqIndexAt + 8 * reqCount b
def reqWeightAt (b : List Byte) : Nat := reqOffsetAt b + (if reqPool b = 0 then 0 else 4 * (reqBags b + 1))
def reqGradAt (b : List Byte) : Nat := reqWeightAt b + (if reqWeighted b then 4 * reqCount b else 0)

/-- Bytes of a request. -/
def reqLength (b : List Byte) : Nat :=
  64 * ceilDiv (reqGradAt b + (if reqScatter b then 4 * reqBags b * reqElems b else 0)) 64

/-- The requests that stand one after the other in a request plane. -/
def splitRequests : Nat → List Byte → List (List Byte)
  | 0, _ => []
  | k + 1, b => if b.isEmpty then [] else b.take (reqLength b) :: splitRequests k (b.drop (reqLength b))

def reqIndex (b : List Byte) (i : Nat) : Int := leSigned b (reqIndexAt + 8 * i) 8
def reqWeight (b : List Byte) (i : Nat) : Num :=
  if reqWeighted b then fp32.value (leField b (reqWeightAt b + 4 * i) 4) else one32

/-- Offset o_k clamped to the index list (R332). -/
def reqOffset (b : List Byte) (k : Nat) : Nat :=
  let v := leSigned b (reqOffsetAt b + 4 * k) 4
  if v < 0 then 0 else min v.toNat (reqCount b)

/-- The index positions of a bag: first and count. -/
def reqBag (b : List Byte) (k : Nat) : Nat × Nat :=
  if reqPool b = 0 then (k, 1) else (reqOffset b k, reqOffset b (k + 1) - reqOffset b k)

/-- Bags that decreasing offsets empty (R332). -/
def reqBadOffsets (b : List Byte) : Nat :=
  if reqPool b = 0 then 0
  else ((List.range (reqBags b)).filter fun k => decide (reqOffset b (k + 1) < reqOffset b k)).length

/-- Positions whose index the wrap rule brings in (R333). -/
def reqWraps (b : List Byte) (rows : Nat) : Nat :=
  ((List.range (reqCount b)).filter fun i => decide (reqIndex b i < 0) || decide ((rows : Int) ≤ reqIndex b i)).length

/-- Windows of 4,096 positions. -/
def reqWindows (b : List Byte) : Nat := ceilDiv (reqCount b) 4096

def reqRow (b : List Byte) (rows i : Nat) : Nat := wrapIndex (reqIndex b i) rows

/-! ## Serving (R334 to R339) -/

/-- The exact values of a row's slice. -/
def State.sliceRow (s : State) (x : Slice) (v : Version) (row : Nat) : List Num :=
  let w := (elemBits x.elem).getD 8 / 8
  let b := s.load (x.rowAt v row) x.width
  (List.range (x.dim / x.group)).map fun e => elemValue x.elem (leField b (w * e) w) 127

/-- The pooled slice of a bag (R337), in FP32. -/
def poolBag (pool elems : Nat) (members : List (Num × List Num)) : List Num :=
  let col := fun (e : Nat) => members.map fun m => (m.1, m.2.getD e .zero)
  let sum := fun (l : List (Num × Num)) => l.foldl (fun a m => fp32.fma m.1 m.2 a) Num.zero
  (List.range elems).map fun e =>
    let l := col e
    if l.isEmpty then .zero
    else match pool with
      | 0 => (l.headD (one32, .zero)).2
      | 1 => sum l
      | 2 => fp32.mul (sum l) (countRcp l.length)
      | _ => match l.map fun m => fp32.mul m.1 m.2 with
        | [] => .zero
        | h :: t => t.foldl Num.max h

/-- The pooled slice of every bag, as the bytes of the output type. -/
def State.poolAll (s : State) (x : Slice) (v : Version) (b : List Byte) : List Byte :=
  let w := (elemBits (reqOut b)).getD 32 / 8
  (List.range (reqBags b)).flatMap fun k =>
    let bag := reqBag b k
    let members := (List.range bag.2).map fun j =>
      (reqWeight b (bag.1 + j), s.sliceRow x v (reqRow b x.rows (bag.1 + j)))
    (poolBag (reqPool b) (x.dim / x.group) members).flatMap fun y => leBytes w (storeNum (reqOut b) y).code

/-- A row is served from a serai replica: a REPLICATED hot entry for this version (R339). -/
def State.servedHot (s : State) (key row : Nat) (x : Slice) (v : Version) : Bool :=
  let die := v.base / 0x6000000000
  x.hot && match (s.dirFind hotTable die [hotKey (key / 64) (key % 64) row]).winner with
    | some e => e.2.state == 2 && e.2.vslot == v.vslot
    | none => false

/-- Count the reads of one window: each distinct row once, repeats coalesced (R334, R339). It answers the accesses. -/
def State.countWindow (s : State) (key : Nat) (x : Slice) (v : Version) (b : List Byte) (w : Nat) : State × Nat :=
  let n := min 4096 (reqCount b - 4096 * w)
  let rows := ((List.range n).map fun i => reqRow b x.rows (4096 * w + i)).eraseDups
  let hot := (rows.filter fun r => s.servedHot key r x v).length
  let per := x.width / 64
  let s := if x.hot then s.bumpWide Reg.dirSearchesLo rows.length else s
  let s := (s.bump Reg.gatCoalesced (n - rows.length)).bump Reg.gatHotHits hot
  ((s.bumpWide Reg.gatReadsHbmLo ((rows.length - hot) * per)).bumpWide Reg.gatReadsSeraiLo (hot * per), rows.length * per)

/-- The version a request names, of a slice held here. -/
def State.requestTarget (s : State) (b : List Byte) : Option (Nat × Slice × Version) :=
  let key := sliceKeyOf (reqTable b) (reqSlice b)
  (s.embSlice key).bind fun x => (x.versions.find? fun v => v.number == reqVersion b).map fun v => (key, x, v)

/-! ## Landing of pooled slices (R335) -/

/-- Write a member's pooled slice into the destination columns and mark it landed. -/
def State.landSlice (s : State) (key slice : Nat) (data : List Byte) : State :=
  match Tab.look s.emb.gathers key with
  | none => s
  | some g =>
    if g.landed.contains slice then s.bump Reg.gatDupResponses 1
    else
      let d := descAt g.dst 0
      let n := g.elems * g.width
      let s := (List.range g.bags).foldl (fun t r =>
        t.store ((d.rowAddr [Int.ofNat r] 1).toNat + slice * n) ((data.drop (r * n)).take n)) s
      { s with emb := { s.emb with gathers := Tab.put s.emb.gathers key { g with landed := g.landed ++ [slice] } } }

/-! ## Contributions (R341, R343) -/

/-- Bytes the contributions of a job take: 24 each, and each bag's gradient slice once. -/
def scatterBytes (l : List Contribution) (width : Nat → Nat) : Nat :=
  24 * l.length + ((l.map fun c => (c.slice, c.rank, c.task, c.grad)).eraseDups.foldl (fun n c => n + width c.1) 0)

/-- The contributions of one request to a slice. -/
def contributionsOf (key rank : Nat) (x : Slice) (b : List Byte) : List Contribution :=
  let elems := x.dim / x.group
  (List.range (reqBags b)).flatMap fun k =>
    let bag := reqBag b k
    let grad := (List.range elems).map fun e => leField b (reqGradAt b + 4 * (k * elems + e)) 4
    (List.range bag.2).map fun j =>
      let i := bag.1 + j
      let w := reqWeight b i
      let f := if reqPool b = 2 then fp32.mul w (countRcp bag.2) else w
      ⟨key, reqRow b x.rows i, rank, reqTask b, i, fp32.code f, reqScale b, grad⟩

/-- Bytes of the hold area in use: the parts of graph descriptors that lie in it, journals, contributions, the
muster area and the pipeline's buffers and scratch (R40, R460). -/
def State.holdUsed (s : State) (slot : Nat) (j : Job) : Nat :=
  let hold : Range := ⟨j.holdBase, j.holdSize⟩
  let ranges := (s.graph.runs.filter fun e => e.2.job == some slot).flatMap fun e =>
    let img := s.runImage e.2
    ((List.range (graphDescs img)).map fun i => (graphDesc img i).footprint).filter fun r => r.inside hold
  let width := fun (key : Nat) => ((s.embSlice key).map Slice.width).getD 0
  (ranges.eraseDups.foldl (fun n r => n + r.len) 0) +
    (j.applyJournal ++ j.musterJournal).foldl (fun n e => n + e.2.length) 0 +
    scatterBytes (Tab.get [] s.emb.scatter slot) width + 128 * (j.digests.length) +
    (match Tab.look s.samples.pipes slot with
      | some x => x.capacity * 3 * x.stride + 32 * leField ((manSection j.image 6).getD []) 8 8
      | none => 0)

/-- Append contributions to a job's buffer; one that does not fit makes the rank vote FAIL (R343). -/
def State.contribute (s : State) (slot table : Nat) (l : List Contribution) : State :=
  match Tab.look s.job.jobs slot with
  | none => s
  | some j =>
    let t : State := { s with emb := { s.emb with
      scatter := Tab.put s.emb.scatter slot (Tab.get [] s.emb.scatter slot ++ l) } }
    if j.holdSize < t.holdUsed slot j then s.onJob slot fun j => j.blame Status.scatterFull table else t

/-! ## A window is served (R335) -/

/-- All windows of a request have been served: the pooled slice lands here or goes back to its requester, or its
contributions join the buffer. -/
def State.finishRequest (s : State) (id : Nat) (q : GatherReq) : State :=
  let s := { s with emb := { s.emb with requests := Tab.del s.emb.requests id } }
  match s.requestTarget q.data with
  | none => s
  | some (key, x, v) =>
    if reqScatter q.data then
      let s := match s.findJob q.job with
        | some (slot, _) => s.contribute slot (reqTable q.data) (contributionsOf key q.rank x q.data)
        | none => s
      match q.own with
      | some k => match Tab.look s.emb.gathers k with
        | some g => { s with emb := { s.emb with
            gathers := Tab.put s.emb.gathers k { g with landed := g.landed ++ [reqSlice q.data] } } }
        | none => s
      | none => s
    else
      let pooled := s.poolAll x v q.data
      match q.own with
      | some k => s.landSlice k (reqSlice q.data) pooled
      | none =>
        match s.findJob q.job with
        | none => s
        | some (_, j) =>
          let head := leBytes 2 (reqTable q.data) ++ leBytes 1 (reqSlice q.data) ++ List.replicate 61 0
          let rank := if q.slot < 2 ^ 31 then x.group * (q.rank / x.group) + reqSlice q.data else reqSlice q.data
          s.slotPut .nobody q.peer 1 (q.slot + 1) (j.origin q.step q.attempt rank) (head ++ pad64 pooled)

/-- A member's gather unit finishes a window of a request. -/
def State.serveWindow (s : State) (id w : Nat) : State :=
  match Tab.look s.emb.requests id with
  | none => s
  | some q =>
    if reqWindows q.data ≤ w ∨ q.served.contains w then s
    else match s.requestTarget q.data with
      | none => s
      | some (key, x, v) =>
        let r := if reqScatter q.data then (s, 0) else s.countWindow key x v q.data w
        let q := { q with served := q.served ++ [w] }
        let s := r.1
        let s := match q.own with
          | some k => match Tab.look s.emb.gathers k with
            | some g => { s with emb := { s.emb with
                gathers := Tab.put s.emb.gathers k { g with accesses := g.accesses + r.2 } } }
            | none => s
          | none => s
        let s := { s with emb := { s.emb with requests := Tab.put s.emb.requests id q } }
        if q.served.length = reqWindows q.data then s.finishRequest id q else s

/-! ## Starting a gather -/

/-- What a gather asks for: its request fields and the bytes of indices, offsets and weights, and for a scatter the
gradient codes of each bag over all dim elements. -/
structure GatherAsk where
  table : Nat
  version : Nat
  pool : Nat
  weighted : Bool
  scatter : Bool
  out : Nat
  count : Nat
  bags : Nat
  task : Nat
  scale : Nat
  indices : List Byte
  offsets : List Byte
  weights : List Byte
  grads : List (List Nat)
  deriving DecidableEq, Repr

/-- The request bytes for one slice. -/
def GatherAsk.bytes (a : GatherAsk) (slice elems : Nat) : List Byte :=
  let flags := (if a.weighted then 1 else 0) + (if a.scatter then 2 else 0)
  let grads := a.grads.flatMap fun row => ((row.drop (slice * elems)).take elems).flatMap fun c => leBytes 4 c
  let b := requestHead a.version a.table slice a.pool flags a.out elems a.count a.bags a.task a.scale ++ a.indices ++ a.offsets ++
    a.weights ++ (if a.scatter then grads else [])
  pad64 b

/-- Queue a request that this module serves. -/
def State.queueRequest (s : State) (q : GatherReq) : State :=
  { s with emb := { s.emb with requests := Tab.put s.emb.requests s.emb.nextKey q, nextKey := s.emb.nextKey + 1 } }

/-- Ask every slice's member: one request plane to each other module, with the requests of the slices its ranks hold, and
requests of this module's own slices. `peerOf` gives the module of a slice's member, none for this module. -/
def State.askSlices (s : State) (key : Nat) (a : GatherAsk) (elems group : Nat) (g : Origin) (slot : Nat)
    (peerOf : Nat → Option Nat) : State :=
  let own := (List.range group).filter fun i => (peerOf i).isNone
  let s := own.foldl (fun t i => t.queueRequest ⟨some key, 0, g.job, g.step, g.attempt, g.rank, slot, a.bytes i elems, []⟩) s
  ((List.range group).filterMap peerOf).eraseDups.foldl (fun t m =>
    let mine := (List.range group).filter fun i => peerOf i == some m
    t.slotPut (.gather key) m 1 slot g (mine.flatMap fun i => a.bytes i elems)) s

/-- Gathers are numbered with requests. -/
def State.newGather (s : State) (o : GatherOp) : State :=
  { s with emb := { s.emb with gathers := Tab.put s.emb.gathers s.emb.nextKey o, nextKey := s.emb.nextKey + 1 } }

/-- The section 3 entry of a table in a job's manifest. -/
def Job.tableEntry (j : Job) (table : Nat) : Option (List Byte) :=
  (manSection j.image 3).bind fun b => (tableEntries b).find? fun e => leField e 0 2 == table

/-- The FP32 codes of a tensor's rows, converted exactly. -/
def State.rowCodes (s : State) (d : Desc) (rows : Nat) : List (List Nat) :=
  (List.range rows).map fun r => (List.range (d.ext 0)).map fun e =>
    fp32.code (fp32.toFormat (s.elemNum d [Int.ofNat e, Int.ofNat r]))

/-- Start the gather of a GATHER task on its rank's shard group (R326, R335). -/
def State.startGatherTask (s : State) (run task gen : Nat) : State :=
  match s.graphRun run with
  | none => s
  | some g =>
    let job := g.job.bind fun slot => Tab.look s.job.jobs slot
    let img := s.runImage g
    let t := graphTask img task
    let table := gatherTable t
    let slice0 := (s.tableSlices table).head?
    let entry := job.bind fun j => j.tableEntry table
    let group := match entry, slice0 with
      | some e, _ => leField e 4 2
      | none, some x => x.2.group
      | none, none => 1
    let dim := match entry, slice0 with
      | some e, _ => leField e 16 4
      | none, some x => x.2.dim
      | none, none => 0
    let version := ((g.bound.find? fun b => b.1 / 64 == table).map fun b => b.2).getD 0
    let d := fun (i : Nat) => graphDesc img (t.slot i).desc
    let bytes := fun (i n : Nat) => s.load (d i).base n
    let a : GatherAsk := ⟨table, version, gatherPool t, gatherWeighted t, gatherScatter t, gatherOut t, gatherCount t,
      gatherBags t, task, gatherScale t, bytes 0 (8 * gatherCount t),
      if gatherPool t = 0 then [] else bytes 1 (4 * (gatherBags t + 1)),
      if gatherWeighted t then bytes 2 (4 * gatherCount t) else [],
      if gatherScatter t then s.rowCodes (d 3) (gatherBags t) else []⟩
    let array := match g.direct.find? fun x => x.1 == task with
      | some x => x.2.2
      | none => 0
    let dst := (graphDesc img (gatherDst t)).on array
    let raw := leBytes 8 dst.base ++ (slice img (graphDescAt img (gatherDst t)) 128).drop 8
    let op : GatherOp := ⟨some (run, task), none, gen, if gatherScatter t then [] else raw, dim / group,
      (elemBits (gatherOut t)).getD 32 / 8, gatherBags t, group, [], [], 0⟩
    let key := s.emb.nextKey
    let rows := match slice0, entry with
      | some x, _ => x.2.rows
      | none, some e => leField e 8 8
      | none, none => 1
    let probe := a.bytes 0 (dim / group)
    let s := (s.bump Reg.gatBadOffsets (reqBadOffsets probe)).bump Reg.cntWrapGather (reqWraps probe rows)
    let s := s.newGather op
    match job with
    | none => s.askSlices key a (dim / group) group ⟨List.replicate 8 0, noJob, 0, 0, 0⟩ (gatherSlot t) fun _ => none
    | some j =>
      let rank := j.ranks.headD 0
      let base := group * (rank / group)
      let peerOf := fun (i : Nat) => if j.ranks.contains (base + i) then none else some (s.rankModule j (base + i))
      s.askSlices key a (dim / group) group (j.origin g.step g.attempt rank) (gatherSlot t) peerOf

/-- The gather of a task, if it is in progress. -/
def State.taskGather (s : State) (run task : Nat) : Option (Nat × GatherOp) :=
  s.emb.gathers.find? fun e => e.2.run == some (run, task)

/-- Every slice of a gather has landed, or for a scatter every member has its request. -/
def State.gatherDone (s : State) (key : Nat) (g : GatherOp) : Bool :=
  let own := s.emb.requests.all fun q => q.2.own != some key
  let sent := s.relay.ops.all fun o => o.2.owner != .gather key
  own && sent && (g.dst.isEmpty || g.landed.length == g.group)

/-- Forget a gather with its requests and packets. -/
def State.dropGather (s : State) (key : Nat) : State :=
  let s := { s with emb := { s.emb with
    gathers := Tab.del s.emb.gathers key, requests := s.emb.requests.filter fun q => q.2.own != some key } }
  s.dropOps fun _ o => o.owner == .gather key

/-! ## Applying contributions at commit (R342) -/

def contributionBefore (x y : Contribution) : Bool :=
  let a := [x.slice, x.row, x.rank, x.task, x.position]
  let b := [y.slice, y.row, y.rank, y.task, y.position]
  decide (a ≤ b)

def insertContribution (x : Contribution) : List Contribution → List Contribution
  | [] => [x]
  | y :: t => if contributionBefore x y then x :: y :: t else y :: insertContribution x t

/-- A row with its contributions added in order. -/
def addRow (elem : Nat) (row : List Num) (l : List Contribution) : List Nat :=
  row.zipIdx.map fun x =>
    let acc := l.foldl (fun a c => fp32.fma (fp32.value c.scale)
      (fp32.mul (fp32.value c.factor) (fp32.value (c.grad.getD x.2 0))) a) (fp32.toFormat x.1)
    (storeNum elem acc).code

/-- Apply the contributions of one row of a slice's bound version, with its replicas (R342, R367, R368). -/
def State.applyRow (s : State) (key row : Nat) (number : Nat) (l : List Contribution) : State :=
  match s.embSlice key with
  | none => s
  | some x => match x.versions.find? fun v => v.number == number with
    | none => s
    | some v =>
      let w := (elemBits x.elem).getD 8 / 8
      let bytes := (addRow x.elem (s.sliceRow x v row) l).flatMap fun c => leBytes w c
      let s := (s.store (x.rowAt v row) bytes).hotDirty key row
      let s := [0, 1].foldl (fun t die => ((t.hotEntries die).filter fun e => e.sliceKey == key && e.row == row && e.state == 2
        && e.vslot == v.vslot).foldl (fun t e => t.store (e.replica die) bytes) t) s
      s.bump Reg.gatScatterRecords l.length

end Sys2Proof.Machine
end

