-- ==== Sys2Proof/Machine/Engine.lean ====
section
/-! DEFINITION. Matching stores and dispatch (R304 to R317, R321): tokens, admission, ready lists, grants, transfers, prefetch
copies, results, and the start and end of graph runs. -/

namespace Sys2Proof.Machine

/-! ## Small accessors -/

def State.setGraph (s : State) (g : GraphState) : State := { s with graph := g }
def State.runTask (s : State) (run task : Nat) : Option TaskState := (s.graphRun run).bind fun g => Tab.look g.tasks task
def State.taskRecord (s : State) (run task : Nat) : Task :=
  match s.graphRun run with
  | some g => graphTask (s.runImage g) task
  | none => default
def State.setTask (s : State) (run task : Nat) (t : TaskState) : State :=
  s.onGraphRun run fun g => { g with tasks := Tab.put g.tasks task t }
def readyKey (t : Task) : Nat := t.die * 8 + t.prio
/-- Depth of a ready list (R27). -/
def readyDepth : Nat := 2048

/-! ## Ready lists (R309) -/

/-- A task whose slots are full joins its ready list, or waits for room in it. A consumer held for a DIRECT gather goes to
its array (R340). -/
def State.makeReady (s : State) (run task : Nat) : State :=
  match s.graphRun run, s.runTask run task with
  | some g, some t =>
    match g.direct.find? fun x => x.2.1 == task with
    | some x => s.setTask run task { t with place := .granted (unitId 1 x.2.2) }
    | none =>
      let key := readyKey (s.taskRecord run task)
      let l := Tab.get [] s.graph.ready key
      if l.length < readyDepth then
        let s := s.setGraph { s.graph with ready := Tab.put s.graph.ready key (l ++ [(run, task)]) }
        s.setTask run task { t with place := .ready }
      else s.setGraph { s.graph with crowded := s.graph.crowded ++ [(run, task)] }
  | _, _ => s

/-! ## Tokens (R304, R305, R308) -/

/-- Every slot of an admitted task has its arrivals. -/
def slotsFull (r : Task) (t : TaskState) : Bool := r.slots.zipIdx.all fun x => t.fill.getD x.2 0 == x.1.arrivals

/-- A token reaches its slot. -/
def State.arrive (s : State) (k : Token) : State :=
  match s.graphRun k.run with
  | none => s.bump Reg.arrStaleTokens 1
  | some g =>
    let r := s.taskRecord k.run k.task
    if k.attempt ≠ g.attempt then
      match g.job with
      | some slot =>
        if (r.slot k.slot).source = 3 then s.onJob slot fun j => { j with staleAttempt := satAdd j.staleAttempt 1 }
        else s.bump Reg.arrStaleTokens 1
      | none => s.bump Reg.arrStaleTokens 1
    else match Tab.look g.tasks k.task with
      | none =>
        let s := s.setGraphRun k.run { g with heldTokens := g.heldTokens ++ [k] }
        if k.unit = 0xFFFF then s else s.setGraph { s.graph with holds := s.graph.holds ++ [k.unit] }
      | some t =>
        if (r.slot k.slot).arrivals ≤ t.fill.getD k.slot 0 then
          (s.bump Reg.arrExcessTokens 1).blameRun k.run Status.testFail 0
        else
          let t := { t with fill := setAt t.fill k.slot fun n => n + 1 }
          let s := s.setTask k.run k.task t
          if slotsFull r t then s.makeReady k.run k.task else s

/-- Put a token on its way. -/
def State.token (s : State) (k : Token) : State := s.setGraph { s.graph with tokens := s.graph.tokens ++ [k] }

/-- A token of source `source` to every slot of a run whose entry a test accepts: tasks ascending, then slots. -/
def State.tokensFor (s : State) (run source : Nat) (f : SlotEntry → Bool) : State :=
  match s.graphRun run with
  | none => s
  | some g =>
    ((graphTaskList (s.runImage g)).zipIdx).foldl (fun t x =>
      x.1.slots.zipIdx.foldl (fun t y =>
        if y.1.source = source ∧ f y.1 then t.token ⟨run, x.2, y.2, g.attempt, 0xFFFF⟩ else t) t) s

/-! ## Admission (R306, R308) -/

/-- A die's tasks in admission order: ascending level, then ascending index. -/
def admissionOrder (img : List Byte) (die : Nat) : List Nat :=
  let tasks := (graphTaskList img).zipIdx
  (List.range (graphLevels img)).flatMap fun l => (tasks.filter fun x => x.1.die == die && x.1.level == l).map fun x => x.2

/-- The task at the head of a die's admission order. -/
def State.admissionHead (s : State) (g : GraphRun) (die : Nat) : Option Nat :=
  (admissionOrder (s.runImage g) die).find? fun i => (Tab.look g.tasks i).isNone

/-- Slots that a run's admitted tasks hold on a die. -/
def State.slotsHeld (s : State) (g : GraphRun) (die : Nat) : Nat :=
  let img := s.runImage g
  g.tasks.foldl (fun n e =>
    let t := graphTask img e.1
    if t.die = die ∧ e.2.place ≠ .accepted then n + t.slots.length else n) 0

/-- The head task may be admitted now. -/
def State.admissible (s : State) (g : GraphRun) (die task : Nat) : Bool :=
  let img := s.runImage g
  let t := graphTask img task
  !g.stopped && (!t.commit || g.commitOpen) && decide (s.slotsHeld g die + t.slots.length ≤ graphBudget img die)

/-- Admit a task: STATE tokens, prefetch copies, and the tokens whose producers waited for it. -/
def State.enter (s : State) (run task : Nat) : State :=
  match s.graphRun run with
  | none => s
  | some g =>
    let t := graphTask (s.runImage g) task
    let held := g.heldTokens.filter fun k => k.task == task
    let g := { g with
      tasks := Tab.put g.tasks task ⟨t.slots.map fun _ => 0, .waiting, 0, []⟩
      heldTokens := g.heldTokens.filter fun k => k.task != task }
    let s := s.setGraphRun run g
    let copies := (t.slots.zipIdx.filter fun x => x.1.source == 2).map fun x => (run, task, x.2)
    let s := s.setGraph { s.graph with
      prefetch := s.graph.prefetch ++ copies
      holds := held.foldl (fun l k => l.erase k.unit) s.graph.holds }
    let s := if t.slots.isEmpty then s.makeReady run task else s
    let states := (t.slots.zipIdx.filter fun x => x.1.source == 6).map fun x => (⟨run, task, x.2, g.attempt, 0xFFFF⟩ : Token)
    (states ++ held).foldl (fun t k => t.arrive k) s

/-- TASK_ADMISSION: the head task of a run's admission order on a die is admitted, if it has room. -/
def execTaskAdmission (run die : Nat) (s : State) : Host.Outcome State Fault Refusal :=
  .next (match s.graphRun run with
    | none => s
    | some g => match s.admissionHead g die with
      | none => s
      | some t => if s.admissible g die t then s.enter run t else s)

/-- TOKEN_ARRIVAL: the n-th token on its way reaches its matching store. -/
def execTokenArrival (n : Nat) (s : State) : Host.Outcome State Fault Refusal :=
  .next (match s.graph.tokens[n]? with
    | none => s
    | some k => (s.setGraph { s.graph with tokens := s.graph.tokens.eraseIdx n }).arrive k)

/-! ## Units and transfers (R27, R310, R315) -/

/-- The unit type that runs a task type. -/
def taskUnit : Nat → Nat
  | 1 => 1
  | 2 => 1
  | 3 => 4
  | 4 => 5
  | _ => 7

/-- The die whose dispatcher grants to a unit: relay queues 0 to 15 belong to AD_0 (R436). -/
def dispatchDie (u : Nat) : Nat := if unitType u = 7 then unitIndex u / 16 else (unitDie u).getD 0

def State.entries (s : State) (u : Nat) : List (Nat × Nat × Nat × Nat) := Tab.get [] s.graph.units u

/-- The unit can take a grant. -/
def State.unitFree (s : State) (u : Nat) : Bool :=
  !s.fenced u && !s.graph.holds.contains u && decide ((s.entries u).length < if unitType u = 1 then 2 else 1)

/-- Ranges of a task's operands as an array sees them. -/
def operandRanges (img : List Byte) (t : Task) : List Range := t.slots.map fun x => (graphDesc img x.desc).footprint

/-- The identity of a chunk of an operand buffer: its run and attempt, its K range, and the regions it comes from. -/
def chunkIdentity (img : List Byte) (run attempt : Nat) (t : Task) (buffer c : Nat) : List Nat :=
  let k := tileChunk t
  let regions := (bufferDescs img t buffer).flatMap fun d => [d.base, d.ext 0, d.ext 1, (d.str 1).natAbs]
  [run, attempt, c * k, min k (tileK t - c * k)] ++ regions

/-- Bytes a chunk takes in a buffer half. -/
def chunkBytes (elem k : Nat) : Nat := 128 * (ceilDiv (k * (elemBits elem).getD 8) 8 + (if elemMx elem then k / 32 else 0))

/-- Bytes of a task's operand regions that an array's buffer halves hold or its running task names (R310). -/
def State.affinity (s : State) (u run : Nat) (t : Task) (img : List Byte) (attempt : Nat) : Nat :=
  let named := match (s.entries u).head? with
    | some e => if e.1 = run then operandRanges img (graphTask img e.2.1) else []
    | none => []
  let regions := ((operandRanges img t).filter fun r => named.contains r).foldl (fun n r => n + r.len) 0
  let held := if t.type ≠ 1 then 0 else
    [1, 2].foldl (fun n b => (List.range (ceilDiv (tileK t) (max 1 (tileChunk t)))).foldl (fun n c =>
      if Tab.look s.graph.halves (unitIndex u * 4 + (b - 1) * 2 + c % 2) = some (chunkIdentity img run attempt t b c) then
        n + chunkBytes (if b = 1 then tileA t else tileB t) (min (tileChunk t) (tileK t - c * tileChunk t))
      else n) n) 0
  max regions held

/-- The best array for a task: most bytes at hand, then the lowest number. -/
def State.bestArray (s : State) (l : List Nat) (run : Nat) (t : Task) (img : List Byte) (attempt : Nat) : Option Nat :=
  l.foldl (fun a u => match a with
    | none => some u
    | some v => if s.affinity v run t img attempt < s.affinity u run t img attempt then some u else some v) none

/-- Fill the buffer halves for a tile, counting chunks that are already there (R315). It answers the transfers needed. -/
def State.fillHalves (s : State) (u run attempt : Nat) (t : Task) (img : List Byte) : State × Nat :=
  let chunks := (List.range (ceilDiv (tileK t) (max 1 (tileChunk t)))).flatMap fun c => [(c, 1), (c, 2)]
  chunks.foldl (fun (r : State × Nat) x =>
    let key := unitIndex u * 4 + (x.2 - 1) * 2 + x.1 % 2
    let ident := chunkIdentity img run attempt t x.2 x.1
    if Tab.look r.1.graph.halves key = some ident then (r.1.bump Reg.arrReuseChunks 1, r.2)
    else
      let bytes := chunkBytes (if x.2 = 1 then tileA t else tileB t) (min (tileChunk t) (tileK t - x.1 * tileChunk t))
      (r.1.setGraph { r.1.graph with halves := Tab.put r.1.graph.halves key ident }, r.2 + ceilDiv bytes 16384)) (s, 0)

/-- Start a unit's transfers: at most four are outstanding (R27). -/
def State.startTransfers (s : State) (u n : Nat) : State :=
  let x := Tab.get (0, 0) s.graph.transfers u
  let left := x.2 + n
  let go := min left (4 - min 4 x.1)
  let y := (x.1 + go, left - go)
  s.setGraph { s.graph with transfers := if y = (0, 0) then Tab.del s.graph.transfers u else Tab.put s.graph.transfers u y }

/-- ENGINE_TRANSFER_COMPLETE: one transfer of a unit's engine completes and its next one is issued. -/
def execEngineTransferComplete (unit : Nat) (s : State) : Host.Outcome State Fault Refusal :=
  .next (match Tab.look s.graph.transfers unit with
    | none => s
    | some x =>
      let y := if 0 < x.2 then (x.1, x.2 - 1) else (x.1 - 1, 0)
      s.setGraph { s.graph with
        transfers := if y = (0, 0) then Tab.del s.graph.transfers unit else Tab.put s.graph.transfers unit y })

/-- QUEUE_SPACE_RELEASED: the oldest task that waits for room in a ready list joins it. -/
def execQueueSpaceReleased (die prio : Nat) (s : State) : Host.Outcome State Fault Refusal :=
  let key := die * 8 + prio
  .next (if (Tab.get [] s.graph.ready key).length < readyDepth then
      match s.graph.crowded.find? fun e => readyKey (s.taskRecord e.1 e.2) == key with
      | some e => (s.setGraph { s.graph with crowded := s.graph.crowded.erase e }).makeReady e.1 e.2
      | none => s
    else s)

/-! ## Protected reads (R488) -/

/-- What a task reads: the footprints of its slots, and for a gather the slices held here. -/
def State.taskReads (s : State) (img : List Byte) (t : Task) : List Range :=
  (t.slots.flatMap fun x => let d := graphDesc img x.desc; [d.footprint, d.scaleRange]) ++
    (if t.type = 5 ∧ relayOp t ≠ 3 ∧ relayOp t ≤ 3 then [(graphDesc img (relayDesc t)).footprint] else []) ++
    (if t.type = 3 then (s.tableSlices (gatherTable t)).flatMap fun e => e.2.versions.map fun v => ⟨v.base, v.size⟩ else [])

/-- Reads of protected regions may only flow to protected regions of the same binding or to the host window, and only in
a graph that the owning job's active manifest names (R488). -/
def State.flowOk (s : State) (g : GraphRun) (reads writes : List Range) : Bool :=
  let secret := reads.filter fun r => (s.protectedKey r).isSome
  if secret.isEmpty then true
  else
    let digest := match Tab.look s.graph.graphs g.slot with
      | some x => x.digest.take 32
      | none => []
    let named := fun (r : Range) => s.memory.regions.any fun e => e.2.key.isSome && e.2.range.meets r &&
      s.job.jobs.any fun j => j.2.id == e.2.owner && (match manSection j.2.image 1 with
        | some b => ((graphEntries b).map graphEntryPrefix).contains digest
        | none => false)
    secret.all named && writes.all fun w => w.len == 0 || w.inside hostRange ||
      secret.all fun r => s.protectedKey w == s.protectedKey r

/-! ## Grants (R310, R313, R314, R340) -/

/-- COMMIT tasks are granted in ascending index, and one that overlaps an earlier one waits for its acceptance (R314). -/
def State.commitTurn (_s : State) (g : GraphRun) (img : List Byte) (task : Nat) : Bool :=
  let t := graphTask img task
  !t.commit || (((graphTaskList img).zipIdx).filter fun x => x.1.commit && decide (x.2 < task)).all fun x =>
    match Tab.look g.tasks x.2 with
    | none => false
    | some y => match y.place with
      | .accepted => true
      | .granted _ => !anyMeet (taskWrites img x.1) (taskWrites img t)
      | _ => false

/-- Arrays that have run a disputed tile in this step (R449). -/
def GraphRun.ranOn (g : GraphRun) (task : Nat) : List Nat := (g.runs.filter fun x => x.1 == task).map fun x => unitId 1 x.2.1

/-- The units a die's dispatcher may grant a type to: its own unfenced ones. -/
def State.dieUnits (s : State) (ty die : Nat) : List Nat := (s.unfenced ty).filter fun u => dispatchDie u == die

/-- The units that may take a task of a home die: its own die's, or the other's when it has none unfenced. -/
def State.candidates (s : State) (ty die : Nat) : List Nat :=
  let own := s.dieUnits ty die
  (if own.isEmpty then s.dieUnits ty (1 - die) else own).filter fun u => s.unitFree u

/-- The candidates of a task. A referee runs on an array that has not run the tile in this step (R449). -/
def State.taskCandidates (s : State) (g : GraphRun) (task : Nat) (t : Task) : List Nat :=
  let l := s.candidates (taskUnit t.type) t.die
  if g.disputed.contains task then l.filter fun u => !(g.ranOn task).contains u else l

/-- The unit for a ready task. -/
def State.pickUnit (s : State) (g : GraphRun) (run task : Nat) (img : List Byte) : Option Nat :=
  let t := graphTask img task
  let l := s.taskCandidates g task t
  if taskUnit t.type = 1 then s.bestArray l run t img g.attempt else l.head?

/-- The bytes a RELAY task sends to destination d: that position of its source. -/
def State.planeBytes (s : State) (d : Desc) : List Byte :=
  (List.range d.rows).flatMap (fun r => s.load (d.rowAt r) d.rowBytes) ++
    (if elemMx d.elem then (List.range d.rows).flatMap fun r => s.load (d.scale + r * d.scaleRow) d.blocks else [])

/-- The ranges a SEALED_GET's data lands in: rows of the position, then scales. -/
def Desc.planeRanges (d : Desc) : List (Nat × Nat) :=
  ((List.range d.rows).map fun r => (d.rowAt r, d.rowBytes)) ++
    (if elemMx d.elem then (List.range d.rows).map fun r => (d.scale + r * d.scaleRow, d.blocks) else [])

/-- Destinations in serving order: from the sender's own number in the list, plus 1, onward (R437). -/
def servingOrder (dests : List Nat) (rank : Nat) : List (Nat × Nat) :=
  let own := (firstIdx (fun r => r == rank) 0 dests).getD (dests.length - 1)
  let l := dests.zipIdx
  l.drop (own + 1) ++ l.take (own + 1)

/-- Start a RELAY task as one rank: packets to ranks elsewhere. Ranks this module holds are served by `here` (R422). -/
def State.startRelayTask (s : State) (run task : Nat) (here : Nat → Nat → Nat → State → State) : State :=
  match s.graphRun run with
  | none => s
  | some g =>
    match g.job.bind (fun slot => Tab.look s.job.jobs slot) with
    | none => s
    | some j =>
      let img := s.runImage g
      let t := graphTask img task
      let src := graphDesc img (relayDesc t)
      let owner : OpOwner := .task run task
      if (relayDests t).any fun r => decide (j.rankCount ≤ r) then s.blameRun run Status.graphUnavailable 0
      else
        j.ranks.foldl (fun s rank =>
          let o := j.origin g.step g.attempt rank
          (servingOrder (relayDests t) rank).foldl (fun s x =>
            if j.ranks.contains x.1 then here rank x.1 x.2 s
            else
              let peer := s.rankModule j x.1
              let d := src.position x.2
              match relayOp t with
              | 1 => s.slotPut owner peer (relayClass t) (relaySlot t) o (s.planeBytes d)
              | 2 => s.sealedPut owner peer (relayClass t) (relayRegion t) (relayOffset t) o (s.planeBytes d)
              | 3 => s.sealedGet owner peer (relayClass t) (relayRegion t) (relayOffset t)
                  (d.planeRanges.foldl (fun n r => n + r.2) 0) o d.planeRanges
              | 4 => s.signal owner peer (relaySlot t) o 4 0 0
              | _ => s.fenceOp owner peer o) s) s

/-- Transfers of 16 KiB that a task's operands take, for units other than a tile's array. -/
def operandTransfers (img : List Byte) (t : Task) : Nat := (operandRanges img t).foldl (fun n r => n + ceilDiv r.len 16384) 0

/-- A task that is granted again starts its gather and its packets anew. Packets of its earlier placement go on until they
are acknowledged, and nothing waits for them any more (R439). -/
def State.forsake (s : State) (run task : Nat) : State :=
  let s := match s.taskGather run task with
    | some (key, _) =>
      let own := s.emb.requests.filter fun (q : Nat × GatherReq) => q.2.own != some key
      { s with emb := { s.emb with gathers := Tab.del s.emb.gathers key, requests := own } }
    | none => s
  let free := fun (_ : Nat) (o : RelayOp) => if o.owner = .task run task then { o with owner := .nobody } else o
  s.setRelay { s.relay with ops := Tab.mapVal free s.relay.ops }

/-- Give a task to a unit: its entry, its transfers, and for a gather or a relay task its traffic. -/
def State.grantTo (s : State) (run task unit : Nat) (here : Nat → Nat → Nat → State → State) : State :=
  match s.graphRun run, s.runTask run task with
  | some g, some t =>
    let img := s.runImage g
    let r := graphTask img task
    let s := s.setTask run task { t with place := .granted unit }
    let s := s.setGraph { s.graph with
      units := Tab.put s.graph.units unit (s.entries unit ++ [(run, task, t.gen, g.attempt)]) }
    let n := if r.type = 1 then s.fillHalves unit run g.attempt r img else (s, operandTransfers img r)
    let s := n.1.startTransfers unit n.2
    let s := s.forsake run task
    if r.type = 3 then s.startGatherTask run task t.gen
    else if r.type = 5 then s.startRelayTask run task here
    else s
  | _, _ => s

/-- The array held for the consumer of a DIRECT gather (R340). -/
def State.holdDirect (s : State) (run task : Nat) : Option State :=
  match s.graphRun run with
  | none => some s
  | some g =>
    let img := s.runImage g
    let t := graphTask img task
    if t.type = 3 ∧ gatherDirect t then
      match (taskConsumers img t).head? with
      | none => some s
      | some c =>
        let r := graphTask img c.1
        match s.bestArray (s.taskCandidates g c.1 r) run r img g.attempt with
        | none => none
        | some u =>
          let gen := match Tab.look g.tasks c.1 with
            | some x => x.gen
            | none => 0
          let s := s.setGraphRun run { g with direct := g.direct ++ [(task, c.1, unitIndex u)] }
          some (s.setGraph { s.graph with units := Tab.put s.graph.units u (s.entries u ++ [(run, c.1, gen, g.attempt)]) })
    else some s

/-- The first task of a list that a dispatcher may grant to a unit of a type, with its unit. -/
def State.pickTask (s : State) (ty : Nat) : List (Nat × Nat) → Option (Nat × Nat × Nat)
  | [] => none
  | e :: l =>
    match s.graphRun e.1 with
    | none => s.pickTask ty l
    | some g =>
      let img := s.runImage g
      if taskUnit (graphTask img e.2).type = ty ∧ s.commitTurn g img e.2 then
        match s.pickUnit g e.1 e.2 img with
        | some u => some (e.1, e.2, u)
        | none => s.pickTask ty l
      else s.pickTask ty l

/-- A duplicate waits: the oldest of the highest priority on a die, with the lowest free array other than the first (R313). -/
def State.pickDup (s : State) (die : Nat) : Option (Nat × DupRun × Nat) :=
  let all := s.graph.runs.flatMap fun e => (e.2.dups.filter fun d => d.on.isNone).map fun d => (e.1, d)
  (List.range 8).reverse.findSome? fun p => all.findSome? fun x =>
    let t := s.taskRecord x.1 x.2.task
    if t.prio = p ∧ t.die = die then
      ((s.candidates 1 die).find? fun u => u != x.2.first).map fun u => (x.1, x.2, u)
    else none

/-- Refuse to run a task that would let protected data out (R488). -/
def State.flowFault (s : State) (run : Nat) : State :=
  match s.graphRun run with
  | none => s
  | some g => match g.cmd with
    | none => s.blameRun run Status.protectedRegion 0
    | some _ => s.onGraphRun run fun g => { g with stopped := true }

/-! ## Ends of runs (R319, R321) -/

/-- Take the work of a run out of the stores, lists and units. -/
def State.clearRun (s : State) (run : Nat) : State :=
  let g := s.graph
  let held := match s.graphRun run with
    | some r => r.heldTokens
    | none => []
  let mine := fun (u : Nat) => (s.entries u).any fun e => e.1 == run
  let s := s.setGraph { g with
    tokens := g.tokens.filter fun k => k.run != run
    ready := (Tab.mapVal (fun _ (l : List (Nat × Nat)) => l.filter fun e => e.1 != run) g.ready).filter fun e => !e.2.isEmpty
    crowded := g.crowded.filter fun e => e.1 != run
    units := (Tab.mapVal (fun _ (l : List (Nat × Nat × Nat × Nat)) => l.filter fun e => e.1 != run) g.units).filter
      fun e => !e.2.isEmpty
    transfers := (Tab.mapVal (fun u (x : Nat × Nat) => if mine u then (x.1, 0) else x) g.transfers).filter
      fun e => e.2 != (0, 0)
    holds := held.foldl (fun l k => l.erase k.unit) g.holds
    prefetch := g.prefetch.filter fun e => e.1 != run }
  let keys := (s.emb.gathers.filter fun e => e.2.run.any fun x => x.1 == run).map fun e => e.1
  let s := keys.foldl (fun t k => t.dropGather k) s
  s.dropOps fun _ o => match o.owner with
    | .task r _ => r == run
    | _ => false

/-- Take every trace of a run away. -/
def State.dropRun (s : State) (run : Nat) : State :=
  let s := s.clearRun run
  (s.setGraph { s.graph with runs := Tab.del s.graph.runs run }).retireVersions

/-- The command of a GRAPH_RUN. -/
def State.runCommand (s : State) (run : Nat) : Option RunOp := s.running.find? fun o => o.kind == .graphRun run

/-- A GRAPH_RUN ends. -/
def State.endRun (s : State) (run : Nat) (st : Status) (detail : Nat) : State :=
  match s.runCommand run with
  | some o => ((s.dropRun run).finish o st detail).wake
  | none => s

def GraphRun.acceptedCount (g : GraphRun) : Nat := (g.tasks.filter fun e => e.2.place == .accepted).length

/-- A stopped GRAPH_RUN ends once its granted tasks have finished (R321, R488). -/
def State.settleRun (s : State) (run : Nat) : State :=
  match s.graphRun run, s.runCommand run with
  | some g, some o =>
    let granted := g.tasks.any fun e => match e.2.place with
      | .granted _ => true
      | _ => false
    if g.acceptedCount = graphTasks (s.runImage g) then s.endRun run Status.ok g.acceptedCount
    else if g.stopped ∧ !granted then
      if o.aborted then (s.spoilGraph (s.runImage g)).endRun run Status.aborted g.acceptedCount
      else s.endRun run Status.protectedRegion g.acceptedCount
    else s
  | _, _ => s

end Sys2Proof.Machine
end

