-- ==== Sys2Proof/Machine/Landing.lean ====
section
/-! DEFINITION. Landings (R419 to R423): positions, planes, watermarks, completion, and what a sending module does for
destination ranks it holds itself. -/

namespace Sys2Proof.Machine

/-- What becomes of a payload or an operation at its receiver. -/
inductive Fate where
  | placed
  | nak (n : Nak) (detail : Nat)
  deriving DecidableEq, Repr

/-- The running graph of a job's step. -/
def State.stepRunOf (s : State) (slot : Nat) : Option (Nat × GraphRun) :=
  s.graph.runs.find? fun e => e.2.job == some slot && e.2.cmd.isNone

/-- Payloads the bitmap of an open plane covers beyond its watermark, and entries of the open-plane table (R409, R420). -/
def planeWindow : Nat := 2048 * 4096
def planeTable : Nat := 16384

/-- The position that a sender's plane fills in a GRAPH landing (R419). -/
def landingPosition (d : Desc) (h rank : Nat) : Nat := if d.rank ≤ 1 then 0 else rank / 2 ^ h % d.ext (d.rank - 1)

/-- Bytes of one position. -/
def planeSize (d : Desc) (p : Nat) : Nat := ((d.position p).planeRanges).foldl (fun n r => n + r.2) 0

/-- Advance a watermark over the payloads that lie next to it. -/
def OpenPlane.settle : Nat → OpenPlane → OpenPlane
  | 0, x => x
  | k + 1, x =>
    match x.marks.find? fun m => m.1 == x.watermark with
    | some m => OpenPlane.settle k { x with watermark := x.watermark + m.2, marks := x.marks.erase m }
    | none => x

/-- Take in a payload's place. -/
def OpenPlane.mark (x : OpenPlane) (off n : Nat) : OpenPlane :=
  OpenPlane.settle (x.marks.length + 1) { x with marks := x.marks ++ [(off, min n (x.total - off))] }

def OpenPlane.holds (x : OpenPlane) (off : Nat) : Bool := decide (off < x.watermark) || x.marks.any fun m => m.1 == off

/-- The plane is one of a job's attempt. -/
def OpenPlane.is (x : OpenPlane) (job : Word) (step attempt slot position : Nat) : Bool :=
  x.job == job && x.step == step && x.attempt == attempt && x.slot == slot && x.position == position

/-- Which landing of its own a slot number is for the gathers of a graph: requests or responses (R330, R335). -/
def gatherLanding (img : List Byte) (slot : Nat) : Option (Nat × Bool) :=
  ((graphTaskList img).zipIdx).findSome? fun x =>
    if x.1.type = 3 ∧ gatherSlot x.1 = slot then some (x.2, false)
    else if x.1.type = 3 ∧ gatherSlot x.1 + 1 = slot then some (x.2, true)
    else none

/-- Landings of EMB_GATHER: COMMAND landings with bit 30 set; bit 0 tells responses from requests. -/
def embLanding (slot : Nat) : Bool := decide (3 * 2 ^ 30 ≤ slot) && decide (slot < 2 ^ 32 - 1)

/-- Requests of a complete plane are queued to be served, unless a slice lacks the version they name (R347). -/
def State.takeRequests (s : State) (x : OpenPlane) (peer : Nat) : State × Fate :=
  let l := splitRequests x.image.length x.image
  match l.find? fun b => (s.requestTarget b).isNone with
  | some b => (s.bump Reg.gatVersionRefused 1, .nak .versionAbsent (reqTable b))
  | none =>
    (l.foldl (fun t b => t.queueRequest ⟨none, peer, x.job, x.step, x.attempt, x.rank, x.slot, b, []⟩) s, .placed)

/-- A complete response lands in the gather that waits for it. -/
def State.takeResponse (s : State) (x : OpenPlane) (task : Option Nat) (run : Nat) : State :=
  let key := match task with
    | some t => (s.taskGather run t).map fun e => e.1
    | none => some ((x.slot - 3 * 2 ^ 30) / 2)
  match key with
  | some k => s.landSlice k (leField x.image 2 1) (x.image.drop 64)
  | none => s

/-- A fault of a plane makes the receiving rank vote FAIL with TEST_FAIL (R420). -/
def State.planeFault (s : State) (slot : Nat) : State :=
  (s.bump Reg.arrExcessTokens 1).onJob slot fun j => j.blame Status.testFail 0

/-- Where a plane of a landing goes: a descriptor's position, or a landing of a gather's own. -/
inductive LandKind where
  | data (d : Desc) (position : Nat)
  | requests
  | responses (task : Option Nat)
  deriving DecidableEq, Repr

def LandKind.position (k : LandKind) (rank : Nat) : Nat :=
  match k with
  | .data _ p => p
  | _ => rank

/-- Put a payload into an open plane. -/
def State.putPayload (s : State) (k : LandKind) (x : OpenPlane) (off : Nat) (bytes : List Byte) : State × OpenPlane :=
  let b := bytes.take (x.total - off)
  let y := x.mark off bytes.length
  match k with
  | .data d p => (s.scatterTo (targetPart (d.position p).planeRanges off b.length) b, y)
  | _ => (s, { y with image := overlay x.image off b })

/-- What a complete plane gives: a token for its landing, requests to serve, or a landed slice. -/
def State.planeComplete (s : State) (k : LandKind) (x : OpenPlane) (run peer : Nat) : State × Fate :=
  match k with
  | .data _ _ => (s.tokensFor run 3 fun e => e.desc == x.slot, .placed)
  | .requests => s.takeRequests x peer
  | .responses task => (s.takeResponse x task run, .placed)

/-- A payload of a SLOT_PUT reaches a landing of a job's step (R420). -/
def State.land (s : State) (jobSlot : Nat) (k : LandKind) (run peer : Nat) (b : Body) : State × Fate :=
  let total := leField b.block 0 8
  let off := leField b.block 8 8
  let position := k.position b.rank
  let size := match k with
    | .data d p => planeSize d p
    | _ => total
  let old := s.relay.planes.find? fun x => x.is b.job b.step b.attempt b.slot position
  let fresh : OpenPlane := ⟨b.job, b.step, b.attempt, b.slot, position, b.rank, total, 0, [],
    match k with
    | .data _ _ => []
    | _ => List.replicate total 0⟩
  let x := old.getD fresh
  if size < total ∨ x.total ≠ total ∨ x.rank ≠ b.rank then (s.planeFault jobSlot, .placed)
  else if x.holds off ∨ total ≤ off then
    (match k with
      | .responses _ => if x.watermark = total then s.bump Reg.gatDupResponses 1 else s
      | _ => s, .placed)
  else if x.watermark + planeWindow ≤ off then (s, .nak .notReady 0)
  else if old.isNone ∧ planeTable ≤ (s.relay.planes.filter fun p => decide (p.watermark < p.total)).length then
    (s, .nak .notReady 0)
  else
    let r := s.putPayload k x off b.payload
    let y := r.2
    let s := r.1.setRelay { r.1.relay with planes := y :: r.1.relay.planes.filter fun p => p != x }
    if y.watermark = total then s.planeComplete k y run peer else (s, .placed)

/-- The landing that a slot number names in a job's step graph (R419, R330); none where it names none. -/
def State.landKind (s : State) (g : GraphRun) (slot rank : Nat) : Option LandKind :=
  let img := s.runImage g
  match gatherLanding img slot with
  | some (_, false) => some .requests
  | some (t, true) => some (.responses (some t))
  | none =>
    if landingOk (graphDescs img) slot then
      let d := graphDesc img slot
      some (.data d (landingPosition d (graphDescFlags img slot % 32) rank))
    else none

/-! ## Sealed ranges (R423, R489) -/

/-- The range of a sealed operation lies wholly in one memory region that the job owns. -/
def State.sealedRange (s : State) (job : Word) (region off n : Nat) : Option Range :=
  match Tab.look s.memory.regions region with
  | none => none
  | some r => if r.owner = job ∧ off + n ≤ r.size then some ⟨r.base + off, n⟩ else none

/-! ## Destinations on this module (R422) -/

/-- What a RELAY task does for destination rank `dest`, number `d`, which this module holds. -/
def State.serveHere (run task : Nat) (rank _dest d : Nat) (s : State) : State :=
  match s.graphRun run with
  | none => s
  | some g =>
    match g.job.bind fun slot => (Tab.look s.job.jobs slot).map fun j => (slot, j) with
    | none => s
    | some (jobSlot, j) =>
      let img := s.runImage g
      let t := graphTask img task
      let src := (graphDesc img (relayDesc t)).position d
      let sealed_ := fun (n : Nat) => s.sealedRange j.id (relayRegion t) (relayOffset t) n
      match relayOp t with
      | 1 =>
        let data := s.planeBytes src
        let b := (j.origin g.step g.attempt rank).body 0 2 opcodeSlotPut (relaySlot t) (leBytes 8 data.length ++ leBytes 8 0) data
        match s.landKind g (relaySlot t) rank with
        | some k => (s.land jobSlot k run 0 b).1
        | none => s.planeFault jobSlot
      | 2 =>
        let data := s.planeBytes src
        match sealed_ data.length with
        | some r => s.store r.lo data
        | none => s.blameRun run Status.remoteAccess 0
      | 3 =>
        let n := src.planeRanges.foldl (fun n r => n + r.2) 0
        match sealed_ n with
        | some r => s.scatterTo src.planeRanges (s.load r.lo n)
        | none => s.blameRun run Status.remoteAccess 0
      | 4 => s.tokensFor run 3 fun e => e.desc == relaySlot t
      | _ => s

end Sys2Proof.Machine
end

