-- ==== Sys2Proof/Machine/Results.lean ====
section
/-! DEFINITION. Grants, results and parity errors of tasks (R50, R289, R292, R310, R313, R314, R444 to R449, R598), prefetch
copies (R316), served gather windows (R335), and GRAPH_RUN (R321). -/

namespace Sys2Proof.Machine

/-! ## TASK_GRANT (R310, R313, R447, R488) -/

/-- A task leaves its ready list. -/
def State.unready (s : State) (run task : Nat) : State :=
  let drop := fun (_ : Nat) (l : List (Nat × Nat)) => l.filter fun e => e != (run, task)
  s.setGraph { s.graph with ready := (Tab.mapVal drop s.graph.ready).filter fun e => !e.2.isEmpty }

/-- u of R447 for a task of a step. -/
def selectionHash (step task : Nat) (seed : Nat) : Nat :=
  (mix64 (BitVec.ofNat 64 (step * 2 ^ 18 + task)) (BitVec.ofNat 64 seed ^^^ 0xD0D0D0D0D0D0D0D0#64)).toNat

/-- A tile that runs on an array is chosen for duplication (R447): never a COMMIT task, a task of a GRAPH_RUN or a disputed
tile. -/
def State.chosenTile (s : State) (g : GraphRun) (t : Task) (task unit : Nat) : Bool :=
  match g.cmd, g.job.bind fun slot => Tab.look s.job.jobs slot with
  | none, some j =>
    let m := j.imageAt g.step
    let u := selectionHash g.step task (manSeed m)
    t.type == 1 && !t.commit && !g.disputed.contains task &&
      (u % 2 ^ manDupShift m == 0 || (s.observed unit && u % 4 == 0))
  | _, _ => false

/-- Grant a task to a unit. -/
def State.grantReady (s : State) (run task unit : Nat) : State :=
  match s.graphRun run with
  | none => s
  | some g =>
    let img := s.runImage g
    let t := graphTask img task
    if !s.flowOk g (s.taskReads img t) (taskWrites img t) then ((s.unready run task).flowFault run).settleRun run
    else match (s.unready run task).holdDirect run task with
      | none => s
      | some s =>
        let mark := fun (g : GraphRun) =>
          let l := g.selected.filter fun x => x != task
          { g with selected := if s.chosenTile g t task unit then l ++ [task] else l }
        (s.onGraphRun run mark).grantTo run task unit (State.serveHere run task)

/-- The generation that a duplicate's entry in a unit carries; it is no placement generation. -/
def dupGen : Nat := 256

/-- Grant the duplicate that waits first on a die. -/
def State.grantDup (s : State) (die : Nat) : State :=
  match s.pickDup die with
  | none => s
  | some (run, d, u) =>
    match s.graphRun run with
    | none => s
    | some g =>
      let g := { g with dups := g.dups.map fun x => if x = d then { x with on := some u } else x }
      let s := s.setGraphRun run g
      let img := s.runImage g
      let s := s.setGraph { s.graph with
        units := Tab.put s.graph.units u (s.entries u ++ [(run, d.task, dupGen, g.attempt)]) }
      let n := s.fillHalves u run g.attempt (graphTask img d.task) img
      n.1.startTransfers u n.2

/-- TASK_GRANT: the dispatcher of a home die grants the oldest task of a unit type from its highest-priority list, or the
duplicate that waits first. -/
def execTaskGrant (die ty : Nat) (dup : Bool) (s : State) : Host.Outcome State Fault Refusal :=
  .next (
    if dup then s.grantDup die
    else
      let l := (List.range 8).reverse.flatMap fun p => Tab.get [] s.graph.ready (die * 8 + p)
      match s.pickTask ty l with
      | some (run, task, u) => s.grantReady run task u
      | none => s)

/-! ## Parity errors (R444 to R446, R598) -/

/-- What an error is charged to. Data from host memory are charged to the unit that formed the access. -/
def ParityFail.charge (f : ParityFail) (unit die : Nat) : Charged :=
  match f with
  | .access a => (chargeOf a).getD (.unit unit)
  | .unit => .unit unit
  | .common => .common die

/-- The source accesses among a list of errors. -/
def parityAccesses (l : List ParityFail) : List Nat := l.filterMap fun f => match f with
  | .access a => some (a / 64 * 64)
  | _ => none

/-- The page of a job's committed state that a replica also holds: the replica's module, the memory region and the page's
offset in it (R446). -/
def State.replicaPage (s : State) (j : Job) (a : Nat) : Option (Nat × Nat × Nat) :=
  let page := a / 4096 * 4096
  let own := s.memory.regions.find? fun e =>
    e.2.owner == j.id && decide (e.1 < 4096) && (Range.mk page 4096).inside e.2.range
  let ways := manShards j.image
  let group := (List.range j.rankCount).filter fun r => r % ways == j.ranks.headD 0 % ways && !j.ranks.contains r
  match own, group.head? with
  | some e, some r => some (s.rankModule j r, e.1, page - e.2.base)
  | _, _ => none

/-- A source access of a job's step fails parity. The first failure makes its rank vote FAIL with PARITY_ERROR. When it fails
again the data is poisoned: its page is copied from a replica, or the rank votes FAIL with DATA_POISONED (R445, R446). -/
def State.jobParity (s : State) (slot a : Nat) : State :=
  match Tab.look s.job.jobs slot with
  | none => s
  | some j =>
    if !j.parity.contains a then s.setJob slot { j.blame Status.parityError 0 with parity := j.parity ++ [a] }
    else match s.replicaPage j a with
      | some (peer, region, off) =>
        let page := a / 4096 * 4096
        if s.relay.ops.any fun o => o.2.owner == .repair slot page then s
        else s.sealedGet (.repair slot page) peer 2 region off 4096 (j.origin j.next j.attempt (j.ranks.headD 0)) [(page, 4096)]
      | none => s.setJob slot { j.blame Status.dataPoisoned a with spoiled := some a }

/-- Count and charge parity errors. -/
def State.chargeAll (s : State) (l : List ParityFail) (unit die : Nat) : State :=
  l.foldl (fun t f => t.parity (some (f.charge unit die))) s

/-- The errors a unit meets: those that occur in this run, and every poisoned access of its sources. -/
def State.errorsMet (s : State) (g : GraphRun) (t : Task) (l : List ParityFail) : List ParityFail :=
  let reads := s.taskReads (s.runImage g) t
  l ++ ((s.memory.poisoned.filter fun a => reads.any fun r => r.meets ⟨a, 64⟩).eraseDups.map ParityFail.access)

/-- A task meets parity errors and its result is refused (R445). In a job step its rank votes FAIL; outside a step, and after
the COMMIT decision (R598), the task runs again once, and a GRAPH_RUN whose source fails again ends with DATA_POISONED. -/
def State.refuseResult (s : State) (run task : Nat) (l : List Nat) : State :=
  match s.graphRun run with
  | none => s
  | some g =>
    let again := (l.filter fun a => g.failed.contains a).head?
    let t := graphTask (s.runImage g) task
    match g.cmd, g.job with
    | none, some slot =>
      if t.commit then (s.onGraphRun run fun g => { g with failed := g.failed ++ l }).requeue run task
      else
        let s := match s.runTask run task with
          | some x => s.setTask run task { x with place := .waiting }
          | none => s
        if l.isEmpty then s.onJob slot fun j => j.blame Status.parityError 0 else l.foldl (fun t a => t.jobParity slot a) s
    | _, _ => match again with
      | some a => s.endRun run Status.dataPoisoned a
      | none => (s.onGraphRun run fun g => { g with failed := g.failed ++ l }).requeue run task

/-! ## Journals (R42, R460) -/

/-- A range of committed state is about to be overwritten by an apply: it is copied to the apply journal, and on its first
write after the mustered step to the muster journal, if that fits. -/
def State.journal (s : State) (slot lo len : Nat) : State :=
  match Tab.look s.job.jobs slot with
  | none => s
  | some j =>
    let old := s.load lo len
    let j1 := { j with applyJournal := j.applyJournal ++ [(lo, old)] }
    if len = 0 then s
    else if j.mustered = 0 ∨ !(Range.mk lo len).inModule ∨ j.musterJournal.any fun e => e.1 == lo && e.2.length == len then
      s.setJob slot j1
    else
      let j2 := { j1 with musterJournal := j1.musterJournal ++ [(lo, old)] }
      if j.holdSize < s.holdUsed slot j2 then s.setJob slot { j1 with journalLost := true } else s.setJob slot j2

/-! ## TASK_RESULT_OFFERED (R50, R292, R304, R313, R314, R447 to R449) -/

/-- A pending divider change of an array takes effect between two of its tasks (R292). -/
def State.dividerTurn (s : State) (unit : Nat) : State :=
  match Tab.look s.graph.dividerNext unit with
  | none => s
  | some d => s.setGraph { s.graph with
      divider := if d = 8 then Tab.del s.graph.divider unit else Tab.put s.graph.divider unit d
      dividerNext := Tab.del s.graph.dividerNext unit }

/-- A unit's running entry ends. -/
def State.endEntry (s : State) (unit : Nat) : State :=
  let l := (s.entries unit).drop 1
  (s.setGraph { s.graph with
    units := if l.isEmpty then Tab.del s.graph.units unit else Tab.put s.graph.units unit l }).dividerTurn unit

/-- A result that is not current is discarded and counted (R50). -/
def State.staleResult (s : State) (g : GraphRun) : State :=
  match g.job with
  | some slot => s.onJob slot fun j => { j with staleGen := satAdd j.staleGen 1 }
  | none => s.bump Reg.arrStaleResults 1

/-- The step digest seed of a run's job. -/
def State.runSeed (s : State) (g : GraphRun) : DWord :=
  match g.job.bind fun slot => Tab.look s.job.jobs slot with
  | some j => BitVec.ofNat 64 (manSeed (j.imageAt g.step))
  | none => 0

/-- Keep the digest of a run of a tile (R448). -/
def State.keepDigest (s : State) (run task array : Nat) (d : DWord) : State :=
  s.onGraphRun run fun g => { g with runs := g.runs ++ [(task, array, d)] }

/-- What an accepted task writes. -/
def State.taskEffect (s : State) (run : Nat) (g : GraphRun) (o : Offer) : State :=
  let img := s.runImage g
  let t := graphTask img o.task
  let array := unitIndex o.unit
  match t.type with
  | 1 =>
    let a := (s.tileAcc img t array).faulted o.bad
    let s := if g.selected.contains o.task ∨ g.disputed.contains o.task then
        s.keepDigest run o.task array (a.digest o.task (s.runSeed g))
      else s
    s.storeTile img t array a
  | 2 =>
    if t.report then
      let r := s.reportWords img t array
      match g.job with
      | some slot => r.1.onJob slot fun j => { j with words := r.2 }
      | none => r.1
    else s.storeVector img t array ((graphDesc img (vectorDst t)).on array)
  | 3 =>
    match s.taskGather run o.task with
    | some (key, _) => { s with emb := { s.emb with gathers := Tab.del s.emb.gathers key } }
    | none => s
  | 4 =>
    let x := selectBody t.raw 80
    match s.selectRows x (graphDesc img (t.slot 0).desc) (graphDesc img x.dst) (List.range x.rows) s 0 with
    | (r, _, none) => r
    | (r, _, some _) => (r.bump Reg.selMergeConflict 1).blameRun run Status.mergeConflict 0
  | _ => s

/-- The task has done all its work: its gather's slices have landed (R335), its relay packets are acknowledged (R437). -/
def State.workDone (s : State) (run task : Nat) : Bool :=
  (match s.taskGather run task with
    | some (key, g) => s.gatherDone key g
    | none => true) &&
  s.relay.ops.all fun e => e.2.owner != .task run task

/-- Accept a result: the slots are released, the consumers get their tokens, and a selected tile queues its duplicate. -/
def State.acceptResult (s : State) (run : Nat) (o : Offer) : State :=
  match s.graphRun run, s.runTask run o.task with
  | some g, some x =>
    let img := s.runImage g
    let t := graphTask img o.task
    let s := s.setTask run o.task { x with place := .accepted }
    let s := (taskConsumers img t).foldl (fun s c => s.token ⟨run, c.1, c.2, g.attempt, o.unit⟩) s
    let s := if t.type = 1 then
        s.setGraph { s.graph with tiles := Tab.put s.graph.tiles (unitIndex o.unit) (Tab.get 0 s.graph.tiles (unitIndex o.unit) + 1) }
      else s
    let s := if g.selected.contains o.task then
        s.onGraphRun run fun g => { g with dups := g.dups ++ [⟨o.task, o.unit, false, none⟩] }
      else s
    match s.runCommand run, s.graphRun run with
    | some c, some g =>
      let r := s.advance c.pkt g.acceptedCount c.total
      ({ r with running := r.running.map fun y => if y = c then { c with position := g.acceptedCount } else y } : State).settleRun run
    | _, _ => s
  | _, _ => s

/-- The result of a COMMIT task whose source data is poisoned: the commit completes, what it writes is undefined (R598). -/
def State.spoiledCommit (s : State) (run : Nat) (g : GraphRun) (o : Offer) (a : Nat) : State :=
  let img := s.runImage g
  let t := graphTask img o.task
  let s := (taskWrites img t).foldl (fun t r => t.scramble r.lo r.len) s
  let s := match g.job with
    | some slot => s.onJob slot fun j => { j with spoiled := some (j.spoiled.getD a) }
    | none => s
  s.acceptResult run o

/-- A current result of a task. -/
def State.takeResult (s : State) (run : Nat) (g : GraphRun) (o : Offer) : State :=
  let img := s.runImage g
  let t := graphTask img o.task
  let met := s.errorsMet g t o.parity
  let l := parityAccesses met
  let s := s.chargeAll met o.unit t.die
  match (l.filter fun a => g.failed.contains a).head? with
  | some a =>
    if t.commit ∧ g.cmd.isNone then s.spoiledCommit run g o a else s.refuseResult run o.task l
  | none =>
    if !met.isEmpty then s.refuseResult run o.task l
    else
      let s := match t.commit, g.job with
        | true, some slot => (taskWrites img t).foldl (fun (x : State) (r : Range) => x.journal slot r.lo r.len) s
        | _, _ => s
      (s.taskEffect run g o).acceptResult run o

/-- The digest of a duplicate run (R448). A parity error makes the rank vote FAIL as that of a task does. -/
def State.takeDup (s : State) (run : Nat) (g : GraphRun) (o : Offer) : State :=
  let img := s.runImage g
  let t := graphTask img o.task
  let met := s.errorsMet g t o.parity
  let s := s.chargeAll met o.unit t.die
  let s := s.onGraphRun run fun g => { g with dups := g.dups.filter fun d => !(d.task == o.task && d.on == some o.unit) }
  if met.isEmpty then
    let a := (s.tileAcc img t (unitIndex o.unit)).faulted o.bad
    (s.keepDigest run o.task (unitIndex o.unit) (a.digest o.task (s.runSeed g))).bump Reg.intDupTiles 1
  else match g.job with
    | none => s
    | some slot =>
      let l := parityAccesses met
      if l.isEmpty then s.onJob slot fun j => j.blame Status.parityError 0 else l.foldl (fun t a => t.jobParity slot a) s

/-- TASK_RESULT_OFFERED: a unit whose transfers are done offers what its running entry computed. A result whose attempt or
generation is not the task's current one is discarded. -/
def execTaskResultOffered (r : Offer) (s : State) : Host.Outcome State Fault Refusal :=
  .next (
    match s.graphRun r.run with
    | none => s
    | some g =>
      let gen := if r.dup then dupGen else r.gen
      let held := (s.entries r.unit).head? == some (r.run, r.task, gen, r.attempt)
      let current : Bool := match Tab.look g.tasks r.task with
        | some t => t.gen == r.gen && g.attempt == r.attempt
        | none => false
      if !held then (if r.dup || current then s else s.staleResult g)
      else if (Tab.look s.graph.transfers r.unit).isSome ∨ s.graph.holds.contains r.unit then s
      else if r.dup then if g.attempt = r.attempt then (s.endEntry r.unit).takeDup r.run g r else s.endEntry r.unit
      else if !current then (s.endEntry r.unit).staleResult g
      else if (s.runTask r.run r.task).any fun t => t.place == .granted r.unit then
        if s.workDone r.run r.task then (s.endEntry r.unit).takeResult r.run g r else s
      else s)

/-! ## PREFETCH_COPY_COMPLETE (R316) -/

/-- The copies a die's engines may have under way: 8 engines with 4 transfers each, in admission order. -/
def State.prefetchUnderWay (s : State) (die : Nat) : List (Nat × Nat × Nat) :=
  (s.graph.prefetch.filter fun e => (s.taskRecord e.1 e.2.1).die == die).take 32

/-- PREFETCH_COPY_COMPLETE: a copy under way completes and its token is delivered. A source that fails parity is handled as
for its task. -/
def execPrefetchCopyComplete (n : Nat) (s : State) : Host.Outcome State Fault Refusal :=
  .next (
    match s.graph.prefetch[n]? with
    | none => s
    | some e =>
      match s.graphRun e.1 with
      | none => s
      | some g =>
        let img := s.runImage g
        let t := graphTask img e.2.1
        let x := t.slot e.2.2
        let src := graphDesc img x.desc
        let dst := graphDesc img (x.desc + 1)
        if !(s.prefetchUnderWay t.die).contains e then s
        else match s.poisonedIn [src.footprint, src.scaleRange] with
          | some a =>
            let s := s.parity (chargeOf a)
            match g.cmd, g.job with
            | none, some slot =>
              (s.setGraph { s.graph with prefetch := s.graph.prefetch.eraseIdx n }).jobParity slot a
            | _, _ => if g.failed.contains a then s.endRun e.1 Status.dataPoisoned a
              else s.onGraphRun e.1 fun g => { g with failed := g.failed ++ [a] }
          | none =>
            let s := (s.setGraph { s.graph with prefetch := s.graph.prefetch.eraseIdx n }).copyTensor false src dst
            s.token ⟨e.1, e.2.1, e.2.2, g.attempt, 0xFFFF⟩)

/-! ## GATHER_WINDOW_SERVED (R335) -/

/-- The rows a window reads, and the first of their accesses that is poisoned. -/
def State.windowPoison (s : State) (q : GatherReq) (w : Nat) : Option Nat :=
  match s.requestTarget q.data with
  | none => none
  | some (_, x, v) =>
    let n := min 4096 (reqCount q.data - 4096 * w)
    s.poisonedIn ((List.range n).map fun i => ⟨x.rowAt v (reqRow q.data x.rows (4096 * w + i)), x.width⟩)

/-- A window met poisoned rows (R445, R446). -/
def State.windowParity (s : State) (q : GatherReq) (a : Nat) : State :=
  let s := s.parity (chargeOf a)
  let own := q.own.bind fun k => Tab.look s.emb.gathers k
  match own.bind fun g => g.cmd, own.bind fun g => g.run with
  | some c, _ =>
    match s.running.find? fun (o : RunOp) => o.pkt.ring == c.1 && o.pkt.seq == c.2 && (match o.kind with
      | .embGather _ => true
      | _ => false) with
    | some o => (((s.parity (chargeOf a)).dropGather (q.own.getD 0)).finish o Status.dataPoisoned a).retireVersions
    | none => s
  | none, some r =>
    match (s.graphRun r.1).bind fun g => if g.cmd.isNone then g.job else none with
    | some slot => s.jobParity slot a
    | none => (s.parity (chargeOf a)).endRun r.1 Status.dataPoisoned a
  | none, none => match s.findJob q.job with
    | some (slot, _) => s.jobParity slot a
    | none => s

/-- Every EMB_GATHER whose slices have all landed completes (R350). -/
def State.settleGathers (s : State) : State :=
  (s.emb.gathers.filter fun e => e.2.cmd.isSome).foldl (fun t e =>
    match Tab.look t.emb.gathers e.1, t.running.find? fun (o : RunOp) => o.kind == .embGather e.1 with
    | some g, some o =>
      if t.gatherDone e.1 g then (((t.dropGather e.1).finish o Status.ok g.accesses).retireVersions).wake else t
    | _, _ => t) s

/-- GATHER_WINDOW_SERVED: a gather unit finishes a window of a request served here. -/
def execGatherWindowServed (id w : Nat) (s : State) : Host.Outcome State Fault Refusal :=
  .next (
    match Tab.look s.emb.requests id with
    | none => s
    | some q =>
      if (s.unfenced 4).isEmpty then s
      else match s.windowPoison q w with
        | some a => s.windowParity q a
        | none => (s.serveWindow id w).settleGathers)

/-! ## GRAPH_RUN (R308, R321) -/

/-- The slot budgets of the graphs running on each die leave room for another image (R308). -/
def State.budgetRoom (s : State) (img : List Byte) : Bool :=
  [0, 1].all fun die =>
    decide ((s.graph.runs.foldl (fun n e => n + graphBudget (s.runImage e.2) die) 0) + graphBudget img die ≤ 16384)

/-- The versions a batch of a graph binds to: for each table its GATHER tasks read, the CURRENT version of each slice held
here (R345). -/
def State.bindVersions (s : State) (img : List Byte) : List (Nat × Nat) :=
  let tables := ((graphTaskList img).filter fun t => t.type == 3).map gatherTable
  s.emb.slices.filterMap fun e =>
    if tables.contains (e.1 / 64) then e.2.current.map fun v => (e.1, v.number) else none

/-- A new run of a graph. -/
def State.newRun (s : State) (g : GraphRun) : State :=
  s.setGraph { s.graph with runs := Tab.put s.graph.runs s.graph.nextRun g, nextRun := s.graph.nextRun + 1 }

def State.graphImage (s : State) (slot : Nat) : List Byte :=
  match Tab.look s.graph.graphs slot with
  | some g => g.image
  | none => []

/-- A graph that GRAPH_RUN may run. -/
def runnableAlone (img : List Byte) : Bool :=
  graphPrepares img == 0 && (graphTaskList img).all fun t =>
    !t.commit && !t.report && t.type != 5 && t.slots.all fun x => !([3, 4, 5].contains x.source)

def graphRunCommand : Command where
  code := 0x0503
  lens := fun n => n == 1
  job := .param 4
  params := fun s p =>
    lowestFail [need (decide (p.param 0 1 ≤ 31) && (Tab.look s.graph.graphs (p.param 0 1)).isSome &&
        runnableAlone (s.graphImage (p.param 0 1))) 64,
      p.zeros 65 3,
      need (p.job == noJob || (s.findJob p.job).any fun e => e.2.state == .idle) 68, p.zeros 72 56]
  uses := fun s p => graphUses (s.graphImage (p.param 0 1))
  ready := fun s p => s.budgetRoom (s.graphImage (p.param 0 1))
  unit := 0
  total := fun s p => graphTasks (s.graphImage (p.param 0 1))
  effect := fun p s =>
    let img := s.graphImage (p.param 0 1)
    let job := s.findJob p.job
    let run := s.graph.nextRun
    let g : GraphRun := ⟨p.param 0 1, job.map fun e => e.1, some (p.ring, p.seq), (job.map fun e => e.2.next).getD 0, 0, false,
      false, [], [], [], [], [], [], s.bindVersions img, [], []⟩
    (s.newRun g).enroll p (.graphRun run) (graphUses img) (graphTasks img)

/-- GRAPH_RUN. -/
def execGraphRun (p : Packet) (s : State) : Host.Outcome State Fault Refusal := .next (graphRunCommand.start p s)

end Sys2Proof.Machine
end

