-- ==== Sys2Proof/Machine/Embeddings.lean ====
section
/-! DEFINITION. Embedding tables: EMB_TABLE_CREATE, EMB_VERSION_LOAD, EMB_VERSION_PUBLISH, EMB_GATHER and EMB_TABLE_DESTROY
(R325 to R329, R344 to R351, R498). -/

namespace Sys2Proof.Machine

/-! ## EMB_TABLE_CREATE (R329) -/

/-- The section 3 entry of the job that the packet names. -/
def State.packetEntry (s : State) (p : Packet) (table : Nat) : Option (List Byte) :=
  (s.findJob p.job).bind fun e => e.2.tableEntry table

/-- A rank this module holds owns the slice (R326). -/
def State.ownsSlice (s : State) (p : Packet) (slice group : Nat) : Bool :=
  match s.findJob p.job with
  | some (_, j) => j.ranks.any fun r => r % group == slice
  | none => true

def embTableCreateCommand : Command where
  code := 0x0601
  lens := fun n => n == 1
  job := .param 8
  params := fun s p =>
    let table := p.param 0 2
    let group := p.param 4 2
    let entry := s.packetEntry p table
    let agrees := fun (o n : Nat) (v : Nat) => p.job == noJob || (match entry with
      | some e => leField e o n == v
      | none => false)
    let elems := p.param 24 4
    let width := sliceWidth (p.param 3 1) elems group
    lowestFail [need (decide (table ≤ 1023) && (p.job == noJob || entry.isSome)) 64,
      need (decide (p.param 2 1 < max 1 group) && decide (p.param 2 1 < 64) &&
        (s.embSlice (sliceKeyOf table (p.param 2 1))).isNone && s.ownsSlice p (p.param 2 1) (max 1 group)) 66,
      need (embElem (p.param 3 1) && agrees 2 1 (p.param 3 1)) 67,
      need (isPow2 group && decide (group ≤ 64) && agrees 4 2 group) 68,
      need (decide (p.param 6 1 < 2) && agrees 3 1 (p.param 6 1)) 70, p.zeros 71 1, p.zeros 76 4,
      need (decide (1 ≤ p.param 16 8) && decide (p.param 16 8 ≤ 2 ^ 40) && agrees 8 8 (p.param 16 8)) 80,
      need (elems % max 1 group == 0 && decide (1 ≤ width) && width % 64 == 0 && decide (width ≤ 16384) && agrees 16 4 elems) 88,
      p.zeros 92 36]
  own := fun s _ => demand (decide (s.emb.slices.length < 1024)) Status.tableFull 64
  effect := fun p s =>
    let x : Slice := ⟨p.param 3 1, p.param 4 2, bitOf (p.param 6 1) 0, p.job, p.param 16 8, p.param 24 4, [], 0⟩
    let emb := { s.emb with slices := Tab.put s.emb.slices (sliceKeyOf (p.param 0 2) (p.param 2 1)) x }
    ({ s with emb := emb } : State).complete p Status.ok 0 0 0

/-- EMB_TABLE_CREATE. -/
def execEmbTableCreate (p : Packet) (s : State) : Host.Outcome State Fault Refusal := .next (embTableCreateCommand.start p s)

/-! ## EMB_VERSION_LOAD (R344, R348) -/

def versionSliceKey (p : Packet) : Nat := sliceKeyOf (p.param 0 2) (p.param 2 1)
def versionDest (p : Packet) : Range := ⟨p.param 24 8, p.param 32 8⟩

/-- The rows of the source in module memory or the host window; a peer's and a storage node's are read over the relay. -/
def versionSource (p : Packet) (x : Slice) : Range :=
  let n := (x.rows - 1) * p.param 40 8 + x.width
  if p.param 3 1 = 1 then ⟨p.param 8 8, n⟩
  else if p.param 3 1 = 2 then ⟨hostWindow + p.param 8 8, n⟩
  else ⟨0, 0⟩

def versionUses (s : State) (p : Packet) : List Use :=
  match s.embSlice (versionSliceKey p) with
  | some x => [⟨72, versionSource p x, false⟩, ⟨88, versionDest p, true⟩]
  | none => []

/-- The version's slot: the lowest free of four. -/
def freeVslot (l : List Version) : Nat :=
  ((List.range 4).find? fun k => !l.any fun v => v.vslot == k).getD 0

/-- Copy the rows in ascending order. -/
def State.copyRows (s : State) (v : State) (p : Packet) (x : Slice) : State :=
  (List.range x.rows).foldl (fun t r =>
    t.store (p.param 24 8 + r * x.width) (v.load (p.param 8 8 + r * p.param 40 8) x.width)) s

def embVersionLoadCommand (fetched : Option (Tab Byte)) : Command where
  code := 0x0602
  lens := fun n => n == 2
  job := .optional
  params := fun s p =>
    let source := p.param 3 1
    let x := s.embSlice (versionSliceKey p)
    let bytes := match x with
      | some x => x.rows * x.width
      | none => 0
    let width := match x with
      | some x => x.width
      | none => 64
    lowestFail [need (decide (p.param 0 2 ≤ 1023) && !(s.tableSlices (p.param 0 2)).isEmpty) 64,
      need (decide (p.param 2 1 < 64) && x.isSome) 66, need (decide (1 ≤ source ∧ source ≤ 4)) 67,
      need (decide (1 ≤ p.param 4 4) && decide (p.param 4 4 ≤ 0xFFFFFFFE) && x.all fun y => decide (y.highest < p.param 4 4)) 68,
      need (if 3 ≤ source then p.param 16 4 != 0xFFFFFFFF else p.param 16 4 == 0xFFFFFFFF) 80,
      need (source == 4 || p.param 20 4 == 0) 84,
      need (p.param 24 8 % 4096 == 0 && (versionDest p).inHbm) 88,
      need (p.param 32 8 % 4096 == 0 && decide (bytes ≤ p.param 32 8)) 96,
      need (p.param 40 8 % 64 == 0 && decide (width ≤ p.param 40 8)) 104, p.zeros 112 80]
  uses := versionUses
  overlaps := fun s p => match s.embSlice (versionSliceKey p) with
    | some x => need (!(versionSource p x).meets (versionDest p)) 88
    | none => none
  security := fun s p => match s.embSlice (versionSliceKey p) with
    | none => none
    | some x =>
      let src := versionSource p x
      let same := if p.param 3 1 = 1 then s.sameProtection src (versionDest p) else !s.protectedHit (versionDest p)
      demand same Status.protectedRegion (if s.protectedHit (versionDest p) then 88 else 72)
  own := fun s p => demand ((s.embSlice (versionSliceKey p)).all fun x => decide (x.versions.length < 4)) Status.tableFull 66
  unit := 2
  total := fun s p => ((s.embSlice (versionSliceKey p)).map fun x => x.rows).getD 0
  effect := fun p s =>
    match s.embSlice (versionSliceKey p) with
    | none => s
    | some x =>
      let d := versionDest p
      if 3 ≤ p.param 3 1 ∧ fetched.isNone then (s.scramble d.lo d.len).complete p Status.peerUnreachable 0 0 x.rows
      else s.orPoisoned p [versionSource p x] (fun t => t.scramble d.lo d.len) fun s =>
        let v : Version := ⟨p.param 4 4, .loaded, d.lo, d.len, freeVslot x.versions⟩
        let y := { x with versions := x.versions ++ [v], highest := p.param 4 4 }
        let s := s.copyRows (sourceView s (p.param 3 1) (fetched.getD [])) p x
        let s := { s with emb := { s.emb with slices := Tab.put s.emb.slices (versionSliceKey p) y } }
        (s.guard .version (versionGuard (versionSliceKey p) v.vslot) d false).complete p Status.ok 0 x.rows x.rows

/-- EMB_VERSION_LOAD with the bytes that a peer or storage node returns. -/
def execEmbVersionLoad (p : Packet) (fetched : Option (List (Nat × Byte))) (s : State) : Host.Outcome State Fault Refusal :=
  .next ((embVersionLoadCommand fetched).start p s)

/-! ## EMB_VERSION_PUBLISH (R346, R349) -/

/-- A loaded version of a table becomes CURRENT in every slice held here (R344, R346, R372). -/
def State.makeCurrent (s : State) (table number : Nat) : State :=
  let turn := fun (v : Version) =>
    if v.number = number then { v with state := .current }
    else if v.state = .current then { v with state := .superseded }
    else v
  let move := fun (k : Nat) (x : Slice) =>
    if k / 64 = table ∧ x.versions.any fun v => v.number == number then { x with versions := x.versions.map turn } else x
  let s := { s with emb := { s.emb with slices := Tab.mapVal move s.emb.slices } }
  let s := (s.tableSlices table).foldl (fun t e => match e.2.current with
    | some v => if v.number = number ∧ e.2.hot then (t.hotRebuild 0 e.1 v.vslot).hotRebuild 1 e.1 v.vslot else t
    | none => t) s
  s.retireVersions

/-- The job that holds a table's slices here. -/
def State.tableJob (s : State) (table : Nat) : Option (Nat × Job) :=
  ((s.tableSlices table).head?).bind fun e => s.findJob e.2.job

/-- A job with no committed step that is not RUNNING publishes at once (R349). -/
def publishNow (j : Job) : Bool := j.next == 0 && j.state != .running

def embVersionPublishCommand : Command where
  code := 0x0603
  lens := fun n => n == 1
  job := .optional
  params := fun s p =>
    let l := s.tableSlices (p.param 0 2)
    let step := p.param 8 4
    lowestFail [need (decide (p.param 0 2 ≤ 1023) && !l.isEmpty) 64, p.zeros 66 2,
      need (l.all fun e => e.2.versions.any fun v => v.number == p.param 4 4 && v.state == .loaded) 68,
      need (match s.tableJob (p.param 0 2) with
        | none => true
        | some (_, j) => if publishNow j then step == 0 else decide (j.next + 1 ≤ step)) 72,
      p.zeros 76 52]
  effect := fun p s =>
    let table := p.param 0 2
    let s := match s.tableJob table with
      | none => s.makeCurrent table (p.param 4 4)
      | some (_, j) =>
        if publishNow j then s.makeCurrent table (p.param 4 4)
        else { s with emb := { s.emb with staged := Tab.put s.emb.staged table (p.param 4 4, p.param 8 4) } }
    (s.complete p Status.ok 0 0 0).wake

/-- EMB_VERSION_PUBLISH. -/
def execEmbVersionPublish (p : Packet) (s : State) : Host.Outcome State Fault Refusal :=
  .next (embVersionPublishCommand.start p s)

/-! ## EMB_GATHER (R347, R350) -/

def embPool (p : Packet) : Nat := p.param 2 1
def embWeighted (p : Packet) : Bool := bitOf (p.param 3 1) 0
def embCount (p : Packet) : Nat := p.param 8 4
def embBags (p : Packet) : Nat := p.param 12 4
def embOut (p : Packet) : Nat := p.param 16 1
def embDst (p : Packet) : Desc := p.desc 128
def State.embTable (s : State) (p : Packet) : Option (Nat × Slice) := (s.tableSlices (p.param 0 2)).head?

/-- The version an EMB_GATHER is bound to: the one it names, or the CURRENT one. -/
def State.embVersion (s : State) (p : Packet) : Option Nat :=
  if p.param 4 4 = 0xFFFFFFFF then s.currentVersion (p.param 0 2)
  else if (s.tableSlices (p.param 0 2)).all fun e => e.2.versions.any fun v => v.number == p.param 4 4 then some (p.param 4 4)
  else none

/-- The peer of a slice. -/
def State.embPeer (s : State) (p : Packet) (i : Nat) : Nat := s.loadNat (p.param 24 8 + 4 * i) 4

/-- Slices of the table that are held here. -/
def State.sliceHere (s : State) (p : Packet) (i : Nat) : Bool := (s.embSlice (sliceKeyOf (p.param 0 2) i)).isSome

def State.embGroup (s : State) (p : Packet) : Nat := ((s.embTable p).map fun e => e.2.group).getD 1

/-- The source ranges of an EMB_GATHER. -/
def State.embReads (s : State) (p : Packet) : List Use :=
  [⟨88, ⟨p.param 24 8, if p.param 24 8 = 0 then 0 else 4 * s.embGroup p⟩, false⟩, ⟨96, ⟨p.param 32 8, 8 * embCount p⟩, false⟩,
   ⟨104, ⟨p.param 40 8, if embPool p = 0 then 0 else 4 * (embBags p + 1)⟩, false⟩,
   ⟨112, ⟨p.param 48 8, if embWeighted p then 4 * embCount p else 0⟩, false⟩]

/-- The versions that are read here. -/
def State.embVersions (s : State) (p : Packet) : List Range :=
  (s.tableSlices (p.param 0 2)).flatMap fun e =>
    (e.2.versions.filter fun v => some v.number == s.embVersion p).map fun v => ⟨v.base, v.size⟩

/-- Where the gather's packets stand: a job table's in its job, and those to a table-store module under the store's job and
tag (R350, R412). -/
def State.embOrigin (s : State) (p : Packet) (m : Nat) : Origin :=
  match (s.tableJob (p.param 0 2)).orElse (fun _ => s.findJob p.job) with
  | none => ⟨List.replicate 8 0, noJob, 0, 0, 0⟩
  | some (_, j) =>
    let entry := fun (e : List Byte) => j.peerTable + 4 * j.rankCount + 8 * leField e 0 1
    let stores := match manSection j.image 4 with
      | some b => (storeEntries b).filter fun e => s.loadNat (entry e) 2 == m
      | none => []
    match stores.head? with
    | some e => ⟨slice e 8 8, BitVec.ofNat 32 (s.loadNat (entry e + 4) 4), 0, 0, j.ranks.headD 0⟩
    | none => j.origin j.next 0 (j.ranks.headD 0)

/-- Ask for the slices: own ones here, others of their peers. -/
def State.askStores (s : State) (p : Packet) (key : Nat) (a : GatherAsk) (elems : Nat) : State :=
  let l := List.range (s.embGroup p)
  let slot := 3 * 2 ^ 30 + 2 * key
  let g := s.embOrigin p 0x10000
  let own := l.filter fun i => s.sliceHere p i
  let s1 := own.foldl (fun t i =>
    t.queueRequest ⟨some key, 0, g.job, g.step, g.attempt, g.rank, slot, a.bytes i elems, []⟩) s
  let away := l.filter fun i => !s.sliceHere p i
  ((away.map fun i => s.embPeer p i).eraseDups).foldl (fun t m =>
    let mine := away.filter fun i => s.embPeer p i == m
    t.slotPut (.gather key) m 1 slot (s.embOrigin p m) (mine.flatMap fun i => a.bytes i elems)) s1

/-- Start the gather; the command waits for its slices. -/
def State.startEmbGather (s : State) (p : Packet) (number : Nat) (x : Slice) : State :=
  let d := embDst p
  let a : GatherAsk := ⟨p.param 0 2, number, embPool p, embWeighted p, false, embOut p, embCount p, embBags p, 0, 0,
    s.load (p.param 32 8) (8 * embCount p), if embPool p = 0 then [] else s.load (p.param 40 8) (4 * (embBags p + 1)),
    if embWeighted p then s.load (p.param 48 8) (4 * embCount p) else [], []⟩
  let elems := x.dim / x.group
  let probe := a.bytes 0 elems
  let bound := (s.tableSlices (p.param 0 2)).map fun e => (e.1, number)
  let op : GatherOp := ⟨none, some (p.ring, p.seq), 0, leBytes 8 d.base ++ slice p.bytes 136 120, elems,
    (elemBits (embOut p)).getD 32 / 8, embBags p, x.group, [], bound, 0⟩
  let key := s.emb.nextKey
  let s := (s.bump Reg.gatBadOffsets (reqBadOffsets probe)).bump Reg.cntWrapGather (reqWraps probe x.rows)
  ((s.newGather op).enroll p (.embGather key) (s.embReads p ++ d.uses 128 true) 0).askStores p key a elems

def embGatherCommand : Command where
  code := 0x0604
  lens := fun n => n == 3
  job := .optional
  params := fun s p =>
    let d := embDst p
    let table := s.embTable p
    let idle := match s.tableJob (p.param 0 2) with
      | some (_, j) => j.state == .idle
      | none => true
    let allHere := (List.range (s.embGroup p)).all fun i => s.sliceHere p i
    let peerFail := if p.param 24 8 = 0 then none else
      (firstIdx (fun i => !s.sliceHere p i && (Tab.look s.relay.peers (s.embPeer p i)).isNone) 0 (List.range (s.embGroup p))).map
        fun i => (⟨Status.badParam, inStruct 88 (4 * i)⟩ : Fail)
    firstFail [lowestFail [need (decide (p.param 0 2 ≤ 1023) && table.isSome && idle) 64, need (decide (embPool p ≤ 3)) 66,
      need (decide (p.param 3 1 < 2)) 67, need (p.param 4 4 != 0) 68,
      need (decide (1 ≤ embCount p) && decide (embCount p ≤ 2 ^ 24)) 72,
      need (decide (1 ≤ embBags p) && decide (embBags p ≤ 2 ^ 24) && (embPool p != 0 || embBags p == embCount p)) 76,
      need (embOut p == 0x0D || embOut p == 0x0B) 80, p.zeros 81 7, need (p.param 24 8 != 0 || allHere) 88,
      need ((embPool p == 0) == (p.param 40 8 == 0)) 104, need ((!embWeighted p) == (p.param 48 8 == 0)) 112, p.zeros 120 8,
      p.descFail 128, need (d.rank == 2) 137, need (table.all fun e => d.ext 0 == e.2.dim) 144,
      need (d.ext 1 == embBags p) 148], peerFail]
  aligns := fun _ p => p.alignFail 128
  uses := fun s p => s.embReads p ++ (s.embVersions p).map (fun r => ⟨64, r, false⟩) ++ (embDst p).uses 128 true
  overlaps := fun s p => firstFail [clashFail ((s.embReads p).map fun u => u.range) ((embDst p).uses 128 true), p.aliasFail 128]
  types := fun _ p => demand ((embDst p).elem == embOut p) Status.typeMismatch 136
  security := fun s p =>
    let secret := (s.embVersions p).filter fun r => s.protectedHit r
    if secret.isEmpty then s.openFail (s.embReads p ++ (embDst p).uses 128 true)
    else firstFail [demand (secret.all fun r => !(s.memory.regions.any fun e => e.2.key.isSome && e.2.range.meets r && e.2.owner != p.job))
        Status.protectedRegion 64,
      demand (secret.all fun r => s.protectedKey r == s.protectedKey (embDst p).footprint) Status.protectedRegion 128]
  effect := fun p s =>
    s.orPoisoned p ((s.embReads p).map fun u => u.range) (fun t => t.scrambleDesc (embDst p)) fun s =>
      match s.embVersion p, s.embTable p with
      | some n, some e => (s.startEmbGather p n e.2).settleGathers
      | _, _ => s.complete p Status.versionRetired 0 0 0

/-- EMB_GATHER. -/
def execEmbGather (p : Packet) (s : State) : Host.Outcome State Fault Refusal := .next (embGatherCommand.start p s)

/-! ## EMB_TABLE_DESTROY (R351) -/

/-- The table is named in section 3 of an open job. -/
def State.tableNamed (s : State) (table : Nat) : Bool := s.job.jobs.any fun e => (e.2.tableEntry table).isSome

def embTableDestroyCommand : Command where
  code := 0x0605
  lens := fun n => n == 1
  job := .optional
  params := fun s p =>
    lowestFail [need (decide (p.param 0 2 ≤ 1023) && !(s.tableSlices (p.param 0 2)).isEmpty && !s.tableNamed (p.param 0 2)) 64,
      need (p.param 2 1 == 0xFF || (decide (p.param 2 1 < 64) && s.sliceHere p (p.param 2 1))) 66, p.zeros 67 61]
  effect := fun p s => (s.enroll p (.embDestroy (p.param 0 2 * 256 + p.param 2 1)) [] 0).wake

/-- EMB_TABLE_DESTROY. -/
def execEmbTableDestroy (p : Packet) (s : State) : Host.Outcome State Fault Refusal := .next (embTableDestroyCommand.start p s)

end Sys2Proof.Machine
end

