-- ==== Sys2Proof/Machine/Jobs.lean ====
section
/-! DEFINITION. Jobs: JOB_OPEN, JOB_ATTACH, STEP_RUN and JOB_CLOSE (R36, R37, R54, R96, R411, R487). -/

namespace Sys2Proof.Machine

/-! ## JOB_OPEN (R54, R64, R410, R411, R487) -/

/-- The base and overlay that a packet names. -/
def State.openPair (s : State) (p : Packet) : Option (List Byte × List Byte) :=
  match s.baseOf (p.param 12 1), s.overlayOf (p.param 13 1) with
  | some m, some o => some (m, o)
  | _, _ => none

/-- Bytes of the peer table in use under a manifest: none where the job has no peer and no table store. -/
def peerTableBytes (m : List Byte) : Nat :=
  if manRanks m = 1 ∧ ((manSection m 4).map storeEntries).getD [] = [] then 0 else 4 * manRanks m + 512

/-- The hold area of the packet. -/
def openHold (p : Packet) : Range := ⟨p.param 16 8, p.param 24 8⟩
def openTable (p : Packet) (m : List Byte) : Range := ⟨p.param 32 8, peerTableBytes m⟩

/-- The field rules that JOB_OPEN and JOB_RESTORE share. -/
def State.openFields (s : State) (p : Packet) : List (Option Fail) :=
  let pair := s.openPair p
  let fits := fun (f : List Byte → Bool) => match pair with
    | some (m, _) => f m
    | none => true
  [need (p.param 0 4 != 0xFFFFFFFF && !s.jobOpen (BitVec.ofNat 32 (p.param 0 4))) 64,
    need (fits fun m => decide (p.param 4 4 + p.param 8 4 ≤ manRanks m)) 68,
    need (decide (1 ≤ p.param 8 4) && decide (p.param 8 4 ≤ 256)) 72,
    need (decide (p.param 12 1 ≤ 7) && (s.baseOf (p.param 12 1)).isSome) 76,
    need (decide (p.param 13 1 ≤ 47) && (s.overlayOf (p.param 13 1)).isSome) 77,
    need (p.param 16 8 % max 4096 (regionUnit (p.param 16 8)) == 0) 80,
    need (p.param 24 8 % max 4096 (regionUnit (p.param 16 8)) == 0 && p.param 24 8 != 0 &&
      fits fun m => decide (manHold m ≤ p.param 24 8)) 88]

def State.openUses (s : State) (p : Packet) : List Use :=
  match s.openPair p with
  | some (m, _) => if peerTableBytes m = 0 then [] else [⟨96, openTable p m, false⟩]
  | none => []

/-- The hold area can be a memory region. -/
def State.openAlias (s : State) (p : Packet) : Option Fail :=
  need (s.mapped (openHold p) && (match (openHold p).space with
    | some (.localStore _) => false
    | _ => true)) 80

/-- The model key slot that a confidential job binds to. -/
def State.openKey (s : State) (m o : List Byte) : Option Nat :=
  if overlayConfidential o then (s.sec.keys.find? fun k => k.2.baseRef == (sha3 m).take 32).map fun k => k.1 else none

def State.openSecurity (s : State) (p : Packet) : Option Fail :=
  match s.openPair p with
  | some (m, o) => demand (!overlayConfidential o || (s.openKey m o).isSome) Status.keyRefused 5
  | none => none

/-- The first field of the peer table at fault (R411): rank entries, then the store entries that section 4 names. -/
def State.peerTableFault (s : State) (p : Packet) (m : List Byte) : Option Nat :=
  let base := p.param 32 8
  let held := fun (r : Nat) => decide (p.param 4 4 ≤ r) && decide (r < p.param 4 4 + p.param 8 4)
  let entry := fun (o : Nat) (ok : Nat → Bool) =>
    let n := s.loadNat (base + o) 2
    (lowestAt [faultAt ((Tab.look s.relay.peers n).isSome && ok n) 0, spareAt (s.load (base + o) 4) 2 2]).map fun k => o + k
  let stores := ((((manSection m 4).map storeEntries).getD []).map fun e => leField e 0 1)
  if peerTableBytes m = 0 then none
  else match (List.range (if manRanks m = 1 then 0 else manRanks m)).findSome? fun r =>
      entry (4 * r) fun n => !held r || s.moduleId == some n with
    | some o => some o
    | none => lowestAt (stores.map fun i => entry (4 * manRanks m + 8 * i) fun _ => true)

def State.openOwn (s : State) (p : Packet) : Option Fail :=
  match s.openPair p with
  | none => none
  | some (m, o) =>
    firstFail [need (pairs m o) 77,
      demand (s.implements (manSemantics m)) Status.semanticsUnavailable 76,
      demand (manRanks m == 1 || s.relay.local_.isSome) Status.relayNotConfigured 64,
      (s.peerTableFault p m).map fun o => ⟨Status.badParam, inStruct 96 o⟩,
      (s.overlapId (openHold p)).map fun i => ⟨Status.regionOverlap, i⟩,
      demand (decide (s.job.jobs.length < 16)) Status.tableFull 64]

/-- The lowest free job slot. -/
def State.freeJobSlot (s : State) : Nat := ((List.range 16).find? fun n => (Tab.look s.job.jobs n).isNone).getD 0

/-- A job as it opens: IDLE, with the last committed step before `next`. -/
def State.newJob (s : State) (p : Packet) (m o : List Byte) (next mustered : Nat) : Job where
  id := BitVec.ofNat 32 (p.param 0 4)
  firstRank := p.param 4 4
  span := p.param 8 4
  ranks := (List.range (p.param 8 4)).map fun i => p.param 4 4 + i
  baseSlot := p.param 12 1
  overlaySlot := p.param 13 1
  image := patched m o
  mode := overlayMode o
  confidential := overlayConfidential o
  keySlot := s.openKey m o
  digest := pairDigest m o
  staged := none
  holdBase := p.param 16 8
  holdSize := p.param 24 8
  peerTable := p.param 32 8
  tableSize := peerTableBytes m
  state := .idle
  next := next
  attached := none
  runs := []
  prepared := []
  phase := .idle
  attempt := 0
  floors := []
  faults := []
  votes := []
  decision := none
  voteTimer := none
  decisionTimer := none
  queryTimer := none
  expelled := none
  heldFor := none
  acting := none
  words := List.replicate 32 0
  applyJournal := []
  musterJournal := []
  journalLost := false
  parity := []
  spoiled := none
  mustered := mustered
  muster := none
  digests := []
  verdicts := []
  switched := false
  reports := []
  tagRefused := 0
  staleAttempt := 0
  staleGen := 0
  replays := 0

/-- Open a job in the lowest free slot: its hold area becomes a region, and a confidential job's regions become protected and
lock the module (R54, R111, R479, R486). -/
def State.openJob (s : State) (p : Packet) (next mustered : Nat) : State :=
  match s.openPair p with
  | none => s
  | some (m, o) =>
    let j := s.newJob p m o next mustered
    let slot := s.freeJobSlot
    let own := Tab.mapVal (fun _ (r : Region) => if r.owner = j.id ∧ j.keySlot.isSome then { r with key := j.keySlot } else r)
      s.memory.regions
    let s : State := { s with
      memory := { s.memory with regions := Tab.put own (4096 + slot) ⟨j.id, j.holdBase, j.holdSize, j.keySlot⟩ }
      sec := { s.sec with generations := Tab.del s.sec.generations slot } }
    let s := if j.confidential then s.lock else s
    ((s.setJob slot j).log 6 0 1 0xFFFF j.id noJob []).remedies

def jobOpenCommand : Command where
  code := 0x0101
  lens := fun n => n == 2
  job := .fresh 0
  params := fun s p => lowestFail (s.openFields p ++ [p.zeros 78 2, p.zeros 104 88])
  uses := fun s p => s.openUses p
  overlaps := fun s p => s.openAlias p
  security := fun s p => s.openSecurity p
  own := fun s p => s.openOwn p
  effect := fun p s => (s.openJob p 0 0).complete p Status.ok 0 0 0

/-- JOB_OPEN. -/
def execJobOpen (p : Packet) (s : State) : Host.Outcome State Fault Refusal := .next (jobOpenCommand.start p s)

/-! ## JOB_ATTACH (R54, R96) -/

/-- Records of a job that are not written move to another ring. -/
def State.moveRecords (s : State) (job : Word) (ring : Nat) : State :=
  let mine := fun (r : Record) => r.job == job && r.ring != ring
  let due := s.rings.flatMap fun e => e.2.due.filter mine
  let s : State := { s with
    rings := Tab.mapVal (fun _ (q : Ring) => { q with due := q.due.filter fun r => !mine r }) s.rings
    held := s.held.map fun r => if mine r then { r with ring := ring } else r }
  due.foldl (fun t r => t.fallDue { r with ring := ring }) s

def jobAttachCommand : Command where
  code := 0x0102
  lens := fun n => n == 1
  job := .paramOpen 0
  params := fun _ p => p.zeros 68 60
  effect := fun p s =>
    match s.findJob p.job with
    | none => s
    | some (slot, j) =>
      ((s.setJob slot { j with attached := some p.ring }).moveRecords j.id p.ring).complete p Status.ok 0 0 0

/-- JOB_ATTACH. -/
def execJobAttach (p : Packet) (s : State) : Host.Outcome State Fault Refusal := .next (jobAttachCommand.start p s)

/-! ## STEP_RUN (R37, R48, R54, R57) -/

/-- The step a STEP_RUN must begin at. -/
def Job.nextToRun (j : Job) : Nat := match j.runs.getLast? with
  | some r => r.first + r.count
  | none => j.next

/-- A JOB_CLOSE of the job waits. -/
def State.closing (s : State) (slot : Nat) : Bool := s.running.any fun o => o.kind == .jobClose slot

def stepReports (p : Packet) : Range := ⟨hostWindow + p.param 8 8, 64 * p.param 4 4⟩

def stepRunCommand : Command where
  code := 0x0103
  lens := fun n => n == 1
  job := .required
  params := fun s p =>
    lowestFail [need ((s.findJob p.job).all fun e => !s.closing e.1) 16,
      need (decide (1 ≤ p.param 4 4) && decide (p.param 4 4 ≤ 65536) && decide (p.param 0 4 + p.param 4 4 ≤ 2 ^ 29)) 68,
      need (p.param 8 8 % 64 == 0) 72, p.zeros 80 48]
  uses := fun _ p => [⟨72, stepReports p, true⟩]
  overlaps := fun _ p => need ((stepReports p).inside hostRange) 72
  own := fun s p => demand ((s.findJob p.job).all fun e => p.param 0 4 == e.2.nextToRun) Status.stepOrder 64
  unit := 3
  total := fun _ p => p.param 4 4
  effect := fun p s =>
    match s.findJob p.job with
    | none => s
    | some (slot, j) =>
      let r : StepRun := ⟨p, p.param 0 4, p.param 4 4, p.param 8 8, 0, false⟩
      let j' := if j.state = .running ∨ j.state = .rehosting then { j with runs := j.runs ++ [r] }
        else { j with runs := j.runs ++ [r], state := .running, attempt := 0, heldFor := none, faults := [], votes := [],
                      decision := none }
      (s.setJob slot j').enroll p (.stepRun slot) [⟨72, stepReports p, true⟩] (p.param 4 4)

/-- STEP_RUN. -/
def execStepRun (p : Packet) (s : State) : Host.Outcome State Fault Refusal := .next (stepRunCommand.start p s)

/-- The running command of a STEP_RUN. -/
def State.stepCommand (s : State) (r : StepRun) : Option RunOp :=
  s.running.find? fun o => o.pkt == r.pkt && (match o.kind with
    | .stepRun _ => true
    | _ => false)

/-- A STEP_RUN completes. -/
def State.endStepRun (s : State) (r : StepRun) (st : Status) (detail : Nat) : State :=
  match s.stepCommand r with
  | some o => s.finish o st detail
  | none => s

/-! ## JOB_CLOSE (R54) -/

def jobCloseCommand : Command where
  code := 0x0106
  lens := fun n => n == 1
  job := .paramOpen 0
  params := fun _ p => p.zeros 68 60
  effect := fun p s =>
    match s.findJob p.job with
    | none => s
    | some (slot, j) =>
      let later := j.runs.drop 1
      let s := later.foldl (fun t r => t.endStepRun r Status.aborted 0) s
      let s := s.setJob slot { j with runs := (j.runs.take 1).map fun r => { r with aborted := true } }
      ((s.enroll p (.jobClose slot) [] 0).wake).remedies

/-- JOB_CLOSE. -/
def execJobClose (p : Packet) (s : State) : Host.Outcome State Fault Refusal := .next (jobCloseCommand.start p s)

end Sys2Proof.Machine
end

