-- ==== Sys2Proof/Machine/Jpeg.lean ====
section
/-! DEFINITION. JPEG samples: the accepted profile of ITU-T T.81, its faults in decoding order, the decode budget, and the
coefficients (R244, R245, R255, R256, R259). The grammar of the stream is T.81's. -/

namespace Sys2Proof.Machine

/-- Waybill reasons (R243). -/
def reasonOk : Nat := 0
def reasonDecode : Nat := 1
def reasonTruncated : Nat := 2
def reasonFormat : Nat := 3
def reasonBudget : Nat := 4

/-- A classified fault: reason, symbols decoded so far, and fault_offset. -/
structure JpegFault where
  reason : Nat
  symbols : Nat
  offset : Nat
  deriving DecidableEq, Repr

/-- A Huffman table: codes of each length from 1, and the values. -/
structure HuffTable where
  counts : List Nat
  values : Array Nat
  deriving Repr

/-- A component of the frame: identifier, sampling factors and quantisation table. -/
structure JpegComp where
  id : Nat
  h : Nat
  v : Nat
  tq : Nat
  deriving DecidableEq, Repr, Inhabited

structure JpegFrame where
  progressive : Bool
  height : Nat
  width : Nat
  comps : List JpegComp
  deriving DecidableEq, Repr

def JpegFrame.hMax (f : JpegFrame) : Nat := f.comps.foldl (fun n c => max n c.h) 1
def JpegFrame.vMax (f : JpegFrame) : Nat := f.comps.foldl (fun n c => max n c.v) 1
/-- Minimum coded units across and down in an interleaved scan. -/
def JpegFrame.mcusX (f : JpegFrame) : Nat := ceilDiv f.width (8 * f.hMax)
def JpegFrame.mcusY (f : JpegFrame) : Nat := ceilDiv f.height (8 * f.vMax)
/-- Blocks of a component, in whole MCUs. -/
def JpegFrame.blocksX (f : JpegFrame) (c : JpegComp) : Nat := f.mcusX * c.h
def JpegFrame.blocksY (f : JpegFrame) (c : JpegComp) : Nat := f.mcusY * c.v

/-- The coefficients of a component: blocks in row-major order, 64 coefficients each in zigzag order. -/
abbrev Coefs := Array (Array Int)

/-- What has been read of a sample. -/
structure JpegRead where
  quant : Tab (List Nat)
  dc : Tab HuffTable
  ac : Tab HuffTable
  interval : Nat
  frame : Option JpegFrame
  /-- the quantisation table each component's first scan found, by component -/
  tables : Tab (List Nat)
  coefs : List Coefs
  /-- components that a sequential scan has filled -/
  filled : List Nat
  scans : Nat
  symbols : Nat
  /-- the Adobe transform and the marker that carried it -/
  adobe : Option (Nat × Nat)

/-! ## Entropy-coded data -/

/-- The bytes of an entropy-coded segment with their offsets, stuffing removed, and where its marker stands; none at the end
of the sample. -/
def ecsBytes (b : Array Nat) : Nat → Nat → List (Nat × Nat) × Option Nat
  | 0, _ => ([], none)
  | k + 1, i =>
    match b[i]? with
    | none => ([], none)
    | some 255 =>
      match b[i + 1]? with
      | none => ([], none)
      | some 0 => let r := ecsBytes b k (i + 2); ((255, i) :: r.1, r.2)
      | some 255 => ecsBytes b k (i + 1)
      | some _ => ([], some i)
    | some x => let r := ecsBytes b k (i + 1); ((x, i) :: r.1, r.2)

/-- The reader of a segment. -/
structure Bits where
  seg : Array (Nat × Nat)
  marker : Option Nat
  /-- the scan being read -/
  scan : Nat
  pos : Nat
  symbols : Nat
  budget : Nat

/-- A reading step: it may meet a fault. -/
abbrev Read (α : Type) := Bits → Except JpegFault (α × Bits)

/-- The offset of the byte that holds the next bit. -/
def Bits.here (s : Bits) : Nat :=
  match s.seg[s.pos / 8]? with
  | some x => x.2
  | none => s.marker.getD s.scan

/-- One bit. Data that end early are truncated, or cut off by a marker that does not belong there. -/
def readBit : Read Nat := fun s =>
  match s.seg[s.pos / 8]? with
  | some x => .ok (x.1 / 2 ^ (7 - s.pos % 8) % 2, { s with pos := s.pos + 1 })
  | none => match s.marker with
    | some m => .error ⟨reasonDecode, s.symbols, m⟩
    | none => .error ⟨reasonTruncated, s.symbols, s.scan⟩

/-- n bits, the first the most significant. -/
def readBits : Nat → Nat → Read Nat
  | 0, v => fun s => .ok (v, s)
  | n + 1, v => fun s => match readBit s with
    | .error e => .error e
    | .ok (b, s) => readBits n (2 * v + b) s

/-- The budget is compared before each symbol (R244). -/
def Bits.spent (s : Bits) : Bool := decide (s.budget ≤ s.symbols)

/-- Walk a canonical code. `at_` is the byte that holds its first bit. -/
def huffWalk (h : HuffTable) (at_ : Nat) : List Nat → Nat → Nat → Nat → Read Nat
  | [], _, _, _ => fun s => .error ⟨reasonDecode, s.symbols, at_⟩
  | c :: t, code, first, index => fun s => match readBit s with
    | .error e => .error e
    | .ok (b, s) =>
      let code := code + b
      if code < first + c then .ok (h.values.getD (index + code - first) 0, { s with symbols := s.symbols + 1 })
      else huffWalk h at_ t (2 * code) (2 * (first + c)) (index + c) s

/-- One symbol of a Huffman table. -/
def readSymbol (h : HuffTable) : Read Nat := fun s =>
  if s.spent then .error ⟨reasonBudget, s.symbols, 0xFFFFFFFF⟩ else huffWalk h s.here h.counts 0 0 0 s

/-- A correction bit of a refinement scan is a symbol too (R244). -/
def readCorrection : Read Nat := fun s =>
  if s.spent then .error ⟨reasonBudget, s.symbols, 0xFFFFFFFF⟩
  else match readBit s with
    | .error e => .error e
    | .ok (b, s) => .ok (b, { s with symbols := s.symbols + 1 })

/-- The value of t extra bits. -/
def extendBits (v t : Nat) : Int := if t = 0 then 0 else if v < 2 ^ (t - 1) then (v : Int) - ((2 ^ t : Nat) : Int) + 1 else v

def readExtended (t : Nat) : Read Int := fun s => match readBits t 0 s with
  | .error e => .error e
  | .ok (v, s) => .ok (extendBits v t, s)

/-! ## Blocks -/

/-- What a scan decodes with: its spectral band, its point transform and whether it refines. -/
structure ScanBand where
  ss : Nat
  se : Nat
  al : Nat
  refine : Bool
  deriving DecidableEq, Repr

/-- A DC coefficient of a first scan: the prediction that follows, and the block. -/
def readDc (h : HuffTable) (al : Nat) (pred : Int) (blk : Array Int) : Read (Int × Array Int) := fun s =>
  let at_ := s.here
  match readSymbol h s with
  | .error e => .error e
  | .ok (t, s) =>
    if 11 < t then .error ⟨reasonDecode, s.symbols, at_⟩
    else match readExtended t s with
      | .error e => .error e
      | .ok (d, s) => .ok ((pred + d, blk.setIfInBounds 0 ((pred + d) * ((2 ^ al : Nat) : Int))), s)

/-- A DC coefficient of a refinement scan. -/
def refineDc (al : Nat) (blk : Array Int) : Read (Array Int) := fun s =>
  match readCorrection s with
  | .error e => .error e
  | .ok (b, s) => .ok (blk.setIfInBounds 0 (blk.getD 0 0 + (b : Int) * ((2 ^ al : Nat) : Int)), s)

/-- AC coefficients of a sequential or first progressive scan from index k on; it answers the end-of-band run that follows. -/
def readAc (h : HuffTable) (g : ScanBand) (prog : Bool) : Nat → Nat → Array Int → Read (Nat × Array Int)
  | 0, _, blk => fun s => .ok ((0, blk), s)
  | n + 1, k, blk => fun s =>
    if g.se < k then .ok ((0, blk), s)
    else
      let at_ := s.here
      match readSymbol h s with
      | .error e => .error e
      | .ok (rs, s) =>
        let r := rs / 16
        let t := rs % 16
        if t = 0 then
          if r = 15 then
            if g.se < k + 15 then .error ⟨reasonDecode, s.symbols, at_⟩ else readAc h g prog n (k + 16) blk s
          else if prog then match readBits r 0 s with
            | .error e => .error e
            | .ok (v, s) => .ok ((2 ^ r + v - 1, blk), s)
          else if r = 0 then .ok ((0, blk), s)
          else .error ⟨reasonDecode, s.symbols, at_⟩
        else if 10 < t ∨ g.se < k + r then .error ⟨reasonDecode, s.symbols, at_⟩
        else match readExtended t s with
          | .error e => .error e
          | .ok (v, s) => readAc h g prog n (k + r + 1) (blk.setIfInBounds (k + r) (v * ((2 ^ g.al : Nat) : Int))) s

/-- A correction bit of a coefficient that is not zero. -/
def correct (al : Nat) (x : Int) : Read Int := fun s => match readCorrection s with
  | .error e => .error e
  | .ok (b, s) =>
    let p := (b : Int) * ((2 ^ al : Nat) : Int)
    .ok (if x < 0 then x - p else x + p, s)

/-- Pass over coefficients from index k: correct those that are not zero, and stop at the zero that follows `zeros` others.
It answers the index reached, one past the band when the band ends first. -/
def passZeros (g : ScanBand) : Nat → Nat → Nat → Array Int → Read (Nat × Array Int)
  | 0, k, _, blk => fun s => .ok ((k, blk), s)
  | n + 1, k, zeros, blk => fun s =>
    if g.se < k then .ok ((k, blk), s)
    else
      let x := blk.getD k 0
      if x ≠ 0 then match correct g.al x s with
        | .error e => .error e
        | .ok (y, s) => passZeros g n (k + 1) zeros (blk.setIfInBounds k y) s
      else if zeros = 0 then .ok ((k, blk), s)
      else passZeros g n (k + 1) (zeros - 1) blk s

/-- AC coefficients of a refinement scan from index k on; it answers the end-of-band run that follows. -/
def refineAc (h : HuffTable) (g : ScanBand) : Nat → Nat → Array Int → Read (Nat × Array Int)
  | 0, _, blk => fun s => .ok ((0, blk), s)
  | n + 1, k, blk => fun s =>
    if g.se < k then .ok ((0, blk), s)
    else
      let at_ := s.here
      match readSymbol h s with
      | .error e => .error e
      | .ok (rs, s) =>
        let r := rs / 16
        let t := rs % 16
        if t = 0 ∧ r < 15 then match readBits r 0 s with
          | .error e => .error e
          | .ok (v, s) => match passZeros g 64 k 64 blk s with
            | .error e => .error e
            | .ok ((_, blk), s) => .ok ((2 ^ r + v - 1, blk), s)
        else if 1 < t then .error ⟨reasonDecode, s.symbols, at_⟩
        else match readBits t 0 s with
          | .error e => .error e
          | .ok (sign, s) => match passZeros g 64 k r blk s with
            | .error e => .error e
            | .ok ((j, blk), s) =>
              if g.se < j then .error ⟨reasonDecode, s.symbols, at_⟩
              else
                let v : Int := if t = 0 then 0 else if sign = 1 then ((2 ^ g.al : Nat) : Int) else -((2 ^ g.al : Nat) : Int)
                refineAc h g n (j + 1) (blk.setIfInBounds j v) s

/-! ## Scans -/

/-- A component of a scan: its number in the frame and its tables. -/
structure ScanComp where
  index : Nat
  dc : HuffTable
  ac : HuffTable

/-- What a scan carries from block to block: coefficients, predictions by component, the end-of-band run. -/
structure ScanState where
  coefs : List Coefs
  preds : Tab Int
  eobRun : Nat

/-- One block of a scan. -/
def readBlock (prog : Bool) (g : ScanBand) (c : ScanComp) (n : Nat) (x : ScanState) : Read ScanState := fun s =>
  let arr := x.coefs.getD c.index #[]
  let blk := arr.getD n (Array.replicate 64 0)
  let put := fun (y : ScanState) (b : Array Int) => { y with coefs := setAt y.coefs c.index fun a => a.setIfInBounds n b }
  let pred := Tab.get 0 x.preds c.index
  if !prog then match readDc c.dc 0 pred blk s with
    | .error e => .error e
    | .ok ((p, blk), s) => match readAc c.ac g false 64 1 blk s with
      | .error e => .error e
      | .ok ((_, blk), s) => .ok (put { x with preds := Tab.put x.preds c.index p } blk, s)
  else if g.ss = 0 then
    if g.refine then match refineDc g.al blk s with
      | .error e => .error e
      | .ok (blk, s) => .ok (put x blk, s)
    else match readDc c.dc g.al pred blk s with
      | .error e => .error e
      | .ok ((p, blk), s) => .ok (put { x with preds := Tab.put x.preds c.index p } blk, s)
  else if 0 < x.eobRun then
    if g.refine then match passZeros g 64 g.ss 64 blk s with
      | .error e => .error e
      | .ok ((_, blk), s) => .ok (put { x with eobRun := x.eobRun - 1 } blk, s)
    else .ok ({ x with eobRun := x.eobRun - 1 }, s)
  else
    match (if g.refine then refineAc c.ac g 64 g.ss blk else readAc c.ac g true 64 g.ss blk) s with
    | .error e => .error e
    | .ok ((run, blk), s) => .ok (put { x with eobRun := run } blk, s)

/-- The blocks of MCU m of a scan: component of the scan and block number. -/
def mcuBlocks (f : JpegFrame) (l : List ScanComp) (m : Nat) : List (ScanComp × Nat) :=
  match l with
  | [c] =>
    let k := f.comps.getD c.index default
    let w := ceilDiv (ceilDiv (f.width * k.h) f.hMax) 8
    [(c, m / w * f.blocksX k + m % w)]
  | _ => l.flatMap fun c =>
    let k := f.comps.getD c.index default
    let mx := m % f.mcusX
    let my := m / f.mcusX
    (List.range (k.h * k.v)).map fun i => (c, (my * k.v + i / k.h) * f.blocksX k + mx * k.h + i % k.h)

/-- MCUs of a scan. -/
def mcuCount (f : JpegFrame) (l : List ScanComp) : Nat :=
  match l with
  | [c] =>
    let k := f.comps.getD c.index default
    ceilDiv (ceilDiv (f.width * k.h) f.hMax) 8 * ceilDiv (ceilDiv (f.height * k.v) f.vMax) 8
  | _ => f.mcusX * f.mcusY

def readBlocks (prog : Bool) (g : ScanBand) : List (ScanComp × Nat) → ScanState → Read ScanState
  | [], x => fun s => .ok (x, s)
  | b :: t, x => fun s => match readBlock prog g b.1 b.2 x s with
    | .error e => .error e
    | .ok (x, s) => readBlocks prog g t x s

/-- MCUs [m, m + n) of one restart interval. -/
def readMcus (f : JpegFrame) (g : ScanBand) (l : List ScanComp) : Nat → Nat → ScanState → Read ScanState
  | 0, _, x => fun s => .ok (x, s)
  | n + 1, m, x => fun s => match readBlocks f.progressive g (mcuBlocks f l m) x s with
    | .error e => .error e
    | .ok (x, s) => readMcus f g l n (m + 1) x s

/-- The restart intervals of a scan, from interval i on, at byte offset `at_`; it answers the coefficients, the symbols and
where the marker after the scan stands. -/
def readIntervals (b : Array Nat) (f : JpegFrame) (g : ScanBand) (l : List ScanComp) (interval scan budget : Nat) :
    Nat → Nat → Nat → Nat → List Coefs → Except JpegFault (List Coefs × Nat × Option Nat)
  | 0, _, at_, symbols, coefs => .ok (coefs, symbols, some at_)
  | k + 1, i, at_, symbols, coefs =>
    let total := mcuCount f l
    let n := if interval = 0 then total else min interval (total - i * interval)
    let seg := ecsBytes b (b.size + 1) at_
    let s : Bits := ⟨seg.1.toArray, seg.2, scan, 0, symbols, budget⟩
    match readMcus f g l n (i * interval) ⟨coefs, [], 0⟩ s with
    | .error e => .error e
    | .ok (x, s) =>
      if interval = 0 ∨ total ≤ (i + 1) * interval then .ok (x.coefs, s.symbols, seg.2)
      else match seg.2 with
        | none => .error ⟨reasonTruncated, s.symbols, scan⟩
        | some m =>
          if b.getD (m + 1) 0 = 0xD0 + i % 8 then
            readIntervals b f g l interval scan budget k (i + 1) (m + 2) s.symbols x.coefs
          else .error ⟨reasonDecode, s.symbols, m⟩

/-! ## Marker segments -/

def byteAt (b : Array Nat) (i : Nat) : Nat := b.getD i 0
def wordAt (b : Array Nat) (i : Nat) : Nat := byteAt b i * 256 + byteAt b (i + 1)

/-- Quantisation tables of a DQT segment from i to its end. -/
def readQuant (b : Array Nat) (hi : Nat) : Nat → Nat → Tab (List Nat) → Option (Tab (List Nat))
  | 0, i, q => if i = hi then some q else none
  | k + 1, i, q =>
    if i = hi then some q
    else
      let p := byteAt b i / 16
      let t := byteAt b i % 16
      let size := if p = 0 then 64 else 128
      if 1 < p ∨ 3 < t ∨ hi < i + 1 + size then none
      else
        let l := (List.range 64).map fun j => if p = 0 then byteAt b (i + 1 + j) else wordAt b (i + 1 + 2 * j)
        readQuant b hi k (i + 1 + size) (Tab.put q t l)

/-- Huffman tables of a DHT segment: DC tables and AC tables. -/
def readHuff (b : Array Nat) (hi : Nat) : Nat → Nat → Tab HuffTable × Tab HuffTable → Option (Tab HuffTable × Tab HuffTable)
  | 0, i, q => if i = hi then some q else none
  | k + 1, i, q =>
    if i = hi then some q
    else
      let c := byteAt b i / 16
      let t := byteAt b i % 16
      let counts := (List.range 16).map fun j => byteAt b (i + 1 + j)
      let n := counts.foldl (fun a x => a + x) 0
      if 1 < c ∨ 3 < t ∨ 256 < n ∨ hi < i + 17 + n then none
      else
        let h : HuffTable := ⟨counts, ((List.range n).map fun j => byteAt b (i + 17 + j)).toArray⟩
        readHuff b hi k (i + 17 + n) (if c = 0 then (Tab.put q.1 t h, q.2) else (q.1, Tab.put q.2 t h))

/-- Sampling factors that are accepted (R255). -/
def samplingOk (l : List JpegComp) : Bool :=
  match l with
  | y :: t => [(1, 1), (2, 1), (2, 2)].contains (y.h, y.v) && t.all fun c => c.h == 1 && c.v == 1
  | [] => false

/-- The frame of a SOF segment, if it is within R255. -/
def readFrame (b : Array Nat) (code i len : Nat) : Option JpegFrame :=
  let n := byteAt b (i + 9)
  let comps := (List.range n).map fun j =>
    (⟨byteAt b (i + 10 + 3 * j), byteAt b (i + 11 + 3 * j) / 16, byteAt b (i + 11 + 3 * j) % 16, byteAt b (i + 12 + 3 * j)⟩ : JpegComp)
  let h := wordAt b (i + 5)
  let w := wordAt b (i + 7)
  let fits := decide (8 ≤ len) && byteAt b (i + 4) == 8 && (n == 1 || n == 3) && len == 8 + 3 * n &&
    decide (1 ≤ h) && decide (h ≤ 16384) && decide (1 ≤ w) && decide (w ≤ 16384) && samplingOk comps &&
    comps.all (fun c => decide (c.tq ≤ 3)) && decide (comps.map fun c => c.id).Nodup
  if fits then some ⟨code == 0xC2, h, w, comps⟩ else none

/-- Components and band of a SOS segment, if they are within R255. -/
def readScanHead (b : Array Nat) (i len : Nat) (r : JpegRead) (f : JpegFrame) : Option (List ScanComp × ScanBand) :=
  let n := byteAt b (i + 4)
  let none_ : HuffTable := ⟨[], #[]⟩
  let ss := byteAt b (i + 5 + 2 * n)
  let se := byteAt b (i + 6 + 2 * n)
  let ah := byteAt b (i + 7 + 2 * n) / 16
  let al := byteAt b (i + 7 + 2 * n) % 16
  let bandOk := if f.progressive then
      (if ss = 0 then se == 0 else decide (ss ≤ se) && decide (se ≤ 63) && n == 1) && decide (al ≤ 13) && (ah == 0 || ah == al + 1)
    else ss == 0 && se == 63 && ah == 0 && al == 0
  let needDc := decide (ss = 0) && ah == 0
  let needAc := !f.progressive || decide (0 < ss)
  let comp := fun (j : Nat) =>
    let id := byteAt b (i + 5 + 2 * j)
    let td := byteAt b (i + 6 + 2 * j) / 16
    let ta := byteAt b (i + 6 + 2 * j) % 16
    match firstIdx (fun c => c.id == id) 0 f.comps with
    | none => none
    | some k =>
      if (needDc && (Tab.look r.dc td).isNone) || (needAc && (Tab.look r.ac ta).isNone) ||
          (Tab.look r.quant (f.comps.getD k default).tq).isNone then none
      else some (⟨k, Tab.get none_ r.dc td, Tab.get none_ r.ac ta⟩ : ScanComp)
  let l := (List.range n).filterMap comp
  if decide (1 ≤ n) && decide (n ≤ f.comps.length) && len == 6 + 2 * n && bandOk && l.length == n &&
      decide (l.map fun (c : ScanComp) => c.index).Nodup then
    some (l, ⟨ss, se, al, ah != 0⟩)
  else none

/-- A decoded sample before its pixels are formed. -/
structure JpegImage where
  frame : JpegFrame
  quant : List (List Nat)
  coefs : List Coefs
  symbols : Nat

/-- What a sample must agree with: the size of its correction set, and whether a frame fits the lane's scratch (R256, R273). -/
structure JpegLimits where
  size : Option (Nat × Nat)
  budget : Nat

/-- Bytes of scratch the decoded image takes (R273). -/
def JpegFrame.scratch (f : JpegFrame) : Nat :=
  if f.progressive then 128 * f.comps.foldl (fun n c => n + f.blocksX c * f.blocksY c) 0 else f.width * f.height * 3

/-- EOI: the sample is complete, or misses MCUs. -/
def endImage (r : JpegRead) (i : Nat) : Except JpegFault JpegImage :=
  match r.frame with
  | none => .error ⟨reasonFormat, r.symbols, i⟩
  | some f =>
    if !f.progressive && !(List.range f.comps.length).all (fun k => r.filled.contains k) then
      .error ⟨reasonDecode, r.symbols, i⟩
    else .ok ⟨f, (List.range f.comps.length).map fun k => Tab.get [] r.tables k, r.coefs, r.symbols⟩

/-- A frame header is met. -/
def takeFrame (lim : JpegLimits) (fits : JpegFrame → Bool) (b : Array Nat) (code i len : Nat) (r : JpegRead) :
    Except JpegFault JpegRead :=
  match r.frame, readFrame b code i len with
  | none, some f =>
    if f.comps.length = 3 ∧ r.adobe.any fun a => a.1 != 1 then .error ⟨reasonFormat, r.symbols, (r.adobe.getD (0, i)).2⟩
    else if lim.size.any fun z => z != (f.width, f.height) then .error ⟨reasonFormat, r.symbols, i⟩
    else if !fits f then .error ⟨reasonFormat, r.symbols, 0⟩
    else
      let empty := fun (c : JpegComp) => Array.replicate (f.blocksX c * f.blocksY c) (Array.replicate 64 (0 : Int))
      .ok { r with frame := some f, coefs := f.comps.map empty }
  | _, _ => .error ⟨reasonFormat, r.symbols, i⟩

/-- The markers of a sample from offset i on; `last` is the segment or scan read before. -/
def readMarkers (lim : JpegLimits) (fits : JpegFrame → Bool) (b : Array Nat) :
    Nat → Nat → Nat → JpegRead → Except JpegFault JpegImage
  | 0, _, last, r => .error ⟨reasonTruncated, r.symbols, last⟩
  | k + 1, i, last, r =>
    match b[i]?, b[i + 1]? with
    | some 255, some 255 => readMarkers lim fits b k (i + 1) last r
    | some 255, some code =>
      if code = 0xD9 then endImage r i
      else if code = 0 ∨ code = 1 ∨ (0xD0 ≤ code ∧ code ≤ 0xD8) then .error ⟨reasonFormat, r.symbols, i⟩
      else if b.size < i + 4 then .error ⟨reasonTruncated, r.symbols, i⟩
      else
        let len := wordAt b (i + 2)
        let hi := i + 2 + len
        let bad : Except JpegFault JpegImage := .error ⟨reasonFormat, r.symbols, i⟩
        if len < 2 then bad
        else if b.size < hi then .error ⟨reasonTruncated, r.symbols, i⟩
        else if code = 0xDB then match readQuant b hi 4096 (i + 4) r.quant with
          | some q => readMarkers lim fits b k hi i { r with quant := q }
          | none => bad
        else if code = 0xC4 then match readHuff b hi 4096 (i + 4) (r.dc, r.ac) with
          | some q => readMarkers lim fits b k hi i { r with dc := q.1, ac := q.2 }
          | none => bad
        else if code = 0xDD then
          if len = 4 then readMarkers lim fits b k hi i { r with interval := wordAt b (i + 4) } else bad
        else if code = 0xC0 ∨ code = 0xC1 ∨ code = 0xC2 then match takeFrame lim fits b code i len r with
          | .ok r => readMarkers lim fits b k hi i r
          | .error e => .error e
        else if code = 0xEE then
          let adobe := decide (14 ≤ len) && (List.range 5).map (fun j => byteAt b (i + 4 + j)) == [0x41, 0x64, 0x6F, 0x62, 0x65]
          let t := byteAt b (i + 15)
          if adobe then
            if t ≠ 1 ∧ r.frame.any fun f => f.comps.length == 3 then bad
            else readMarkers lim fits b k hi i { r with adobe := some (t, i) }
          else readMarkers lim fits b k hi i r
        else if (0xE0 ≤ code ∧ code ≤ 0xEF) ∨ code = 0xFE then readMarkers lim fits b k hi i r
        else if code = 0xDA then match r.frame with
          | none => bad
          | some f => match readScanHead b i len r f with
            | none => bad
            | some (l, g) =>
              if 128 ≤ r.scans ∧ f.progressive then bad
              else match readIntervals b f g l r.interval i lim.budget (mcuCount f l + 1) 0 hi r.symbols r.coefs with
                | .error e => .error e
                | .ok (_, symbols, none) => .error ⟨reasonTruncated, symbols, i⟩
                | .ok (coefs, symbols, some m) =>
                  let keep := fun (t : Tab (List Nat)) (c : ScanComp) =>
                    if (Tab.look t c.index).isSome then t else Tab.put t c.index (Tab.get [] r.quant (f.comps.getD c.index default).tq)
                  readMarkers lim fits b k m i { r with
                    tables := l.foldl keep r.tables
                    coefs := coefs
                    symbols := symbols
                    scans := r.scans + 1
                    filled := r.filled ++ l.map fun c => c.index }
        else bad
    | some 255, none => .error ⟨reasonTruncated, r.symbols, last⟩
    | some _, _ => .error ⟨reasonFormat, r.symbols, i⟩
    | none, _ => .error ⟨reasonTruncated, r.symbols, last⟩

/-- Decode a JPEG sample to its coefficients, or classify it. -/
def readJpeg (lim : JpegLimits) (fits : JpegFrame → Bool) (bytes : List Byte) : Except JpegFault JpegImage :=
  let b := (bytes.map BitVec.toNat).toArray
  if byteAt b 0 ≠ 0xFF ∨ byteAt b 1 ≠ 0xD8 then .error ⟨reasonFormat, 0, 0⟩
  else readMarkers lim fits b (b.size + 1) 2 0 ⟨[], [], [], 0, none, [], [], [], 0, 0, none⟩

end Sys2Proof.Machine
end

