-- ==== Sys2Proof/Machine/Image.lean ====
section
/-! DEFINITION. Images: decoding arithmetic (R254, R257, R258), the coordinate map (R261 to R266), sampling and borders (R268,
R269), resize, linearisation and normalisation (R270, R271). -/

namespace Sys2Proof.Machine

/-- A decoded or corrected image: values of row y, column x, channel c at ((y * width) + x) * 3 + c. -/
structure Picture where
  width : Nat
  height : Nat
  values : Array Nat

def Picture.at_ (p : Picture) (x y c : Nat) : Nat := p.values.getD ((y * p.width + x) * 3 + c) 0

/-- Build a picture from its values. -/
def picture (w h : Nat) (f : Nat → Nat → Nat → Nat) : Picture :=
  ⟨w, h, ((List.range (w * h * 3)).map fun i => f (i / 3 % w) (i / 3 / w) (i % 3)).toArray⟩

def clampBetween (v lo hi : Int) : Int := if v < lo then lo else if hi < v then hi else v

/-- Half away from zero. -/
def roundAway (n : Int) (d : Nat) : Int :=
  let q := (2 * n.natAbs + d) / (2 * d)
  if n < 0 then -(q : Int) else q

/-- Half to even. -/
def roundEven (n : Int) (d : Nat) : Int :=
  let q := divNearest n.natAbs d
  if n < 0 then -(q : Int) else q

/-! ## JPEG pixels (R257, R258) -/

/-- 4096 cos(k pi / 16), rounded, for k from 0 to 8. -/
def cosTable : List Int := [4096, 4017, 3784, 3406, 2896, 2276, 1567, 799, 0]
def cosAt (k : Nat) : Int :=
  let r := k % 32
  if r ≤ 8 then cosTable.getD r 0
  else if r ≤ 16 then -(cosTable.getD (16 - r) 0)
  else if r ≤ 24 then -(cosTable.getD (r - 16) 0)
  else cosTable.getD (32 - r) 0

/-- The coefficient table M. -/
def idctM (x u : Nat) : Int := if u = 0 then 2896 else cosAt ((2 * x + 1) * u)

/-- Zigzag index of the coefficient in row v, column u. -/
def zigzag (v u : Nat) : Nat :=
  let d := v + u
  let before := if d ≤ 7 then d * (d + 1) / 2 else 64 - (15 - d) * (14 - d + 2) / 2
  let low := if d ≤ 7 then 0 else d - 7
  before + (if d % 2 = 0 then u - low else v - low)

/-- The 64 samples of a block, row-major. -/
def idct (quant : List Nat) (blk : Array Int) : Array Nat :=
  let f := fun (v u : Nat) => blk.getD (zigzag v u) 0 * ((quant.getD (zigzag v u) 0 : Nat) : Int)
  let sum := fun (g : Nat → Int) => (List.range 8).foldl (fun a i => a + g i) (0 : Int)
  let t := ((List.range 64).map fun i => (sum (fun v => idctM (i / 8) v * f v (i % 8)) + 1024) / 2048).toArray
  ((List.range 64).map fun i =>
    let s := (sum (fun u => idctM (i % 8) u * t.getD (i / 8 * 8 + u) 0) + 4096) / 8192
    (clampBetween (s + 128) 0 255).toNat).toArray

/-- The samples of a component, block after block. -/
def JpegImage.samples (j : JpegImage) (k : Nat) : Array (Array Nat) := (j.coefs.getD k #[]).map (idct (j.quant.getD k []))

/-- The pixels: chroma replicated, converted from full-range YCbCr, and cut to the frame. -/
def JpegImage.pixels (j : JpegImage) : Picture :=
  let f := j.frame
  let comp := fun (k : Nat) =>
    let c := f.comps.getD k default
    let s := j.samples k
    fun (x y : Nat) =>
      let x := x * c.h / f.hMax
      let y := y * c.v / f.vMax
      (s.getD (y / 8 * f.blocksX c + x / 8) #[]).getD (y % 8 * 8 + x % 8) 0
  let ys := comp 0
  if f.comps.length = 1 then picture f.width f.height fun x y _ => ys x y
  else
    let cb := comp 1
    let cr := comp 2
    picture f.width f.height fun x y c =>
      let l : Int := ys x y
      let db : Int := (cb x y : Int) - 128
      let dr : Int := (cr x y : Int) - 128
      (match c with
      | 0 => clampBetween (l + (91881 * dr + 32768) / 65536) 0 255
      | 1 => clampBetween (l - (22554 * db + 46802 * dr + 32768) / 65536) 0 255
      | _ => clampBetween (l + (116130 * db + 32768) / 65536) 0 255).toNat

/-! ## RAW samples (R254) -/

/-- Width, height and channels of a raw header, if its fields are in range. -/
def rawHeader (b : List Byte) : Option (Nat × Nat × Nat) :=
  let w := leField b 4 2
  let h := leField b 6 2
  let c := leField b 8 1
  if leField b 0 4 = 0x57524157 ∧ 1 ≤ w ∧ w ≤ 16384 ∧ 1 ≤ h ∧ h ≤ 16384 ∧ (c = 1 ∨ c = 3) ∧ leField b 9 7 = 0 then some (w, h, c)
  else none

def rawPixels (b : List Byte) (w h channels size : Nat) : Picture :=
  let a := b.toArray
  picture w h fun x y c =>
    let i := 16 + ((y * w + x) * channels + (if channels = 1 then 0 else c)) * size
    (a.getD i 0).toNat + (if size = 2 then 256 * (a.getD (i + 1) 0).toNat else 0)

/-! ## Correction sets (R261, R264, R265) -/

def setSrcW (g : List Byte) : Nat := leField g 8 2
def setSrcH (g : List Byte) : Nat := leField g 10 2
def setCorrW (g : List Byte) : Nat := leField g 12 2
def setCorrH (g : List Byte) : Nat := leField g 14 2
def setCols (g : List Byte) : Nat := leField g 16 1
def setRows (g : List Byte) : Nat := leField g 17 1
/-- A lens value: 0 fx, 1 fy, 2 cx, 3 cy, 4 k1, 5 k2, 6 k3, 7 p1, 8 p2. -/
def setLens (g : List Byte) (i : Nat) : Num := fp64.value (leField g (24 + 8 * i) 8)
/-- Value k (0 x, 1 y) of a mesh point. -/
def setMesh (g : List Byte) (i j k : Nat) : Num := fp64.value (leField g (128 + 16 * (j * setCols g + i) + 8 * k) 8)

/-- Vertices across and down. -/
def setVertsX (g : List Byte) : Nat := setCorrW g / 16 + 1
def setVertsY (g : List Byte) : Nat := setCorrH g / 16 + 1

/-- The first byte of an image of a length that breaks R261. -/
def setFault (g : List Byte) : Option Nat :=
  let dim := fun (v : Nat) => decide (1 ≤ v) && decide (v ≤ 16384)
  let corr := fun (v : Nat) => decide (16 ≤ v) && decide (v ≤ 16384) && v % 16 == 0
  let mesh := fun (v : Nat) => decide (2 ≤ v) && decide (v ≤ 65)
  let zero := fun (o n : Nat) => firstIdx (fun b => b != 0#8) o (slice g o n)
  let bad := fun (c : Bool) (o : Nat) => if c then none else some o
  let points := 2 * setCols g * setRows g
  ([bad (leField g 0 4 == 0x54534343) 0, bad (leField g 4 2 == 1) 4, zero 6 2, bad (dim (setSrcW g)) 8, bad (dim (setSrcH g)) 10,
    bad (corr (setCorrW g)) 12, bad (corr (setCorrH g)) 14,
    bad (mesh (setCols g) && mesh (setRows g) && g.length == 128 + 8 * points) 16, bad (mesh (setRows g)) 17, zero 18 6,
    (firstIdx (fun i => !(setLens g i).finite || (decide (i < 2) && (setLens g i).isZero)) 0 (List.range 9)).map fun i => 24 + 8 * i,
    zero 96 32,
    (firstIdx (fun i => !(fp64.value (leField g (128 + 8 * i) 8)).finite) 0 (List.range points)).map
      fun i => 128 + 8 * i] : List (Option Nat)).findSome? id

/-- floor of a value that is not negative. -/
def numFloor (x : Num) : Nat :=
  match x with
  | .fin _ m e => m * pow2 e / pow2 (-e)
  | _ => 0

/-- q12 of R265. -/
def q12 (z : Num) : Int :=
  let lo : Int := -(2 ^ 31 : Int)
  let hi : Int := (2 ^ 31 : Int) - 1
  match fp64.mul z (.fin false 4096 0) with
  | .nan => lo
  | .inf neg => if neg then lo else hi
  | x => clampBetween x.toIntEven lo hi

def num64 (n : Nat) : Num := .fin false n 0

/-- The map at corrected coordinates (px, py), each times 1: vertex (i, j) lies at (16 i, 16 j) (R264, R265). -/
def exactMap (g : List Byte) (px py : Nat) : Int × Int :=
  let add := fp64.add
  let sub := fp64.sub
  let mul := fp64.mul
  let one := num64 1
  let two := num64 2
  let gx := fp64.div (mul (num64 px) (num64 (setCols g - 1))) (num64 (setCorrW g))
  let gy := fp64.div (mul (num64 py) (num64 (setRows g - 1))) (num64 (setCorrH g))
  let ci := min (numFloor gx) (setCols g - 2)
  let cj := min (numFloor gy) (setRows g - 2)
  let tx := sub gx (num64 ci)
  let ty := sub gy (num64 cj)
  let m := fun (k i j : Nat) => setMesh g (ci + i) (cj + j) k
  let mix := fun (k : Nat) =>
    add (mul (sub one ty) (add (mul (sub one tx) (m k 0 0)) (mul tx (m k 1 0))))
      (mul ty (add (mul (sub one tx) (m k 0 1)) (mul tx (m k 1 1))))
  let x := mix 0
  let y := mix 1
  let l := setLens g
  let r2 := add (mul x x) (mul y y)
  let radial := add one (mul r2 (add (l 4) (mul r2 (add (l 5) (mul r2 (l 6))))))
  let xd := add (add (mul x radial) (mul (mul (mul two (l 7)) x) y)) (mul (l 8) (add r2 (mul (mul two x) x)))
  let yd := add (add (mul y radial) (mul (l 7) (add r2 (mul (mul two y) y)))) (mul (mul (mul two (l 8)) x) y)
  (q12 (add (mul (l 0) xd) (l 2)), q12 (add (mul (l 1) yd) (l 3)))

/-- The vertices (x, y) as stored in the map area, row after row. -/
abbrev VertexMap := Array (Int × Int)

/-- The interpolated coordinate of a corrected pixel (R266), in 1/4096 pixel. -/
def mapAt (v : VertexMap) (vertsX px py : Nat) : Int × Int :=
  let i := px / 16
  let j := py / 16
  let a : Int := (px % 16 : Nat)
  let b : Int := (py % 16 : Nat)
  let p := fun (di dj : Nat) => v.getD ((j + dj) * vertsX + i + di) (0, 0)
  let c := fun (f : Int × Int → Int) =>
    ((16 - a) * (16 - b) * f (p 0 0) + a * (16 - b) * f (p 1 0) + (16 - a) * b * f (p 0 1) + a * b * f (p 1 1) + 128) / 256
  (c Prod.fst, c Prod.snd)

/-! ## Sampling (R268, R269) -/

/-- Weights of the cubic kernel for a fraction, taps tap - 1 to tap + 2. -/
def cubicWeights (f : Nat) : List Int :=
  let far := fun (a : Int) => roundAway (-(a * a * a) + 5 * a * a * 256 - 8 * a * 65536 + 4 * 16777216) 2048
  let near := fun (a : Int) => roundAway (3 * a * a * a - 5 * a * a * 256 + 2 * 16777216) 2048
  let f : Int := f
  let m1 := far (256 + f)
  let p1 := near (256 - f)
  let p2 := far (512 - f)
  [m1, 16384 - m1 - p1 - p2, p1, p2]

def bilinearWeights (f : Nat) : List Int := [256 - (f : Int), f]

/-- Section 6 settings that sampling uses. -/
structure Sampling where
  cubic : Bool
  clampBorder : Bool
  /-- border value of a channel in source units -/
  border : Nat → Nat

/-- A tap's value, and whether it lay outside the image. -/
def tapAt (p : Picture) (s : Sampling) (x y : Int) (c : Nat) : Nat × Bool :=
  let out := decide (x < 0) || decide (y < 0) || decide ((p.width : Int) ≤ x) || decide ((p.height : Int) ≤ y)
  if !out then (p.at_ x.toNat y.toNat c, false)
  else if s.clampBorder then
    (p.at_ (clampBetween x 0 ((p.width : Int) - 1)).toNat (clampBetween y 0 ((p.height : Int) - 1)).toNat c, true)
  else (s.border c, true)

/-- c16 of a corrected pixel (R268) and its taps outside the image. `wide`: RAW16 source units. -/
def sampleAt (p : Picture) (s : Sampling) (wide : Bool) (cx cy : Int) (c : Nat) : Nat × Nat :=
  let tx := cx / 4096
  let ty := cy / 4096
  let fx := (cx / 16 % 256).toNat
  let fy := (cy / 16 % 256).toNat
  let wx := if s.cubic then cubicWeights fx else bilinearWeights fx
  let wy := if s.cubic then cubicWeights fy else bilinearWeights fy
  let base : Int := if s.cubic then -1 else 0
  let row := fun (j : Nat) => wx.zipIdx.foldl (fun (a : Int × Nat) w =>
    let t := tapAt p s (tx + base + Int.ofNat w.2) (ty + base + Int.ofNat j) c
    (a.1 + w.1 * (t.1 : Int), a.2 + if t.2 then 1 else 0)) (0, 0)
  let r := wy.zipIdx.foldl (fun (a : Int × Nat) w => let q := row w.2; (a.1 + w.1 * q.1, a.2 + q.2)) (0, 0)
  let max : Int := if wide then 65535 else 255
  let v := if s.cubic then clampBetween r.1 0 ((2 ^ 28 : Int) * max) else r.1
  ((roundEven (v * (if wide then 1 else 257)) (if s.cubic then 2 ^ 28 else 65536)).toNat, r.2)

/-- The corrected image, in UNORM16, and the border taps it took. -/
def correctPicture (p : Picture) (s : Sampling) (wide : Bool) (g : List Byte) (v : VertexMap) : Picture × Nat :=
  let at_ := fun (x y c : Nat) => let m := mapAt v (setVertsX g) x y; sampleAt p s wide m.1 m.2 c
  let w := setCorrW g
  let h := setCorrH g
  let taps := ((List.range (w * h)).map fun i => (at_ (i % w) (i / w) 0).2).foldl (fun a n => a + n) 0
  (picture w h fun x y c => (at_ x y c).1, taps)

/-- The image of a sample without correction, in UNORM16. -/
def widen (p : Picture) (wide : Bool) : Picture := if wide then p else { p with values := p.values.map fun v => v * 257 }

/-! ## Resize, linearisation and normalisation (R270, R271) -/

/-- r16 of an output pixel. -/
def resizeAt (p : Picture) (ow oh x y c : Nat) : Nat :=
  if p.width = ow ∧ p.height = oh then p.at_ x y c
  else
    let q := fun (x cw ow : Nat) => (((2 * x + 1) * cw : Nat) : Int) * 2048 - (ow : Int) * 2048
    let qx := q x p.width ow / (ow : Int)
    let qy := q y p.height oh / (oh : Int)
    let tap := fun (t : Int) (n : Nat) => (clampBetween t 0 ((n : Int) - 1)).toNat
    let tx := qx / 4096
    let ty := qy / 4096
    let fx := qx / 16 % 256
    let fy := qy / 16 % 256
    let v := fun (i j : Int) => (p.at_ (tap (tx + i) p.width) (tap (ty + j) p.height) c : Int)
    let s := (256 - fy) * ((256 - fx) * v 0 0 + fx * v 1 0) + fy * ((256 - fx) * v 0 1 + fx * v 1 1)
    (roundEven s 65536).toNat

/-- floor of the fifth root, from the top bit down. -/
def rootBits (n : Nat) : Nat → Nat → Nat
  | 0, r => r
  | k + 1, r => if (r + 2 ^ k) ^ 5 ≤ n then rootBits n k (r + 2 ^ k) else rootBits n k r

/-- The sRGB decoding function at r16 / 65,535, correctly rounded to FP32: a quotient below 0.04045, else the power 12/5 of
a quotient, from enough bits of its fifth root and whether anything follows them. -/
def srgb (r16 : Nat) : Num :=
  if 100000 * r16 ≤ 4045 * 65535 then fp32.round false (r16 * 100) (65535 * 1292)
  else
    let n := 1000 * r16 + 55 * 65535
    let d := 1055 * 65535
    let scaled := n ^ 12 * 2 ^ 300 / d ^ 12
    let root := rootBits scaled 61 0
    let exact := root ^ 5 * d ^ 12 == n ^ 12 * 2 ^ 300
    fp32.round false (2 * root + if exact then 0 else 1) (2 ^ 61)

/-- Settings of section 6 that normalisation uses. -/
structure Normal where
  linear : Bool
  mean : Nat → Num
  scale : Nat → Num

/-- The code of an output channel value (R271). -/
def normalCode (n : Normal) (outType r16 c : Nat) : Nat :=
  let x := if n.linear then srgb r16 else fp32.round false r16 65535
  (storeNum outType (fp32.mul (fp32.sub x (n.mean c)) (n.scale c))).code

/-- The element's bytes in its layout (R272): 1 NHWC, 2 NCHW. -/
def elementBytes (p : Picture) (n : Normal) (outType layout ow oh : Nat) : List Byte :=
  let w := (elemBits outType).getD 16 / 8
  (List.range (ow * oh * 3)).flatMap fun i =>
    let c := if layout = 1 then i % 3 else i / (ow * oh)
    let k := if layout = 1 then i / 3 else i % (ow * oh)
    leBytes w (normalCode n outType (resizeAt p ow oh (k % ow) (k / ow) c) c)

end Sys2Proof.Machine
end

