-- ==== Sys2Proof/Machine/Samples.lean ====
section
/-! DEFINITION. Datasets, the sample order, pipelines and correction sets: DATASET_OPEN, DATASET_CLOSE, PIPELINE_CONFIG,
EPOCH_SET, BATCH_PREPARE and CORRECTION_LOAD (R225 to R241, R260 to R263, R273). -/

namespace Sys2Proof.Machine

/-! ## The sample order (R232, R235) -/

/-- Key r of an epoch. -/
def orderKey (seed : DWord) (epoch r : Nat) : DWord := mix64 seed (BitVec.ofNat 64 (epoch * 8 + r))

/-- Half the width of the network: the least b, from 1 on, with 2^(2b) at least n. -/
def orderBits (n : Nat) : Nat := ((List.range 32).find? fun b => decide (1 ≤ b) && decide (n ≤ 2 ^ (2 * b))).getD 32

def feistelRound (b : Nat) (x : Nat × Nat) (k : DWord) : Nat × Nat :=
  let f := (mix64 (BitVec.ofNat 64 x.2) k).toNat % 2 ^ b
  (x.2, x.1 ^^^ f)

/-- One pass through the network. -/
def feistel (keys : List DWord) (b x : Nat) : Nat :=
  let r := keys.foldl (feistelRound b) (x / 2 ^ b, x % 2 ^ b)
  r.1 * 2 ^ b + r.2

/-- Walk on until the value lies below n: the value and the passes taken after the first. A walk is shorter than the domain. -/
def walkOn (keys : List DWord) (b n : Nat) : Nat → Nat → Nat → Nat × Nat
  | 0, x, k => (x, k)
  | fuel + 1, x, k => if x < n then (x, k) else walkOn keys b n fuel (feistel keys b x) (k + 1)

/-- The sample at a permuted position, and the extra passes. -/
def sampleAtPosition (p n : Nat) (seed : DWord) (epoch : Nat) : Nat × Nat :=
  let b := orderBits n
  let keys := (List.range 8).map (orderKey seed epoch)
  walkOn keys b n (2 ^ (2 * b)) (feistel keys b p) 0

/-- The anchor a step uses: the one with the largest start step at or below it. -/
def anchorOf (l : List (Nat × Nat)) (t : Nat) : Nat × Nat := ((l.filter fun a => decide (a.2 ≤ t)).getLast?).getD (0, 0)

/-- The settings of a step: its section 5, its section 6, and the rank count and seed. -/
structure PipeSettings where
  five : List Byte
  six : List Byte
  ranks : Nat
  seed : DWord

def pipeSettings (m : List Byte) : Option PipeSettings :=
  match manSection m 5, manSection m 6 with
  | some a, some b => some ⟨a, b, manRanks m, BitVec.ofNat 64 (manSeed m)⟩
  | _, _ => none

/-- Slots of a batch: b of R231. -/
def PipeSettings.slots (x : PipeSettings) : Nat := pipeSlice x.ranks x.five
def PipeSettings.width (x : PipeSettings) : Nat := leField x.five 12 2
def PipeSettings.height (x : PipeSettings) : Nat := leField x.five 14 2
def PipeSettings.outType (x : PipeSettings) : Nat := leField x.five 16 1
def PipeSettings.layout (x : PipeSettings) : Nat := leField x.five 17 1
def PipeSettings.budget (x : PipeSettings) : Nat := leField x.five 8 4
def PipeSettings.scratch (x : PipeSettings) : Nat := leField x.six 8 8
/-- Bytes of a label element (R230). -/
def PipeSettings.labelBytes (x : PipeSettings) : Nat :=
  match leField x.five 18 1 with
  | 0 => 0
  | 0x08 => 8
  | _ => 4
/-- Bytes of a batch element. -/
def PipeSettings.elementSize (x : PipeSettings) : Nat := x.width * x.height * 3 * (elemBits x.outType).getD 16 / 8

def pageUp (n : Nat) : Nat := 4096 * ceilDiv n 4096

/-- Offsets of the parts of a buffer (R238): labels, mask, waybills, and the end. -/
def PipeSettings.labelsAt (x : PipeSettings) : Nat := pageUp (x.slots * x.elementSize)
def PipeSettings.maskAt (x : PipeSettings) : Nat := pageUp (x.labelsAt + x.slots * x.labelBytes)
def PipeSettings.maskBytes (x : PipeSettings) : Nat := 64 * ceilDiv (ceilDiv x.slots 8) 64
def PipeSettings.waybillsAt (x : PipeSettings) : Nat := pageUp (x.maskAt + x.maskBytes)
def PipeSettings.bufferSize (x : PipeSettings) : Nat := x.waybillsAt + 16 * x.slots

/-- The sample of a slot of a rank's batch at a step, and the extra passes of its walk (R235). -/
def sampleOf (x : PipeSettings) (samples : Nat) (anchors : List (Nat × Nat)) (rank step slot : Nat) : Nat × Nat :=
  let batch := pipeBatch x.five
  let perEpoch := samples / batch
  let a := anchorOf anchors step
  let q := rank / pipeDivisor x.five
  let epoch := (a.1 + (step - a.2) / perEpoch) % 2 ^ 32
  let s := (step - a.2) % perEpoch
  sampleAtPosition (s * batch + q * x.slots + slot) samples x.seed epoch

/-! ## DATASET_OPEN and DATASET_CLOSE (R227, R228) -/

/-- A source entry at an offset of a parameter block. -/
def sourceOf (b : List Byte) (o : Nat) : Source :=
  ⟨leField b o 1, leField b (o + 4) 4, leField b (o + 8) 4, leField b (o + 16) 8, leField b (o + 24) 8⟩

def openSources (p : Packet) : List Source := (List.range 16).map fun i => sourceOf p.bytes (128 + 32 * i)

/-- The module addresses of a source in module memory or in the host. -/
def Source.range (x : Source) : Option Range :=
  if x.kind = 1 then some ⟨x.base, x.length⟩ else if x.kind = 2 then some ⟨hostWindow + x.base, x.length⟩ else none

def datasetUses (p : Packet) : List Use :=
  (openSources p).zipIdx.filterMap fun e => e.1.range.map fun r => ⟨128 + 32 * e.2 + 16, r, false⟩

def datasetOpenCommand : Command where
  code := 0x0401
  lens := fun n => n == 9
  job := .optional
  params := fun s p =>
    let source := (openSources p).getD (p.param 16 1) ⟨0, 0, 0, 0, 0⟩
    let entry := fun (i : Nat) =>
      let o := 128 + 32 * i
      lowestFail [need (decide (p.nat o 1 ≤ 4)) o, p.zeros (o + 1) 3, p.zeros (o + 12) 4]
    lowestFail ([need (decide (p.param 0 4 ≤ 15) && (Tab.look s.samples.datasets (p.param 0 4)).isNone) 64, p.zeros 68 4,
      need (decide (1 ≤ p.param 8 8) && decide (p.param 8 8 ≤ 2 ^ 48)) 72,
      need (decide (p.param 16 1 ≤ 15) && source.kind != 0) 80, p.zeros 81 7,
      need (p.param 24 8 % 64 == 0 && decide (p.param 24 8 + 32 * p.param 8 8 ≤ source.length)) 88, p.zeros 96 32] ++
      (List.range 16).map entry)
  uses := fun _ p => datasetUses p
  security := fun s p => s.openFail (datasetUses p)
  effect := fun p s =>
    let x : Dataset := ⟨p.param 8 8, p.param 16 1, p.param 24 8, openSources p⟩
    let q := { s.samples with datasets := Tab.put s.samples.datasets (p.param 0 4) x }
    ({ s with samples := q } : State).complete p Status.ok 0 0 0

/-- DATASET_OPEN. -/
def execDatasetOpen (p : Packet) (s : State) : Host.Outcome State Fault Refusal := .next (datasetOpenCommand.start p s)

def datasetCloseCommand : Command where
  code := 0x0406
  lens := fun n => n == 1
  job := .optional
  params := fun s p =>
    lowestFail [need (decide (p.param 0 4 ≤ 15) && (Tab.look s.samples.datasets (p.param 0 4)).isSome &&
      !s.samples.pipes.any fun e => e.2.dataset == p.param 0 4) 64, p.zeros 68 60]
  effect := fun p s =>
    let q := { s.samples with datasets := Tab.del s.samples.datasets (p.param 0 4) }
    ({ s with samples := q } : State).complete p Status.ok 0 0 0

/-- DATASET_CLOSE. -/
def execDatasetClose (p : Packet) (s : State) : Host.Outcome State Fault Refusal := .next (datasetCloseCommand.start p s)

/-! ## PIPELINE_CONFIG and EPOCH_SET (R237, R240, R273) -/

def State.setPipe (s : State) (slot : Nat) (x : Pipeline) : State :=
  { s with samples := { s.samples with pipes := Tab.put s.samples.pipes slot x } }

/-- Offset of the scratch area in the hold area (R273). -/
def scratchAt (holdOffset capacity stride : Nat) : Nat := pageUp (holdOffset + capacity * 3 * stride)

def pipelineConfigCommand : Command where
  code := 0x0402
  lens := fun n => n == 1
  job := .paramOpen 0
  params := fun s p =>
    match s.findJob p.job with
    | none => need false 64
    | some (slot, j) =>
      let set := pipeSettings j.image
      let restored := Tab.get [] s.samples.restored slot
      let data := Tab.look s.samples.datasets (p.param 4 1)
      let fits := set.all fun x => decide (scratchAt (p.param 8 8) (p.param 24 4) (p.param 16 8) + 32 * x.scratch ≤ j.holdSize)
      lowestFail [
        need (j.state != .running && (Tab.look s.samples.pipes slot).isNone && set.isSome) 64,
        need (data.any fun d => set.all fun x => decide (pipeBatch x.five ≤ d.count)) 68, p.zeros 69 3,
        need (p.param 8 8 % 4096 == 0 && decide (p.param 8 8 + p.param 24 4 * 3 * p.param 16 8 ≤ j.holdSize) && fits) 72,
        need (p.param 16 8 % 4096 == 0 && set.all fun x => decide (x.bufferSize ≤ p.param 16 8)) 80,
        need (decide (j.span ≤ p.param 24 4) && decide (p.param 24 4 ≤ 256)) 88,
        need (restored.isEmpty || p.param 28 4 == 0) 92,
        need (p.param 32 4 == if restored.isEmpty then j.next else 0) 96, p.zeros 100 28]
  effect := fun p s =>
    match s.findJob p.job with
    | none => s
    | some (slot, j) =>
      let restored := Tab.get [] s.samples.restored slot
      let anchors := if restored.isEmpty then [(p.param 28 4, p.param 32 4)] else restored
      let sets := j.ranks.zipIdx.map fun e => (e.2, e.1)
      let s := { s with samples := { s.samples with restored := Tab.del s.samples.restored slot } }
      (s.setPipe slot ⟨p.param 4 1, p.param 8 8, p.param 16 8, p.param 24 4, anchors, sets⟩).complete p Status.ok 0 0 0

/-- PIPELINE_CONFIG. -/
def execPipelineConfig (p : Packet) (s : State) : Host.Outcome State Fault Refusal := .next (pipelineConfigCommand.start p s)

/-- The anchors that steps from t on can use. -/
def anchorsFrom (l : List (Nat × Nat)) (t : Nat) : List (Nat × Nat) :=
  l.filter fun a => !l.any fun b => decide (a.2 < b.2) && decide (b.2 ≤ t)

/-- The step below which a job runs no step again: its next step, or the step after the mustered one (R461). -/
def Job.floorStep (j : Job) : Nat := if j.mustered = 0 then j.next else min j.next j.mustered

/-- An anchor takes its place in ascending start step; one with the same start step is replaced. -/
def addAnchor (a : Nat × Nat) (l : List (Nat × Nat)) : List (Nat × Nat) :=
  (l.filter fun b => decide (b.2 < a.2)) ++ [a] ++ l.filter fun b => decide (a.2 < b.2)

def epochSetCommand : Command where
  code := 0x0403
  lens := fun n => n == 1
  job := .paramOpen 0
  params := fun s p =>
    match s.findJob p.job with
    | none => need false 64
    | some (slot, j) =>
      let pipe := Tab.look s.samples.pipes slot
      lowestFail [need pipe.isSome 64,
        need (decide (j.next + 3 ≤ p.param 8 4) &&
          pipe.all fun x => decide ((addAnchor (p.param 4 4, p.param 8 4) (anchorsFrom x.anchors j.next)).length ≤ 8)) 72,
        p.zeros 76 52]
  effect := fun p s =>
    match s.findJob p.job with
    | none => s
    | some (slot, j) =>
      let s := match Tab.look s.samples.pipes slot with
        | none => s
        | some x => s.setPipe slot { x with
            anchors := addAnchor (p.param 4 4, p.param 8 4) (anchorsFrom x.anchors j.floorStep) }
      s.complete p Status.ok 0 0 0

/-- EPOCH_SET. -/
def execEpochSet (p : Packet) (s : State) : Host.Outcome State Fault Refusal := .next (epochSetCommand.start p s)

/-! ## Dealing a batch (R238, R247) -/

/-- The settings and the pipeline of a job's step. -/
def State.pipeAt (s : State) (slot step : Nat) : Option (PipeSettings × Pipeline × Dataset) :=
  match Tab.look s.job.jobs slot, Tab.look s.samples.pipes slot with
  | some j, some x =>
    match pipeSettings (j.imageAt step), Tab.look s.samples.datasets x.dataset with
    | some st, some d => some (st, x, d)
    | _, _ => none
  | _, _ => none

/-- The job slot of a batch's owner. -/
def State.ownerSlot (s : State) (o : SampleOwner) : Option Nat :=
  match o with
  | .job slot => some slot
  | .batch key => (s.running.find? fun r => r.kind == .batchPrepare key).bind fun r => (s.findJob r.pkt.job).map fun e => e.1

/-- The rank set of a rank (R239). -/
def Pipeline.setOf (x : Pipeline) (rank : Nat) : Nat := ((x.sets.find? fun e => e.2 == rank).map fun e => e.1).getD 0

/-- Where a batch goes. -/
def State.batchAt (s : State) (o : SampleOwner) (rank step : Nat) : Nat :=
  match o with
  | .job slot =>
    match Tab.look s.job.jobs slot, Tab.look s.samples.pipes slot with
    | some j, some x => j.holdBase + x.holdOffset + (x.setOf rank * 3 + step % 3) * x.stride
    | _, _ => 0
  | .batch key =>
    match s.running.find? fun r => r.kind == .batchPrepare key with
    | some r => r.pkt.param 16 8 + (step - r.pkt.param 8 4) * r.pkt.param 24 8
    | none => 0

/-- Deal the slots of a batch to the dies in blocks of 64, AD_0 first, and clear its mask. -/
def State.deal (s : State) (o : SampleOwner) (rank step : Nat) : State :=
  match (s.ownerSlot o).bind fun slot => s.pipeAt slot step with
  | none => s
  | some (x, _, _) =>
    let n := ceilDiv x.slots 64
    let block := fun (i : Nat) => (⟨o, rank, step, 64 * i, min 64 (x.slots - 64 * i)⟩ : SampleBlock)
    let part := fun (r : Nat) => ((List.range n).filter fun i => i % 2 == r).map block
    let q := { s.samples with
      queue0 := s.samples.queue0 ++ part 0
      queue1 := s.samples.queue1 ++ part 1
      left := s.samples.left ++ [(o, rank, step, x.slots)] }
    ({ s with samples := q } : State).zero (s.batchAt o rank step + x.maskAt) x.maskBytes

/-! ## BATCH_PREPARE (R241) -/

/-- The largest buffer of the steps a BATCH_PREPARE covers. -/
def prepareSize (j : Job) (first count : Nat) : Option Nat :=
  match pipeSettings (j.imageAt first), pipeSettings (j.imageAt (first + count - 1)) with
  | some x, some y => some (max x.bufferSize y.bufferSize)
  | _, _ => none

def batchDest (s : State) (p : Packet) : Range :=
  let size := ((s.findJob p.job).bind fun e => prepareSize e.2 (p.param 8 4) (p.param 12 4)).getD 0
  ⟨p.param 16 8, (p.param 12 4 - 1) * p.param 24 8 + size⟩

def batchPrepareCommand : Command where
  code := 0x0404
  lens := fun n => n == 1
  job := .paramOpen 0
  params := fun s p =>
    match s.findJob p.job with
    | none => need false 64
    | some (slot, j) =>
      let pipe := Tab.look s.samples.pipes slot
      lowestFail [need pipe.isSome 64, need (j.ranks.contains (p.param 4 4)) 68,
        need (pipe.all fun x => x.anchors.any fun a => decide (a.2 ≤ p.param 8 4)) 72,
        need (decide (1 ≤ p.param 12 4) && decide (p.param 12 4 ≤ 65536)) 76, need (p.param 16 8 % 4096 == 0) 80,
        need (p.param 24 8 % 4096 == 0 && (prepareSize j (p.param 8 4) (p.param 12 4)).any fun n => decide (n ≤ p.param 24 8)) 88,
        p.zeros 96 32]
  uses := fun s p => [⟨80, batchDest s p, true⟩]
  security := fun s p =>
    match s.findJob p.job with
    | some (_, j) =>
      if (batchDest s p).inside ⟨j.holdBase, j.holdSize⟩ then none else s.openFail [⟨80, batchDest s p, true⟩]
    | none => none
  unit := 4
  total := fun s p => match (s.findJob p.job).bind fun e => pipeSettings (e.2.imageAt (p.param 8 4)) with
    | some x => x.slots * p.param 12 4
    | none => 0
  effect := fun p s =>
    let n := match (s.findJob p.job).bind fun e => pipeSettings (e.2.imageAt (p.param 8 4)) with
      | some x => x.slots * p.param 12 4
      | none => 0
    (s.enroll p (.batchPrepare s.starts) [⟨80, batchDest s p, true⟩] n).deal (.batch s.starts) (p.param 4 4) (p.param 8 4)

/-- BATCH_PREPARE. -/
def execBatchPrepare (p : Packet) (s : State) : Host.Outcome State Fault Refusal := .next (batchPrepareCommand.start p s)

/-! ## CORRECTION_LOAD (R262, R263) -/

/-- Decode lanes that are free: unfenced, and no sample in them. -/
def State.freeLanes (s : State) (die : Nat) : List Nat :=
  ((s.unfenced 3).filter fun u => unitDie u == some die).map unitIndex |>.filter fun n =>
    !(s.samples.window0 ++ s.samples.window1).any fun e => e.lane == some n && e.result.isNone

/-- A set that the active or staged section 6 of a job with a pipeline names. -/
def State.setNamed (s : State) (x : CorrectionSet) : Bool :=
  s.job.jobs.any fun e =>
    (Tab.look s.samples.pipes e.1).isSome &&
      ([e.2.image] ++ e.2.staged.toList.map fun y => y.image).any fun m =>
        ((manSection m 6).map setEntries).any fun l => l.any fun g => slice g 32 32 == x.digest.take 32

/-- The vertex map of a set image, as stored. -/
def vertexBytes (g : List Byte) : List Byte :=
  (List.range (setVertsX g * setVertsY g)).flatMap fun k =>
    let m := exactMap g (16 * (k % setVertsX g)) (16 * (k / setVertsX g))
    leBytes 4 (unsignedOf 32 m.1) ++ leBytes 4 (unsignedOf 32 m.2)

/-- A vertex map read back. -/
def vertexMapOf (b : List Byte) (n : Nat) : VertexMap :=
  ((List.range n).map fun k => (leSigned b (8 * k) 4, leSigned b (8 * k + 4) 4)).toArray

/-- The largest difference between the exact map and the interpolated one at a block centre. -/
def centreError (g : List Byte) (v : VertexMap) : Nat :=
  let across := setCorrW g / 16
  (List.range (across * (setCorrH g / 16))).foldl (fun n k =>
    let x := 16 * (k % across) + 8
    let y := 16 * (k / across) + 8
    let a := exactMap g x y
    let b := mapAt v (setVertsX g) x y
    max n (max (a.1 - b.1).natAbs (a.2 - b.2).natAbs)) 0

def correctionImage (p : Packet) : Range := ⟨p.param 8 8, p.param 4 4⟩
def correctionMap (p : Packet) : Range := if p.param 4 4 = 0 then ⟨0, 0⟩ else ⟨p.param 16 8, p.param 24 8⟩

def correctionLoadCommand : Command where
  code := 0x0405
  lens := fun n => n == 1
  job := .optional
  params := fun s p =>
    let g := s.load (p.param 8 8) (p.param 4 4)
    let fits := p.param 4 4 == 0 || (setFault g).isSome || decide (8 * setVertsX g * setVertsY g ≤ p.param 24 8)
    lowestFail [
      need (decide (p.param 0 2 ≤ 255) && ((Tab.look s.samples.sets (p.param 0 2)).all fun x => !s.setNamed x)) 64,
      p.zeros 66 2, need (decide (p.param 4 4 ≤ 128 + 16 * 65 * 65)) 68, need (p.param 8 8 % 64 == 0) 72,
      need (p.param 16 8 % 64 == 0) 80, need fits 88, p.zeros 96 32]
  uses := fun _ p => [⟨72, correctionImage p, false⟩, ⟨80, correctionMap p, true⟩]
  overlaps := fun _ p =>
    if p.param 4 4 = 0 then none
    else firstFail [clashFail [correctionImage p] [⟨80, correctionMap p, true⟩], need (correctionMap p).inDie 80]
  security := fun s p => s.openFail [⟨72, correctionImage p, false⟩, ⟨80, correctionMap p, true⟩]
  ready := fun s p => p.param 4 4 == 0 || !(s.freeLanes 0).isEmpty || !(s.freeLanes 1).isEmpty
  effect := fun p s =>
    let n := p.param 0 2
    if p.param 4 4 = 0 then
      let q := { s.samples with sets := Tab.del s.samples.sets n }
      ({ s.unguard .correction n with samples := q } : State).complete p Status.ok 0 0 0
    else
      s.orPoisoned p [correctionImage p] id fun s =>
        let g := s.load (p.param 8 8) (p.param 4 4)
        match setFault g with
        | some o => s.complete p Status.correctionInvalid o 0 0
        | none =>
          let v := vertexBytes g
          let s := s.store (p.param 16 8) v
          let q := { s.samples with sets := Tab.put s.samples.sets n ⟨g, sha3 g, p.param 16 8⟩ }
          let s := ({ s.unguard .correction n with samples := q } : State)
          let s := (s.guard .correction n (correctionImage p) false).guard .correction n (correctionMap p) false
          s.complete p Status.ok (centreError g (vertexMapOf v (setVertsX g * setVertsY g))) 0 0

/-- CORRECTION_LOAD. -/
def execCorrectionLoad (p : Packet) (s : State) : Host.Outcome State Fault Refusal := .next (correctionLoadCommand.start p s)

end Sys2Proof.Machine
end

