-- ==== Sys2Proof/Machine/Lanes.lean ====
section
/-! DEFINITION. Decode lanes and reorder windows: SAMPLE_ISSUE, SAMPLE_DECODE_COMPLETE, SLOT_HAND_ON and
SAMPLE_SOURCE_TIMEOUT (R226, R229, R242 to R249, R253 to R273). -/

namespace Sys2Proof.Machine

/-! ## Sources -/

/-- n bytes of a source at an offset, as module memory sees them; a peer's and a storage node's come with the event, by the
source's own addresses. -/
def State.sourceBytes (s : State) (x : Source) (off n : Nat) (fetched : Option (Tab Byte)) : Option (List Byte) :=
  match x.kind with
  | 1 => some (s.load (x.base + off) n)
  | 2 => some (s.load (hostWindow + x.base + off) n)
  | _ => fetched.map fun m => Memory.readN m (x.base + off) n

/-- The first poisoned access of a source's bytes. -/
def State.sourcePoison (s : State) (x : Source) (off n : Nat) : Option Nat :=
  if x.kind = 1 then s.poisonedIn [⟨x.base + off, n⟩] else none

/-! ## Index entries (R225, R226) -/

def entryOffset (e : List Byte) : Nat := leField e 0 8
def entryLength (e : List Byte) : Nat := leField e 8 4
def entrySource (e : List Byte) : Nat := leField e 12 1
def entryKind (e : List Byte) : Nat := leField e 13 1
def entrySet (e : List Byte) : Nat := leField e 14 2

/-- An index entry is sound (R226). -/
def entrySound (d : Dataset) (st : PipeSettings) (e : List Byte) : Bool :=
  let src := d.sources.getD (entrySource e) ⟨0, 0, 0, 0, 0⟩
  leField e 24 8 == 0 && entryLength e != 0 && decide (entrySource e ≤ 15) && src.kind != 0 && decide (1 ≤ entryKind e) &&
    decide (entryKind e ≤ 3) && (entrySet e == 0xFFFF || (setEntries st.six).any fun g => leField g 0 2 == entrySet e) &&
    decide (entryOffset e + entryLength e ≤ src.length)

/-- The loaded correction set of a number: the lowest slot whose digest begins with its prefix (R263). -/
def State.namedSet (s : State) (st : PipeSettings) (number : Nat) : Option CorrectionSet :=
  ((setEntries st.six).find? fun g => leField g 0 2 == number).bind fun g =>
    (s.samples.sets.find? fun x => slice g 32 32 == x.2.digest.take 32).map fun x => x.2

/-! ## Failures -/

/-- The ranks vote FAIL with a cause in the step the samples are for (R229, R263), or the BATCH_PREPARE ends with it. -/
def State.sampleFault (s : State) (o : SampleOwner) (step : Nat) (cause : Status) (detail : Nat) : State :=
  match o with
  | .job slot =>
    { s.dropBatch o (some step) with ingest := { s.ingest with ended := s.ingest.ended ++ [(slot, step, cause, detail)] } }
  | .batch key =>
    match s.running.find? fun r => r.kind == .batchPrepare key with
    | some r =>
      let d := batchDest s r.pkt
      (((s.dropBatch o none).scramble d.lo d.len).finish r cause detail).wake
    | none => s.dropBatch o none

/-- A source access is poisoned (R446). -/
def State.sampleParity (s : State) (o : SampleOwner) (step a : Nat) : State :=
  (s.readTwice a).sampleFault o step Status.dataPoisoned a

/-! ## SAMPLE_ISSUE (R247, R249) -/

def State.queueOf (s : State) (die : Nat) : List SampleBlock := if die = 0 then s.samples.queue0 else s.samples.queue1
def State.windowOf (s : State) (die : Nat) : List WindowEntry := if die = 0 then s.samples.window0 else s.samples.window1
def State.setQueue (s : State) (die : Nat) (l : List SampleBlock) : State :=
  { s with samples := if die = 0 then { s.samples with queue0 := l } else { s.samples with queue1 := l } }
def State.setWindow (s : State) (die : Nat) (l : List WindowEntry) : State :=
  { s with samples := if die = 0 then { s.samples with window0 := l } else { s.samples with window1 := l } }

/-- A die has an unfenced decode lane. -/
def State.dieDecodes (s : State) (die : Nat) : Bool := (s.unfenced 3).any fun u => unitDie u == some die

/-- The lane a slot of a die goes to: its lowest free one, or the other die's once it has no unfenced lane. -/
def State.laneFor (s : State) (die : Nat) : Option Nat :=
  if s.dieDecodes die then (s.freeLanes die).head? else (s.freeLanes (1 - die)).head?

/-- A die without an unfenced lane passes its blocks to the other die. -/
def State.passBlocks (s : State) (die : Nat) : State :=
  if s.dieDecodes die ∨ !s.dieDecodes (1 - die) then s
  else (s.setQueue (1 - die) (s.queueOf (1 - die) ++ s.queueOf die)).setQueue die []

def windowSize : Nat := 4096

/-- The first entry a test accepts is updated. -/
def updateFirst {α : Type} (f : α → Bool) (g : α → α) : List α → List α
  | [] => []
  | x :: t => if f x then g x :: t else x :: updateFirst f g t

/-- The slot at the head of a block leaves it. -/
def advanceBlock : List SampleBlock → List SampleBlock
  | [] => []
  | b :: t => if b.count ≤ 1 then t else { b with first := b.first + 1, count := b.count - 1 } :: t

/-- Scratch does not fit the hold area, or the entry names a set that is not loaded: the detail of PIPELINE_SETTINGS (R263). -/
def State.settingsFault (s : State) (slot : Nat) (st : PipeSettings) (x : Pipeline) (d : Dataset) (e : List Byte) : Option Nat :=
  match Tab.look s.job.jobs slot with
  | none => none
  | some j =>
    if j.holdSize < scratchAt x.holdOffset x.capacity x.stride + 32 * st.scratch then some 0xFFFFFFFF
    else if entrySound d st e && entrySet e != 0xFFFF && (s.namedSet st (entrySet e)).isNone then some (entrySet e)
    else none

/-- Issue the next slot of a die to a lane. -/
def State.issueNext (s : State) (die lane : Nat) (fetched : Option (Tab Byte)) : State :=
  match s.queueOf die with
  | [] => s
  | b :: _ =>
    match s.ownerSlot b.owner with
    | none => s.dropBatch b.owner none
    | some slot =>
      match s.pipeAt slot b.step with
      | none => s.sampleFault b.owner b.step Status.pipelineSettings 0xFFFFFFFF
      | some (st, x, d) =>
        let k := sampleOf st d.count x.anchors b.rank b.step b.first
        let src := d.sources.getD d.indexSource ⟨0, 0, 0, 0, 0⟩
        let off := d.indexOffset + 32 * k.1
        match s.sourcePoison src off 32 with
        | some a => s.sampleParity b.owner b.step a
        | none =>
          match s.sourceBytes src off 32 fetched with
          | none => s
          | some e =>
            match s.settingsFault slot st x d e with
            | some detail => s.sampleFault b.owner b.step Status.pipelineSettings detail
            | none =>
              let w : WindowEntry := ⟨b.owner, b.rank, b.step, b.first, k.1, e, some lane, none⟩
              ((s.setQueue die (advanceBlock (s.queueOf die))).setWindow die (s.windowOf die ++ [w])).bump Reg.smpWalkExtra k.2

/-- SAMPLE_ISSUE: a die gives a free lane the oldest slot that lost its lane, or else its next slot; the index entry of a
remote source comes with the event. -/
def execSampleIssue (die : Nat) (fetched : Option (List (Nat × Byte))) (s : State) : Host.Outcome State Fault Refusal :=
  .next (
    if 1 < die then s
    else
      let s := s.passBlocks die
      match s.laneFor die with
      | none => s
      | some lane =>
        let lost := fun (e : WindowEntry) => e.lane.isNone && e.result.isNone
        if (s.windowOf die).any lost then s.setWindow die (updateFirst lost (fun e => { e with lane := some lane }) (s.windowOf die))
        else if windowSize ≤ (s.windowOf die).length then s
        else s.issueNext die lane (fetched.map fun l => l.foldl (fun m e => Memory.write m e.1 e.2) []))

/-! ## SAMPLE_DECODE_COMPLETE (R242 to R246, R254 to R256, R271 to R273) -/

def sampleCorrupt (reason symbols fault : Nat) : SampleResult := ⟨reason, symbols, fault, []⟩
def noFaultOffset : Nat := 0xFFFFFFFF

/-- The FP32 triple of section 6 at an offset. -/
def sixTriple (b : List Byte) (o c : Nat) : Num := fp32.value (leField b (o + 4 * c) 4)

def PipeSettings.sampling (st : PipeSettings) (wide : Bool) : Sampling where
  cubic := leField st.six 2 1 == 2
  clampBorder := leField st.six 3 1 == 2
  border := fun c => let v := leField st.six (16 + 2 * c) 2; if wide then v else (v + 128) / 257

def PipeSettings.normal (st : PipeSettings) : Normal where
  linear := bitOf (leField st.six 4 1) 0
  mean := sixTriple st.six 24
  scale := sixTriple st.six 36

/-- Scratch that a sample takes with its set (R273). -/
def scratchNeed (image : Nat) (set : Option CorrectionSet) : Nat :=
  pageUp image + (match set with
    | some x => pageUp (setCorrW x.image * setCorrH x.image * 6)
    | none => 0)

/-- A decoded picture becomes an element: the result, its border taps and its source pixels. -/
def State.makeElement (s : State) (st : PipeSettings) (set : Option CorrectionSet) (wide : Bool) (p : Picture) (symbols : Nat) :
    SampleResult × Nat × Nat :=
  let c := match set with
    | none => (widen p wide, 0)
    | some x =>
      let n := setVertsX x.image * setVertsY x.image
      correctPicture p (st.sampling wide) wide x.image (vertexMapOf (s.load x.mapBase (8 * n)) n)
  (⟨0, symbols, noFaultOffset, elementBytes c.1 st.normal st.outType st.layout st.width st.height⟩, c.2, p.width * p.height)

/-- The result of a raw sample (R254). -/
def State.decodeRaw (s : State) (st : PipeSettings) (set : Option CorrectionSet) (wide : Bool) (b : List Byte) :
    SampleResult × Nat × Nat :=
  let size := if wide then 2 else 1
  if b.length < 16 then (sampleCorrupt 2 0 16, 0, 0)
  else match rawHeader b with
    | none => (sampleCorrupt 3 0 0, 0, 0)
    | some (w, h, c) =>
      if set.any (fun x => (setSrcW x.image, setSrcH x.image) != (w, h)) ∨ st.scratch < scratchNeed (w * h * 3 * size) set then
        (sampleCorrupt 3 0 0, 0, 0)
      else if b.length < 16 + w * h * c * size then (sampleCorrupt 2 0 16, 0, 0)
      else s.makeElement st set wide (rawPixels b w h c size) 0

/-- The result of a JPEG sample (R255, R256); `progressive` is counted by R277. -/
def State.decodeJpeg (s : State) (st : PipeSettings) (set : Option CorrectionSet) (b : List Byte) :
    (SampleResult × Nat × Nat) × Bool :=
  let size := set.map fun x => (setSrcW x.image, setSrcH x.image)
  match readJpeg ⟨size, st.budget⟩ (fun f => decide (scratchNeed f.scratch set ≤ st.scratch)) b with
  | .error f => ((sampleCorrupt f.reason f.symbols (if f.reason = 4 then noFaultOffset else f.offset), 0, 0), false)
  | .ok j => (s.makeElement st set false j.pixels j.symbols, j.frame.progressive)

/-- SAMPLE_DECODE_COMPLETE: the lane finishes its sample; bytes of a remote source come with the event. -/
def execSampleDecodeComplete (lane : Nat) (fetched : Option (List (Nat × Byte))) (s : State) :
    Host.Outcome State Fault Refusal :=
  .next (
    let mine := fun (e : WindowEntry) => e.lane == some lane && e.result.isNone
    let fetched := fetched.map fun l => l.foldl (fun (m : Tab Byte) e => Memory.write m e.1 e.2) []
    match (s.samples.window0 ++ s.samples.window1).find? mine with
    | none => s
    | some e =>
      match (s.ownerSlot e.owner).bind fun slot => s.pipeAt slot e.step with
      | none => s
      | some (st, _, d) =>
        let give := fun (s : State) (r : SampleResult) =>
          let q := { s.samples with
            window0 := updateFirst mine (fun e => { e with result := some r }) s.samples.window0
            window1 := updateFirst mine (fun e => { e with result := some r }) s.samples.window1 }
          ({ s with samples := q } : State)
        if !entrySound d st e.entry then give s (sampleCorrupt 3 0 noFaultOffset)
        else
          let src := d.sources.getD (entrySource e.entry) ⟨0, 0, 0, 0, 0⟩
          match s.sourcePoison src (entryOffset e.entry) (entryLength e.entry) with
          | some a => s.sampleParity e.owner e.step a
          | none =>
            match s.sourceBytes src (entryOffset e.entry) (entryLength e.entry) fetched with
            | none => s
            | some b =>
              let set := if entrySet e.entry = 0xFFFF then none else s.namedSet st (entrySet e.entry)
              let r := if entryKind e.entry = 1 then s.decodeJpeg st set b
                else (s.decodeRaw st set (entryKind e.entry == 3) b, false)
              let s := ((s.bump Reg.smpBorderTaps r.1.2.1).bumpWide Reg.smpPixelsLo r.1.2.2).bump Reg.smpProgressive
                (if r.2 then 1 else 0)
              give s r.1.1)

/-! ## SLOT_HAND_ON (R238, R242, R246, R248) -/

/-- The 16-byte waybill of a slot. -/
def waybill (sample : Nat) (r : SampleResult) : List Byte :=
  leBytes 6 sample ++ leBytes 1 r.reason ++ leBytes 1 0 ++ leBytes 4 r.symbols ++ leBytes 4 r.fault

/-- Write a slot's element, label, mask bit and waybill. -/
def State.writeSlot (s : State) (st : PipeSettings) (base : Nat) (e : WindowEntry) (r : SampleResult) : State :=
  let good := r.reason == 0
  let n := st.elementSize
  let s := s.store (base + e.slot * n) (if good then r.element else List.replicate n 0)
  let l := st.labelBytes
  let s := if l = 0 then s else
    s.store (base + st.labelsAt + e.slot * l) (if good then slice e.entry 16 l else List.replicate l 0)
  let m := base + st.maskAt + e.slot / 8
  let old := s.loadNat m 1
  let bit := 2 ^ (e.slot % 8)
  let cleared := old - (if bitOf old (e.slot % 8) then bit else 0)
  let s := s.store m (leBytes 1 (if good then cleared + bit else cleared))
  s.store (base + st.waybillsAt + 16 * e.slot) (waybill e.sample r)

def corruptCounter : Nat → Option Nat
  | 1 => some Reg.smpCorruptDecode
  | 2 => some Reg.smpCorruptTruncated
  | 3 => some Reg.smpCorruptFormat
  | 4 => some Reg.smpCorruptBudget
  | _ => none

/-- The SAMPLE tokens of a job's step, once the batches of all the ranks held here are complete. -/
def State.sampleTokens (s : State) (slot step : Nat) : State :=
  match Tab.look s.job.jobs slot with
  | none => s
  | some j =>
    if !j.ranks.all fun r => s.samples.ready.contains (slot, r, step) then s
    else match s.graph.runs.find? fun g => g.2.job == some slot && g.2.cmd.isNone && g.2.step == step with
      | some g => s.tokensFor g.1 4 fun _ => true
      | none => s

/-- A batch is complete. -/
def State.batchDone (s : State) (o : SampleOwner) (rank step : Nat) : State :=
  match o with
  | .job slot =>
    let q := { s.samples with ready := s.samples.ready ++ [(slot, rank, step)] }
    ({ s with samples := q } : State).sampleTokens slot step
  | .batch key =>
    match s.running.find? fun r => r.kind == .batchPrepare key with
    | none => s
    | some r =>
      if step + 1 < r.pkt.param 8 4 + r.pkt.param 12 4 then s.deal o rank (step + 1)
      else (s.finish r Status.ok 0).wake

/-- One slot fewer is left of a batch. -/
def State.slotDone (s : State) (o : SampleOwner) (rank step : Nat) : State :=
  let mine := fun (x : SampleOwner × Nat × Nat × Nat) => x.1 == o && x.2.1 == rank && x.2.2.1 == step
  match s.samples.left.find? mine with
  | none => s
  | some x =>
    if x.2.2.2 ≤ 1 then
      let q := { s.samples with left := s.samples.left.filter fun y => !mine y }
      ({ s with samples := q } : State).batchDone o rank step
    else
      { s with samples := { s.samples with
          left := updateFirst mine (fun y => (y.1, y.2.1, y.2.2.1, y.2.2.2 - 1)) s.samples.left } }

/-- A BATCH_PREPARE shows one more sample. -/
def State.showSample (s : State) (o : SampleOwner) : State :=
  match o with
  | .job _ => s
  | .batch key =>
    match s.running.find? fun r => r.kind == .batchPrepare key with
    | none => s
    | some r =>
      let r' := { r with position := r.position + 1 }
      ({ s with running := s.running.map fun x => if x = r then r' else x } : State).advance r.pkt r'.position r.total

/-- SLOT_HAND_ON: a die hands on the oldest slot of its window, once it is complete. -/
def execSlotHandOn (die : Nat) (s : State) : Host.Outcome State Fault Refusal :=
  .next (
    match s.windowOf die with
    | [] => s
    | e :: t =>
      match e.result with
      | none => s
      | some r =>
        let s := s.setWindow die t
        match (s.ownerSlot e.owner).bind fun slot => s.pipeAt slot e.step with
        | none => s
        | some (st, _, _) =>
          let s := s.writeSlot st (s.batchAt e.owner e.rank e.step) e r
          let s := match corruptCounter r.reason with
            | some c => s.bump c 1
            | none => s
          ((s.bumpWide Reg.smpSamplesLo 1).showSample e.owner).slotDone e.owner e.rank e.step)

/-! ## SAMPLE_SOURCE_TIMEOUT (R229) -/

/-- SAMPLE_SOURCE_TIMEOUT: a read of the next index entry of a die, or of the bytes of the sample in a lane, has not
completed in time. -/
def execSampleSourceTimeout (die : Nat) (lane : Option Nat) (s : State) : Host.Outcome State Fault Refusal :=
  .next (
    let remote := fun (d : Dataset) (n : Nat) => decide (2 ≤ (d.sources.getD n ⟨0, 0, 0, 0, 0⟩).kind)
    match lane with
    | some n =>
      match (s.samples.window0 ++ s.samples.window1).find? fun e => e.lane == some n && e.result.isNone with
      | none => s
      | some e =>
        match (s.ownerSlot e.owner).bind fun slot => s.pipeAt slot e.step with
        | some (st, _, d) =>
          if entrySound d st e.entry ∧ remote d (entrySource e.entry) then
            s.sampleFault e.owner e.step Status.sampleSourceFailed e.sample
          else s
        | none => s
    | none =>
      match s.queueOf die with
      | [] => s
      | b :: _ =>
        match (s.ownerSlot b.owner).bind fun slot => s.pipeAt slot b.step with
        | some (st, x, d) =>
          if remote d d.indexSource then
            s.sampleFault b.owner b.step Status.sampleSourceFailed (sampleOf st d.count x.anchors b.rank b.step b.first).1
          else s
        | none => s)

end Sys2Proof.Machine
end

