-- ==== Sys2Proof/Machine/Phases.lean ====
section
/-! DEFINITION. The life of a step's attempt (R39 to R42, R46 to R48, R303, R320, R322): the graph of a step, the start of an
attempt, the end of a job's run in HELD, rehosting (R52, R239) and rollback (R461 to R463). -/

namespace Sys2Proof.Machine

/-! ## The step graph (R302, R320) -/

/-- The graph number and digest prefix of a manifest's step graph, if it has one. -/
def stepGraphOf (m : List Byte) : Option (Nat × List Byte) :=
  (manSection m 1).bind fun b =>
    if stepGraphNumber b = 0xFFFF then none
    else some (stepGraphNumber b,
      (((graphEntries b).find? fun e => graphEntryNumber e == stepGraphNumber b).map graphEntryPrefix).getD [])

/-- The lowest graph slot whose digest begins with a prefix. -/
def State.graphByPrefix (s : State) (pre : List Byte) : Option (Nat × GraphSlot) :=
  s.graph.graphs.find? fun e => e.2.digest.take 32 == pre

/-- The image of the graph that a job's step runs, where it is loaded. -/
def State.stepImage (s : State) (j : Job) (step : Nat) : List Byte :=
  match (stepGraphOf (j.imageAt step)).bind fun x => s.graphByPrefix x.2 with
  | some (_, g) => g.image
  | none => []

/-! ## Failures met before an attempt -/

/-- Programs and samples of a step that ended with a failure, as causes of the rank's vote. -/
def State.absorbEnded (s : State) (slot step : Nat) : State :=
  let bad := s.ingest.ended.filter fun e => e.1 == slot && e.2.1 == step && e.2.2.1 != Status.ok
  bad.foldl (fun t e => t.onJob slot fun j => j.blame e.2.2.1 e.2.2.2) s

/-- The PREPARED tokens of a step's programs that have ended (R304), one for each, and its SAMPLE tokens. -/
def State.preparedTokens (s : State) (slot step run : Nat) : State :=
  let n := (s.ingest.ended.filter fun e => e.1 == slot && e.2.1 == step && e.2.2.1 == Status.ok).length
  ((List.range n).foldl (fun t _ => t.tokensFor run 5 fun _ => true) s).sampleTokens slot step

/-! ## An attempt (R46, R322) -/

/-- What a run keeps for the next attempt: its bound versions, and the digests of its disputed tiles (R449). -/
def GraphRun.again (g : GraphRun) (attempt : Nat) : GraphRun := { g with
  attempt := attempt
  commitOpen := false
  stopped := false
  tasks := []
  heldTokens := []
  dups := []
  runs := g.runs.filter fun x => g.disputed.contains x.1
  selected := []
  direct := []
  failed := [] }

/-- Discard the work of a job's attempt outside its graph run: contributions, open planes, disputes of its transport. -/
def State.dropAttempt (s : State) (slot : Nat) (j : Job) : State :=
  let s := { s with emb := { s.emb with scatter := Tab.del s.emb.scatter slot } }
  s.setRelay { s.relay with planes := s.relay.planes.filter fun x => !(x.job == j.id && x.step == j.next && decide (x.slot < 2 ^ 31)) }

/-- Start an attempt of the job's next step from its held inputs. -/
def State.startAttempt (s : State) (slot attempt : Nat) : State :=
  match Tab.look s.job.jobs slot with
  | none => s
  | some j =>
    let j1 := { j with
      phase := .run
      attempt := attempt
      faults := []
      votes := []
      voteTimer := none
      decisionTimer := none
      queryTimer := none
      acting := none
      state := .running
      words := List.replicate 32 0
      replays := if attempt = 0 then j.replays else satAdd j.replays 1 }
    let s := (s.dropAttempt slot j).setJob slot j1
    let s := s.absorbEnded slot j.next
    match s.stepRunOf slot with
    | none => s
    | some (run, g) => ((s.clearRun run).setGraphRun run (g.again attempt)).preparedTokens slot j.next run

/-! ## HELD (R48) -/

/-- The detail of a cause where the module knows it: the graph number of the step (R320), and the poisoned access (R446). -/
def Job.heldDetail (j : Job) (cause : Status) (detail : Nat) : Nat :=
  if cause = Status.graphUnavailable then ((stepGraphOf (j.imageAt j.next)).map fun x => x.1).getD detail
  else if cause = Status.dataPoisoned then j.spoiled.getD detail
  else detail

/-- The job enters HELD at its last committed step: its graph stops, and its queued STEP_RUNs complete with the cause. Held
inputs are kept. -/
def State.holdJob (s : State) (slot : Nat) (cause : Status) (known : Nat) : State :=
  match Tab.look s.job.jobs slot with
  | none => s
  | some j =>
    let detail := j.heldDetail cause known
    let s := match s.stepRunOf slot with
      | some (run, _) => s.dropRun run
      | none => s
    let s := s.dropAttempt slot j
    let j1 := { j with
      state := .held
      phase := .idle
      attempt := 0
      faults := []
      votes := []
      voteTimer := none
      decisionTimer := none
      queryTimer := none
      acting := none
      heldFor := some (cause, detail)
      applyJournal := []
      spoiled := none
      parity := []
      switched := j.switched || j.journalLost
      journalLost := false
      runs := [] }
    let s := (s.setJob slot j1).log 6 1 3 0xFFFF j.id (BitVec.ofNat 32 j.next) (leBytes 2 cause.toNat)
    let s := j.runs.foldl (fun t r => t.endStepRun r cause detail) s
    (s.wake).remedies

/-! ## Rehosting (R52, R239) -/

/-- Write the rank entry of a rank in the job's peer table (R411). -/
def State.moveRank (s : State) (j : Job) (r m : Nat) : State := s.store (j.peerTable + 4 * r) (leBytes 2 m)

/-- The new host of a rank: the module of the lowest-numbered rank of its replica group that stands on another module which is not
taken as failed. -/
def State.newHost (s : State) (j : Job) (r : Nat) (dead : List Nat) : Option Nat :=
  let gone := s.rankModule j r :: dead
  let group := (List.range j.rankCount).filter fun q => q % manShards j.image == r % manShards j.image && q != r
  (group.find? fun q => !gone.contains (s.rankModule j q)).map fun q => s.rankModule j q

/-- The lowest free rank set of a pipeline. -/
def Pipeline.freeSet (x : Pipeline) : Option Nat :=
  (List.range x.capacity).find? fun k => (Tab.look x.sets k).isNone

/-- This module takes a rank in: its rank set, and the batches of the steps that are prepared. -/
def State.adoptRank (s : State) (slot r : Nat) : State :=
  match Tab.look s.job.jobs slot with
  | none => s
  | some j =>
    let s := s.setJob slot { j with ranks := (j.ranks.filter fun q => decide (q < r)) ++ [r] ++ j.ranks.filter fun q => decide (r < q) }
    match Tab.look s.samples.pipes slot with
    | none => s
    | some x => match x.freeSet with
      | none => s.holdJob slot Status.pipelineFull r
      | some k =>
        let s := s.setPipe slot { x with sets := Tab.put x.sets k r }
        j.prepared.foldl (fun t step => if step < j.next then t else t.deal (.job slot) r step) s

/-- A rank leaves this module. A job with no rank left here has nothing to run: its STEP_RUNs complete with PEER_UNREACHABLE. -/
def State.loseRank (s : State) (slot r : Nat) : State :=
  match Tab.look s.job.jobs slot with
  | none => s
  | some j =>
    let j1 := { j with ranks := j.ranks.filter fun q => q != r }
    let s := s.setJob slot j1
    let s := match Tab.look s.samples.pipes slot with
      | some x => s.setPipe slot { x with sets := x.sets.filter fun e => e.2 != r }
      | none => s
    if j1.ranks.isEmpty then s.holdJob slot Status.peerUnreachable r else s

/-- Rehost one rank. Packets of the job to its old module that are not acknowledged are discarded (R439). -/
def State.rehostRank (s : State) (slot r : Nat) (dead : List Nat) : State :=
  match Tab.look s.job.jobs slot with
  | none => s
  | some j =>
    if j.state = .held then s
    else match s.newHost j r dead with
      | none => s.holdJob slot Status.peerUnreachable r
      | some m =>
        let old := s.rankModule j r
        let s := s.moveRank j r m
        let s := if (List.range j.rankCount).any fun q => s.rankModule j q == old then s
          else s.dropOps fun _ o => o.peer == old && o.job == j.id
        let s := if j.ranks.contains r && s.moduleId != some m then s.loseRank slot r else s
        let s := if !j.ranks.contains r && s.moduleId == some m then s.adoptRank slot r else s
        s.onJob slot fun j => { j with
          expelled := some (j.expelled.getD r)
          muster := j.muster.map fun x => { x with formed := false }
          digests := []
          verdicts := [] }

/-- Rehost every rank of failed modules, ascending. -/
def State.rehostModules (s : State) (slot : Nat) (dead : List Nat) : State :=
  match Tab.look s.job.jobs slot with
  | none => s
  | some j =>
    let lost := (List.range j.rankCount).filter fun r => dead.contains (s.rankModule j r)
    lost.foldl (fun t r => t.rehostRank slot r dead) s

/-- The root declares the module of a rank failed (R49). -/
def State.rehostModuleOf (s : State) (slot r : Nat) : State :=
  match Tab.look s.job.jobs slot with
  | none => s
  | some j => s.rehostModules slot [s.rankModule j r]

/-! ## Rollback (R461 to R463) -/

/-- The job can be rolled back to its mustered step: there is one, no switch was committed after it, its journal is whole, and no
step to be run again has used attempt 7. -/
def Job.canRollBack (j : Job) : Bool :=
  j.mustered != 0 && !j.switched && !j.journalLost && !(j.phase != .idle && j.attempt == 7) &&
    j.reports.all fun e => decide (e.1 < j.mustered) || decide (e.2.2 < 7)

/-- Put back what the muster journal holds, newest first. -/
def State.unjournal (s : State) (l : List (Nat × List Byte)) : State := l.reverse.foldl (fun t e => t.store e.1 e.2) s

/-- Delete the hot entries of a job's slices on both dies. -/
def State.dropHotOf (s : State) (job : Word) : State :=
  let mine := fun (e : DirEntry) => (s.embSlice e.sliceKey).any fun x => x.job == job
  let drop := fun (e : DirEntry) => if mine e then none else some e
  ((s.mapHot 0 drop).mapHot 1 drop).dropReplicas

/-- A rank is expelled by a muster: the module of its group's leader counts and logs it (R472, R521). -/
def State.noteExpelled (s : State) (j : Job) (named : Nat) : State :=
  if j.ranks.contains (named % manShards j.image) then
    let step := (j.muster.map fun m => m.step).getD j.next
    ((s.bump Reg.intExpulsions 1).log 4 1 8 0xFFFF j.id (BitVec.ofNat 32 step) (leBytes 4 named)).alert 1
  else s

/-- Roll the job back to its mustered step; `named` is the differing rank. -/
def State.rollback (s : State) (slot named : Nat) : State :=
  match Tab.look s.job.jobs slot with
  | none => s
  | some j =>
    if !j.canRollBack then s.holdJob slot Status.musterFailed named
    else
      let s := s.noteExpelled j named
      let s := match s.stepRunOf slot with
        | some (run, _) => s.dropRun run
        | none => s
      let s := s.dropAttempt slot j
      let s := ((s.unjournal j.musterJournal).dropHotOf j.id).dropPrepares slot
      let s := s.dropBatch (.job slot) none
      let s := { s with samples := { s.samples with ready := s.samples.ready.filter fun x => x.1 != slot } }
      let again := (j.reports.filter fun e => decide (j.mustered ≤ e.1)).map fun e => (e.1, e.2.2 + 1)
      let floors := again.foldl (fun t e => Tab.put t e.1 e.2) j.floors
      let j1 := { j with
        next := j.mustered
        phase := .idle
        state := .running
        attempt := 0
        floors := if j.phase = .idle then floors else Tab.put floors j.next (j.attempt + 1)
        prepared := []
        faults := []
        votes := []
        decision := none
        voteTimer := none
        decisionTimer := none
        queryTimer := none
        acting := none
        expelled := some named
        applyJournal := []
        musterJournal := []
        parity := []
        spoiled := none
        muster := none
        digests := []
        verdicts := [] }
      let s := ((s.setJob slot j1).bump Reg.intRollbacks 1).log 4 2 9 0xFFFF j.id (BitVec.ofNat 32 j.next) (leBytes 4 named)
      s.rehostRank slot named []

end Sys2Proof.Machine
end

