-- ==== Sys2Proof/Machine/Agree.lean ====
section
/-! DEFINITION. Votes and decisions (R44 to R49, R424, R458, R459, R598, R599): the commit tree, the merging of votes, what the root
decides, and what a rank does with a vote, a decision or a query that it receives. -/

namespace Sys2Proof.Machine

/-! ## The commit tree (R44) -/

def treeParent (r : Nat) : Nat := (r - 1) / 16
def treeChildren (n r : Nat) : List Nat := ((List.range 16).map fun i => 16 * r + 1 + i).filter fun c => decide (c < n)

/-- Causes for which the root sends no REPLAY (R70, R229, R239, R263, R320, R343, R347, R373, R428, R446, R460, R463, R488). -/
def noReplay : List Status :=
  [Status.manifestMismatch, Status.sampleSourceFailed, Status.pipelineFull, Status.pipelineSettings, Status.graphUnavailable,
   Status.versionAbsent, Status.scatterFull, Status.protectedRegion, Status.remoteAccess, Status.dataPoisoned,
   Status.journalFull, Status.directoryLost, Status.musterFailed]

/-! ## Votes (R45, R49, R458, R459) -/

/-- What is being voted on: a step's attempt, or a muster-only round. -/
structure Ballot where
  step : Nat
  attempt : Nat
  only : Bool
  round : Nat
  deriving DecidableEq, Repr

def Job.ballot (j : Job) : Option Ballot :=
  if j.phase = .voted then some ⟨j.next, j.attempt, false, 0⟩
  else match j.muster with
    | some m => if m.only && m.formed && j.phase == .idle then some ⟨m.step, m.attempt, true, m.round⟩ else none
    | none => none

def passVote (r : Nat) : Vote := ⟨r, true, 0, 0, none, false⟩

/-- How much a vote weighs when votes are merged: a cause without REPLAY, a differing rank, a missing rank, any other FAIL, PASS. -/
def Vote.weight (v : Vote) : Nat :=
  if v.pass then 0
  else if noReplay.contains v.cause then 4
  else if v.cause = Status.rankExpelled then (if v.missing then 2 else 3)
  else 1

/-- The vote that two votes merge to; of two that name ranks the lower rank is carried. -/
def Vote.worse (a b : Vote) : Vote :=
  if a.weight < b.weight then b
  else if a.weight = b.weight ∧ a.cause = Status.rankExpelled ∧ b.named.getD 0 < a.named.getD 0 then b
  else a

def mergeVotes (r : Nat) (l : List Vote) : Vote := { l.foldl Vote.worse (passVote r) with rank := r }

/-- A rank leads its replica group. -/
def Job.leads (j : Job) (r : Nat) : Bool := decide (r < manShards j.image)

/-- The votes that a rank's vote is formed from: its own causes, its muster's outcome, and its children's votes; none while one is
awaited. A child whose vote has not come when the timer has run out is missing. -/
def Job.votesFor (j : Job) (b : Ballot) (r : Nat) : Option (List Vote) :=
  let verdict := j.verdicts.filter fun v => v.rank == r
  let waits := j.leads r && j.muster.isSome && verdict.isEmpty
  let expired := j.voteTimer.isNone
  let child := fun (c : Nat) => match j.votes.find? fun v => v.rank == c with
    | some v => some v
    | none => if expired && !j.ranks.contains c then some ⟨c, false, Status.rankExpelled, 0, some c, true⟩ else none
  let kids := (treeChildren j.rankCount r).map child
  if waits ∨ kids.any (fun k => k.isNone) then none
  else some ((if b.only then [] else j.faults.filter fun v => v.rank == r) ++ verdict ++ kids.filterMap fun k => k)

/-- A vote cast here after which the job can only enter HELD. -/
def Job.doomed (j : Job) (b : Ballot) : Option Vote :=
  j.votes.find? fun v => j.ranks.contains v.rank && (v.weight == 4 || (v.weight != 0 && b.attempt == 7 && !b.only))

/-- The status and the detail of the STEP_RUN of a job that enters HELD on a vote. -/
def Vote.status (v : Vote) : Status × Nat :=
  if noReplay.contains v.cause then (v.cause, if v.cause = Status.musterFailed then v.named.getD 0 else v.detail)
  else if v.weight = 3 then (Status.musterFailed, v.named.getD 0)
  else (Status.testFail, 0)

/-! ## Signals of the commit tree (R424) -/

def State.sendSignal (s : State) (j : Job) (step attempt src dst kind cause value : Nat) : State :=
  if j.ranks.contains dst then s
  else s.signal .nobody (s.rankModule j dst) noSlot (j.origin step attempt src) kind cause value

/-- value of a VOTE. -/
def Vote.value (v : Vote) (b : Ballot) : Nat :=
  (if v.pass then 1 else 0) + (if b.only then 2 else 0) + 256 * b.round + 2 ^ 32 * v.named.getD 0xFFFFFFFF

/-- Each rank held here forwards a decision to its children on other modules. -/
def State.forward (s : State) (slot step attempt kind cause value : Nat) : State :=
  match Tab.look s.job.jobs slot with
  | none => s
  | some j => j.ranks.foldl (fun t r => (treeChildren j.rankCount r).foldl (fun t c =>
      t.sendSignal j step attempt r c kind cause value) t) s

/-- value of a REPLAY that names a rehosted rank; the spec gives a REPLAY's value no content. -/
def replayValue (named : Nat) (only roll : Bool) (round : Nat) (second : Option Nat) : Nat :=
  (if only then 2 else 0) + (match second with
    | some q => 4 + 2 ^ 16 * q
    | none => 0) + (if roll then 8 else 0) + 256 * round + 2 ^ 32 * named

/-! ## Acting on a decision -/

/-- The muster of the previous step is resolved: that step is the mustered step, and its journal is released (R458, R460). -/
def Job.promote (j : Job) : Job :=
  match j.muster with
  | none => j
  | some m => { j with
      mustered := m.step + 1
      musterJournal := []
      switched := false
      reports := j.reports.filter fun e => decide (m.step < e.1)
      muster := none
      digests := []
      verdicts := [] }

/-- COMMIT tasks may be admitted once the reads of a muster's digests are complete (R306, R457). -/
def State.openCommit (s : State) (slot : Nat) : State :=
  match Tab.look s.job.jobs slot with
  | none => s
  | some j =>
    if j.phase ≠ .commit ∨ !j.muster.all fun m => m.formed then s
    else
      let s := s.setJob slot j.promote
      match s.stepRunOf slot with
      | some (run, _) => s.onGraphRun run fun g => { g with commitOpen := true }
      | none => s

/-- COMMIT for the step and attempt that this module has voted on. -/
def State.takeCommit (s : State) (slot : Nat) : State :=
  (s.onJob slot fun j => { j with
    phase := .commit
    state := .running
    decision := some (j.next, j.attempt, true)
    voteTimer := none
    decisionTimer := none
    queryTimer := none }).openCommit slot

/-- The first STEP_RUN of the job completes. After an aborted one that ran short, those behind it are out of order. -/
def State.endHead (s : State) (slot : Nat) : State :=
  match Tab.look s.job.jobs slot with
  | none => s
  | some j => match j.runs with
    | [] => s
    | r :: t =>
      let cut := r.aborted && decide (j.next < r.first + r.count)
      let s := if cut then t.foldl (fun u x => u.endStepRun x Status.stepOrder 0) s else s
      let t := if cut then [] else t
      let s := s.setJob slot { j with runs := t, state := if t.isEmpty then .idle else j.state }
      let detail := if cut then j.next - r.first else 0
      ((s.endStepRun r (if r.aborted then Status.aborted else Status.ok) detail).wake).remedies

/-- A muster-only round has passed (R459). -/
def State.musterPassed (s : State) (slot : Nat) : State :=
  (s.onJob slot fun j => { j.promote with
    votes := [], voteTimer := none, decisionTimer := none, queryTimer := none, acting := none, state := .running }).endHead slot

/-- Another muster-only round after a rank was rehosted (R459). -/
def State.newRound (s : State) (slot round : Nat) : State :=
  s.onJob slot fun j => { j with
    muster := j.muster.map fun m => { m with round := round, formed := false }
    digests := []
    verdicts := []
    votes := []
    voteTimer := none
    decisionTimer := none
    queryTimer := none
    acting := none
    state := if j.state = .rehosting then .running else j.state }

/-- A rank expelled by a leader and, where the root also misses a vote, the missing rank (R461, R464). -/
def State.decideRollback (s : State) (slot : Nat) (named : Nat) (missing : Option Nat) : State :=
  match Tab.look s.job.jobs slot with
  | none => s
  | some j =>
    if !j.canRollBack then s.holdJob slot Status.musterFailed named
    else
      let s := match missing with
        | some r => s.rehostModuleOf slot r
        | none => s
      let attempt := match Tab.look j.reports j.mustered with
        | some e => e.2 + 1
        | none => j.attempt + 1
      (s.forward slot j.mustered attempt 3 Status.rankExpelled.toNat (replayValue named true true 0 missing)).rollback slot named

/-- REPLAY(s, a + 1) at this module. -/
def State.takeReplay (s : State) (slot step attempt : Nat) : State :=
  match Tab.look s.job.jobs slot with
  | none => s
  | some j =>
    if j.state = .held ∨ j.next ≠ step then s
    else
      let s := s.onJob slot fun j => { j with decision := some (step, attempt - 1, false) }
      if j.phase = .idle then s.onJob slot fun j => { j with floors := Tab.put j.floors step attempt }
      else s.startAttempt slot attempt

/-- What the root decides once every vote is in (R45, R48, R49, R458, R459). -/
def State.resolve (s : State) (slot : Nat) (b : Ballot) (v : Vote) (l : List Vote) : State :=
  let missing := (l.find? fun x => x.missing).bind fun x => x.named
  if v.pass then
    if b.only then (s.forward slot b.step b.attempt 2 0 2).musterPassed slot
    else (s.forward slot b.step b.attempt 2 0 0).takeCommit slot
  else if v.weight = 4 ∨ (b.attempt = 7 ∧ !b.only) then s.holdJob slot v.status.1 v.status.2
  else if v.weight = 3 then s.decideRollback slot (v.named.getD 0) missing
  else if b.only then
    let r := v.named.getD 0
    ((s.rehostModuleOf slot r).forward slot b.step b.attempt 3 Status.rankExpelled.toNat
      (replayValue r true false (b.round + 1) none)).newRound slot (b.round + 1)
  else if v.weight = 2 then
    let r := v.named.getD 0
    ((s.rehostModuleOf slot r).forward slot b.step (b.attempt + 1) 3 Status.rankExpelled.toNat
      (replayValue r false false 0 none)).takeReplay slot b.step (b.attempt + 1)
  else (s.forward slot b.step (b.attempt + 1) 3 0 0).takeReplay slot b.step (b.attempt + 1)

/-! ## Casting votes -/

/-- A rank held here casts its vote once it can: it goes to the parent, and the rank waits for the decision. -/
def State.castVote (s : State) (slot : Nat) (b : Ballot) (r : Nat) : State :=
  match Tab.look s.job.jobs slot with
  | none => s
  | some j =>
    if j.votes.any fun v => v.rank == r then s
    else
      let v := match j.doomed b with
        | some d => some { d with rank := r }
        | none => (j.votesFor b r).map (mergeVotes r)
      match v with
      | none => s
      | some v =>
        let s := s.setJob slot { j with
          votes := j.votes ++ [v]
          decisionTimer := if r = 0 then j.decisionTimer else some (j.decisionTimer.getD s.clk) }
        if r = 0 then s else s.sendSignal j b.step b.attempt r (treeParent r) 1 v.cause.toNat (v.value b)

/-- Cast every vote that can be cast, children before parents; then the root decides, and a job that can only enter HELD does. -/
def State.tally (s : State) (slot : Nat) : State :=
  match (Tab.look s.job.jobs slot).bind fun j => j.ballot.map fun b => (j, b) with
  | none => s
  | some (j, b) =>
    let order := j.ranks.reverse
    let s := (order ++ order).foldl (fun t r => t.castVote slot b r) s
    match Tab.look s.job.jobs slot with
    | none => s
    | some j =>
      match j.votes.find? fun v => v.rank == 0 && j.ranks.contains 0 with
      | some v => s.resolve slot b v ((j.votesFor b 0).getD [])
      | none => match j.doomed b with
        | some d => s.holdJob slot d.status.1 d.status.2
        | none => s

/-! ## Receiving votes -/

/-- The vote that a SIGNAL carries. -/
def voteOfSignal (rank cause value : Nat) (musters : Bool) : Vote :=
  let c : Status := BitVec.ofNat 16 cause
  let n := value / 2 ^ 32 % 2 ^ 32
  ⟨rank, bitOf value 0, c, 0, if n = 0xFFFFFFFF then none else some n, decide (c = Status.rankExpelled) && !musters⟩

/-- A vote takes its sender's place among the votes. -/
def Job.record (j : Job) (v : Vote) : Job := { j with votes := (j.votes.filter fun x => x.rank != v.rank) ++ [v] }

/-- The sender is a child of a rank held here. -/
def Job.hasChild (j : Job) (r : Nat) : Bool := r != 0 && j.ranks.contains (treeParent r)

/-- A vote of a rank whose data are poisoned or whose journal is incomplete comes for step s + 1, attempt 0 (R598). -/
def lateCause (v : Vote) : Bool := v.cause == Status.dataPoisoned || v.cause == Status.journalFull

/-- An answer to the acting root's QUERY: the rank holds no decision (R599). -/
def ActingRoot.answered (a : ActingRoot) (r : Nat) : ActingRoot :=
  { a with asked := a.asked.filter fun x => x != r, undecided := a.undecided ++ [r] }

/-- The job's ranks send their parents FAIL with a cause for the next step, and the job enters HELD (R598). -/
def State.failNext (s : State) (slot : Nat) (cause : Status) (detail : Nat) : State :=
  match Tab.look s.job.jobs slot with
  | none => s
  | some j =>
    let b : Ballot := ⟨j.next, 0, false, 0⟩
    let s := j.ranks.foldl (fun t r =>
      if r = 0 then t
      else t.sendSignal j j.next 0 r (treeParent r) 1 cause.toNat ((⟨r, false, cause, detail, none, false⟩ : Vote).value b)) s
    s.holdJob slot cause detail

/-! ## The acting root (R599) -/

/-- No answer was COMMIT: the acting root rehosts the ranks of the failed modules, and REPLAY(s, a + 1), which names rank 0 and one
rank of a further failed module, goes to rank 0's new host, or down the tree where that is this module. -/
def State.actingReplay (s : State) (slot : Nat) : State :=
  match Tab.look s.job.jobs slot with
  | none => s
  | some j => match j.acting with
    | none => s
    | some a =>
      let me := j.ranks.headD 0
      let second := (List.range j.rankCount).find? fun r =>
        (a.failed.drop 1).contains (s.rankModule j r)
      let s := s.rehostModules slot (a.failed.take 1)
      let s := match second with
        | some r => s.rehostModuleOf slot r
        | none => s
      match Tab.look s.job.jobs slot with
      | none => s
      | some j =>
        if j.state = .held then s
        else
          let cause := Status.rankExpelled.toNat
          let value := replayValue 0 false false 0 second
          if j.ranks.contains 0 then (s.forward slot j.next (j.attempt + 1) 3 cause value).takeReplay slot j.next (j.attempt + 1)
          else s.sendSignal j j.next (j.attempt + 1) me 0 3 cause value

/-- The acting root has every answer it waits for. -/
def State.actingDone (s : State) (slot : Nat) : State :=
  match (Tab.look s.job.jobs slot).bind fun j => j.acting.map fun a => (j, a) with
  | some (j, a) => if a.asked.isEmpty ∧ j.phase = .voted then s.actingReplay slot else s
  | none => s

/-- A rank answers the acting root that it holds no decision. One that answers after COMMIT has been learnt is sent it. -/
def State.actingAnswer (s : State) (slot : Nat) (j : Job) (v : Vote) : State :=
  match j.acting with
  | none => s
  | some a =>
    let s := s.setJob slot { j with acting := some (a.answered v.rank) }
    if j.phase = .commit then s.sendSignal j j.next j.attempt (j.ranks.headD 0) v.rank 2 0 0 else s.actingDone slot

/-- A VOTE for the job's running attempt, or for a muster-only round. -/
def State.takeVote (s : State) (slot step attempt rank cause value : Nat) : State :=
  match Tab.look s.job.jobs slot with
  | none => s
  | some j =>
    let v := voteOfSignal rank cause value j.muster.isSome
    let only := bitOf value 1
    let round := value / 2 ^ 8 % 256
    if j.state = .held then s
    else if only then
      match j.muster with
      | some m =>
        if m.only ∧ step = m.step ∧ attempt = m.attempt ∧ round = m.round ∧ j.hasChild rank then
          (s.setJob slot (j.record v)).tally slot
        else s
      | none => s
    else if step ≠ j.next then s
    else if j.acting.any (fun a => a.asked.contains rank && attempt == j.attempt) then s.actingAnswer slot j v
    else if lateCause v ∧ attempt = 0 ∧ j.phase = .idle then s.failNext slot v.cause 0
    else if attempt ≠ j.attempt ∧ !(lateCause v && attempt == 0) then s
    else if j.hasChild rank ∧ j.phase ≠ .idle ∧ j.phase ≠ .commit then (s.setJob slot (j.record v)).tally slot
    else if rank = 0 ∧ !v.pass ∧ (j.phase = .voted ∨ j.acting.isSome) then s.holdJob slot v.status.1 v.status.2
    else s

/-! ## Receiving decisions -/

/-- COMMIT received. -/
def State.commitSignal (s : State) (slot step attempt value : Nat) : State :=
  match Tab.look s.job.jobs slot with
  | none => s
  | some j =>
    if bitOf value 1 then
      if j.ballot.any fun b => b.only && b.step == step && b.attempt == attempt then
        (s.forward slot step attempt 2 0 2).musterPassed slot
      else s
    else if j.phase = .voted ∧ j.next = step ∧ j.attempt = attempt then
      let s := match j.acting with
        | some a => a.undecided.foldl (fun (t : State) r => t.sendSignal j step attempt (j.ranks.headD 0) r 2 0 0) s
        | none => s
      (s.forward slot step attempt 2 0 0).takeCommit slot
    else s

/-- REPLAY received, of any of its forms. -/
def State.replaySignal (s : State) (slot step attempt cause value : Nat) : State :=
  match Tab.look s.job.jobs slot with
  | none => s
  | some j =>
    let named := value / 2 ^ 32 % 2 ^ 32
    let expels := cause == Status.rankExpelled.toNat
    let second := if bitOf value 2 then some (value / 2 ^ 16 % 2 ^ 16) else none
    if j.state = .held ∨ j.state = .idle then s
    else if expels && bitOf value 3 then
      if j.mustered = step ∧ step < j.next then
        let s := match second with
          | some r => s.rehostModuleOf slot r
          | none => s
        (s.forward slot step attempt 3 cause value).rollback slot named
      else s
    else if expels && bitOf value 1 then
      let round := value / 2 ^ 8 % 256
      if j.muster.any fun m => m.only && m.step == step && decide (m.round < round) then
        ((s.rehostModuleOf slot named).forward slot step attempt 3 cause value).newRound slot round
      else s
    else if j.next ≠ step ∨ j.phase = .commit then s
    else if attempt < j.attempt ∨ (attempt = j.attempt ∧ j.phase ≠ .idle ∧ (!expels ∨ j.expelled.isSome)) then s
    else
      let s := if expels then s.rehostModuleOf slot named else s
      let s := match second with
        | some r => if expels then s.rehostModuleOf slot r else s
        | none => s
      let s := s.forward slot step attempt 3 cause value
      if attempt = j.attempt ∧ j.phase ≠ .idle then s else s.takeReplay slot step attempt

/-- A packet of the next attempt is notice of the replay (R46). -/
def State.replayNotice (s : State) (slot attempt : Nat) : State :=
  match Tab.look s.job.jobs slot with
  | none => s
  | some j =>
    if j.state = .running ∧ (j.phase = .run ∨ j.phase = .voted) ∧ attempt = j.attempt + 1 then
      (s.forward slot j.next attempt 3 0 0).takeReplay slot j.next attempt
    else s

/-! ## Queries (R599) -/

/-- The answer to a QUERY where no decision is held. -/
def State.queryVote (s : State) (j : Job) (step attempt rank : Nat) : State :=
  let me := j.ranks.headD 0
  let b : Ballot := ⟨step, attempt, false, 0⟩
  let send := fun (v : Vote) => s.sendSignal j step attempt me rank 1 v.cause.toNat (v.value b)
  match j.heldFor with
  | some h => if j.state = .held ∧ j.next = step then send ⟨me, false, h.1, h.2, none, false⟩ else s
  | none =>
    if j.ranks.contains 0 then s
    else match j.votes.find? fun v => v.rank == me && j.next == step && j.attempt == attempt with
      | some v => send v
      | none => s

/-- A QUERY for (s, a) from a rank: the decision held, the cause a job is held for, or, to an acting root, this module's vote. -/
def State.takeQuery (s : State) (slot step attempt rank : Nat) : State :=
  match Tab.look s.job.jobs slot with
  | none => s
  | some j =>
    let me := j.ranks.headD 0
    let answer := fun (a kind cause value : Nat) => s.sendSignal j step a me rank kind cause value
    let committed := match Tab.look j.reports step with
      | some e => e.2 == attempt
      | none => true
    match j.decision with
    | some (t, a, c) =>
      if t = step ∧ a = attempt then
        if c then answer attempt 2 0 0
        else match j.expelled with
          | some r => answer (attempt + 1) 3 Status.rankExpelled.toNat (replayValue r false false 0 none)
          | none => answer (attempt + 1) 3 0 0
      else if step < j.next then (if committed then answer attempt 2 0 0 else answer (attempt + 1) 3 0 0)
      else s.queryVote j step attempt rank
    | none =>
      if step < j.next then (if committed then answer attempt 2 0 0 else answer (attempt + 1) 3 0 0)
      else s.queryVote j step attempt rank

end Sys2Proof.Machine
end

