-- ==== Sys2Proof/Machine/Program.lean ====
section
/-! DEFINITION. Feature program images: header, node records, port types and row domains, and their validation (R150 to
R152, R167, R168, R175 to R188, R191, R192, R197, R202, R206, R209). -/

namespace Sys2Proof.Machine

/-! ## The image (R150, R151) -/

/-- A node record with its parameter block. -/
structure Node where
  raw : List Byte
  param : List Byte
  deriving DecidableEq, Repr

def Node.op (n : Node) : Nat := leField n.raw 0 1
def Node.pass (n : Node) : Nat := leField n.raw 1 1
def Node.inCount (n : Node) : Nat := leField n.raw 2 1
def Node.slot (n : Node) : Nat := leField n.raw 3 1
def Node.outType (n : Node) : Nat := leField n.raw 20 1
def Node.paramOffset (n : Node) : Nat := leField n.raw 24 4
def Node.paramLength (n : Node) : Nat := leField n.raw 28 4
/-- An unsigned, and a signed 64-bit, field of the parameter block. -/
def Node.u (n : Node) (o k : Nat) : Nat := leField n.param o k
def Node.i (n : Node) (o : Nat) : Int := leSigned n.param o 8
def Node.key (n : Node) (o : Nat) : DWord := BitVec.ofNat 64 (n.u o 8)

/-- What a node input names (R151). -/
inductive Ref where
  | col (table column : Nat)
  | port (node port : Nat)
  deriving DecidableEq, Repr

def refOf (v : Nat) : Ref := if bitOf v 15 then .col (bitsOf v 14 13) (bitsOf v 9 0) else .port (v % 256) (bitsOf v 14 8)
def Node.refWord (n : Node) (k : Nat) : Nat := leField n.raw (4 + 2 * k) 2
def Node.refs (n : Node) : List Ref := (List.range n.inCount).map fun k => refOf (n.refWord k)

def imageNodes (img : List Byte) : Nat := leField img 6 2
def imagePasses (img : List Byte) : Nat := leField img 8 1
def imageInputs (img : List Byte) : Nat := leField img 9 1
def imageOutputs (img : List Byte) : Nat := leField img 10 1
def imageSemantics (img : List Byte) : Nat := leField img 12 4
def imageStats (img : List Byte) : Nat := leField img 16 8
def imageStaging (img : List Byte) : Nat := leField img 24 4
def imageNodeOffset (img : List Byte) : Nat := leField img 28 4

def imageNode (img : List Byte) (i : Nat) : Node :=
  let raw := slice img (imageNodeOffset img + 64 * i) 64
  ⟨raw, slice img (leField raw 24 4) (leField raw 28 4)⟩
def nodesOf (img : List Byte) : List Node := (List.range (imageNodes img)).map (imageNode img)

def within (v lo hi : Nat) : Bool := decide (lo ≤ v) && decide (v ≤ hi)
def allZero (b : List Byte) (o n : Nat) : Bool := (slice b o n).all fun x => x == 0#8

/-- The header is well formed (R150). -/
def headerOk (img : List Byte) : Bool :=
  leField img 0 4 == 0x47505246 && leField img 4 2 == 1 && within (imageNodes img) 1 256 && within (imagePasses img) 1 4 &&
    within (imageInputs img) 1 4 && within (imageOutputs img) 1 8 && leField img 11 1 == 0 && imageStats img % 64 == 0 &&
    imageNodeOffset img % 64 == 0 && decide (64 ≤ imageNodeOffset img) &&
    decide (imageNodeOffset img + 64 * imageNodes img ≤ img.length) && allZero img 32 32

/-! ## Types of ports (R167, R168) -/

/-- What a port carries: a column type, whether its values are lists, come from a dictionary of an index type, or are
packed rows. -/
structure Ty where
  code : Nat
  scale : Nat
  width : Nat
  list : Bool
  dict : Option Nat
  packed : Bool
  deriving DecidableEq, Repr

def Ty.plain (code : Nat) : Ty := ⟨code, 0, 0, false, none, false⟩
def Column.ty (c : Column) : Ty :=
  ⟨c.code, c.unitScale, c.fixedWidth, c.list, if c.dict then some c.indexType else none, false⟩

/-- A floating type a port may have; 0x0B is BF16. -/
def portFloat (c : Nat) : Bool := codeFloat c || c == 0x0B
def portNumeric (c : Nat) : Bool := codeInteger c || portFloat c
/-- A scalar with a numeric value. -/
def Ty.numeric (t : Ty) : Bool := !t.list && !t.packed && portNumeric t.code
def Ty.integer (t : Ty) : Bool := !t.list && !t.packed && codeInteger t.code
def Ty.floating (t : Ty) : Bool := !t.list && !t.packed && portFloat t.code
def Ty.string (t : Ty) : Bool := !t.list && !t.packed && codeVariable t.code
/-- A fixed-width scalar. -/
def Ty.fixed (t : Ty) : Bool := !t.list && !t.packed && !codeVariable t.code
/-- A key component may have this type (R191). -/
def Ty.keyable (t : Ty) : Bool := !t.list && !t.packed && (codeInteger t.code || t.code == 0x36 || codeVariable t.code)
/-- Bytes of a scalar at its natural width; BOOL takes one. -/
def Ty.bytes (t : Ty) : Nat := if t.code = 0x0B then 2 else (codeWidth t.code t.width).getD 1

/-- Port types known so far; none where a column's type is not known before FPROG_START. -/
abbrev Ports := List (Option Ty)

/-- A type that is known has a property. -/
def known (t : Option Ty) (f : Ty → Bool) : Bool := match t with
  | none => true
  | some x => f x

/-- Packed width of a key component (R192). -/
def Ty.keyWidth (t : Ty) (maxLen : Nat) : Nat := if codeVariable t.code then 1 + maxLen else t.bytes

/-- Known components may form a key with their declared maxima: 1 to 63 for strings and 0 otherwise, at most 64 bytes
in all (R192). -/
def keyOk (tys : Ports) (maxLens : List Nat) (limit : Nat) : Bool :=
  ((tys.zip maxLens).all fun e => known e.1 fun t =>
    t.keyable && (if codeVariable t.code then within e.2 1 63 else e.2 == 0)) &&
  (if tys.all Option.isSome then
    decide (((tys.zip maxLens).map fun e => match e.1 with
      | some t => t.keyWidth e.2
      | none => 0).foldl (· + ·) 0 ≤ limit)
   else true)

/-- The ports of a node whose port 0 has a derived type, if its out_type agrees. -/
def portsOf (outType : Nat) (d : Option Ty) (rest : Ports) : Option Ports :=
  if known d fun t => t.code == outType then some (d :: rest) else none

/-- What a validation knows while it checks node `i`: the image, the nodes before it with their port types and row
domains, and the types of its inputs. -/
structure Ctx where
  img : List Byte
  index : Nat
  nodes : List Node
  ports : List Ports
  domains : List Nat
  ins : Ports
  domain : Nat
  deriving Repr

def Ctx.in_ (c : Ctx) (k : Nat) : Option Ty := (c.ins[k]?).getD none
def Ctx.inImage (c : Ctx) (o n : Nat) : Bool := decide (o + n ≤ c.img.length)

/-! ## Row operators (R175 to R188) -/

def checkScan (c : Ctx) (n : Node) : Option Ports :=
  let t := c.in_ 0
  let isCol := match n.refs.head? with
    | some (.col _ _) => true
    | _ => false
  if !(n.inCount == 1 && isCol && n.paramLength == 16 && allZero n.param 1 3 && allZero n.param 8 8) then none
  else match n.u 0 1 with
    | 0 => portsOf n.outType t []
    | 1 => if known t fun x => x.dict.isSome then portsOf n.outType (t.map fun x => { x with dict := none }) [] else none
    | 2 => if known t fun x => x.dict.isSome then portsOf n.outType (some (.plain 0x06)) [] else none
    | 3 => portsOf n.outType (some (.plain 0x30)) []
    | 4 => if known t fun x => x.list then portsOf n.outType (some (.plain 0x06)) [] else none
    | 5 => if known t fun x => x.list then portsOf n.outType (t.map fun x => { x with list := false }) [] else none
    | _ => none

/-- The offset of term i of a filter. -/
def termAt (i : Nat) : Nat := 40 + 24 * i

def checkTerm (c : Ctx) (n : Node) (i : Nat) : Bool :=
  let o := termAt i
  let input := n.u o 1
  let op := n.u (o + 1) 1
  let second := bitOf (n.u (o + 2) 2) 0
  let t := c.in_ input
  decide (input < n.inCount) && within op 1 8 && decide (n.u (o + 2) 2 < 2) && allZero n.param (o + 4) 4 &&
    (if op = 7 then !second && known t Ty.numeric
     else if op = 8 then
       let a := n.u (o + 8) 8
       let k := n.u (o + 16) 8
       !second && known t Ty.integer && within k 1 4096 && c.inImage a (8 * k) &&
         (List.range (k - 1)).all fun j => decide (leSigned c.img (a + 8 * j) 8 < leSigned c.img (a + 8 * (j + 1)) 8)
     else if second then
       let t2 := c.in_ (n.u (o + 8) 1)
       decide (n.u (o + 8) 1 < n.inCount) && known t fun x => known t2 fun y =>
         (x.integer && y.integer) || (x.floating && y.floating) || (x.string && y.string)
     else known t fun x => x.numeric || (x.string && decide (n.u (o + 16) 8 ≤ 4096) && c.inImage (n.u (o + 8) 8) (n.u (o + 16) 8)))

def checkFilter (c : Ctx) (n : Node) : Option Ports :=
  let k := n.u 0 1
  if within n.inCount 1 8 && n.paramLength == 232 && within k 1 8 && allZero n.param 1 7 &&
      decide (n.u 8 32 < 2 ^ 2 ^ k) && (List.range k).all (checkTerm c n) && allZero n.param (termAt k) (24 * (8 - k)) then
    portsOf n.outType (c.in_ 0) (c.ins.drop 1)
  else none

def checkProject (c : Ctx) (n : Node) : Option Ports :=
  let op := n.u 0 1
  let x := c.in_ 0
  let one := n.inCount == 1
  let two := one || n.inCount == 2
  let out : Ty := .plain n.outType
  let outNum := portNumeric n.outType
  -- the scale of a decimal or time result is that of its input
  let like := x.map fun t => { t with code := n.outType, dict := none }
  let sameClass := fun (f : Ty → Bool) (g : Nat → Bool) => c.ins.all (fun t => known t f) && g n.outType
  if !(n.paramLength == 16 && allZero n.param 1 7) then none
  else if op = 1 then (if one && known x Ty.numeric && outNum then some [some out] else none)
  else if within op 2 7 ∨ within op 8 9 then
    if (if op ≤ 7 then two else one) && (sameClass Ty.integer codeInteger || sameClass Ty.floating portFloat) then some [like]
    else none
  else if op = 10 then
    let t := (c.ins.filterMap id).head?.map fun t => { t with dict := none }
    if within n.inCount 2 8 && c.ins.all (fun y => known y fun a => known t fun b => decide ({ a with dict := none } = b)) then
      portsOf n.outType t []
    else none
  else if op = 11 then (if one && known x Ty.string then portsOf n.outType (some (.plain 0x06)) [] else none)
  else if op = 12 then (if one && known x fun t => t.fixed && t.code == 0x32 then portsOf n.outType (some (.plain 0x02)) [] else none)
  else if op = 13 then (if one && known x fun t => t.fixed && t.code == 0x33 then portsOf n.outType (some (.plain 0x32)) [] else none)
  else if op = 14 then
    if two && c.ins.all (fun t => known t fun y => y.fixed && y.code == 0x32) then portsOf n.outType (some (.plain 0x06)) []
    else none
  else if op = 15 then
    let t := (c.ins.filterMap id).head?
    if within n.inCount 1 8 && c.ins.all (fun y => known y fun a => a.fixed && a.code != 0x36 && known t fun b => a.code == b.code) then
      portsOf n.outType (t.map fun b => { b with packed := true, dict := none }) []
    else none
  else if op = 16 then (if within n.inCount 1 8 then portsOf n.outType (some (.plain 0x03)) [] else none)
  else none

def checkHash (c : Ctx) (n : Node) : Option Ports :=
  let m := n.u 8 8
  let outOk := if m = 0 then n.outType == 0x31 || n.outType == 0x08
    else n.outType == 0x08 || (n.outType == 0x06 && decide (m ≤ 2 ^ 31))
  if within n.inCount 1 4 && n.paramLength == 24 && decide (n.u 16 2 < 2) && allZero n.param 18 6 && decide (m ≤ 2 ^ 63) &&
      outOk && c.ins.all fun t => known t fun x => !x.list && !x.packed then
    some [some (.plain n.outType)]
  else none

def checkBucketize (c : Ctx) (n : Node) : Option Ports :=
  let k := n.u 0 2
  let fp := n.u 2 1 == 1
  let up := fun j => if fp then (fp64.value (n.u (16 + 8 * j) 8)).lt (fp64.value (n.u (24 + 8 * j) 8))
    else decide (n.i (16 + 8 * j) < n.i (24 + 8 * j))
  if n.inCount == 1 && known (c.in_ 0) Ty.numeric && within k 1 4096 && decide (n.u 2 1 ≤ 1) && allZero n.param 3 13 &&
      n.paramLength == 16 + 8 * k && (List.range (k - 1)).all up &&
      (!fp || (List.range k).all fun j => !(fp64.value (n.u (16 + 8 * j) 8)).isNan) then
    portsOf n.outType (some (.plain 0x06)) []
  else none

/-- A STATS node, and its record. -/
def Node.isStats (n : Node) : Bool := n.op == 0x06 && n.u 0 1 == 4
def Node.statIndex (n : Node) : Nat := n.u 2 2

def checkNormalise (c : Ctx) (n : Node) : Option Ports :=
  let mode := n.u 0 1
  let a := fp64.value (n.u 8 8)
  let b := fp64.value (n.u 16 8)
  let inside := decide (64 * n.statIndex + 64 ≤ imageStats c.img)
  let earlier := (c.nodes.filter fun m => m.isStats && m.statIndex == n.statIndex)
  if !(n.inCount == 1 && known (c.in_ 0) Ty.numeric && n.paramLength == 32 && within mode 1 6 && decide (n.u 1 1 < 2) &&
      allZero n.param 4 4 && allZero n.param 24 8) then none
  else if mode = 4 then (if n.slot == 0xFF && inside && earlier.isEmpty then some [] else none)
  else if !portFloat n.outType then none
  else if mode = 3 ∧ (a.isNan ∨ b.isNan ∨ b.lt a) then none
  else if 5 ≤ mode ∧ !(inside && earlier.any fun m => decide (m.pass < n.pass)) then none
  else some [some (.plain n.outType)]

def checkCross (c : Ctx) (n : Node) : Option Ports :=
  let m := n.u 8 8
  if within n.inCount 2 4 && n.paramLength == 24 && within m 1 (2 ^ 63) && within (n.u 16 2) 1 256 && allZero n.param 18 6 &&
      n.outType == 0x08 && c.ins.all fun t => known t fun x => !x.packed then
    some [if c.ins.all Option.isSome then
      some { Ty.plain 0x08 with list := c.ins.any fun t => known t fun x => x.list } else none]
  else none

/-- Offset, and fields, of a window spec. -/
def specAt (i : Nat) : Nat := 16 + 8 * i
def specKind (n : Node) (i : Nat) : Nat := n.u (specAt i) 1
def specTime (n : Node) (i : Nat) : Bool := bitOf (n.u (specAt i + 1) 1) 0
def specExclude (n : Node) (i : Nat) : Bool := bitOf (n.u (specAt i + 1) 1) 1
def specLength (n : Node) (i : Nat) : Nat := n.u (specAt i + 2) 2
def specPeriods (n : Node) (i : Nat) : Nat := n.u (specAt i + 4) 2
def windowStep (n : Node) : Nat := n.u 8 8
/-- The look-back depth D (R185). -/
def windowDepth (n : Node) : Nat :=
  ((List.range (n.u 0 1)).map fun i => if specTime n i then specLength n i * windowStep n else specLength n i).foldl max 0

def windowPort (value : Option Ty) (kind : Nat) : Option Ty :=
  match kind with
  | 2 => value.map fun t => if t.integer then Ty.plain 0x08 else Ty.plain 0x0E
  | 3 => some (.plain 0x0E)
  | 6 => some (.plain 0x06)
  | _ => value.map fun t => { t with dict := none }

def checkSpec (n : Node) (i : Nat) : Bool :=
  let k := specKind n i
  let len := specLength n i
  within k 1 6 && decide (n.u (specAt i + 1) 1 < 4) && allZero n.param (specAt i + 6) 2 &&
    (if k = 1 then within len 1 64 && !specExclude n i && specPeriods n i == 0
     else within len 1 1024 && decide (1 ≤ specPeriods n i) && (specTime n i || decide (specPeriods n i ≤ len)))

def checkWindow (c : Ctx) (n : Node) : Option Ports :=
  let k := n.u 0 1
  if n.inCount == 3 && c.domain == 0 && known (c.in_ 0) (fun t => t.fixed && !portFloat t.code) &&
      known (c.in_ 1) Ty.integer && known (c.in_ 2) Ty.numeric && within k 1 16 && allZero n.param 1 7 &&
      decide (1 ≤ n.i 8) && n.paramLength == 16 + 8 * k && (List.range k).all (checkSpec n) && decide (windowDepth n ≤ 1024) then
    let ps := (List.range k).map fun i => windowPort (c.in_ 2) (specKind n i)
    portsOf n.outType (ps.headD none) (ps.drop 1)
  else none

def densifyMask (n : Node) : Bool := bitOf (n.u 9 1) 1

def checkDensify (c : Ctx) (n : Node) : Option Ports :=
  if n.inCount == 3 && known (c.in_ 0) Ty.integer && known (c.in_ 1) Ty.integer && known (c.in_ 2) Ty.numeric &&
      n.paramLength == 16 && within (n.u 8 1) 1 2 && decide (n.u 9 1 < 8) && allZero n.param 11 5 && n.slot != 0xFF &&
      portNumeric n.outType then
    some []
  else none

/-- Bytes of a partition record (R188). -/
def recordLength (tys : List Ty) : Nat := 16 * ceilDiv (16 + (tys.map Ty.bytes).foldl (· + ·) 0) 16

def checkPartition (c : Ctx) (n : Node) : Option Ports :=
  let bits := n.u 9 1
  if within n.inCount 1 8 && c.ins.all (fun t => known t Ty.fixed) && n.paramLength == 24 && decide (n.u 8 1 ≤ 63) &&
      within bits 1 16 && decide (n.u 8 1 + bits ≤ 64) && within (n.u 10 1) 1 4 && decide (n.u 10 1 ≤ n.inCount) &&
      allZero n.param 11 1 && allZero n.param 14 10 && n.slot != 0xFF &&
      decide (64 * n.u 12 2 + 8 * 2 ^ bits ≤ imageStats c.img) &&
      (!c.ins.all Option.isSome || decide (recordLength (c.ins.filterMap id) ≤ 256)) then
    some []
  else none

/-! ## Joins and group-by (R191 to R209) -/

/-- max_len bytes of key components at an offset. -/
def maxLens (n : Node) (o k : Nat) : List Nat := (List.range k).map fun i => n.u (o + i) 1

def checkBuild (c : Ctx) (n : Node) : Option Ports :=
  let k := n.u 0 1
  let cols := n.refs.all fun r => match r with
    | .col t _ => t == c.domain
    | _ => false
  if within k 1 4 && n.inCount == k && cols && n.slot == 0xFF && n.paramLength == 64 && within (n.u 1 1) 0 7 &&
      within (n.u 2 1) 4 30 && allZero n.param 3 5 && allZero n.param (16 + k) (4 - k) && allZero n.param 20 44 &&
      keyOk c.ins (maxLens n 16 k) 64 then
    some []
  else none

/-- The payload columns of a probe. -/
def payloadColumns (n : Node) (count : Nat) : List Nat := (List.range count).map fun i => n.u (8 + 2 * i) 2

/-- Ports of a probe: its inputs, the payload (whose types are those of the build table's columns), and MATCH_PORT. -/
def probePorts (c : Ctx) (n : Node) (payload : Ports) (matchPort : Bool) : Option Ports :=
  portsOf n.outType (c.in_ 0) (c.ins.drop 1 ++ payload ++ (if matchPort then [some (.plain 0x30)] else []))

def joinOk (joinType payloadCount flags : Nat) : Bool :=
  within joinType 1 4 && decide (payloadCount ≤ 8) && (decide (joinType ≤ 2) || payloadCount == 0) && decide (flags < 2) &&
    (flags == 0 || joinType == 2)

/-- Key components of a probe agree with those of its build (R193). -/
def Ty.sameKey (a b : Ty) : Bool := a.code == b.code && a.scale == b.scale && a.width == b.width

/-- The input table of a build node. -/
def buildTable (n : Node) : Nat := match n.refs.head? with
  | some (.col t _) => t
  | _ => 0

def checkProbe (colTy : Nat → Nat → Option Ty) (c : Ctx) (n : Node) : Option Ports :=
  match c.nodes[n.u 0 1]? with
  | none => none
  | some b =>
    let k := b.u 0 1
    let bt := b.refs.map fun r => match r with
      | .col t x => colTy t x
      | _ => none
    let agree := ((c.ins.take k).zip bt).all fun e => known e.1 fun x => known e.2 fun y => x.sameKey y
    if b.op == 0x10 && decide (b.pass < n.pass) && joinOk (n.u 1 1) (n.u 2 1) (n.u 3 1) && within n.inCount k 8 && agree &&
        within (n.u 4 4) 4096 1048576 && allZero n.param (8 + 2 * n.u 2 1) (16 - 2 * n.u 2 1) && allZero n.param 24 40 &&
        n.paramLength == 64 && keyOk (c.ins.take k) (maxLens b 16 k) 64 then
      probePorts c n ((payloadColumns n (n.u 2 1)).map fun x => (colTy (buildTable b) x).map fun t => { t with dict := none })
        (n.u 3 1 == 1)
    else none

def checkDirProbe (colTy : Nat → Nat → Option Ty) (c : Ctx) (n : Node) : Option Ports :=
  let k := n.u 4 1
  if joinOk (n.u 0 1) (n.u 1 1) (n.u 5 1) && within (n.u 2 1) 1 3 && decide (n.u 2 1 < imageInputs c.img) &&
      [1, 2, 4].contains (n.u 3 1) && within k 1 4 && within n.inCount k 8 &&
      (c.ins.take k).all (fun t => known t fun x => !codeVariable x.code) && decide (n.u 6 2 ≤ 255) &&
      allZero n.param (8 + 2 * n.u 1 1) (16 - 2 * n.u 1 1) && allZero n.param 24 40 && n.paramLength == 64 &&
      keyOk (c.ins.take k) (List.replicate k 0) (8 * n.u 3 1) then
    probePorts c n ((payloadColumns n (n.u 1 1)).map fun x => (colTy (n.u 2 1) x).map fun t => { t with dict := none })
      (n.u 5 1 == 1)
  else none

/-- Kind and value input of a group-by spec. -/
def aggKind (n : Node) (i : Nat) : Nat := n.u (32 + 2 * i) 1
def aggInput (n : Node) (i : Nat) : Nat := n.u (33 + 2 * i) 1

def checkGroup (c : Ctx) (n : Node) : Option Ports :=
  let k := n.u 0 1
  let a := n.u 1 1
  let values := n.inCount - k
  let specOk := fun i => within (aggKind n i) 1 6 &&
    (if aggKind n i = 3 then true
     else decide (aggInput n i < values) &&
       (aggKind n i == 2 || known (c.in_ (k + aggInput n i)) Ty.numeric))
  if within k 1 4 && within a 1 8 && within n.inCount k 8 && n.slot == 0xFF && n.paramLength == 64 && within (n.u 5 1) 4 24 &&
      allZero n.param 6 2 && allZero n.param (16 + k) (4 - k) && allZero n.param 20 12 && (List.range a).all specOk &&
      allZero n.param (32 + 2 * a) (16 - 2 * a) && allZero n.param 48 16 && keyOk (c.ins.take k) (maxLens n 16 k) 64 then
    some []
  else none

/-! ## A node among the others -/

/-- The program outputs a node writes. -/
def Node.writes (n : Node) : List Nat :=
  (if n.slot = 0xFF then [] else [n.slot]) ++
    (match n.op with
     | 0x09 => if densifyMask n then [n.u 10 1] else []
     | 0x10 => [n.u 1 1]
     | 0x13 => [n.u 2 1, n.u 3 1, n.u 4 1]
     | _ => [])

/-- The ports of a node by its operator, or none where the operator refuses it (R152, R168). -/
def checkOp (colTy : Nat → Nat → Option Ty) (c : Ctx) (n : Node) : Option Ports :=
  match n.op with
  | 0x01 => checkScan c n
  | 0x02 => checkFilter c n
  | 0x03 => checkProject c n
  | 0x04 => checkHash c n
  | 0x05 => checkBucketize c n
  | 0x06 => checkNormalise c n
  | 0x07 => checkCross c n
  | 0x08 => checkWindow c n
  | 0x09 => checkDensify c n
  | 0x0A => checkPartition c n
  | 0x10 => checkBuild c n
  | 0x11 => checkProbe colTy c n
  | 0x12 => checkDirProbe colTy c n
  | 0x13 => checkGroup c n
  | _ => none

/-- Domain of an input: tables have domains 0 to 3, a domain that node m makes is 16 + m. -/
def refDomain (domains : List Nat) : Ref → Nat
  | .col t _ => t
  | .port m _ => domains.getD m 0

/-- Two filter nodes with the same terms over the same inputs select the same rows (R177). -/
def sameTerms (a b : Node) : Bool :=
  a.op == 0x02 && b.op == 0x02 && a.param == b.param && (List.range (a.u 0 1)).all fun i =>
    let o := termAt i
    a.refWord (a.u o 1) == b.refWord (b.u o 1) &&
      (!bitOf (a.u (o + 2) 2) 0 || a.refWord (a.u (o + 8) 1) == b.refWord (b.u (o + 8) 1))

/-- The domain of a node's ports (R167, R204). -/
def nodeDomain (nodes : List Node) (domains : List Nat) (i : Nat) (n : Node) (inDomain : Nat) : Nat :=
  match n.op with
  | 0x02 =>
    match firstIdx (fun (m, _) => sameTerms m n) 0 (nodes.zip domains) with
    | some m => if refDomain domains (refOf ((nodes.getD m n).refWord 0)) = inDomain then domains.getD m 0 else 16 + i
    | none => 16 + i
  | 0x11 => 16 + i
  | 0x12 => 16 + i
  | _ => inDomain

/-- Inputs name existing columns and ports of lower-numbered nodes of no higher pass (R151). -/
def refsOk (img : List Byte) (nodes : List Node) (ports : List Ports) (n : Node) : Bool :=
  (List.range n.inCount).all fun k => match refOf (n.refWord k) with
    | .col t _ => decide (t < imageInputs img) && bitsOf (n.refWord k) 12 10 == 0
    | .port m q => match nodes[m]?, ports[m]? with
      | some a, some ps => decide (a.pass ≤ n.pass) && decide (q < ps.length)
      | _, _ => false

/-- Check a node; the nodes before it are known to be valid. -/
def checkNode (colTy : Nat → Nat → Option Ty) (img : List Byte) (nodes : List Node) (ports : List Ports)
    (domains : List Nat) (n : Node) : Option (Ports × Nat) :=
  let i := nodes.length
  let doms := n.refs.map (refDomain domains)
  let taken := nodes.flatMap Node.writes
  let ok := decide (n.pass < imagePasses img) && within n.inCount 1 8 && allZero n.raw 21 3 && allZero n.raw 32 32 &&
    (n.slot == 0xFF || decide (n.slot < imageOutputs img)) && n.paramOffset % 64 == 0 &&
    decide (n.paramOffset + n.paramLength ≤ img.length) && refsOk img nodes ports n &&
    doms.all (fun d => d == doms.headD 0) &&
    n.writes.all (fun o => decide (o < imageOutputs img) && !taken.contains o) && decide n.writes.Nodup
  if !ok then none
  else
    let ins : Ports := n.refs.map fun r => match r with
      | .col t x => colTy t x
      | .port m q => ((ports.getD m []).getD q none)
    (checkOp colTy ⟨img, i, nodes, ports, domains, ins, doms.headD 0⟩ n).map fun ps =>
      (ps, nodeDomain nodes domains i n (doms.headD 0))

/-- Check the nodes in order: the port types and domains of all, or the index of the first at fault. -/
def checkNodes (colTy : Nat → Nat → Option Ty) (img : List Byte) :
    List Node → List Node → List Ports → List Nat → Except Nat (List Ports × List Nat)
  | [], _, ports, domains => .ok (ports, domains)
  | n :: t, done, ports, domains =>
    match checkNode colTy img done ports domains n with
    | none => .error done.length
    | some (ps, d) => checkNodes colTy img t (done ++ [n]) (ports ++ [ps]) (domains ++ [d])

/-- The port types and domains of a program whose column types are known or not. Every output is written by one node. -/
def programTypes (colTy : Nat → Nat → Option Ty) (img : List Byte) : Except Nat (List Ports × List Nat) :=
  match checkNodes colTy img (nodesOf img) [] [] [] with
  | .error i => .error i
  | .ok r =>
    let w := (nodesOf img).flatMap Node.writes
    if (List.range (imageOutputs img)).all fun o => w.contains o then .ok r else .error 0xFFFF

end Sys2Proof.Machine
end

