-- ==== Sys2Proof/Machine/Operators.lean ====
section
/-! DEFINITION. What feature-program nodes compute, row by row (R153, R169, R170, R173, R175 to R186, R192 to R196, R202 to
R207). A node's value at an element of its row domain is a function of the tables, of the statistics of earlier passes,
of the build work areas and of the directory. -/

namespace Sys2Proof.Machine

/-! ## Numbers (R169) -/

/-- A fixed-width value as an INT64. -/
def Ty.int (t : Ty) (n : Nat) : Int :=
  if codeUnsigned t.code then signedOf 64 n else signedOf (8 * t.bytes) n

def floatOf (code : Nat) : FloatFormat :=
  match code with
  | 0x0B => bf16
  | 0x0C => fp16
  | 0x0D => fp32
  | _ => fp64

/-- An INT64 as an FP64 value. -/
def intNum (i : Int) : Num := fp64.toFormat (Num.ofInt i)

/-- A numeric value in FP64 (R169): decimals are divided by their power of ten with one rounding. -/
def Ty.num (t : Ty) (n : Nat) : Num :=
  if portFloat t.code then (floatOf t.code).value n
  else
    let i := t.int n
    if t.code = 0x34 ∨ t.code = 0x35 then fp64.round (decide (i < 0)) i.natAbs (10 ^ t.scale) else intNum i

/-- An INT64 result in a type: the low bits are kept in an integer type. -/
def intTo (code : Nat) (i : Int) : Scalar :=
  if portFloat code then .bits ((floatOf code).laneCode (intNum i))
  else if code = 0x30 then .bits (unsignedOf 1 i)
  else .bits (unsignedOf (8 * (Ty.plain code).bytes) i)

/-- The integer that a finite value truncates to, toward zero. -/
def Num.trunc (x : Num) : Int :=
  let d := x.dyadic
  let q := d.m.natAbs * pow2 d.e / pow2 (-d.e)
  if d.m < 0 then -(q : Int) else (q : Int)

/-- The range of an integer type. -/
def intRange (code : Nat) : Int × Int :=
  let w := 8 * (Ty.plain code).bytes
  if code = 0x30 then (0, 1)
  else if codeUnsigned code then (0, (2 ^ w : Nat) - 1)
  else (-((2 ^ (w - 1) : Nat) : Int), (2 ^ (w - 1) : Nat) - 1)

def clampInt (lo hi x : Int) : Int := if x < lo then lo else if hi < x then hi else x

/-- A floating value in a type: truncated and saturated in an integer type, NaN giving null. -/
def numTo (code : Nat) (x : Num) : Scalar :=
  if portFloat code then .bits ((floatOf code).laneCode x)
  else
    let r := intRange code
    match x with
    | .nan => .null
    | .inf n => .bits (unsignedOf (8 * (Ty.plain code).bytes) (if n then r.1 else r.2))
    | y => .bits (unsignedOf (8 * (Ty.plain code).bytes) (clampInt r.1 r.2 y.trunc))

/-- INT64 division toward zero; none for a divisor of 0. -/
def intDiv (x y : Int) : Option Int := if y = 0 then none else some (Int.tdiv x y)

/-! ## Hashing a value (R173) -/

def Ty.component (t : Ty) (x : Scalar) : Component :=
  match x with
  | .null => .null
  | .bytes b => .bytes b
  | .bits n =>
    if portFloat t.code then
      let v := (floatOf t.code).value n
      .word (BitVec.ofNat 64 (if v.isZero then 0 else fp64.code v))
    else if codeUnsigned t.code then .word (BitVec.ofNat 64 n)
    else .word (BitVec.ofInt 64 (t.int n))

/-! ## Row domains (R167) -/

/-- An element of a row domain: a table row, and for each probe above it the build row matched, if one was. -/
structure Elem where
  row : Nat
  hits : List (Nat × Option Nat)
  deriving DecidableEq, Repr

/-- What a stripe is evaluated in. -/
structure Ev where
  s : State
  img : List Byte
  nodes : List Node
  ports : List Ports
  domains : List Nat
  /-- table records of the inputs -/
  inputs : List Nat
  /-- descriptors of the outputs -/
  outs : List Desc
  first : Nat
  /-- the row after the run's last -/
  stop : Nat
  stats : Nat
  /-- die of the lane that runs the stripe -/
  die : Nat

def Ev.node (v : Ev) (m : Nat) : Node := v.nodes.getD m ⟨[], []⟩
def Ev.input (v : Ev) (t : Nat) : Nat := v.inputs.getD t 0
/-- The type of what a reference names. -/
def Ev.ty (v : Ev) (r : Ref) : Ty :=
  match r with
  | .col t c => (v.s.tableColumn (v.input t) c).ty
  | .port m q => (((v.ports.getD m []).getD q none)).getD (.plain 0)
def Ev.inTy (v : Ev) (n : Node) (k : Nat) : Ty := v.ty (refOf (n.refWord k))
def Ev.outTy (v : Ev) (m q : Nat) : Ty := v.ty (.port m q)

/-! ## Filter (R176, R177) -/

def bytesLt : List Byte → List Byte → Bool
  | [], [] => false
  | [], _ => true
  | _, [] => false
  | a :: s, b :: t => decide (a.toNat < b.toNat) || (a == b && bytesLt s t)

/-- A comparison op 1 to 6 from equality, less-than, and whether either side is NaN. -/
def compareOp (op : Nat) (eq lt nan : Bool) : Bool :=
  match op with
  | 1 => eq
  | 2 => !eq
  | 3 => lt
  | 4 => lt || eq
  | 5 => !nan && !lt && !eq
  | _ => !nan && !lt

def compareInt (op : Nat) (x y : Int) : Bool := compareOp op (x == y) (decide (x < y)) false
def compareNum (op : Nat) (x y : Num) : Bool := compareOp op (x.eq y) (x.lt y) (x.isNan || y.isNan)

/-- Compare two scalars of one class. -/
def compareScalar (op : Nat) (tx ty : Ty) (x y : Scalar) : Bool :=
  match x, y with
  | .bits a, .bits b => if portFloat tx.code then compareNum op (tx.num a) (ty.num b) else compareInt op (tx.int a) (ty.int b)
  | .bytes a, .bytes b => compareOp op (a == b) (bytesLt a b) false
  | _, _ => false

/-- The outcome of term i. -/
def Ev.term (v : Ev) (n : Node) (inp : Nat → Val) (i : Nat) : Bool :=
  let o := termAt i
  let k := n.u o 1
  let op := n.u (o + 1) 1
  let t := v.inTy n k
  let x := (inp k).scalar
  if (inp k).isNull then false
  else if bitOf (n.u (o + 2) 2) 0 then
    let k2 := n.u (o + 8) 1
    !(inp k2).isNull && compareScalar op t (v.inTy n k2) x (inp k2).scalar
  else match x with
    | .bytes b => compareOp op (b == slice v.img (n.u (o + 8) 8) (n.u (o + 16) 8))
        (bytesLt b (slice v.img (n.u (o + 8) 8) (n.u (o + 16) 8))) false
    | .bits a =>
      if op = 8 then (List.range (n.u (o + 16) 8)).any fun j => leSigned v.img (n.u (o + 8) 8 + 8 * j) 8 == t.int a
      else if portFloat t.code then
        let y := fp64.value (n.u (o + 8) 8)
        if op = 7 then compareNum 6 (t.num a) y && compareNum 3 (t.num a) (fp64.value (n.u (o + 16) 8)) else compareNum op (t.num a) y
      else
        let y := n.i (o + 8)
        if op = 7 then decide (y ≤ t.int a) && decide (t.int a < n.i (o + 16)) else compareInt op (t.int a) y
    | .null => false

/-- The row is selected. -/
def Ev.selects (v : Ev) (n : Node) (inp : Nat → Val) : Bool :=
  let t := (List.range (n.u 0 1)).foldl (fun a i => if v.term n inp i then a + 2 ^ i else a) 0
  bitOf (n.u 8 32) t

/-! ## Scan and project (R175, R178) -/

def scanVal (n : Node) (x : Val) : Val :=
  match n.u 0 1 with
  | 0 => x
  | 1 => .one x.scalar
  | 2 => match x with
    | .coded i _ _ => .one (.bits i)
    | _ => .null
  | 3 => .one (.bits (if x.isNull then 0 else 1))
  | 4 => match x with
    | .many l => .one (.bits l.length)
    | _ => .null
  | _ => match x with
    | .many l =>
      let i := signedOf 32 (n.u 4 4)
      let j := if i < 0 then i + l.length else i
      if 0 ≤ j ∧ j < l.length then
        match l.getD j.toNat none with
        | some b => .one (.bits b)
        | none => .null
      else .null
    | _ => .null

/-- The index of DICT_INDEX is brought into the dictionary (R122, R139). -/
def dictIndex (t : Ty) (idx : Nat) (count : Nat) : Nat := wrapIndex (signedOf (8 * (codeWidth (t.dict.getD 2) 0).getD 1) idx) count

/-- The second operand of a two-operand op: input 1, or const. -/
def Node.operandInt (n : Node) (t : Ty) (y : Val) : Int :=
  if n.inCount = 1 then n.i 8 else match y.scalar with
    | .bits b => t.int b
    | _ => 0
def Node.operandNum (n : Node) (t : Ty) (y : Val) : Num :=
  if n.inCount = 1 then fp64.value (n.u 8 8) else match y.scalar with
    | .bits b => t.num b
    | _ => .zero

def unitsPerDay (unit : Nat) : Int :=
  match unit with
  | 0 => 86400
  | 1 => 86400000
  | 2 => 86400000000
  | _ => 86400000000000

def projectInt (op : Nat) (x y : Int) : Option Int :=
  match op with
  | 2 => some (x + y)
  | 3 => some (x - y)
  | 4 => some (x * y)
  | 5 => intDiv x y
  | 6 => some (min x y)
  | 7 => some (max x y)
  | 8 => some x.natAbs
  | _ => some (-x)

def projectNum (op : Nat) (x y : Num) : Num :=
  match op with
  | 2 => fp64.add x y
  | 3 => fp64.sub x y
  | 4 => fp64.mul x y
  | 5 => fp64.div x y
  | 6 => x.min y
  | 7 => x.max y
  | 8 => x.magnitude
  | _ => x.negate

/-- Project of inputs that are not null where R153 asks it. -/
def Ev.projectVal (v : Ev) (n : Node) (inp : Nat → Val) : Val :=
  let op := n.u 0 1
  let all := (List.range n.inCount).map inp
  let t0 := v.inTy n 0
  let out := n.outType
  let null := all.any Val.isNull
  if op = 10 then .one ((all.find? fun x => !x.isNull).getD .null).scalar
  else if op = 15 then .packed (all.map fun x => match x.scalar with
    | .bits b => some b
    | _ => none)
  else if op = 16 then .one (.bits ((List.range n.inCount).foldl (fun a i => if (inp i).isNull then a else a + 2 ^ i) 0))
  else if null then .null
  else match (inp 0).scalar with
    | .null => .null
    | .bytes b => if op = 11 then .one (.bits b.length) else .null
    | .bits a =>
      if op = 1 then (if portFloat t0.code then .one (numTo out (t0.num a))
        else if portFloat out then .one (numTo out (t0.num a)) else .one (intTo out (t0.int a)))
      else if op = 12 then .one (intTo 0x02 ((t0.int a + 3) % 7))
      else if op = 13 then .one (intTo 0x32 (t0.int a / unitsPerDay t0.scale))
      else if op = 14 then .one (intTo 0x06 (t0.int a - n.operandInt (v.inTy n 1) (inp 1)))
      else if portFloat t0.code then .one (numTo out (projectNum op (t0.num a) (n.operandNum (v.inTy n 1) (inp 1))))
      else match projectInt op (t0.int a) (n.operandInt (v.inTy n 1) (inp 1)) with
        | some i => .one (intTo out (signedOf 64 (unsignedOf 64 i)))
        | none => .null

/-! ## Hash, bucketize, normalise, cross (R179 to R183) -/

/-- h mod a modulus, in a type. -/
def modTo (code : Nat) (h : DWord) (m : Nat) : Scalar :=
  .bits ((if m = 0 then h.toNat else h.toNat % m) % 2 ^ (8 * (Ty.plain code).bytes))

def Ev.hashVal (v : Ev) (n : Node) (inp : Nat → Val) : Val :=
  let all := (List.range n.inCount).map inp
  if all.any Val.isNull && !bitOf (n.u 16 2) 0 then .null
  else
    let cs := (List.range n.inCount).map fun k => (v.inTy n k).component (inp k).scalar
    .one (modTo n.outType (rowHash cs (n.key 0)) (n.u 8 8))

def Ev.bucketVal (v : Ev) (n : Node) (x : Val) : Val :=
  match x.scalar with
  | .bits a =>
    let t := v.inTy n 0
    let fp := n.u 2 1 == 1
    if (t.num a).isNan && portFloat t.code then .null
    else
      let below := fun j =>
        if fp then !(t.num a).lt (fp64.value (n.u (16 + 8 * j) 8))
        else if portFloat t.code then !(t.num a).lt (Num.ofInt (n.i (16 + 8 * j)))
        else decide (n.i (16 + 8 * j) ≤ t.int a)
      .one (.bits ((List.range (n.u 0 2)).filter below).length)
  | _ => .null

/-- A statistics record (R182): n, mean, m2, min, max, null_count, nonfinite_count. -/
structure Stats where
  n : Nat
  mean : Num
  m2 : Num
  min : Num
  max : Num
  nulls : Nat
  nonfinite : Nat
  deriving DecidableEq, Repr

def statsAt (s : State) (a : Nat) : Stats :=
  ⟨s.loadNat a 8, fp64.value (s.loadNat (a + 8) 8), fp64.value (s.loadNat (a + 16) 8), fp64.value (s.loadNat (a + 24) 8),
    fp64.value (s.loadNat (a + 32) 8), s.loadNat (a + 40) 8, s.loadNat (a + 48) 8⟩
def Stats.bytes (x : Stats) : List Byte :=
  leBytes 8 x.n ++ leBytes 8 (fp64.code x.mean) ++ leBytes 8 (fp64.code x.m2) ++ leBytes 8 (fp64.code x.min) ++
    leBytes 8 (fp64.code x.max) ++ leBytes 8 x.nulls ++ leBytes 8 x.nonfinite ++ leBytes 8 0

def countNum (n : Nat) : Num := fp64.toFormat (.fin false n 0)

/-- Z_SCORE and MINMAX; none where n is 0 (R181). -/
def scoreOf (mode flags : Nat) (st : Stats) (x : Num) : Option Num :=
  if st.n = 0 then none
  else if mode = 5 then
    let var :=
      if flags % 2 = 1 then (if st.n = 1 then .zero else fp64.div st.m2 (countNum (st.n - 1)))
      else fp64.div st.m2 (countNum st.n)
    some (if var.isZero then .zero else fp64.div (fp64.sub x st.mean) (fp64.sqrt var))
  else some (if st.max.eq st.min then .zero else fp64.div (fp64.sub x st.min) (fp64.sub st.max st.min))

def Ev.normVal (v : Ev) (n : Node) (x : Val) : Val :=
  match x.scalar with
  | .bits a =>
    let y := (v.inTy n 0).num a
    let ca := fp64.value (n.u 8 8)
    let cb := fp64.value (n.u 16 8)
    match n.u 0 1 with
    | 1 => .one (numTo n.outType (fp64.add (fp64.mul ca y) cb))
    | 2 => .one (numTo n.outType (log1p y))
    | 3 => .one (numTo n.outType ((y.max ca).min cb))
    | m => match scoreOf m (n.u 1 1) (statsAt v.s (v.stats + 64 * n.statIndex)) y with
      | some z => .one (numTo n.outType z)
      | none => .null
  | _ => .null

/-- Every combination of one member per list, the first list varying slowest. -/
def combos {α : Type} : List (List α) → List (List α)
  | [] => [[]]
  | l :: t => l.flatMap fun x => (combos t).map fun r => x :: r

def Ev.crossVal (v : Ev) (n : Node) (inp : Nat → Val) : Val :=
  let key := n.key 0 ^^^ 0xC505C505C505C505
  let one := fun (cs : List Component) => (rowHash cs key).toNat % n.u 8 8
  let ks := List.range n.inCount
  let lists := ks.any fun k => (v.inTy n k).list
  if !lists then
    if ks.any fun k => (inp k).isNull then .null
    else .one (.bits (one (ks.map fun k => (v.inTy n k).component (inp k).scalar)))
  else if ks.any fun k => (inp k).isNull then .null
  else
    let members := ks.map fun k => match inp k with
      | .many l => l.map fun e => match e with
        | some b => (v.inTy n k).component (.bits b)
        | none => Component.null
      | x => [(v.inTy n k).component x.scalar]
    let count := (members.map List.length).foldl (· * ·) 1
    if count = 0 ∨ n.u 16 2 < count then .null
    else .many ((combos members).map fun cs => if cs.contains .null then none else some (one cs))

/-! ## Window (R185, R186) -/

/-- Row q belongs to the series of row r, q at or before r: every row after q up to r goes on from the one before it. -/
def sameSeries (first : Nat) (cont : Nat → Bool) (q r : Nat) : Bool :=
  decide (first ≤ q) && ((List.range (r - q)).all fun d => cont (q + 1 + d))

/-- The rows of the frame of spec i at row r. -/
def frameRows (n : Node) (i first : Nat) (cont : Nat → Bool) (time : Nat → Int) (r : Nat) : List Nat :=
  let len := specLength n i
  let back := windowDepth n
  let rows := ((List.range (min back (r - first) + 1)).map fun d => r - d).reverse
  let mine := rows.filter fun q => sameSeries first cont q r
  let span := (len : Int) * n.i 8
  if specKind n i = 1 then
    if specTime n i then mine.filter fun q => decide (time q = time r - span)
    else mine.filter fun q => q + len == r
  else if specTime n i then
    if specExclude n i then mine.filter fun q => decide (time r - span ≤ time q) && decide (time q ≤ time r - 1)
    else mine.filter fun q => decide (time r - span < time q) && decide (time q ≤ time r)
  else if specExclude n i then mine.filter fun q => decide (q < r) && decide (r ≤ q + len)
  else mine.filter fun q => decide (r < q + len)

/-- The exact sum of floating members, rounded once (R186). -/
def exactTotal (l : List Num) : Num :=
  if l.any Num.isNan then .nan
  else if l.any (fun x => x.isInf && x.neg) && l.any (fun x => x.isInf && !x.neg) then .nan
  else match l.find? Num.isInf with
    | some x => x
    | none => fp64.roundDyadic false (l.foldl (fun a x => a.add x.dyadic) .zero)

/-- The aggregate of a spec over its members' bits. -/
def frameValue (t : Ty) (kind periods : Nat) (m : List Nat) : Val :=
  let n := m.length
  if kind = 6 then .one (.bits n)
  else if n < periods then .null
  else if t.integer then
    let l := m.map t.int
    let sum := signedOf 64 (unsignedOf 64 (l.foldl (· + ·) 0))
    match kind with
    | 2 => .one (intTo 0x08 sum)
    | 3 => .one (numTo 0x0E (fp64.div (intNum sum) (countNum n)))
    | 4 => .one (intTo t.code (l.foldl min (l.headD 0)))
    | _ => .one (intTo t.code (l.foldl max (l.headD 0)))
  else
    let l := m.map t.num
    match kind with
    | 2 => .one (numTo 0x0E (exactTotal l))
    | 3 => .one (numTo 0x0E (fp64.div (exactTotal l) (countNum n)))
    | 4 => .one (numTo t.code (l.foldl Num.min (l.headD .zero)))
    | _ => .one (numTo t.code (l.foldl Num.max (l.headD .zero)))

def Ev.windowVal (v : Ev) (n : Node) (i : Nat) (inp : Nat → Nat → Val) (r : Nat) : Val :=
  let time := fun q => match (inp 1 q).scalar with
    | .bits b => (v.inTy n 1).int b
    | _ => 0
  -- a row goes on the series of the row before it
  let cont := fun q => (inp 0 q).scalar == (inp 0 (q - 1)).scalar && decide (time (q - 1) < time q)
  let rows := frameRows n i v.first cont time r
  if specKind n i = 1 then match rows.head? with
    | some q => .one (inp 2 q).scalar
    | none => .null
  else
    frameValue (v.inTy n 2) (specKind n i) (specPeriods n i) (rows.filterMap fun q => match (inp 2 q).scalar with
      | .bits b => some b
      | _ => none)

/-! ## Keys (R192 to R194) -/

/-- Zero-padded to a length. -/
def padBytes (b : List Byte) (n : Nat) : List Byte := b ++ List.replicate (n - b.length) 0

/-- The packed bytes of a component; none when it is null or unrepresentable. -/
def Ty.pack (t : Ty) (maxLen : Nat) (x : Scalar) : Option (List Byte) :=
  match x with
  | .null => none
  | .bits n => some (leBytes t.bytes n)
  | .bytes b => if codeVariable t.code then (if maxLen < b.length then none else some (leBytes 1 b.length ++ padBytes b maxLen)) else some b

/-- Key of a row: packed components, each none where it is null or unrepresentable. -/
def packKey (tys : List Ty) (lens : List Nat) (x : List Scalar) : List (Option (List Byte)) :=
  (tys.zip (lens.zip x)).map fun e => e.1.pack e.2.1 e.2.2

/-- The whole packed key, if every component has one. -/
def wholeKey (k : List (Option (List Byte))) : Option (List Byte) :=
  if k.all Option.isSome then some (k.map fun x => x.getD []).flatten else none

/-! ## Buckets and builds (R195, R196, R200) -/

def unitAt (base u : Nat) : Nat := base + 64 * u
def bucketNext (s : State) (a : Nat) : Nat := s.loadNat a 4
def bucketCount (s : State) (a : Nat) : Nat := s.loadNat (a + 4) 1
/-- Hash and index of slot k of a bucket. -/
def bucketSlot (s : State) (a k : Nat) : DWord × Nat := (BitVec.ofNat 64 (s.loadNat (a + 8 + 14 * k) 8), s.loadNat (a + 16 + 14 * k) 5)

/-- The addresses of the buckets of a chain. Bit 31 of next names the other work area (group-by). -/
def chain (s : State) (base other : Nat) : Nat → Nat → List Nat
  | 0, _ => []
  | f + 1, a =>
    let n := bucketNext s a
    a :: (if n = 0xFFFFFFFF then [] else chain s base other f (unitAt (if bitOf n 31 then other else base) (n % 2 ^ 31)))

/-- Slots of a chain, in chain order. -/
def chainSlots (s : State) (l : List Nat) : List (DWord × Nat) :=
  l.flatMap fun a => (List.range (min 4 (bucketCount s a))).map fun k => bucketSlot s a k

/-- Work area of a build node: base and units. -/
def Ev.work (v : Ev) (slot : Nat) : Nat × Nat := ((v.outs.getD slot ⟨0, 0, 0, [], 0, []⟩).base, (v.outs.getD slot ⟨0, 0, 0, [], 0, []⟩).ext 1)
def buildStride (keyWidth : Nat) : Nat := 16 * ceilDiv (8 + keyWidth) 16
def entryBase (base log2 : Nat) : Nat := base + 64 * (1 + 2 ^ log2)

/-- What a search of a build finds: build rows of the matches in entry order, buckets read beyond the first, entries whose
key differed. -/
structure Probe where
  rows : List Nat
  chained : Nat
  falseKeys : Nat
  deriving DecidableEq, Repr

def Ev.searchBuild (v : Ev) (b : Node) (h : DWord) (key : List Byte) : Probe :=
  let w := v.work (b.u 1 1)
  let log2 := b.u 2 1
  let l := chain v.s w.1 w.1 w.2 (unitAt w.1 (1 + h.toNat % 2 ^ log2))
  let stride := buildStride key.length
  let cand := ((chainSlots v.s l).filter fun e => e.1 == h).map fun e => entryBase w.1 log2 + stride * e.2
  let hit := fun a => v.s.load (a + 8) key.length == key
  ⟨(cand.filter hit).map fun a => v.s.loadNat a 8, l.length - 1, (cand.filter fun a => !hit a).length⟩

/-! ## Probes (R202 to R207) -/

/-- Key types, maxima and hash of a probe node's row. -/
def Ev.probeKey (v : Ev) (n b : Node) (inp : Nat → Val) : Option (DWord × List Byte) :=
  let k := b.u 0 1
  let xs := (List.range k).map fun i => (inp i).scalar
  let tys := (List.range k).map fun i => v.inTy n i
  (wholeKey (packKey tys (maxLens b 16 k) xs)).map fun key =>
    (rowHash ((tys.zip xs).map fun e => e.1.component e.2) (b.key 8), key)

/-- A join probe of one row. -/
def Ev.joinProbe (v : Ev) (n : Node) (inp : Nat → Val) : Probe :=
  let b := v.node (n.u 0 1)
  match v.probeKey n b inp with
  | none => ⟨[], 0, 0⟩
  | some (h, key) => v.searchBuild b h key

/-- The directory key of a directory probe's row. -/
def Ev.dirKey (v : Ev) (n : Node) (inp : Nat → Val) : Option (List DWord) :=
  let k := n.u 4 1
  let xs := (List.range k).map fun i => (inp i).scalar
  let tys := (List.range k).map fun i => v.inTy n i
  (wholeKey (packKey tys (List.replicate k 0) xs)).map fun b =>
    (List.range (n.u 3 1)).map fun i => BitVec.ofNat 64 (leField b (8 * i) 8)

/-- A directory join probe of one row: at most one build row, after the wrap rule. -/
def Ev.dirProbe (v : Ev) (n : Node) (inp : Nat → Val) : Found × List Nat :=
  match v.dirKey n inp with
  | none => (⟨none, 0, 0⟩, [])
  | some key =>
    let f := v.s.dirFind (n.u 6 2) v.die key
    (f, match f.winner with
      | none => []
      | some w => [w.2.value % v.s.tableRows (v.input (n.u 2 1))])

/-- What a join emits for a row with given matches (R203). -/
def emitJoin (joinType : Nat) (m : Nat) (e : Elem) (rows : List Nat) : List Elem :=
  let at_ := fun (h : Option Nat) => { e with hits := (m, h) :: e.hits }
  match joinType with
  | 1 => rows.map fun r => at_ (some r)
  | 2 => if rows.isEmpty then [at_ none] else rows.map fun r => at_ (some r)
  | 3 => if rows.isEmpty then [] else [at_ none]
  | _ => if rows.isEmpty then [at_ none] else []

/-- The build row that a probe node matched at an element. -/
def Elem.hit (e : Elem) (m : Nat) : Option Nat := (e.hits.find? fun h => h.1 == m).bind fun h => h.2

/-- Port q of a probe node: carried inputs, payload columns, MATCH_PORT. -/
def Ev.probeVal (v : Ev) (m q : Nat) (table joinFlags : Nat) (cols : List Nat) (inp : Nat → Val) (e : Elem) : Val :=
  let n := v.node m
  if q < n.inCount then inp q
  else match cols[q - n.inCount]? with
    | some c => match e.hit m with
      | some r => match v.s.cell (v.input table) c r with
        | .coded _ w x => .coded 0 w x
        | x => x
      | none => .null
    | none => if joinFlags = 1 then .one (.bits (if (e.hit m).isSome then 1 else 0)) else .null

/-! ## Any node -/

/-- Port q of node m at an element, given its inputs at any element. -/
def Ev.nodeVal (v : Ev) (m q : Nat) (inp : Nat → Elem → Val) (e : Elem) : Val :=
  let n := v.node m
  let here := fun k => inp k e
  match n.op with
  | 0x01 =>
    if n.u 0 1 = 2 then match here 0, refOf (n.refWord 0) with
      | .coded i _ _, .col t c =>
        match v.s.batchOf (v.input t) e.row with
        | some b => .one (.bits (dictIndex (v.inTy n 0) i (v.s.loadNat (b.2.2 + 64 * c + 56) 4)))
        | none => .null
      | _, _ => .null
    else scanVal n (here 0)
  | 0x02 => here q
  | 0x03 => v.projectVal n here
  | 0x04 => v.hashVal n here
  | 0x05 => v.bucketVal n (here 0)
  | 0x06 => v.normVal n (here 0)
  | 0x07 => v.crossVal n here
  | 0x08 => v.windowVal n q (fun k r => inp k ⟨r, []⟩) e.row
  | 0x11 => v.probeVal m q (buildTable (v.node (n.u 0 1))) (n.u 3 1) (payloadColumns n (n.u 2 1)) here e
  | 0x12 => v.probeVal m q (n.u 2 1) (n.u 5 1) (payloadColumns n (n.u 1 1)) here e
  | _ => .null

/-- The value of a reference at an element; the fuel bounds the node numbers passed through. -/
def Ev.val (v : Ev) : Nat → Ref → Elem → Val
  | _, .col t c, e => v.s.cell (v.input t) c e.row
  | 0, .port _ _, _ => .null
  | f + 1, .port m q, e => v.nodeVal m q (fun k x => Ev.val v f (refOf ((v.node m).refWord k)) x) e

def Ev.fuel (v : Ev) : Nat := v.nodes.length + 1
/-- Input k of node m at an element. -/
def Ev.inAt (v : Ev) (m k : Nat) (e : Elem) : Val := v.val v.fuel (refOf ((v.node m).refWord k)) e

/-- The domain of a node's inputs. -/
def Ev.inDomain (v : Ev) (m : Nat) : Nat := refDomain v.domains (refOf ((v.node m).refWord 0))

/-- The elements of a domain for a stripe's driving rows: an input table other than the driving one is read whole. -/
def Ev.elems (v : Ev) (rows : List Nat) : Nat → Nat → List Elem
  | 0, _ => []
  | f + 1, d =>
    if d = 0 then rows.map fun r => ⟨r, []⟩
    else if d < 16 then (List.range (v.s.tableRows (v.input d))).map fun r => ⟨r, []⟩
    else
      let m := d - 16
      let n := v.node m
      let parents := Ev.elems v rows f (v.inDomain m)
      match n.op with
      | 0x02 => parents.filter fun e => v.selects n fun k => v.inAt m k e
      | 0x11 => parents.flatMap fun e => emitJoin (n.u 1 1) m e (v.joinProbe n fun k => v.inAt m k e).rows
      | 0x12 => parents.flatMap fun e => emitJoin (n.u 0 1) m e (v.dirProbe n fun k => v.inAt m k e).2
      | _ => parents

/-- The elements a node reads, and those of its own domain. -/
def Ev.inElems (v : Ev) (rows : List Nat) (m : Nat) : List Elem := v.elems rows (v.fuel + 1) (v.inDomain m)
def Ev.outElems (v : Ev) (rows : List Nat) (m : Nat) : List Elem := v.elems rows (v.fuel + 1) (v.domains.getD m 0)

/-- The values of port 0 of a node over a stripe. -/
def Ev.outVals (v : Ev) (rows : List Nat) (m : Nat) : List Val := (v.outElems rows m).map fun e => v.val v.fuel (.port m 0) e

end Sys2Proof.Machine
end

