-- ==== Sys2Proof/Machine/Grouping.lean ====
section
/-! DEFINITION. What a stripe leaves at its placement: statistics, appended rows, densified cells, partition records, join
build entries and merged groups (R155, R156, R163, R182, R187, R188, R199 to R201, R205, R210 to R214). -/

namespace Sys2Proof.Machine

/-- A placement that cannot be made ends the run with a status and a detail. -/
abbrev Placed := Except (Status × Nat)

/-! ## Statistics (R182) -/

/-- The statistics of no values: the spec states no min and max for n = 0. -/
def Stats.empty : Stats :=
  ⟨0, .zero, .zero, fp64.value Config.emptyStat, fp64.value Config.emptyStat, 0, 0⟩

/-- Take in one value, in row order. -/
def Stats.take (a : Stats) (x : Option Num) : Stats :=
  match x with
  | none => { a with nulls := a.nulls + 1 }
  | some x =>
    if !x.finite then { a with nonfinite := a.nonfinite + 1 }
    else
      let n := a.n + 1
      let d := fp64.sub x a.mean
      let mean := fp64.add a.mean (fp64.div d (countNum n))
      { a with
        n := n, mean := mean, m2 := fp64.add a.m2 (fp64.mul d (fp64.sub x mean))
        min := if a.n = 0 then x else a.min.min x, max := if a.n = 0 then x else a.max.max x }

/-- combine of R182; the counts add. -/
def Stats.combine (a b : Stats) : Stats :=
  let nulls := a.nulls + b.nulls
  let bad := a.nonfinite + b.nonfinite
  if a.n = 0 then { b with nulls := nulls, nonfinite := bad }
  else if b.n = 0 then { a with nulls := nulls, nonfinite := bad }
  else
    let n := countNum (a.n + b.n)
    let delta := fp64.sub b.mean a.mean
    let mean := fp64.add a.mean (fp64.div (fp64.mul delta (countNum b.n)) n)
    let m2 := fp64.add (fp64.add a.m2 b.m2)
      (fp64.div (fp64.mul (fp64.mul delta delta) (fp64.mul (countNum a.n) (countNum b.n))) n)
    ⟨a.n + b.n, mean, m2, a.min.min b.min, a.max.max b.max, nulls, bad⟩

/-- A stripe's partial of a STATS node. -/
def Ev.partialStats (v : Ev) (rows : List Nat) (m : Nat) : Stats :=
  let n := v.node m
  (v.inElems rows m).foldl (fun a e => a.take (match (v.inAt m 0 e).scalar with
    | .bits b => some ((v.inTy n 0).num b)
    | _ => none)) .empty

def State.mergeStats (s : State) (v : Ev) (rows : List Nat) (m : Nat) : State :=
  let a := v.stats + 64 * (v.node m).statIndex
  s.store a ((statsAt s a).combine (v.partialStats rows m)).bytes

/-! ## Appended rows (R156, R162, R163) -/

/-- The bits a value has in a tensor: null is written as 0 (R153). -/
def Val.cells : Val → List Nat
  | .packed l => l.map fun x => x.getD 0
  | x => [x.scalar.nat]

/-- Write row j of a tensor output. -/
def State.writeRow (s : State) (d : Desc) (transposed : Bool) (j : Nat) (x : Val) : State :=
  x.cells.zipIdx.foldl (fun t e =>
    t.setElem d (if transposed then [Int.ofNat j, Int.ofNat e.2] else [Int.ofNat e.2, Int.ofNat j]) e.1) s

/-- Append rows to a tensor output from row `from_` on. -/
def State.appendRows (s : State) (d : Desc) (transposed : Bool) (from_ : Nat) (l : List Val) : State :=
  l.zipIdx.foldl (fun t e => t.writeRow d transposed (from_ + e.2) e.1) s

/-! ## Densify (R187) -/

/-- One cell's new bits under OVERWRITE or ADD. -/
def densifyCell (out mode : Nat) (t : Ty) (old b : Nat) : Nat :=
  if mode = 1 then
    (if portFloat t.code || portFloat out then numTo out (t.num b) else intTo out (t.int b)).nat
  else if portFloat out then (numTo out (fp64.add ((Ty.plain out).num old) (t.num b))).nat
  else if portFloat t.code then (intTo out ((Ty.plain out).int old + (t.num b).trunc)).nat
  else (intTo out ((Ty.plain out).int old + t.int b)).nat

/-- Write one row's cell, and its mask. -/
def State.densifyRow (s : State) (v : Ev) (m : Nat) (e : Elem) : State :=
  let n := v.node m
  let d := v.outs.getD n.slot ⟨0, 0, 0, [], 0, []⟩
  match (v.inAt m 0 e).scalar, (v.inAt m 1 e).scalar, (v.inAt m 2 e).scalar with
  | .bits a, .bits b, .bits c =>
    let idx : List Int := [(v.inTy n 1).int b - n.i 0, (v.inTy n 0).int a]
    let outside := d.wraps idx 0
    if outside && bitOf (n.u 9 1) 2 then s
    else
      let s := s.countWrap 0 d idx
      let s := s.setElem d idx (densifyCell n.outType (n.u 8 1) (v.inTy n 2) (s.elem d idx) c)
      if densifyMask n then s.setElem (v.outs.getD (n.u 10 1) ⟨0, 0, 0, [], 0, []⟩) idx 1 else s
  | _, _, _ => s

/-- The wrapped index vectors a densify node forms over a stripe. -/
def Ev.densifyWraps (v : Ev) (rows : List Nat) (m : Nat) : Nat :=
  let n := v.node m
  let d := v.outs.getD n.slot ⟨0, 0, 0, [], 0, []⟩
  ((v.inElems rows m).filter fun e => match (v.inAt m 0 e).scalar, (v.inAt m 1 e).scalar, (v.inAt m 2 e).scalar with
    | .bits a, .bits b, .bits _ =>
      !bitOf (n.u 9 1) 2 && d.wraps [(v.inTy n 1).int b - n.i 0, (v.inTy n 0).int a] 0
    | _, _, _ => false).length

/-! ## Partition (R188) -/

/-- Destination and record of a row. -/
def Ev.partRecord (v : Ev) (m : Nat) (e : Elem) : Nat × List Byte :=
  let n := v.node m
  let tys := (List.range n.inCount).map fun k => v.inTy n k
  let xs := (List.range n.inCount).map fun k => (v.inAt m k e).scalar
  let k := n.u 10 1
  let h := rowHash (((tys.zip xs).take k).map fun x => x.1.component x.2) (n.key 0)
  let null := (xs.take k).any fun x => x == .null
  let d := if null then 0 else h.toNat / 2 ^ n.u 8 1 % 2 ^ n.u 9 1
  let mask := xs.zipIdx.foldl (fun a x => if x.1 == .null then a else a + 2 ^ x.2) 0
  let body := ((tys.zip xs).map fun x => match x.2 with
    | .bytes b => padBytes b x.1.bytes
    | y => leBytes x.1.bytes y.nat).flatten
  (d, padBytes (leBytes 8 h.toNat ++ leBytes 1 mask ++ leBytes 7 0 ++ body) (recordLength tys))

/-- Append a stripe's records, destination by destination, in row order. -/
def Ev.partition (v : Ev) (rows : List Nat) (m : Nat) (fail : Status × Nat) (s : State) (counts : List Nat) :
    Placed (State × List Nat) :=
  let d := v.outs.getD (v.node m).slot ⟨0, 0, 0, [], 0, []⟩
  let cap := d.ext 1 / 2 ^ (v.node m).u 9 1
  (v.inElems rows m).foldl (fun r e => match r with
    | .error x => .error x
    | .ok (s, counts) =>
      let p := v.partRecord m e
      let c := counts.getD p.1 0
      if cap ≤ c then .error fail
      else .ok (s.store (d.rowAt (p.1 * cap + c)) p.2, setAt counts p.1 (· + 1))) (.ok (s, counts))

/-! ## Join build (R199 to R201) -/

/-- A bucket with no slot and no next. -/
def State.clearBucket (s : State) (a : Nat) : State := s.store a (leBytes 4 0xFFFFFFFF ++ leBytes 1 0 ++ leBytes 3 0)

/-- The bucket array at the start of a build or group-by. -/
def State.clearBuckets (s : State) (base log2 : Nat) : State :=
  (List.range (2 ^ log2)).foldl (fun t u => t.clearBucket (unitAt base (1 + u))) s

/-- Add a slot to a bucket that has room. -/
def State.addSlot (s : State) (a : Nat) (h : DWord) (index : Nat) : State :=
  let k := bucketCount s a
  (s.store (a + 8 + 14 * k) (leBytes 8 h.toNat ++ leBytes 5 index ++ leBytes 1 0)).store (a + 4) (leBytes 1 (k + 1))

/-- The key width of a build or group-by node. -/
def Ev.keyWidth (v : Ev) (n : Node) (k : Nat) : Nat :=
  ((List.range k).map fun i => (v.inTy n i).keyWidth (n.u (16 + i) 1)).foldl (· + ·) 0

/-- The build header and the empty bucket array (R200). -/
def State.startBuild (s : State) (v : Ev) (n : Node) : State :=
  let w := v.work (n.u 1 1)
  let kw := v.keyWidth n (n.u 0 1)
  let head := leBytes 4 0x4A424C44 ++ leBytes 1 (n.u 2 1) ++ leBytes 1 kw ++ leBytes 1 (buildStride kw) ++ leBytes 1 0 ++
    leBytes 8 0 ++ leBytes 4 w.2 ++ leBytes 4 0 ++ leBytes 8 0 ++ leBytes 8 0 ++ leBytes 24 0
  (s.store w.1 head).clearBuckets w.1 (n.u 2 1)

/-- Add to a 64-bit field. -/
def State.addField (s : State) (a n : Nat) : State := s.store a (leBytes 8 (s.loadNat a 8 + n))

/-- Insert one build row; none when the build is full. -/
def State.buildRow (s : State) (v : Ev) (n : Node) (row : Nat) : Option State :=
  let k := n.u 0 1
  let w := v.work (n.u 1 1)
  let log2 := n.u 2 1
  let s := s.addField (w.1 + 32) 1
  let tys := (List.range k).map fun i => v.inTy n i
  let xs := (List.range k).map fun i => match refOf (n.refWord i) with
    | .col t c => (v.s.cell (v.input t) c row).scalar
    | _ => .null
  match wholeKey (packKey tys (maxLens n 16 k) xs) with
  | none => some ((s.addField (w.1 + 24) 1).bump Reg.cntJoinSkipped 1)
  | some key =>
    let h := rowHash ((tys.zip xs).map fun e => e.1.component e.2) (n.key 8)
    let stride := buildStride key.length
    let e := s.loadNat (w.1 + 8) 8
    let low := s.loadNat (w.1 + 16) 4
    let at_ := entryBase w.1 log2 + stride * e
    let stop := at_ + stride - w.1
    let l := chain s w.1 w.1 w.2 (unitAt w.1 (1 + h.toNat % 2 ^ log2))
    let last := l.getLastD 0
    let s := s.bump Reg.cntJoinChainReads (l.length - 1)
    let entry := fun (s : State) => (s.store at_ (padBytes (leBytes 8 row ++ key) stride)).store (w.1 + 8) (leBytes 8 (e + 1))
    if 64 * low < stop then none
    else if bucketCount s last < 4 then some (entry (s.addSlot last h e))
    else if low = 0 ∨ 64 * (low - 1) < stop then none
    else
      let u := low - 1
      let s := ((s.clearBucket (unitAt w.1 u)).store last (leBytes 4 u)).store (w.1 + 16) (leBytes 4 u)
      some (entry (s.addSlot (unitAt w.1 u) h e))

/-- Insert the rows of a build stripe in row order. -/
def State.buildStripe (s : State) (v : Ev) (n : Node) (rows : List Nat) : Placed State :=
  rows.foldl (fun r row => match r with
    | .error x => .error x
    | .ok s => match s.buildRow v n row with
      | some t => .ok t
      | none => .error (Status.buildFull, row)) (.ok s)

/-! ## Group-by (R209 to R214) -/

def Acc.empty : Acc := ⟨0, 0⟩

/-- Take one member's value into an aggregate (R211): sums start at 0, and only non-null values count. -/
def Acc.take (kind : Nat) (t : Ty) (a : Acc) (x : Scalar) : Acc :=
  if kind = 3 then { a with n := a.n + 1 }
  else match x with
    | .bits b =>
      let n := a.n + 1
      match kind with
      | 1 =>
        if portFloat t.code then ⟨n, fp64.code (fp64.add (fp64.value a.bits) (t.num b))⟩
        else ⟨n, unsignedOf 64 (signedOf 64 a.bits + t.int b)⟩
      | 2 => ⟨n, 0⟩
      | 6 => ⟨n, fp64.code (fp64.add (fp64.value a.bits) (t.num b))⟩
      | k =>
        if a.n = 0 then ⟨n, b⟩
        else if portFloat t.code then
          let y := if k = 4 then (t.num a.bits).min (t.num b) else (t.num a.bits).max (t.num b)
          ⟨n, (floatOf t.code).code y⟩
        else ⟨n, if (k == 4) == decide (t.int b < t.int a.bits) then b else a.bits⟩
    | .bytes _ => if kind = 2 then ⟨a.n + 1, 0⟩ else a
    | .null => a

/-- Merge a stripe's partial into the group's aggregate: one rounding for a sum. -/
def Acc.merge (kind : Nat) (t : Ty) (g p : Acc) : Acc :=
  if p.n = 0 then g
  else match kind with
    | 1 =>
      if portFloat t.code then ⟨g.n + p.n, fp64.code (fp64.add (fp64.value g.bits) (fp64.value p.bits))⟩
      else ⟨g.n + p.n, unsignedOf 64 (signedOf 64 g.bits + signedOf 64 p.bits)⟩
    | 2 => ⟨g.n + p.n, 0⟩
    | 3 => ⟨g.n + p.n, 0⟩
    | 6 => ⟨g.n + p.n, fp64.code (fp64.add (fp64.value g.bits) (fp64.value p.bits))⟩
    | k => { Acc.take k t { g with n := g.n } (.bits p.bits) with n := g.n + p.n }

/-- The value types of the specs of a group-by node. -/
def Ev.aggTys (v : Ev) (n : Node) : List Ty :=
  (List.range (n.u 1 1)).map fun i => if aggKind n i = 3 then Ty.plain 0x08 else v.inTy n (n.u 0 1 + aggInput n i)

/-- Hash, mask and padded packed key of a row: null and unrepresentable components are null (R210). -/
def Ev.groupKey (v : Ev) (m : Nat) (e : Elem) : DWord × Nat × List Byte :=
  let n := v.node m
  let k := n.u 0 1
  let tys := (List.range k).map fun i => v.inTy n i
  let xs := (List.range k).map fun i => (v.inAt m i e).scalar
  let packed := packKey tys (maxLens n 16 k) xs
  let comps := (tys.zip (xs.zip packed)).map fun x => if x.2.2.isSome then x.1.component x.2.1 else Component.null
  let mask := packed.zipIdx.foldl (fun a x => if x.1.isSome then a + 2 ^ x.2 else a) 0
  let bytes := ((tys.zip ((maxLens n 16 k).zip packed)).map fun x =>
    x.2.2.getD (List.replicate (x.1.keyWidth x.2.1) 0)).flatten
  (rowHash comps (n.key 8), mask, bytes)

/-- The values of the specs at an element. -/
def Ev.aggVals (v : Ev) (m : Nat) (e : Elem) : List Scalar :=
  let n := v.node m
  (List.range (n.u 1 1)).map fun i => if aggKind n i = 3 then .null else (v.inAt m (n.u 0 1 + aggInput n i) e).scalar

def aggKinds (n : Node) : List Nat := (List.range (n.u 1 1)).map (aggKind n)

/-- Take an element into the partial groups of a stripe, in order of first occurrence. -/
def Ev.takeGroup (v : Ev) (m : Nat) (l : List Group) (e : Elem) : List Group :=
  let n := v.node m
  let k := v.groupKey m e
  let take := fun (a : List Acc) =>
    ((aggKinds n).zip ((v.aggTys n).zip (a.zip (v.aggVals m e)))).map fun x => Acc.take x.1 x.2.1 x.2.2.1 x.2.2.2
  match firstIdx (fun (g : Group) => g.hash == k.1 && g.mask == k.2.1 && g.key == k.2.2) 0 l with
  | some i => setAt l i fun g => { g with accs := take g.accs }
  | none => l ++ [⟨k.1, k.2.1, k.2.2, e.row, take (List.replicate (n.u 1 1) .empty)⟩]

/-- Bytes of the accumulators, and of a group record (R213). -/
def accBytes (kinds : List Nat) : Nat := (kinds.map fun k => if k = 6 then 16 else 8).foldl (· + ·) 0
def recordStride (keyWidth : Nat) (kinds : List Nat) : Nat := 16 * ceilDiv (16 + 8 * ceilDiv keyWidth 8 + accBytes kinds) 16

/-- The widened bits an accumulator holds (R169): INT64 or FP64. -/
def accValue (kind : Nat) (t : Ty) (a : Acc) : Nat :=
  match kind with
  | 2 => a.n
  | 3 => a.n
  | 4 => if portFloat t.code then fp64.code (t.num a.bits) else unsignedOf 64 (t.int a.bits)
  | 5 => if portFloat t.code then fp64.code (t.num a.bits) else unsignedOf 64 (t.int a.bits)
  | _ => a.bits

/-- Write a group record: an accumulator without a member is left as it stands. -/
def State.writeGroup (s : State) (a keyWidth : Nat) (kinds : List Nat) (tys : List Ty) (g : Group) : State :=
  let head := leBytes 8 g.first ++ leBytes 1 g.mask ++ leBytes 7 0 ++ padBytes g.key (8 * ceilDiv keyWidth 8)
  let r := (kinds.zip (tys.zip g.accs)).foldl (fun (r : State × Nat) x =>
    let w := if x.1 = 6 then 16 else 8
    let b := leBytes 8 (accValue x.1 x.2.1 x.2.2) ++ (if x.1 = 6 then leBytes 8 x.2.2.n else [])
    (if x.2.2.n = 0 ∧ x.1 ≠ 2 ∧ x.1 ≠ 3 then r.1 else r.1.store r.2 b, r.2 + w)) (s.store a head, a + head.length)
  r.1

/-- No HBM record yet (R213). -/
def noHbm : Nat := 2 ^ 64 - 1

/-- The group header and the empty bucket array. -/
def State.startGroup (s : State) (v : Ev) (n : Node) : State :=
  let w := v.work (n.u 2 1)
  let x := v.work (n.u 3 1)
  let kw := v.keyWidth n (n.u 0 1)
  let head := leBytes 4 0x47425950 ++ leBytes 1 (n.u 5 1) ++ leBytes 1 kw ++ leBytes 2 (recordStride kw (aggKinds n)) ++
    leBytes 8 0 ++ leBytes 8 noHbm ++ leBytes 4 w.2 ++ leBytes 4 x.2 ++ leBytes 8 0 ++ leBytes 24 0
  (s.store w.1 head).clearBuckets w.1 (n.u 5 1)

/-- Where record i of a group-by lies. -/
def groupAt (s : State) (v : Ev) (n : Node) (i : Nat) : Nat :=
  let w := v.work (n.u 2 1)
  let stride := s.loadNat (w.1 + 6) 2
  let h := s.loadNat (w.1 + 16) 8
  if i < h then entryBase w.1 (n.u 5 1) + stride * i else (v.work (n.u 3 1)).1 + stride * (i - h)

/-- Add a new group of index i: its record, then its slot; none when the HBM area cannot take one of them. -/
def State.newGroup (s : State) (v : Ev) (n : Node) (i : Nat) (g : Group) : Option State :=
  let w := v.work (n.u 2 1)
  let x := v.work (n.u 3 1)
  let log2 := n.u 5 1
  let kinds := aggKinds n
  let kw := v.keyWidth n (n.u 0 1)
  let stride := recordStride kw kinds
  let h := s.loadNat (w.1 + 16) 8
  let low := s.loadNat (w.1 + 24) 4
  let hlow := s.loadNat (w.1 + 28) 4
  let inSerai := h == noHbm && decide (entryBase w.1 log2 - w.1 + stride * (i + 1) ≤ 64 * low)
  let h' := if inSerai then noHbm else min h i
  let s := s.store (w.1 + 16) (leBytes 8 h')
  let at_ := groupAt s v n i
  let hStop := if h' = noHbm then 0 else stride * (i + 1 - h')
  let sStop := entryBase w.1 log2 - w.1 + stride * (min (i + 1) h')
  if !inSerai && decide (64 * hlow < hStop) then none
  else
    let s := (s.writeGroup at_ kw kinds (v.aggTys n) g).store (w.1 + 8) (leBytes 8 (i + 1))
    let s := if inSerai then s else s.bump Reg.cntGroupHbmRecords 1
    let l := chain s w.1 x.1 (w.2 + x.2) (unitAt w.1 (1 + g.hash.toNat % 2 ^ log2))
    let last := l.getLastD 0
    if bucketCount s last < 4 then some (s.addSlot last g.hash i)
    else if 0 < low ∧ sStop ≤ 64 * (low - 1) then
      let u := low - 1
      let s := ((s.clearBucket (unitAt w.1 u)).store last (leBytes 4 u)).store (w.1 + 24) (leBytes 4 u)
      some (s.addSlot (unitAt w.1 u) g.hash i)
    else if 0 < hlow ∧ hStop ≤ 64 * (hlow - 1) then
      let u := hlow - 1
      let s := ((s.clearBucket (unitAt x.1 u)).store last (leBytes 4 (2 ^ 31 + u))).store (w.1 + 28) (leBytes 4 u)
      some (s.addSlot (unitAt x.1 u) g.hash i)
    else none

/-- Merge one partial group (R212), counting the reads of its search. -/
def State.mergeGroup (v : Ev) (m : Nat) (fail : Status × Nat) (r : Placed (State × List Group)) (p : Group) :
    Placed (State × List Group) :=
  match r with
  | .error x => .error x
  | .ok (s, gs) =>
    let n := v.node m
    let w := v.work (n.u 2 1)
    let x := v.work (n.u 3 1)
    let l := chain s w.1 x.1 (w.2 + x.2) (unitAt w.1 (1 + p.hash.toNat % 2 ^ n.u 5 1))
    let same := ((chainSlots s l).filter fun e => e.1 == p.hash).length
    let s := s.bump Reg.cntJoinChainReads (l.length - 1)
    match firstIdx (fun (g : Group) => g.hash == p.hash && g.mask == p.mask && g.key == p.key) 0 gs with
    | some i =>
      let kinds := aggKinds n
      let tys := v.aggTys n
      let g := gs.getD i p
      let g' := { g with accs := (kinds.zip (tys.zip (g.accs.zip p.accs))).map fun y => Acc.merge y.1 y.2.1 y.2.2.1 y.2.2.2 }
      let s := (s.bump Reg.cntJoinHashFalse (same - 1)).writeGroup (groupAt s v n i) (v.keyWidth n (n.u 0 1)) kinds tys g'
      .ok (s, setAt gs i fun _ => g')
    | none =>
      match (s.bump Reg.cntJoinHashFalse same).newGroup v n gs.length p with
      | some t => .ok (t, gs ++ [p])
      | none => .error fail

/-- Merge a stripe's groups. -/
def State.mergeGroups (s : State) (v : Ev) (rows : List Nat) (m : Nat) (fail : Status × Nat) (gs : List Group) :
    Placed (State × List Group) :=
  let es := v.inElems rows m
  let parts := es.foldl (v.takeGroup m) []
  (parts.foldl (State.mergeGroup v m fail) (.ok (s, gs))).map fun r =>
    (r.1.addField ((v.work ((v.node m).u 2 1)).1 + 32) es.length, r.2)

/-! ## The result of a group-by (R210, R214) -/

/-- The column of a result spec. -/
def aggColumn (kind : Nat) (t : Ty) : Column :=
  let col := fun code scale => (⟨code, Config.madeNullable, false, false, 0, scale, 0⟩ : Column)
  match kind with
  | 1 => if portFloat t.code then col 0x0E 0 else if t.code = 0x34 ∨ t.code = 0x35 then col 0x35 t.scale else col 0x08 0
  | 2 => col 0x08 0
  | 3 => col 0x08 0
  | 6 => col 0x0E 0
  | _ => col t.code t.scale

/-- The value of a result spec. -/
def aggResult (kind : Nat) (t : Ty) (a : Acc) : Val :=
  if kind = 2 ∨ kind = 3 then .one (.bits a.n)
  else if a.n = 0 then .null
  else match kind with
    | 1 => if portFloat t.code then .one (numTo 0x0E (fp64.value a.bits)) else .one (.bits a.bits)
    | 6 => .one (numTo 0x0E (fp64.div (fp64.value a.bits) (countNum a.n)))
    | _ => if portFloat t.code then .one (numTo t.code (t.num a.bits)) else .one (.bits a.bits)

def Ty.column (t : Ty) : Column := ⟨t.code, Config.madeNullable, false, t.list, 0, t.scale, t.width⟩

/-- The value of key component i of a group, read from its packed key. -/
def keyResult (t : Ty) (o : Nat) (g : Group) (i : Nat) : Val :=
  if !bitOf g.mask i then .null
  else if codeVariable t.code then .one (.bytes (slice g.key (o + 1) (leField g.key o 1)))
  else if t.code = 0x36 then .one (.bytes (slice g.key o t.width))
  else .one (.bits (leField g.key o t.bytes))

/-- The start of each key component. -/
def keyOffsets : Nat → List Nat → List Nat
  | _, [] => []
  | a, n :: t => a :: keyOffsets (a + n) t

/-- Split a list into pieces of n. -/
def chunks {α : Type} (n : Nat) : Nat → List α → List (List α)
  | 0, _ => []
  | f + 1, l => if l.isEmpty then [] else l.take n :: chunks n f (l.drop n)

/-- Rows of one batch of a table the device makes (R133, R214). -/
def madeBatch : Nat := 2 ^ 26

/-- The batches of columns of values. -/
def batchesOf (cols : List Column) (vals : List (List Val)) : List Batch :=
  let n := (vals.headD []).length
  let k := max 1 (ceilDiv n madeBatch)
  (List.range k).map fun b =>
    let part := vals.map fun l => (l.drop (b * madeBatch)).take madeBatch
    ⟨(part.headD []).length, (cols.zip part).map fun e => buffersOf e.1 e.2⟩

/-- Columns and values of the result table of a group-by. -/
def Ev.groupResult (v : Ev) (m : Nat) (gs : List Group) : List Column × List (List Val) :=
  let n := v.node m
  let k := n.u 0 1
  let tys := (List.range k).map fun i => v.inTy n i
  let offs := keyOffsets 0 ((tys.zip (maxLens n 16 k)).map fun e => e.1.keyWidth e.2)
  let keys := ((tys.zip offs).zipIdx).map fun e =>
    ({ e.1.1.column with indexType := 0 }, gs.map fun g => keyResult e.1.1 e.1.2 g e.2)
  let aggs := ((aggKinds n).zip (v.aggTys n)).zipIdx.map fun e =>
    (aggColumn e.1.1 e.1.2, gs.map fun g => aggResult e.1.1 e.1.2 (g.accs.getD e.2 .empty))
  ((keys ++ aggs).map fun e => e.1, (keys ++ aggs).map fun e => e.2)

end Sys2Proof.Machine
end

