-- ==== Sys2Proof/Machine/Runs.lean ====
section
/-! DEFINITION. Feature program runs: the checks of a start (R162, R198, R208), the beginning of a pass (R155, R187, R199,
R213), the placement of a stripe (R156, R159, R163) and the end of a run (R163, R214). The parameter block is that of
FPROG_START; a run of the Prepare phase takes it from the graph (R164, R303). -/

namespace Sys2Proof.Machine

/-! ## The parameter block (R162) -/

def startSlot (b : List Byte) : Nat := leField b 0 1
def startMask (b : List Byte) : Nat := leField b 8 8
def startFirst (b : List Byte) : Nat := leField b 16 8
def startCount (b : List Byte) : Nat := leField b 24 8
def startTable (b : List Byte) (i : Nat) : Nat := leField b (32 + 4 * i) 4
def startKind (b : List Byte) (i : Nat) : Nat := leField b (48 + i) 1
def startStats (b : List Byte) : Nat := leField b 56 8
def startStaging (b : List Byte) : Range := ⟨leField b 64 8, leField b 72 8⟩
def outAt (i : Nat) : Nat := 128 + 128 * i
/-- A table output's table_id and allocations. -/
def outTable (b : List Byte) (i : Nat) : Nat := leField b (outAt i) 4
def outAllocs (b : List Byte) (i : Nat) : Allocs :=
  ⟨leField b (outAt i + 8) 8, leField b (outAt i + 16) 8, leField b (outAt i + 24) 8, leField b (outAt i + 32) 8⟩
/-- Descriptor flags bit 0 (R162), and the descriptor's bytes without it. -/
def outTransposed (b : List Byte) (i : Nat) : Bool := bitOf (leField b (outAt i + 10) 2) 0
def outBytes (b : List Byte) (i : Nat) : List Byte :=
  let d := slice b (outAt i) 128
  if outTransposed b i then overlay d 10 (leBytes 2 (leField d 10 2 - 1)) else d
def outDesc (b : List Byte) (i : Nat) : Desc := descAt (outBytes b i) 0
def outTensors (b : List Byte) (img : List Byte) : List Nat := (List.range (imageOutputs img)).filter fun i => startKind b i == 1
def outTables (b : List Byte) (img : List Byte) : List Nat := (List.range (imageOutputs img)).filter fun i => startKind b i == 2

/-- The stripe window (R159). -/
def stripeWindow (b img : List Byte) : Nat :=
  if imageStaging img = 0 then 128 else min 128 ((startStaging b).len / imageStaging img)

/-- How a node uses an output: the rows of its port, a densified tensor or its mask, partition records, a work area, or
a result table. -/
inductive OutUse where
  | rows (node : Nat) | dense (node : Nat) | mask (node : Nat) | parts (node : Nat)
  | work (units : Nat) | result (node : Nat)
  deriving DecidableEq, Repr

/-- The use a node makes of output o, if it makes one. -/
def outUse (m : Nat) (n : Node) (o : Nat) : Option OutUse :=
  if n.op = 0x09 then (if n.slot = o then some (.dense m) else if densifyMask n ∧ n.u 10 1 = o then some (.mask m) else none)
  else if n.op = 0x0A then (if n.slot = o then some (.parts m) else none)
  else if n.op = 0x10 then (if n.u 1 1 = o then some (.work (2 ^ n.u 2 1 + 2)) else none)
  else if n.op = 0x13 then
    (if n.u 2 1 = o then some (.work (2 ^ n.u 5 1 + 2)) else if n.u 3 1 = o then some (.work 1)
     else if n.u 4 1 = o then some (.result m) else none)
  else if n.slot = o then some (.rows m)
  else none

/-- The use of output o by a program. -/
def usesOf (img : List Byte) (o : Nat) : Option OutUse :=
  ((nodesOf img).zipIdx.findSome? fun e => outUse e.2 e.1 o)

/-! ## Lanes and dies (R158) -/

/-- Die of the first byte of the record of a table. -/
def tableDies (a : Allocs) : List Nat :=
  (List.range 2).filter fun d => (Range.mk a.base a.size).meets (hbmRange d) || (Range.mk a.base2 a.size2).meets (hbmRange d)

/-- The lane mask in force: a zero mask means every lane of the dies that hold input 0. -/
def State.laneMask (s : State) (b : List Byte) : Nat :=
  if startMask b ≠ 0 then startMask b
  else match Tab.look s.ingest.tables (startTable b 0) with
    | some a => ((tableDies a).map fun d => if d = 0 then 2 ^ 32 - 1 else 2 ^ 64 - 2 ^ 32).foldl (· + ·) 0
    | none => 0

/-- The unfenced lanes of a mask. -/
def State.lanesOf (s : State) (mask : Nat) : List Nat := (List.range 64).filter fun n => bitOf mask n && !s.fenced (unitId 2 n)

/-! ## Evaluation context -/

/-- Column types of the run's inputs. -/
def State.inputTy (s : State) (b : List Byte) (t c : Nat) : Option Ty :=
  (s.tableAt (startTable b t)).bind fun rec => if c < s.tableColumns rec then some (s.tableColumn rec c).ty else none

/-- Every column reference lies in its table. -/
def State.columnsThere (s : State) (b : List Byte) (n : Node) : Bool :=
  let has := fun t c => (s.inputTy b t c).isSome
  (n.refs.all fun r => match r with
    | .col t c => has t c
    | _ => true) &&
    (match n.op with
     | 0x12 => (payloadColumns n (n.u 1 1)).all fun c => has (n.u 2 1) c
     | _ => true)

/-- Payload columns of a join probe lie in the build table. -/
def State.payloadsThere (s : State) (b : List Byte) (nodes : List Node) (n : Node) : Bool :=
  n.op != 0x11 ||
    (payloadColumns n (n.u 2 1)).all fun c => (s.inputTy b (buildTable (nodes.getD (n.u 0 1) n)) c).isSome

/-- The context a run's stripes are evaluated in, on a die. -/
def State.runEv (s : State) (img b : List Byte) (inputs : List (Nat × Nat)) (first stop die : Nat) : Ev :=
  let types := match programTypes (s.inputTy b) img with
    | .ok r => r
    | .error _ => ([], [])
  ⟨s, img, nodesOf img, types.1, types.2, inputs.map fun e => e.2, (List.range 8).map (outDesc b), first, stop,
    startStats b, die⟩

/-! ## Checks of a start -/

/-- Faults of output i's entry; `pos` is the packet offset of the parameter block. -/
def outputFail (img b : List Byte) (pos i : Nat) : Option Fail :=
  let at_ := pos + outAt i
  let used := i < imageOutputs img
  let kind := startKind b i
  let d := outDesc b i
  if !used then
    firstFail [need (kind == 0) (pos + 48 + i),
      need (allZero b (outAt i) 128) at_]
  else
    let kindOk := match usesOf img i with
      | some (.rows _) => kind == 1 || kind == 2
      | some (.result _) => kind == 2
      | _ => kind == 1
    firstFail [need kindOk (pos + 48 + i),
      if kind = 2 then
        let a := outAllocs b i
        lowestFail [need (decide (outTable b i ≤ 4095)) at_, need (allZero b (outAt i + 4) 4) (at_ + 4),
          allocFail a.base a.size (at_ + 8), alloc2Fail a.base2 a.size2 (at_ + 24), need (allZero b (outAt i + 40) 88) (at_ + 40)]
      else
        firstFail [(descFault (outBytes b i) 0).map fun o => ⟨Status.badParam, at_ + o⟩, need (d.rank == 2) (at_ + 9),
          match usesOf img i with
          | some (.work units) =>
            lowestFail [need (d.elem == 0x20) (at_ + 8), need (d.ext 0 == 64) (at_ + 16), need (decide (units ≤ d.ext 1)) (at_ + 20),
              need (d.str 1 == 64) (at_ + 64)]
          | some (.parts m) =>
            lowestFail [need (d.elem == 0x20) (at_ + 8), need (d.ext 1 % 2 ^ (imageNode img m).u 9 1 == 0) (at_ + 20)]
          | some (.mask m) =>
            let o := outDesc b (imageNode img m).slot
            lowestFail [need (d.elem == 0x03) (at_ + 8), need (d.ext 0 == o.ext 0) (at_ + 16), need (d.ext 1 == o.ext 1) (at_ + 20)]
          | _ => none]]

/-- Fields of the block in offset order. -/
def State.startFields (s : State) (b : List Byte) (pos : Nat) : Option Fail :=
  match Tab.look s.ingest.programs (startSlot b) with
  | none => some ⟨Status.badParam, pos⟩
  | some g =>
    let img := g.image
    let tables := (List.range 4).map fun i =>
      need (if i < imageInputs img then (Tab.look s.ingest.tables (startTable b i)).isSome else startTable b i == 0xFFFFFFFF)
        (pos + 32 + 4 * i)
    let rows := match s.tableAt (startTable b 0) with
      | some rec => s.tableRows rec
      | none => 0
    let stats := if imageStats img = 0 then startStats b == 0 else true
    lowestFail ([need (decide (startSlot b ≤ 63)) pos, need (leField b 1 1 == imageInputs img) (pos + 1),
      need (leField b 2 1 == imageOutputs img) (pos + 2), need (allZero b 3 5) (pos + 3),
      need (decide (startFirst b ≤ rows)) (pos + 16), need (decide (startFirst b + startCount b ≤ rows)) (pos + 24),
      need stats (pos + 56), need (startStats b % 64 == 0) (pos + 56),
      need ((startStaging b).lo % 64 == 0) (pos + 64), need (decide (2 ≤ stripeWindow b img)) (pos + 72), need (allZero b 80 48) (pos + 80)] ++
      tables ++ (List.range 8).map (outputFail img b pos))

/-- Check 7. -/
def State.startAligns (s : State) (b : List Byte) (pos : Nat) : Option Fail :=
  match Tab.look s.ingest.programs (startSlot b) with
  | none => none
  | some g =>
    lowestFail ((outTensors b g.image).map fun i => (outDesc b i).alignFault.map fun o => ⟨Status.align, pos + outAt i + o⟩)

/-- The checked ranges of a start (R600). -/
def State.startUses (s : State) (b : List Byte) (pos : Nat) : List Use :=
  match Tab.look s.ingest.programs (startSlot b) with
  | none => []
  | some g =>
    ⟨pos + 56, ⟨startStats b, imageStats g.image⟩, true⟩ :: ⟨pos + 64, startStaging b, true⟩ ::
      ((outTensors b g.image).flatMap fun i => (outDesc b i).uses (pos + outAt i) true) ++
      (outTables b g.image).flatMap fun i =>
        let a := outAllocs b i
        [⟨pos + outAt i + 8, ⟨a.base, a.size⟩, true⟩, ⟨pos + outAt i + 24, ⟨a.base2, a.size2⟩, true⟩]

/-- Outputs are disjoint of the staging, of the statistics area and of each other, do not overlaps, and staging lies in
serai or HBM. Input tables and the image are guarded ranges, which check 8 keeps outputs from. -/
def State.startAlias (s : State) (b : List Byte) (pos : Nat) : Option Fail :=
  match Tab.look s.ingest.programs (startSlot b) with
  | none => none
  | some g =>
    firstFail [need (startStaging b).inDie (pos + 64), disjointFail (s.startUses b pos),
      lowestFail ((outTensors b g.image).map fun i => demand (outDesc b i).unaliased Status.regionAliased (pos + outAt i))]

/-- Check 9: columns and outputs have the types their nodes take and make. -/
def State.startTypes (s : State) (b : List Byte) (pos : Nat) : Option Fail :=
  match Tab.look s.ingest.programs (startSlot b) with
  | none => none
  | some g =>
    let img := g.image
    let nodes := nodesOf img
    let colFail := need (nodes.all fun n => s.columnsThere b n && s.payloadsThere b nodes n) (pos + 32)
    let colFail := colFail.map fun f => ⟨Status.typeMismatch, f.detail⟩
    match programTypes (s.inputTy b) img with
    | .error _ => some ⟨Status.typeMismatch, pos + 32⟩
    | .ok (ports, _) =>
      let port := fun m => (((ports.getD m [])[0]?).getD none).getD (.plain 0)
      let one := fun i =>
        let d := outDesc b i
        let at_ := pos + outAt i
        match usesOf img i with
        | some (.rows m) =>
          let n := imageNode img m
          let width := if (port m).packed then n.inCount else 1
          firstFail [demand (d.elem == n.outType && !(port m).list) Status.typeMismatch (at_ + 8),
            need (d.ext (if outTransposed b i then 1 else 0) == width) (at_ + (if outTransposed b i then 20 else 16))]
        | some (.dense m) => demand (d.elem == (imageNode img m).outType) Status.typeMismatch (at_ + 8)
        | some (.parts m) =>
          let n := imageNode img m
          let tys := n.refs.map fun r => match r with
            | .col t c => (s.inputTy b t c).getD (.plain 0)
            | .port q k => (((ports.getD q []).getD k none)).getD (.plain 0)
          need (d.ext 0 == recordLength tys) (at_ + 16)
        | _ => none
      firstFail [colFail, lowestFail ((outTensors b img).map one)]

/-- The tables a program's directory probes search (R206, R208). -/
def probedTables (img : List Byte) : List Nat := ((nodesOf img).filter fun n => n.op == 0x12).map fun n => n.u 6 2

/-- The compute-semantics version of an open job's manifest, and check 11: the job's version is the image's, the tables
to be made are not defined and differ, a lane of the mask is unfenced, and searched tables are there. -/
def State.startOwn (s : State) (b : List Byte) (pos : Nat) (semantics : Option Nat) : Option Fail :=
  match Tab.look s.ingest.programs (startSlot b) with
  | none => none
  | some g =>
    let img := g.image
    let made := (outTables b img).map fun i => need (Tab.look s.ingest.tables (outTable b i)).isNone (pos + outAt i)
    let names := (outTables b img).map (outTable b)
    let mask := s.laneMask b
    let dies := (List.range 2).filter fun d => (s.lanesOf mask).any fun l => l / 32 == d
    let tables := (probedTables img).all fun t => dies.all fun d => !(s.tableBanks t d).isEmpty || s.dirLost t d
    firstFail [lowestFail made, need (decide names.Nodup) (pos + 48),
      need (semantics.all fun v => v == imageSemantics img) 16,
      demand (!(s.lanesOf mask).isEmpty) Status.unitFenced (pos + 8), need tables pos]

/-! ## The work of a pass -/

/-- Build nodes of a pass in node order. -/
def passNodes (nodes : List Node) (pass : Nat) : List (Nat × Node) :=
  (nodes.zipIdx.map fun e => (e.2, e.1)).filter fun e => e.2.pass == pass

/-- Stripes of rows lo to lo + n - 1. -/
def stripesOf (lo n : Nat) : List (Nat × Nat) :=
  (List.range (ceilDiv n 4096)).map fun k => (lo + 4096 * k, min 4096 (n - 4096 * k))

/-- One piece of a pass: a build stripe of a node, or a driving stripe, with its first row and its rows. -/
inductive Item where
  | build (node first count : Nat)
  | drive (first count : Nat)
  deriving DecidableEq, Repr

/-- The items of a pass in placement order: build stripes first (R199, R216). -/
def Ev.items (v : Ev) (pass : Nat) : List Item :=
  let builds := (passNodes v.nodes pass).filter fun e => e.2.op == 0x10
  (builds.flatMap fun e =>
    let t := buildTable e.2
    let span := if t = 0 then stripesOf v.first (v.stop - v.first) else stripesOf 0 (v.s.tableRows (v.input t))
    span.map fun x => Item.build e.1 x.1 x.2) ++
    (stripesOf v.first (v.stop - v.first)).map fun x => Item.drive x.1 x.2

/-- What the nodes of a pass do before its first stripe. -/
def State.startNode (s : State) (v : Ev) (b : List Byte) (n : Node) : State :=
  if n.isStats then s.store (v.stats + 64 * n.statIndex) Stats.empty.bytes
  else if n.op = 0x09 ∧ bitOf (n.u 9 1) 0 then
    let clear := fun (t : State) (d : Desc) => t.zero d.footprint.lo d.footprint.len
    let s := clear s (outDesc b n.slot)
    if densifyMask n then clear s (outDesc b (n.u 10 1)) else s
  else if n.op = 0x10 then s.startBuild v n
  else if n.op = 0x13 then s.startGroup v n
  else s

def State.startPass (s : State) (v : Ev) (b : List Byte) (pass : Nat) : State :=
  (passNodes v.nodes pass).foldl (fun t e => t.startNode { v with s := t } b e.2) s

/-! ## Placing an item -/

def ProgRun.inTable (r : ProgRun) (i : Nat) : List Val := Tab.get [] r.tables i

/-- Counters of a stripe's probes of a node (R224, R374). -/
def State.countProbes (s : State) (v : Ev) (rows : List Nat) (m : Nat) : State :=
  let n := v.node m
  let es := v.inElems rows m
  if n.op = 0x11 then
    es.foldl (fun t e =>
      let p := v.joinProbe n fun k => v.inAt m k e
      (t.bump Reg.cntJoinChainReads p.chained).bump Reg.cntJoinHashFalse p.falseKeys) s
  else if n.op = 0x12 then
    es.foldl (fun t e =>
      match v.dirKey n fun k => v.inAt m k e with
      | none => t
      | some key =>
        let f := v.s.dirFind (n.u 6 2) v.die key
        let t := t.countSearch f
        match f.winner with
        | some w => if v.s.tableRows (v.input (n.u 2 1)) ≤ w.2.value then t.bump Reg.cntWrapFeature 1 else t
        | none => t) s
  else s

/-- Dictionary indices that wrapped among the values of a node's column inputs (R139, R123). -/
def Ev.dictWraps (v : Ev) (rows : List Nat) (m : Nat) : Nat :=
  let n := v.node m
  let cols := (List.range n.inCount).filter fun k => match refOf (n.refWord k) with
    | .col _ _ => true
    | _ => false
  ((v.inElems rows m).map fun e => (cols.filter fun k => (v.inAt m k e).wrapped).length).foldl (· + ·) 0

/-- What the placement of a stripe does for one node: the state and the run, or how the run ends. -/
def placeNode (v : Ev) (b : List Byte) (rows : List Nat) (fail : Status × Nat) (r : Placed (State × ProgRun))
    (x : Nat × Node) : Placed (State × ProgRun) :=
  match r with
  | .error e => .error e
  | .ok (s, g) =>
    let m := x.1
    let n := x.2
    let s := s.bump Reg.cntWrapFeature (v.dictWraps rows m)
    let s := s.countProbes v rows m
    let limit := if n.op = 0x11 then n.u 4 4 else 2 ^ 64
    if n.op = 0x12 ∧ v.s.dirLost (n.u 6 2) v.die then .error (Status.directoryLost, n.u 6 2)
    else if limit < (v.outElems rows m).length then .error fail
    else if n.isStats then .ok (s.mergeStats { v with s := s } rows m, g)
    else if n.op = 0x09 then
      .ok ((v.inElems rows m).foldl (fun t e => t.densifyRow v m e) s, g)
    else if n.op = 0x0A then
      (v.partition rows m fail s (Tab.get [] g.parts m)).map fun y => (y.1, { g with parts := Tab.put g.parts m y.2 })
    else if n.op = 0x13 then
      (s.mergeGroups { v with s := s } rows m fail (Tab.get [] g.groups m)).map fun y =>
        (y.1, { g with groups := Tab.put g.groups m y.2 })
    else if n.op = 0x10 ∨ n.slot = 0xFF then .ok (s, g)
    else
      let vals := v.outVals rows m
      let done := g.outs.getD n.slot 0
      let g' := { g with outs := setAt g.outs n.slot (· + vals.length) }
      if startKind b n.slot = 2 then .ok (s, { g' with tables := Tab.put g.tables n.slot (g.inTable n.slot ++ vals) })
      else
        let d := outDesc b n.slot
        let t := outTransposed b n.slot
        if d.ext (if t then 0 else 1) < done + vals.length then .error fail
        else .ok (s.appendRows d t done vals, g')

/-- A table output's rows fit its allocations so far (R163): it could be placed as it stands. -/
def State.tablesFit (s : State) (v : Ev) (b : List Byte) (g : ProgRun) : Bool :=
  (outTables b v.img).all fun i => match usesOf v.img i with
    | some (.rows m) =>
      let c := (v.outTy m 0).column
      match s.placeTable (outTable b i) (outAllocs b i) [(c, 0)] (batchesOf [c] [g.inTable i]) with
      | .ok _ => true
      | .error _ => false
    | _ => true

/-- Place an item. -/
def placeItem (v : Ev) (b : List Byte) (s : State) (g : ProgRun) (x : Item) : Placed (State × ProgRun) :=
  match x with
  | .build m lo n => (s.buildStripe v (v.node m) ((List.range n).map (lo + ·))).map fun t => (t, g)
  | .drive lo n =>
    let rows := (List.range n).map (lo + ·)
    match (passNodes v.nodes g.pass).foldl (placeNode v b rows (Status.tableFull, lo)) (.ok (s, g)) with
    | .error e => .error e
    | .ok (t, h) =>
      if t.tablesFit v b h then .ok (t, { h with stripes := h.stripes + 1, rows := h.rows + n })
      else .error (Status.tableFull, lo)

/-- The end of a pass: partition counts are written, and groups are emitted (R188, R214). -/
def endNode (v : Ev) (b : List Byte) (r : Placed (State × ProgRun)) (x : Nat × Node) : Placed (State × ProgRun) :=
  match r with
  | .error e => .error e
  | .ok (s, g) =>
    let n := x.2
    if n.op = 0x0A then
      let counts := Tab.get [] g.parts x.1
      .ok (s.store (v.stats + 64 * n.u 12 2) (counts.flatMap (leBytes 8)), g)
    else if n.op = 0x13 then
      let t := v.groupResult x.1 (Tab.get [] g.groups x.1)
      let o := n.u 4 1
      let rows := (t.2.headD []).length
      let schema := t.1.map fun c => (c, Config.madeNameHash)
      match s.placeTable (outTable b o) (outAllocs b o) schema (batchesOf t.1 t.2) with
      | .ok (u, _) =>
        .ok (u.defineTable (outTable b o) (outAllocs b o) [], { g with outs := setAt g.outs o (· + rows) })
      | .error _ => .error (Status.tableFull, v.first)
    else .ok (s, g)

/-- The parts of a pass that start from nothing. -/
def ProgRun.enterPass (g : ProgRun) (nodes : List Node) (pass : Nat) : ProgRun :=
  let mine := passNodes nodes pass
  { g with
    pass := pass, placed := 0, started := []
    groups := (mine.filter fun e => e.2.op == 0x13).foldl (fun t e => Tab.put t e.1 []) g.groups
    parts := (mine.filter fun e => e.2.op == 0x0A).foldl
      (fun t e => Tab.put t e.1 (List.replicate (2 ^ e.2.u 9 1) 0)) g.parts }

/-- Table outputs of ports are placed when their pass ends. -/
def State.placeOutputs (s : State) (v : Ev) (b : List Byte) (g : ProgRun) : State :=
  (outTables b v.img).foldl (fun t i => match usesOf v.img i with
    | some (.rows m) =>
      if (v.node m).pass = g.pass then
        let c := (v.outTy m 0).column
        match t.placeTable (outTable b i) (outAllocs b i) [(c, Config.madeNameHash)] (batchesOf [c] [g.inTable i]) with
        | .ok (u, _) => u.defineTable (outTable b i) (outAllocs b i) []
        | .error _ => t
      else t
    | _ => t) s

/-! ## The end of a run -/

/-- Outputs and the statistics area become undefined (R164, R201). -/
def State.spoilRun (s : State) (img b : List Byte) : State :=
  let s := (outTensors b img).foldl (fun t i =>
    let d := outDesc b i
    (List.range d.rows).foldl (fun u r => u.scramble (d.rowAt r) d.rowBytes) t) s
  let s := (outTables b img).foldl (fun t i =>
    let u := { t with ingest := { t.ingest with tables := Tab.del t.ingest.tables (outTable b i) } }
    (u.unguard .table (outTable b i)).spoilAllocs (outAllocs b i)) s
  s.scramble (startStats b) (imageStats img)

/-- The run of a slot ends with a status: a packet's run completes its packet, a Prepare run tells its step. -/
def State.endProgram (s : State) (slot : Nat) (st : Status) (detail : Nat) : State :=
  match Tab.look s.ingest.programs slot with
  | none => s
  | some g => match g.run with
    | none => s
    | some r =>
      let s := if st = Status.ok then s else s.spoilRun g.image r.params
      let g' := { g with lastStatus := st, rowsIn := r.rows / max 1 (imagePasses g.image), outputRows := r.outs, run := none }
      let s := { s with ingest := { s.ingest with programs := Tab.put s.ingest.programs slot g' } }
      match r.step with
      | some (job, step) => { s with ingest := { s.ingest with ended := s.ingest.ended ++ [(job, step, st, detail)] } }
      | none => (s.finishAll (fun o => o.kind == .fprogStart slot) st detail).wake

/-- Start a run in a slot (R154, R155). -/
def State.startRun (s : State) (b : List Byte) (step : Option (Nat × Nat)) : State :=
  match Tab.look s.ingest.programs (startSlot b) with
  | none => s
  | some g =>
    let inputs := (List.range (imageInputs g.image)).filterMap fun i =>
      (s.tableAt (startTable b i)).map fun rec => (startTable b i, rec)
    let rows := s.tableRows ((inputs.headD (0, 0)).2)
    let count := if startCount b = 0 then rows - startFirst b else startCount b
    let v := s.runEv g.image b inputs (startFirst b) (startFirst b + count) 0
    let r : ProgRun := ⟨b, step, inputs, s.laneMask b, startFirst b, count, 0, 0, [], 0, 0,
      List.replicate (imageOutputs g.image) 0, [], [], []⟩
    let g' := { g with rerun := 0, wraps := 0, rowsIn := 0, run := some (r.enterPass v.nodes 0) }
    let s := s.startPass v b 0
    { s with ingest := { s.ingest with programs := Tab.put s.ingest.programs (startSlot b) g' } }

/-- Programs running now. -/
def State.programsRunning (s : State) : Nat := (s.ingest.programs.filter fun e => e.2.run.isSome).length

/-- The slot is free and fewer than eight programs run (R164). -/
def State.runRoom (s : State) (slot : Nat) : Bool :=
  decide (s.programsRunning < 8) && match Tab.look s.ingest.programs slot with
    | some g => g.run.isNone
    | none => true

end Sys2Proof.Machine
end

