-- ==== Sys2Proof/Machine/Stripes.lean ====
section
/-! DEFINITION. Feature programs: FPROG_LOAD, FPROG_START, FPROG_QUERY, FPROG_UNLOAD, and the start and the placement of
stripes (R154 to R165). -/

namespace Sys2Proof.Machine

/-! ## FPROG_LOAD (R161) -/

def loadImage (p : Packet) : Range := ⟨p.param 8 8, p.param 16 4⟩

/-- The first fault of an image in the order of R161. -/
def State.programFault (s : State) (img : List Byte) : Option (Status × Nat) :=
  if !headerOk img then some (Status.programInvalid, 0xFFFF)
  else if !s.implements (imageSemantics img) then some (Status.semanticsUnavailable, 0)
  else match programTypes (fun _ _ => none) img with
    | .error i => some (Status.programInvalid, i)
    | .ok _ => none

def fprogLoadCommand : Command where
  code := 0x0301
  lens := fun n => n == 1
  job := .optional
  params := fun s p =>
    lowestFail [need (decide (p.param 0 1 ≤ 63) && (Tab.look s.ingest.programs (p.param 0 1)).isNone) 64, p.zeros 65 7,
      need (p.param 8 8 % 64 == 0) 72, need (decide (64 ≤ p.param 16 4) && decide (p.param 16 4 ≤ 2 ^ 20)) 80, p.zeros 84 44]
  uses := fun _ p => [⟨72, loadImage p, false⟩]
  overlaps := fun _ p => need (loadImage p).inModule 72
  security := fun s p => s.openFail [⟨72, loadImage p, false⟩]
  effect := fun p s =>
    s.orPoisoned p [loadImage p] id fun s =>
      let img := s.load (loadImage p).lo (loadImage p).len
      match s.programFault img with
      | some (st, d) => s.complete p st d 0 0
      | none =>
        let g : ProgSlot := ⟨p.param 8 8, img, 0, 0, 0, [], 0, none⟩
        let s := { s with ingest := { s.ingest with programs := Tab.put s.ingest.programs (p.param 0 1) g } }
        (s.guard .program (p.param 0 1) (loadImage p) false).complete p Status.ok 0 0 0

/-- FPROG_LOAD. -/
def execFprogLoad (p : Packet) (s : State) : Host.Outcome State Fault Refusal := .next (fprogLoadCommand.start p s)

/-! ## FPROG_UNLOAD (R164) -/

def fprogUnloadCommand : Command where
  code := 0x0304
  lens := fun n => n == 1
  job := .optional
  params := fun _ p => lowestFail [need (decide (p.param 0 1 ≤ 63)) 64, p.zeros 65 63]
  own := fun s p => need (Tab.look s.ingest.programs (p.param 0 1)).isSome 64
  effect := fun p s => (s.enroll p (.fprogUnload (p.param 0 1)) [] 0).wake

/-- FPROG_UNLOAD. -/
def execFprogUnload (p : Packet) (s : State) : Host.Outcome State Fault Refusal := .next (fprogUnloadCommand.start p s)

/-! ## FPROG_QUERY (R165) -/

/-- The 256-byte record of a program slot. -/
def ProgSlot.record (g : Option ProgSlot) : List Byte :=
  match g with
  | none => leBytes 256 0
  | some g =>
    let rows := match g.run with
      | some r => r.rows
      | none => g.rowsIn
    let outs := match g.run with
      | some r => r.outs
      | none => g.outputRows
    leBytes 1 (if g.run.isSome then 2 else 1) ++ leBytes 1 (imagePasses g.image) ++ leBytes 2 (imageNodes g.image) ++
      leBytes 4 (imageSemantics g.image) ++ leBytes 8 g.addr ++ leBytes 4 g.image.length ++ leBytes 4 (imageStaging g.image) ++
      leBytes 2 g.lastStatus.toNat ++ leBytes 6 0 ++ leBytes 8 rows ++ leBytes 8 g.rerun ++
      ((List.range 8).flatMap fun i => leBytes 8 (outs.getD i 0)) ++ leBytes 8 g.wraps ++ leBytes 136 0

def fprogQueryCommand : Command where
  code := 0x0303
  lens := fun n => n == 1
  job := .optional
  params := fun _ p => lowestFail [need (decide (p.param 0 1 ≤ 63)) 64, p.zeros 65 7, need (p.param 8 8 % 64 == 0) 72, p.zeros 80 48]
  uses := fun _ p => [⟨72, ⟨p.param 8 8, 256⟩, true⟩]
  overlaps := fun _ p => need ((Range.mk (p.param 8 8) 256).inside hostRange) 72
  effect := fun p s =>
    (s.store (p.param 8 8) (ProgSlot.record (Tab.look s.ingest.programs (p.param 0 1)))).complete p Status.ok 0 0 0

/-- FPROG_QUERY. -/
def execFprogQuery (p : Packet) (s : State) : Host.Outcome State Fault Refusal := .next (fprogQueryCommand.start p s)

/-! ## FPROG_START (R162, R163, R198, R208) -/

/-- The parameter block of an FPROG_START. -/
def Packet.startBlock (p : Packet) : List Byte := p.paramBytes 0 1152

/-- The tables and the image a start reads. -/
def State.startReads (s : State) (b : List Byte) : List Use :=
  (List.range 4).flatMap fun i => match Tab.look s.ingest.tables (startTable b i) with
    | some a => [⟨96 + 4 * i, ⟨a.base, a.size⟩, false⟩, ⟨96 + 4 * i, ⟨a.base2, a.size2⟩, false⟩]
    | none => []

/-- Rows a start covers. -/
def State.startRows (s : State) (b : List Byte) : Nat :=
  match s.tableAt (startTable b 0) with
  | some rec => if startCount b = 0 then s.tableRows rec - startFirst b else startCount b
  | none => 0

def fprogStartCommand : Command where
  code := 0x0302
  lens := fun n => n == 18
  job := .optional
  params := fun s p => s.startFields p.startBlock 64
  aligns := fun s p => s.startAligns p.startBlock 64
  uses := fun s p => s.startReads p.startBlock ++ s.startUses p.startBlock 64
  overlaps := fun s p => s.startAlias p.startBlock 64
  types := fun s p => s.startTypes p.startBlock 64
  security := fun s p => s.openFail (s.startReads p.startBlock ++ s.startUses p.startBlock 64)
  own := fun s p => s.startOwn p.startBlock 64 (s.jobSemantics p.job)
  ready := fun s p => s.runRoom (p.param 0 1)
  unit := 2
  total := fun s p => s.startRows p.startBlock
  effect := fun p s =>
    let b := p.startBlock
    (s.startRun b none).enroll p (.fprogStart (startSlot b)) (s.startReads b ++ s.startUses b 64) (s.startRows b)

/-- FPROG_START. -/
def execFprogStart (p : Packet) (s : State) : Host.Outcome State Fault Refusal := .next (fprogStartCommand.start p s)

/-! ## Stripes (R158, R159) -/

def State.setProgram (s : State) (slot : Nat) (g : ProgSlot) : State :=
  { s with ingest := { s.ingest with programs := Tab.put s.ingest.programs slot g } }

/-- The lanes that hold a stripe or transfer of some program. -/
def State.busyLanes (s : State) : List Nat :=
  s.ingest.programs.flatMap fun e => match e.2.run with
    | some r => r.started.map fun x => x.2
    | none => []

/-- The context of a run on a die. -/
def State.evOf (s : State) (g : ProgSlot) (r : ProgRun) (die : Nat) : Ev :=
  s.runEv g.image r.params r.inputs r.first (r.first + r.count) die

/-- The die that holds the first row of an item: that of the row's batch. -/
def State.itemDie (s : State) (v : Ev) (x : Item) : Nat :=
  let at_ := match x with
    | .build m lo _ => (v.input (buildTable (v.node m)), lo)
    | .drive lo _ => (v.input 0, lo)
  match s.batchOf at_.1 at_.2 with
  | some e => s.loadNat (e.2.2 + 16) 8 / 0x6000000000
  | none => at_.1 / 0x6000000000

/-- The lane an item goes to: the lowest free one of its die in the mask, or, where that die has none in the mask, the
lowest free one in the mask (R158). -/
def State.pickLane (s : State) (mask die : Nat) : Option Nat :=
  let lanes := s.lanesOf mask
  let free := lanes.filter fun l => !s.busyLanes.contains l
  if lanes.any fun l => l / 32 == die then free.find? fun l => l / 32 == die else free.head?

/-- A lane takes the next stripe of a program, within the stripe window (R159). -/
def State.stripeStart (s : State) (slot : Nat) : State :=
  match Tab.look s.ingest.programs slot with
  | none => s
  | some g => match g.run with
    | none => s
    | some r =>
      let v := s.evOf g r 0
      let items := v.items r.pass
      let w := stripeWindow r.params g.image
      match ((List.range items.length).drop r.placed).find? fun k => !r.started.any fun x => x.1 == k with
      | none => s
      | some k =>
        match items[k]? with
        | none => s
        | some x =>
          if r.placed + w ≤ k then s
          else match s.pickLane r.mask (s.itemDie v x) with
            | none => s
            | some l =>
              let n := imageStaging g.image
              let s := s.scramble ((startStaging r.params).lo + k % w * n) n
              s.setProgram slot { g with run := some { r with started := r.started ++ [(k, l)] } }

/-- STRIPE_START. -/
def execStripeStart (slot : Nat) (s : State) : Host.Outcome State Fault Refusal := .next (s.stripeStart slot)

/-- Show a run's progress: rows placed over all passes, divided by the passes (R162). -/
def State.runProgress (s : State) (slot : Nat) (r : ProgRun) (passes : Nat) : State :=
  let q := r.rows / max 1 passes
  let s := { s with running := s.running.map fun (o : RunOp) =>
    if o.kind = OpKind.fprogStart slot then { o with position := q } else o }
  match s.running.find? fun (o : RunOp) => o.kind == OpKind.fprogStart slot with
  | some o => s.advance o.pkt q o.total
  | none => s

/-- A run whose pass is complete ends it, and the run, or enters the next pass (R155). -/
def State.endPass (s : State) (slot : Nat) (g : ProgSlot) (r : ProgRun) (v : Ev) : State :=
  match (passNodes v.nodes r.pass).foldl (endNode v r.params) (.ok (s, r)) with
  | .error e => (s.setProgram slot { g with run := some r }).endProgram slot e.1 e.2
  | .ok (s, r) =>
    let s := s.placeOutputs v r.params r
    if r.pass + 1 < imagePasses g.image then
      let s := s.startPass { v with s := s } r.params (r.pass + 1)
      s.setProgram slot { g with run := some (r.enterPass v.nodes (r.pass + 1)) }
    else (s.setProgram slot { g with run := some r }).endProgram slot Status.ok (r.outs.getD 0 0)

/-- End passes that have no stripe left; a pass may have none at all. -/
def State.endPasses : Nat → Nat → State → State
  | 0, _, s => s
  | k + 1, slot, s =>
    match Tab.look s.ingest.programs slot with
    | none => s
    | some g => match g.run with
      | none => s
      | some r =>
        let v := s.evOf g r 0
        if r.placed < (v.items r.pass).length then s else State.endPasses k slot (s.endPass slot g r v)

/-- The next stripe in order is placed, if it has been run (R159). -/
def State.stripePlacement (s : State) (slot : Nat) : State :=
  match Tab.look s.ingest.programs slot with
  | none => s
  | some g => match g.run with
    | none => s
    | some r =>
      match r.started.find? fun x => x.1 == r.placed with
      | none => s.endPasses 4 slot
      | some (k, lane) =>
        let v := s.evOf g r (lane / 32)
        match (v.items r.pass)[k]? with
        | none => s
        | some x =>
          let before := (s.reg Reg.cntWrapFeature).toNat
          match placeItem v r.params s r x with
          | .error e => s.endProgram slot e.1 e.2
          | .ok (s, r) =>
            let r := { r with placed := r.placed + 1, started := r.started.filter fun y => y.1 != k }
            let g := { g with wraps := g.wraps + ((s.reg Reg.cntWrapFeature).toNat - before), run := some r }
            ((s.setProgram slot g).runProgress slot r (imagePasses g.image)).endPasses 4 slot

/-- A Prepare run that has ended with OK gives its PREPARED tokens to its step's graph, where that runs (R304). -/
def State.tellPrepared (s : State) (e : Nat × Nat × BitVec 16 × Nat) : State :=
  if e.2.2.1 ≠ Status.ok then s
  else match s.graph.runs.find? fun g => g.2.job == some e.1 && g.2.cmd.isNone && g.2.step == e.2.1 with
    | some g => s.tokensFor g.1 5 fun _ => true
    | none => s

/-- The first check that a Prepare program fails at its start, as FPROG_START would (R303). -/
def State.prepareFail (s : State) (j : Job) (step : Nat) (b : List Byte) : Option Fail :=
  let reach := fun (u : Use) => need (u.range.len == 0 ||
    (s.mapped u.range && s.jobAllows j.id u.range && !(u.write && s.guardHit u.range))) u.off
  firstFail [s.startFields b 64, s.startAligns b 64, lowestFail ((s.startReads b ++ s.startUses b 64).map reach), s.startAlias b 64,
    s.startTypes b 64, s.openFail (s.startReads b ++ s.startUses b 64), s.startOwn b 64 (some (manSemantics (j.imageAt step)))]

/-- Start a Prepare program; one that fails a check has ended with its code. -/
def State.startPrepare (s : State) (e : Nat × Nat × List Byte) : State :=
  match Tab.look s.job.jobs e.1 with
  | none => s
  | some j => match s.prepareFail j e.2.1 e.2.2 with
    | none => s.startRun e.2.2 (some (e.1, e.2.1))
    | some f => { s with ingest := { s.ingest with ended := s.ingest.ended ++ [(e.1, e.2.1, f.code, f.detail)] } }

/-- Start the Prepare programs that wait, in order, while their slots and the lanes have room. -/
def State.startQueuedN : Nat → State → State
  | 0, s => s
  | k + 1, s =>
    match s.ingest.waiting.find? fun e => s.runRoom (startSlot e.2.2) with
    | none => s
    | some e =>
      State.startQueuedN k
        (({ s with ingest := { s.ingest with waiting := s.ingest.waiting.erase e } } : State).startPrepare e)

def State.startQueued (s : State) : State := State.startQueuedN s.ingest.waiting.length s

/-- STRIPE_PLACEMENT. -/
def execStripePlacement (slot : Nat) (s : State) : Host.Outcome State Fault Refusal :=
  .next (
    let t := s.stripePlacement slot
    ((t.ingest.ended.drop s.ingest.ended.length).foldl (fun u e => u.tellPrepared e) t).startQueued)

end Sys2Proof.Machine
end

