-- ==== Sys2Proof/Machine/Exchange.lean ====
section
/-! DEFINITION. PARTITION_EXCHANGE (R218 to R221): slot images, their landing area, and the placement of the output table. -/

namespace Sys2Proof.Machine

/-! ## The parameter block (R218) -/

def exJob (p : Packet) : Nat := p.param 0 4
def exRank (p : Packet) : Nat := p.param 4 4
def exBase (p : Packet) : Nat := p.param 8 4
def exRanks (p : Packet) : Nat := p.param 12 4
def exSlot (p : Packet) : Nat := p.param 16 4
def exBits (p : Packet) : Nat := p.param 20 1
def exColumns (p : Packet) : Nat := p.param 21 1
def exTable (p : Packet) : Nat := p.param 24 4
def exCounts (p : Packet) : Nat := p.param 32 8
def exLanding (p : Packet) : Nat := p.param 40 8
def exSlotBytes (p : Packet) : Nat := p.param 48 8
def exAllocs (p : Packet) : Allocs := ⟨p.param 56 8, p.param 64 8, 0, 0⟩
def exRecords (p : Packet) : Desc := p.desc 192
/-- Destinations of each rank: L of R219. -/
def exOwned (p : Packet) : Nat := 2 ^ exBits p / exRanks p

/-- The inputs of a record. -/
def exTypes (p : Packet) : List Ty :=
  (List.range (exColumns p)).map fun i => ⟨p.param (72 + i) 1, 0, p.param (80 + i) 1, false, none, false⟩

def exLandingRange (p : Packet) : Range := ⟨exLanding p, exRanks p * exSlotBytes p⟩

/-- The slot field of the exchange's packets: a COMMAND landing (R419). -/
def exLandingSlot (p : Packet) : Nat := 2 ^ 31 + exSlot p

/-! ## Slot images (R219) -/

/-- Records in destination d: the count, within the destination's rows. -/
def State.exCount (s : State) (p : Packet) (d : Nat) : Nat :=
  min (s.loadNat (exCounts p + 8 * d) 8) ((exRecords p).ext 1 / 2 ^ exBits p)

/-- The image for a rank of the group. -/
def State.slotImage (s : State) (p : Packet) (q : Nat) : List Byte :=
  let l := exOwned p
  let ds := (List.range l).map fun i => (q - exBase p) * l + i
  let r := exRecords p
  let cap := r.ext 1 / 2 ^ exBits p
  pad64 (ds.flatMap fun d => leBytes 8 (s.exCount p d)) ++
    ds.flatMap fun d => (List.range (s.exCount p d)).flatMap fun i => s.load (r.rowAt (d * cap + i)) r.rowBytes

/-- Bytes of an image. -/
def State.imageBytes (s : State) (p : Packet) (q : Nat) : Nat :=
  let l := exOwned p
  64 * ceilDiv (8 * l) 64 +
    ((List.range l).foldl (fun n i => n + s.exCount p ((q - exBase p) * l + i)) 0) * (exRecords p).rowBytes

def exGroup (p : Packet) : List Nat := (List.range (exRanks p)).map fun i => exBase p + i

/-! ## Landing -/

/-- The place of a source's image among the planes: packets name their sender and the slot only, so images for two ranks of one
module are told apart by the receiving rank. -/
def exPosition (p : Packet) (rank : Nat) : Nat := (exRank p - exBase p) * exRanks p + (rank - exBase p)

/-- The landing of an image from a rank: its slot of the landing area. -/
def exKind (p : Packet) (rank : Nat) : LandKind :=
  .data ⟨exLanding p + (rank - exBase p) * exSlotBytes p, 0x20, 1, [exSlotBytes p, 1, 1, 1, 1, 1], 0, [0, 0, 0, 0, 0]⟩
    (exPosition p rank)

/-- Running exchanges. -/
def State.exchanges (s : State) : List RunOp := s.running.filter fun o => match o.kind with
  | .exchange _ => true
  | _ => false

/-- The plane of a source rank in an exchange's landing. -/
def State.exPlane (s : State) (p : Packet) (rank : Nat) : Option OpenPlane :=
  s.relay.planes.find? fun x => x.job == p.job && x.slot == exLandingSlot p && x.position == exPosition p rank && x.rank == rank

/-- The image of a source rank is complete. -/
def State.exArrived (s : State) (p : Packet) (rank : Nat) : Bool :=
  match s.exPlane p rank with
  | some x => x.watermark == x.total
  | none => false

/-- The exchange whose landing a payload of a sender of its group goes to: the first that lacks the payload. -/
def State.exchangeFor (s : State) (job : Word) (slot rank off : Nat) : Option RunOp :=
  s.exchanges.find? fun o => o.pkt.job == job && exLandingSlot o.pkt == slot && (exGroup o.pkt).contains rank &&
    !(s.exPlane o.pkt rank).any fun x => x.holds off

/-- CNT_EXCHANGE_RECEIVED counts an image once it is complete (R224). -/
def State.countImage (s : State) (p : Packet) (rank : Nat) : State :=
  match s.exPlane p rank with
  | some x => if x.watermark = x.total then s.bump Reg.cntExchangeReceived (x.total / 4096) else s
  | none => s

/-- A payload lands in an exchange's landing. -/
def State.landImage (s : State) (slot : Nat) (o : RunOp) (b : Body) : State × Fate :=
  let r := s.land slot (exKind o.pkt b.rank) (2 ^ 62) 0 b
  (if s.exArrived o.pkt b.rank then r.1 else r.1.countImage o.pkt b.rank, r.2)

/-- Copy an image into a landing of this module (R422). -/
def State.landHere (s : State) (j : Job) (slot : Nat) (dst : RunOp) (rank : Nat) (data : List Byte) : State :=
  let b := (j.origin j.next 0 rank).body 0 2 opcodeSlotPut (exLandingSlot dst.pkt) (leBytes 8 data.length ++ leBytes 8 0) data
  if s.exArrived dst.pkt rank then s else (s.landImage slot dst b).1

/-! ## The end (R220, R221) -/

/-- A value of a record column. -/
def recordValue (t : Ty) (valid : Bool) (b : List Byte) : Val :=
  if !valid then .one .null
  else if t.code = 0x36 ∨ 8 < t.bytes then .one (.bytes b)
  else .one (.bits (leNat b))

/-- The columns of a list of records: the hash, then the inputs. -/
def recordColumns (tys : List Ty) (l : List (List Byte)) : List (List Val) :=
  let hash := l.map fun r => Val.one (.bits (leField r 0 8))
  let offs := (List.range tys.length).map fun i => 16 + ((tys.take i).map Ty.bytes).foldl (· + ·) 0
  hash :: (tys.zip offs).zipIdx.map fun e =>
    l.map fun r => recordValue e.1.1 (bitOf (leField r 8 1) e.2) (slice r e.1.2 e.1.1.bytes)

/-- The records of owned destination i that a source has sent. -/
def State.sourceRecords (s : State) (p : Packet) (rank i : Nat) : List (List Byte) :=
  let base := exLanding p + (rank - exBase p) * exSlotBytes p
  let l := exOwned p
  let n := (exRecords p).rowBytes
  let count := fun (k : Nat) => s.loadNat (base + 8 * k) 8
  let before := (List.range i).foldl (fun a k => a + count k) 0
  let at_ := base + 64 * ceilDiv (8 * l) 64 + before * n
  (List.range (count i)).map fun k => s.load (at_ + k * n) n

/-- Columns of the output table: the hash, then the inputs. -/
def exSchema (p : Packet) : List Column := ((Ty.plain 0x31) :: exTypes p).map fun t => t.column

/-- The batches of the output table: one for each owned destination that holds records. -/
def State.exBatches (s : State) (p : Packet) : List Batch :=
  let batch := fun (l : List (List Byte)) =>
    (⟨l.length, ((exSchema p).zip (recordColumns (exTypes p) l)).map fun e => buffersOf e.1 e.2⟩ : Batch)
  let all := (List.range (exOwned p)).map fun i => (exGroup p).flatMap fun r => s.sourceRecords p r i
  let full := all.filter fun l => !l.isEmpty
  if full.isEmpty then [batch []] else full.map batch

/-- Rows of the output table. -/
def State.exRows (s : State) (p : Packet) : Nat := (s.exBatches p).foldl (fun n b => n + b.rows) 0

def exKey (o : RunOp) : Nat := match o.kind with
  | .exchange k => k
  | _ => 0

/-- Every slot image the command sent is acknowledged. -/
def State.exSent (s : State) (o : RunOp) : Bool := s.relay.ops.all fun e => e.2.owner != .exchange (exKey o)

/-- The command's landing is closed. -/
def State.closeLanding (s : State) (p : Packet) : State :=
  let mine := fun (x : OpenPlane) => x.job == p.job && x.slot == exLandingSlot p &&
    (exGroup p).any fun r => x.position == exPosition p r
  s.setRelay { s.relay with planes := s.relay.planes.filter fun x => !mine x }

/-- The command ends with its table undefined: the landing area and the allocation are undefined (R221). -/
def State.failExchange (s : State) (o : RunOp) (st : Status) (detail : Nat) : State :=
  let a := exAllocs o.pkt
  let s := (s.dropOps fun _ x => x.owner == .exchange (exKey o)).closeLanding o.pkt
  let s := (s.scramble (exLandingRange o.pkt).lo (exLandingRange o.pkt).len).scramble a.base a.size
  (s.finish o st detail).wake

/-- Place the table (R142) and complete. -/
def State.placeExchange (s : State) (o : RunOp) : State :=
  let p := o.pkt
  match s.placeTable (exTable p) (exAllocs p) ((exSchema p).map fun c => (c, Config.madeNameHash)) (s.exBatches p) with
  | .ok (t, _) => (((t.defineTable (exTable p) (exAllocs p) []).closeLanding p).finish o Status.ok 0).wake
  | .error row => s.failExchange o Status.tableFull row

/-- The command places its table once every source slot is present and its own images are acknowledged (R220). -/
def State.settleExchange (s : State) (o : RunOp) : State :=
  let p := o.pkt
  if !(exGroup p).all fun r => s.exArrived p r then s
  else if o.total = 0 ∧ s.exRows p ≠ 0 then
    let o' := { o with total := s.exRows p }
    let s := ({ s with running := s.running.map fun x => if x = o then o' else x } : State).advance p 0 o'.total
    if s.exSent o' then s.placeExchange o' else s
  else if s.exSent o then s.placeExchange o
  else s

/-- Every exchange that can complete does. -/
def State.settleExchanges (s : State) : State := s.exchanges.foldl (fun t o => t.settleExchange o) s

/-! ## PARTITION_EXCHANGE (R218, R219) -/

/-- Images go to the ranks of the group in ascending order: packets to other modules, copies to ranks held here whose exchange
runs. Ranks held here that have sent theirs give their images to this one. -/
def State.sendImages (s : State) (p : Packet) (key : Nat) : State :=
  match s.findJob p.job with
  | none => s
  | some (slot, j) =>
    let mine := fun (o : RunOp) => o.pkt.job == p.job && exLandingSlot o.pkt == exLandingSlot p
    let s := (exGroup p).foldl (fun t q =>
      let img := t.slotImage p q
      if j.ranks.contains q then
        match t.exchanges.find? fun o => mine o && exRank o.pkt == q with
        | some o => (t.bump Reg.cntExchangeSent (img.length / 4096)).landHere j slot o (exRank p) img
        | none => t
      else (t.bump Reg.cntExchangeSent (img.length / 4096)).slotPut (.exchange key) (t.rankModule j q) 2 (exLandingSlot p)
        (j.origin j.next 0 (exRank p)) img) s
    match s.exchanges.find? fun o => o.kind == .exchange key with
    | none => s
    | some self => (s.exchanges.filter fun o => mine o && exRank o.pkt != exRank p).foldl (fun t o =>
        let img := t.slotImage o.pkt (exRank p)
        (t.bump Reg.cntExchangeSent (img.length / 4096)).landHere j slot self (exRank o.pkt) img) s

/-- The rank whose image does not fit its slot, lowest first. -/
def State.exTooLarge (s : State) (p : Packet) : Option Nat :=
  (exGroup p).find? fun q => decide (exSlotBytes p < s.imageBytes p q)

def exParams (s : State) (p : Packet) : Option Fail :=
  let job := s.findJob p.job
  let ty := fun (i : Nat) => (exTypes p).getD i (Ty.plain 0)
  let typeFails := (List.range 8).flatMap fun i =>
    if i < exColumns p then
      [need (codeKnown (p.param (72 + i) 1) && !codeVariable (p.param (72 + i) 1)) (136 + i),
        need (p.param (72 + i) 1 != 0x36 && p.param (80 + i) 1 == 0 || p.param (72 + i) 1 == 0x36 && (ty i).column.valid) (144 + i)]
    else [need (p.param (72 + i) 1 == 0) (136 + i), need (p.param (80 + i) 1 == 0) (144 + i)]
  lowestFail ([need (job.any fun e => e.2.state != .running && e.2.state != .rehosting) 64,
    need (job.any fun e => e.2.ranks.contains (exRank p)) 68,
    need (job.any fun e => decide (exBase p + exRanks p ≤ e.2.rankCount)) 72,
    need (isPow2 (exRanks p) && decide (exRanks p ≤ 2 ^ exBits p) && decide (exBase p ≤ exRank p) &&
      decide (exRank p < exBase p + exRanks p)) 76,
    need (decide (exSlot p < 2 ^ 31)) 80,
    need (decide (1 ≤ exBits p) && decide (exBits p ≤ 16)) 84,
    need (decide (1 ≤ exColumns p) && decide (exColumns p ≤ 8)) 85, p.zeros 86 2,
    need (decide (exTable p ≤ 4095) && (Tab.look s.ingest.tables (exTable p)).isNone &&
      !s.running.any fun o => o.kind == .tableRelease (exTable p)) 88, p.zeros 92 4,
    need (exCounts p % 64 == 0) 96, need (exLanding p % 4096 == 0) 104,
    need (exSlotBytes p % 4096 == 0 && exSlotBytes p != 0) 112,
    need ((exAllocs p).base % 4096 == 0) 120,
    need ((exAllocs p).size % 4096 == 0 && (exAllocs p).size != 0) 128, p.zeros 152 40,
    p.descFail 192,
    need ((exRecords p).elem == 0x20 && (exRecords p).rank == 2) 200,
    need ((exRecords p).ext 0 == recordLength (exTypes p)) 208,
    need ((exRecords p).ext 1 % 2 ^ exBits p == 0) 212] ++ typeFails)

def exUses (p : Packet) : List Use :=
  [⟨96, ⟨exCounts p, 8 * 2 ^ exBits p⟩, false⟩, ⟨104, exLandingRange p, true⟩,
    ⟨120, ⟨(exAllocs p).base, (exAllocs p).size⟩, true⟩] ++ (exRecords p).uses 192 false

def partitionExchangeCommand : Command where
  code := 0x0305
  lens := fun n => n == 4
  job := .paramOpen 0
  params := exParams
  aligns := fun _ p => p.alignFail 192
  uses := fun _ p => exUses p
  overlaps := fun _ p =>
    lowestFail [need (exLandingRange p).inModule 104, need (Range.mk (exAllocs p).base (exAllocs p).size).inHbm 120,
      clashFail [exLandingRange p] [⟨120, ⟨(exAllocs p).base, (exAllocs p).size⟩, true⟩]]
  security := fun s p => s.openFail (exUses p)
  unit := 2
  effect := fun p s =>
    let a := exAllocs p
    let spoil := fun (t : State) => (t.scramble (exLandingRange p).lo (exLandingRange p).len).scramble a.base a.size
    s.orPoisoned p (((exUses p).filter fun u => !u.write).map fun u => u.range) spoil fun s =>
      match s.exTooLarge p with
      | some q => s.complete p Status.tableFull q 0 0
      | none =>
        let key := s.starts
        ((s.enroll p (.exchange key) (exUses p) 0).sendImages p key).settleExchanges

/-- PARTITION_EXCHANGE. -/
def execPartitionExchange (p : Packet) (s : State) : Host.Outcome State Fault Refusal :=
  .next (partitionExchangeCommand.start p s)

/-- EXCHANGE_INCOMPLETE_TIMEOUT: vote_timeout_ms after a running exchange's own sends have completed (R221). -/
def execExchangeIncompleteTimeout (key : Nat) (s : State) : Host.Outcome State Fault Refusal :=
  .next (
    match s.exchanges.find? fun o => o.kind == .exchange key with
    | none => s
    | some o =>
      if !s.exSent o then s
      else match (exGroup o.pkt).find? fun r => !s.exArrived o.pkt r with
        | some r => s.failExchange o Status.exchangeIncomplete r
        | none => s)

end Sys2Proof.Machine
end

