-- ==== Sys2Proof/Machine/Receive.lean ====
section
/-! DEFINITION. Receiving extension packets (R426 to R434): when a packet is used, the early store, what each operation does at its
receiver, acknowledgements and NAKs at the sender, and the timers of the transport. -/

namespace Sys2Proof.Machine

/-! ## When a packet is used (R46, R47, R426 step 7, R458, R459, R598, R599) -/

/-- What becomes of a packet by its step and attempt. -/
inductive Timing where
  | now | later | stale
  deriving DecidableEq, Repr

def Body.kind (b : Body) : Nat := leField b.block 0 1
def Body.value (b : Body) : Nat := leField b.block 8 8
def Body.cause (b : Body) : Nat := leField b.block 2 2
def Body.region (b : Body) : Nat := leField b.block 0 4

/-- The region number that names the muster area of a job's hold area. -/
def musterRegion : Nat := 0xFFFFFFFF

def Body.isDigest (b : Body) : Bool := b.opcode == opcodeSealedPut && b.region == musterRegion
def Body.isSignal (b : Body) (kind : Nat) : Bool := b.opcode == opcodeSignal && b.kind == kind

/-- The job runs steps. -/
def Job.stepping (j : Job) : Bool := j.state == .running || j.state == .rehosting

/-- The rule of R47 for a packet of a step and an attempt. -/
def Job.plainTiming (j : Job) (b : Body) : Timing :=
  if b.step < j.next then .stale
  else if j.next < b.step ∨ j.phase = .idle then .later
  else if b.attempt < j.attempt then .stale
  else if b.attempt = j.attempt then .now
  else .later

/-- now for a step that has committed, later before. -/
def Job.afterCommit (j : Job) (b : Body) : Timing := if b.step < j.next then .now else .later

/-- A round of a muster-only vote that this module has not begun. -/
def Job.futureRound (j : Job) (b : Body) : Bool :=
  j.muster.any fun m => m.step == b.step && decide (m.round < b.value / 2 ^ 8 % 256)

def Job.voteTiming (j : Job) (b : Body) : Timing :=
  if bitOf b.value 1 then (if j.futureRound b then .later else j.afterCommit b)
  else if lateCause (voteOfSignal b.rank b.cause b.value false) ∧ b.step = j.next ∧ j.stepping then .now
  else j.plainTiming b

def Job.replayTiming (j : Job) (b : Body) : Timing :=
  if b.cause = Status.rankExpelled.toNat ∧ (bitOf b.value 3 ∨ bitOf b.value 1) then j.afterCommit b
  else if b.step < j.next then .stale
  else if b.step = j.next ∧ j.stepping then .now
  else .later

/-- A sealed operation or a FENCE reaches a job that is not RUNNING. -/
def Job.quietTiming (j : Job) (b : Body) : Timing :=
  if j.stepping then j.plainTiming b else if b.step < j.next then .stale else .now

def Job.digestTiming (j : Job) (b : Body) : Timing :=
  if j.muster.any fun m => m.step == b.step && m.attempt == b.attempt then .now
  else if b.step < j.next then .stale
  else .later

def Job.timing (j : Job) (b : Body) : Timing :=
  if b.opcode = opcodeSignal then
    match b.kind with
    | 1 => j.voteTiming b
    | 2 => if bitOf b.value 1 then j.afterCommit b else j.plainTiming b
    | 3 => j.replayTiming b
    | 4 => j.plainTiming b
    | _ => .now
  else if b.opcode = opcodeSlotPut then
    if 2 ^ 31 ≤ b.slot then
      if embLanding b.slot then .now
      else if b.step < j.next then .stale
      else if b.step = j.next then .now
      else .later
    else j.plainTiming b
  else if b.isDigest then j.digestTiming b
  else if b.opcode = opcodeFence then .now
  else j.quietTiming b

/-! ## What an operation does at its receiver (R419 to R424) -/

/-- The packet may reach a range under R489. -/
def State.trusts (s : State) (e : Early) (l : List Range) : Bool :=
  e.trusted || l.all fun r => (s.protectedKey r).isNone

def State.sealedPutIn (s : State) (slot : Nat) (j : Job) (e : Early) : State × Fate :=
  let b := e.body
  if b.isDigest then
    let d := (b.rank, slice b.payload 0 64, slice b.payload 64 64)
    (s.setJob slot { j with digests := (j.digests.filter fun x => x.1 != b.rank) ++ [d] }, .placed)
  else match s.sealedRange j.id b.region b.value b.payload.length with
    | some r => if s.trusts e [r] then (s.store r.lo b.payload, .placed) else (s, .nak .access b.region)
    | none => (s, .nak .access b.region)

/-- A read: the response packets go back in the request's class. -/
def State.getRequestIn (s : State) (_slot : Nat) (j : Job) (e : Early) : State × Fate :=
  let b := e.body
  let n := leField b.block 4 4
  match s.sealedRange j.id b.region b.value n with
  | none => (s, .nak .access b.region)
  | some r =>
    if n < 64 ∨ 0x1000000 < n ∨ !s.trusts e [r] then (s, .nak .access b.region)
    else
      let op := s.relay.nextOp
      let g : Origin := ⟨b.tag, b.job, b.step, b.attempt, j.ranks.headD 0⟩
      let l := (payloads (s.load r.lo n)).map fun x =>
        g.body op b.cls opcodeGetResponse noSlot (leBytes 8 (seqWord b.cls e.seq) ++ leBytes 8 x.1) x.2
      ((s.newOp ⟨.nobody, e.peer, b.job, l.length, 0⟩).post e.peer l, .placed)

/-- Read data lands in the requester's ranges (R423). -/
def State.getResponseIn (s : State) (e : Early) : State :=
  let b := e.body
  let req := leField b.block 0 8 % 2 ^ 62
  match s.relay.gets.find? fun g => g.peer == e.peer && g.cls == b.cls && g.seq == req with
  | none => s
  | some g =>
    let part := targetPart g.target b.value b.payload.length
    let n := part.foldl (fun k r => k + r.2) 0
    let s := s.scatterTo part (b.payload.take n)
    match Tab.look s.relay.ops g.op with
    | some o => s.setRelay { s.relay with ops := Tab.put s.relay.ops g.op { o with toLand := o.toLand - n } }
    | none => s

def State.slotPutIn (s : State) (slot : Nat) (_j : Job) (e : Early) : State × Fate :=
  let b := e.body
  if 2 ^ 31 ≤ b.slot then
    match s.exchangeFor b.job b.slot b.rank b.value with
    | some o => s.landImage slot o b
    | none =>
      if embLanding b.slot then s.land slot (if b.slot % 2 = 0 then .requests else .responses none) (2 ^ 62) e.peer b
      else if s.exchanges.any (fun o => o.pkt.job == b.job && exLandingSlot o.pkt == b.slot) then (s, .placed)
      else (s, .nak .notReady 0)
  else match s.stepRunOf slot with
    | none => (s, .placed)
    | some (run, g) => match s.landKind g b.slot b.rank with
      | none => (s.planeFault slot, .placed)
      | some k =>
        let ranges := match k with
          | .data d p => (d.position p).planeRanges.map fun r => (⟨r.1, r.2⟩ : Range)
          | _ => []
        if s.trusts e ranges then s.land slot k run e.peer b else (s, .nak .access 0)

/-- USER: one arrival with no bytes at a GRAPH landing. -/
def State.userIn (s : State) (slot : Nat) (b : Body) : State :=
  match s.stepRunOf slot with
  | none => s
  | some (run, g) =>
    if landingOk (graphDescs (s.runImage g)) b.slot then s.tokensFor run 3 fun x => x.desc == b.slot else s.planeFault slot

def State.signalIn (s : State) (slot : Nat) (b : Body) : State :=
  match b.kind with
  | 1 => s.takeVote slot b.step b.attempt b.rank b.cause b.value
  | 2 => s.commitSignal slot b.step b.attempt b.value
  | 3 => s.replaySignal slot b.step b.attempt b.cause b.value
  | 4 => s.userIn slot b
  | 5 => s.takeQuery slot b.step b.attempt b.rank
  | _ => s

/-- Step 8 of R426. -/
def State.perform (s : State) (slot : Nat) (j : Job) (e : Early) : State × Fate :=
  let b := e.body
  if b.opcode = opcodeSealedPut then s.sealedPutIn slot j e
  else if b.opcode = opcodeGetRequest then s.getRequestIn slot j e
  else if b.opcode = opcodeSlotPut then s.slotPutIn slot j e
  else if b.opcode = opcodeSignal then (s.signalIn slot b, .placed)
  else (s, .placed)

/-! ## The early store (R426, R439) -/

/-- Packets the early store holds (R409). -/
def earlyDepth : Nat := 2048

/-- A packet of the early store can be used or discarded. -/
def State.ripe (s : State) (e : Early) : Bool :=
  match s.findJob e.body.job with
  | some (_, j) => j.timing e.body != .later
  | none => true

/-- Use a packet of the early store. -/
def State.takeEarly (s : State) (e : Early) : State :=
  match s.findJob e.body.job with
  | none => s
  | some (slot, j) => match j.timing e.body with
    | .now => match s.perform slot j e with
      | (t, .placed) => t
      | (t, .nak .notReady _) => t.setRelay { t.relay with early := t.relay.early ++ [e] }
      | (t, .nak n d) => t.sendAck e.peer e.serial e.body.cls n e.seq d
    | .stale => s.onJob slot fun j => { j with staleAttempt := satAdd j.staleAttempt 1 }
    | .later => s

/-- Use every packet of the early store whose step and attempt have started, in the order received. -/
def State.drainEarlyN : Nat → State → State
  | 0, s => s
  | k + 1, s =>
    match s.relay.early.find? fun e => s.ripe e with
    | none => s
    | some e => State.drainEarlyN k ((s.setRelay { s.relay with early := s.relay.early.erase e }).takeEarly e)

def State.drainEarly (s : State) : State := State.drainEarlyN (s.relay.early.length + 16) s

/-! ## Ends of operations -/

/-- The RELAY_POST of a ring and sequence. -/
def State.postCommand (s : State) (ring : Nat) (seq : Word) : Option RunOp :=
  s.running.find? fun o => o.pkt.ring == ring && o.pkt.seq == seq && (match o.kind with
    | .relayPost _ => true
    | _ => false)

/-- A RELAY_POST ends, and its packets are discarded. -/
def State.endPost (s : State) (ring : Nat) (seq : Word) (st : Status) (detail : Nat) : State :=
  let s := s.dropOps fun _ o => o.owner == .post ring seq
  match s.postCommand ring seq with
  | some o => (s.finish o st detail).wake
  | none => s

/-- The copy of a poisoned page from a replica has landed: the page is retired, and the step replays (R446). -/
def State.repaired (s : State) (slot page : Nat) : State :=
  let inPage := fun (a : Nat) => decide (page ≤ a) && decide (a < page + 4096)
  let s := { s with memory := { s.memory with poisoned := s.memory.poisoned.filter fun a => !inPage a } }
  let gone := (s.memory.pool0.pages ++ s.memory.pool1.pages).contains page
  let s := if gone ∨ !(Range.mk page 4096).inHbm then s else s.retire' false page []
  s.onJob slot fun j => { j.blame Status.parityError 0 with parity := j.parity.filter fun a => !inPage a }

/-- What the end of an operation does for its owner. -/
def State.opEnded (s : State) (o : RelayOp) : State :=
  match o.owner with
  | .post ring seq => s.endPost ring seq Status.ok 0
  | .repair slot page => s.repaired slot page
  | _ => s

/-- Take completed operations out. -/
def State.retireOps (s : State) : State :=
  let ended := s.relay.ops.filter fun e => e.2.done
  ended.foldl (fun t e =>
    (t.setRelay { t.relay with
      ops := Tab.del t.relay.ops e.1
      gets := t.relay.gets.filter fun g => g.op != e.1 }).opEnded e.2) s

/-- What follows a change of the relay's state: early packets, FENCEs, exchanges, completed operations, gathers, credit and what
may now be sent. -/
def State.settleRelay (s : State) : State :=
  ((((s.drainEarly.releaseFences).retireOps.settleExchanges).settleGathers).grant).pump

/-! ## Receiving (R426) -/

def Early.of (o : Opened) : Early := ⟨o.peer, o.serial, o.seq, o.body, o.jobKey || o.pairOk⟩

/-- A CE-marked packet is answered with a CNP on its plane, at most once per 50 µs (R433). -/
def State.congestion (s : State) (peer plane : Nat) : State :=
  let key := 8 * peer + plane
  let due := match Tab.look s.relay.cnpSent key with
    | some t => decide (t + microseconds 50 ≤ s.clk)
    | none => true
  if due then (s.setRelay { s.relay with cnpSent := Tab.put s.relay.cnpSent key s.clk }).emit (.cnp peer plane) else s

/-- A packet under a pairwise key shows which key its sender uses. -/
def State.noteSerial (s : State) (o : Opened) (pkey : Nat) : State :=
  if pkey = 0xFFFF ∧ (Tab.look s.relay.serials o.peer).all fun n => decide (n ≤ o.serial) then
    s.setRelay { s.relay with serials := Tab.put s.relay.serials o.peer o.serial }
  else s

/-- The tag differs: the packet is refused, counted, and recorded once per peer and step (R69). -/
def State.refuseTag (s : State) (o : Opened) (slot : Nat) (j : Job) : State :=
  let b := o.body
  let key := (o.peer, j.id, b.step)
  let s := s.onJob slot fun j => { j with tagRefused := satAdd j.tagRefused 1 }
  let s := if s.relay.mismatched.contains key then s
    else (s.setRelay { s.relay with mismatched := s.relay.mismatched ++ [key] }).log 6 1 4 0xFFFF j.id (BitVec.ofNat 32 b.step)
      (leBytes 2 o.peer ++ j.tagAt b.step ++ b.tag)
  s.nakPacket o .mismatch 0

/-- The packet is used now. -/
def State.useNow (s : State) (o : Opened) (slot : Nat) (j : Job) : State :=
  match s.perform slot j (Early.of o) with
  | (t, .placed) => (t.accept o).ackIfDue o.peer o.serial o.body.cls false
  | (t, .nak n d) => t.nakPacket o n d

/-- A FENCE waits until every earlier sequence has been placed. -/
def State.fenceIn (s : State) (o : Opened) : State :=
  let high := fun (off cls : Nat) =>
    let v := leField o.body.block off 8
    if v / 2 ^ 62 = cls then v % 2 ^ 62 + 1 else 0
  s.setRelay { s.relay with fences := s.relay.fences ++ [⟨o.peer, o.serial, o.seq, high 0 1, high 8 2⟩] }

/-- Steps 5 to 8 of R426. -/
def State.takePacket (s : State) (o : Opened) : State :=
  let b := o.body
  if b.opcode = opcodeGetResponse then ((s.getResponseIn (Early.of o)).accept o).ackIfDue o.peer o.serial b.cls false
  else match s.findJob b.job with
    | none => s.nakPacket o .noJob 0
    | some (slot, j) =>
      if b.tag ≠ j.tagAt b.step then s.refuseTag o slot j
      else
        let s := if b.step = j.next ∧ !b.isSignal 3 ∧ !b.isSignal 5 then s.replayNotice slot b.attempt else s
        match s.findJob b.job with
        | none => s
        | some (_, j) =>
          if b.opcode = opcodeFence then s.fenceIn o
          else match j.timing b with
            | .now => s.useNow o slot j
            | .stale =>
              ((s.onJob slot fun j => { j with staleAttempt := satAdd j.staleAttempt 1 }).accept o).ackIfDue o.peer o.serial b.cls false
            | .later =>
              if earlyDepth ≤ s.relay.early.length then s.nakPacket o .notReady 0
              else
                ((s.setRelay { s.relay with early := s.relay.early ++ [Early.of o] }).accept o).ackIfDue o.peer o.serial b.cls false

/-! ## ACKs at the sender (R428, R429, R431, R70, R221, R347) -/

/-- Resend a packet on the next usable plane after the one it last used. -/
def State.resend (s : State) (f : Flight) : State :=
  match s.nextPlane f.peer f.plane with
  | none => s
  | some p =>
    let l := s.relay.flights.map fun x => if x.peer = f.peer ∧ x.serial = f.serial ∧ x.seq = f.seq ∧ x.body.cls = f.body.cls then
      { x with plane := p } else x
    let s := (s.setRelay { s.relay with flights := l }).emit (.relay f.peer f.body.cls f.seq f.frame)
    (s.countSent f.body.cls (beNat (slice f.frame 2 2))).bump Reg.rlyRetransmit 1

def Flight.is (f : Flight) (peer serial cls seq : Nat) : Bool :=
  f.peer == peer && f.serial == serial && f.body.cls == cls && f.seq == seq

def State.flightOf (s : State) (peer serial cls seq : Nat) : Option Flight :=
  s.relay.flights.find? fun f => f.is peer serial cls seq

/-- The EMB_GATHER or graph gather that a packet belongs to ends or fails. -/
def State.failGather (s : State) (key : Nat) (job : Word) (st : Status) (detail : Nat) : State :=
  match s.running.find? fun o => o.kind == .embGather key with
  | some o => ((s.dropGather key).finish o st detail).wake
  | none => match s.findJob job with
    | some (slot, j) => if j.stepping then s.onJob slot fun j => j.blame st detail else s
    | none => s

/-- An operation of this module has had a packet refused for good. -/
def State.opRefused (s : State) (f : Flight) (st : Status) (detail : Nat) : State :=
  match (Tab.look s.relay.ops f.body.op).map RelayOp.owner with
  | some (.post ring seq) => s.endPost ring seq st detail
  | some (.exchange key) => match s.exchanges.find? fun o => o.kind == .exchange key with
    | some o =>
      let rank := match s.findJob o.pkt.job with
        | some (_, j) => ((exGroup o.pkt).find? fun r => s.rankModule j r == f.peer).getD (exBase o.pkt)
        | none => exBase o.pkt
      s.failExchange o st (if st = Status.manifestMismatch then rank else detail)
    | none => s
  | some (.gather key) => s.failGather key f.body.job st detail
  | some (.task run _) => s.blameRun run st detail
  | some (.repair slot _) =>
    (s.dropOps fun k _ => k == f.body.op).onJob slot fun j => j.blame st detail
  | _ => match s.findJob f.body.job with
    | some (slot, j) => if j.stepping then s.onJob slot fun j => j.blame st detail else s
    | none => s

/-- Act on a NAK. -/
def State.takeNak (s : State) (f : Flight) (nak detail : Nat) : State :=
  match nak with
  | 1 => s.setRelay { s.relay with notReady := s.relay.notReady ++ [(f.peer, f.serial, f.body.cls, f.seq)] }
  | 3 => s.setRelay { s.relay with notReady := s.relay.notReady ++ [(f.peer, f.serial, f.body.cls, f.seq)] }
  | 2 => s.opRefused f Status.manifestMismatch 0
  | 4 => s.opRefused f Status.remoteAccess detail
  | 5 => s.opRefused f Status.versionAbsent detail
  | _ => s

/-- A packet is acknowledged: its operation has one packet less outstanding. -/
def State.acked (s : State) (f : Flight) : State :=
  let ops := match Tab.look s.relay.ops f.body.op with
    | some o => Tab.put s.relay.ops f.body.op { o with left := o.left - 1 }
    | none => s.relay.ops
  s.setRelay { s.relay with
    flights := s.relay.flights.erase f
    ops := ops
    planeExpiries := Tab.del s.relay.planeExpiries (8 * f.peer + f.plane)
    notReady := s.relay.notReady.erase (f.peer, f.serial, f.body.cls, f.seq) }

/-- Keys older than the one in use with a peer go once no packet sent under them waits and the peer has used the newer (R495). -/
def State.dropOldKeys (s : State) (peer : Nat) : State :=
  match s.pairKeys peer with
  | [] => s
  | k :: _ =>
    let used := decide (k.serial ≤ (Tab.look s.relay.serials peer).getD 0)
    let idle := s.relay.flights.all fun f => f.peer != peer || f.serial == k.serial
    if used && idle then
      let old := fun (key : Nat) => key / 4 / 2 ^ 32 == peer && key / 4 % 2 ^ 32 != k.serial
      { s with
        sec := { s.sec with pairs := s.sec.pairs.filter fun x => x.peer != peer || x.serial == k.serial }
        relay := { s.relay with
          sends := s.relay.sends.filter fun e => !old e.1
          recvs := s.relay.recvs.filter fun e => !old e.1 } }
    else s

/-- The demand a sender reports; a demand of 0 returns what it has not used of its grant (R431). -/
def State.takeDemand (s : State) (peer serial cls demand used : Nat) : State :=
  if cls = 1 ∨ cls = 2 then
    let r := s.recvStream peer serial cls
    let received := r.above.foldl max r.cum
    let back := max received used
    let s := s.setRecv peer serial cls { r with demand := demand, limit := if demand = 0 then min r.limit back else r.limit }
    if demand = 0 ∧ back < r.limit then s.sendAck peer serial cls .none 0 0 else s
  else s

/-- Later packets of the class that sack shows received after a number. -/
def sackedAfter (cum sack seq : Nat) : Nat :=
  ((List.range 64).filter fun i => bitOf sack i && decide (seq < cum + 1 + i)).length

/-- An ACK (R418). Its limit and demand count only if no later ACK has been seen. -/
def State.takeAck (s : State) (o : Opened) : State :=
  let b := o.body
  let cls := leField b.block 0 1
  let nak := leField b.block 1 1
  let demand := leField b.block 4 4
  let cum := leField b.block 8 8 % 2 ^ 62
  let sack := leField b.payload 0 8
  let limit := leField b.payload 8 8 % 2 ^ 62
  let nakSeq := leField b.payload 16 8 % 2 ^ 62
  let detail := leField b.payload 24 8
  let seen := s.recvStream o.peer o.serial 3
  let newest := decide (seen.cum ≤ o.seq)
  let s := if newest then s.setRecv o.peer o.serial 3 { seen with cum := o.seq + 1 } else s
  let s := if nak = 0 then s else match s.flightOf o.peer o.serial cls nakSeq with
    | some f => s.takeNak f nak detail
    | none => s
  let arrived := fun (f : Flight) => f.peer == o.peer && f.serial == o.serial && f.body.cls == cls &&
    (decide (f.seq < cum) || (decide (cum < f.seq) && decide (f.seq ≤ cum + 64) && bitOf sack (f.seq - cum - 1)))
  let s := (s.relay.flights.filter arrived).foldl (fun t f => t.acked f) s
  let s := if newest then
      let st := s.sendStream o.peer o.serial cls
      let s := s.setSend o.peer o.serial cls { st with limit := limit }
      s.takeDemand o.peer o.serial cls demand (if nak = 0 then nakSeq else 2 ^ 62)
    else s
  let missing := s.relay.flights.filter fun f => f.peer == o.peer && f.serial == o.serial && f.body.cls == cls && !f.hurried &&
    decide (16 ≤ sackedAfter cum sack f.seq)
  let s := missing.foldl (fun t f => t.resend f) s
  let mark := fun (f : Flight) =>
    if missing.any (fun m => m.is f.peer f.serial f.body.cls f.seq) then { f with hurried := true } else f
  let s := s.setRelay { s.relay with flights := s.relay.flights.map mark }
  s.dropOldKeys o.peer

/-! ## One received frame -/

/-- Steps 3 to 8 of R426 on a frame that has opened. -/
def State.takeOpened (s : State) (f : Frame) (o : Opened) : State :=
  let s := if f.ce then s.congestion o.peer f.port else s
  let s := s.noteSerial o f.pkey
  if o.body.opcode = opcodeAck then s.takeAck o
  else
    let r := s.recvStream o.peer o.serial o.body.cls
    let held := s.relay.fences.any fun x => x.peer == o.peer && x.serial == o.serial && x.seq == o.seq
    if r.limit ≤ o.seq then s.bump Reg.rlyCreditViolation 1
    else if o.body.cls = 0 ∧ held then s
    else if r.holds o.seq then s.sendAck o.peer o.serial o.body.cls .none 0 0
    else s.takePacket o

/-- A frame of a row: `opcode` is the row's BTH opcode and `want` tells its packets from others of the opcode. A frame of another
row is none of this row's, and nothing happens. -/
def State.receive (s : State) (opcode : Nat) (want : Body → Bool) (f : Frame) : State :=
  if f.opcode ≠ opcode then s
  else match s.openFrame f with
    | none => if f.sender.isNone ∨ s.moduleId.isNone then s
      else (s.bumpWide Reg.rlyRxPktsLo 1).bump Reg.rlyAuthFail 1
    | some o => if want o.body then ((s.bumpWide Reg.rlyRxPktsLo 1).takeOpened f o).settleRelay else s

/-- SLOT_PUT_RECEIVED. -/
def execSlotPutReceived (f : Frame) (s : State) : Host.Outcome State Fault Refusal :=
  .next (s.receive opcodeSlotPut (fun _ => true) f)
/-- SEALED_PUT_RECEIVED. -/
def execSealedPutReceived (f : Frame) (s : State) : Host.Outcome State Fault Refusal :=
  .next (s.receive opcodeSealedPut (fun _ => true) f)
/-- SEALED_GET_REQUEST_RECEIVED. -/
def execSealedGetRequestReceived (f : Frame) (s : State) : Host.Outcome State Fault Refusal :=
  .next (s.receive opcodeGetRequest (fun _ => true) f)
/-- SEALED_GET_RESPONSE_RECEIVED. -/
def execSealedGetResponseReceived (f : Frame) (s : State) : Host.Outcome State Fault Refusal :=
  .next (s.receive opcodeGetResponse (fun _ => true) f)
/-- USER_SIGNAL_RECEIVED. -/
def execUserSignalReceived (f : Frame) (s : State) : Host.Outcome State Fault Refusal :=
  .next (s.receive opcodeSignal (fun b => b.kind == 4) f)
/-- VOTE_RECEIVED. -/
def execVoteReceived (f : Frame) (s : State) : Host.Outcome State Fault Refusal :=
  .next (s.receive opcodeSignal (fun b => b.kind == 1) f)
/-- COMMIT_RECEIVED. -/
def execCommitReceived (f : Frame) (s : State) : Host.Outcome State Fault Refusal :=
  .next (s.receive opcodeSignal (fun b => b.kind == 2) f)
/-- REPLAY_RECEIVED. -/
def execReplayReceived (f : Frame) (s : State) : Host.Outcome State Fault Refusal :=
  .next (s.receive opcodeSignal (fun b => b.kind == 3) f)
/-- QUERY_RECEIVED. -/
def execQueryReceived (f : Frame) (s : State) : Host.Outcome State Fault Refusal :=
  .next (s.receive opcodeSignal (fun b => b.kind == 5) f)
/-- FENCE_RECEIVED. -/
def execFenceReceived (f : Frame) (s : State) : Host.Outcome State Fault Refusal :=
  .next (s.receive opcodeFence (fun _ => true) f)
/-- ACK_RECEIVED. -/
def execAckReceived (f : Frame) (s : State) : Host.Outcome State Fault Refusal :=
  .next (s.receive opcodeAck (fun _ => true) f)

/-! ## Timers and links (R428 to R430, R433) -/

/-- CNP_RECEIVED: the rate level toward the peer on the plane rises, at most once per 50 µs. -/
def execCnpReceived (peer plane : Nat) (s : State) : Host.Outcome State Fault Refusal :=
  .next (
    let known := (Tab.look s.relay.peers peer).isSome || (decide (65536 ≤ peer) && (Tab.look s.relay.qps (peer - 65536)).isSome)
    if plane ≥ 8 ∨ !known then s
    else
      let key := 8 * peer + plane
      let s := s.bump Reg.rlyCnpRx 1
      let due := match Tab.look s.relay.raised key with
        | some t => decide (t + microseconds 50 ≤ s.clk)
        | none => true
      let q := { s.relay with cnpSeen := Tab.put s.relay.cnpSeen key s.clk }
      if due then
        s.setRelay { q with
          rates := Tab.put q.rates key (min 15 (Tab.get 0 q.rates key + 1))
          raised := Tab.put q.raised key s.clk }
      else s.setRelay q)

/-- RATE_LEVEL_DECAY: after 200 µs without a CNP the rate level falls by one. -/
def execRateLevelDecay (peer plane : Nat) (s : State) : Host.Outcome State Fault Refusal :=
  .next (
    let key := 8 * peer + plane
    let level := Tab.get 0 s.relay.rates key
    let last := Tab.get 0 s.relay.cnpSeen key
    if level = 0 ∨ s.clk < last + microseconds 200 then s
    else s.setRelay { s.relay with
      rates := if level = 1 then Tab.del s.relay.rates key else Tab.put s.relay.rates key (level - 1)
      cnpSeen := Tab.put s.relay.cnpSeen key s.clk })

/-- ACK_TIMER_EXPIRY: packets of a stream wait for an ACK. -/
def execAckTimerExpiry (peer serial cls : Nat) (s : State) : Host.Outcome State Fault Refusal :=
  .next (s.ackIfDue peer serial cls (decide (0 < (s.recvStream peer serial cls).unacked)))

/-- RETRANSMISSION_TIMEOUT: a packet in flight is resent; a plane whose timeout toward the peer expires twice in a row is unusable
toward it. -/
def execRetransmissionTimeout (peer serial cls seq : Nat) (s : State) : Host.Outcome State Fault Refusal :=
  .next (match s.flightOf peer serial cls seq with
    | none => s
    | some f =>
      let key := 8 * peer + f.plane
      let n := Tab.get 0 s.relay.planeExpiries key + 1
      let s := s.setRelay { s.relay with
        flights := s.relay.flights.map fun x => if x.is peer serial cls seq then { x with expiries := x.expiries + 1 } else x
        planeExpiries := Tab.put s.relay.planeExpiries key n
        unusable := if 2 ≤ n ∧ !s.relay.unusable.contains key then s.relay.unusable ++ [key] else s.relay.unusable }
      match s.flightOf peer serial cls seq with
      | some f => s.resend f
      | none => s)

/-- NOT_READY_RESEND: 64 µs after a NOT_READY or a NO_JOB the packet is sent again. -/
def execNotReadyResend (peer serial cls seq : Nat) (s : State) : Host.Outcome State Fault Refusal :=
  .next (
    if s.relay.notReady.contains (peer, serial, cls, seq) then
      let s := s.setRelay { s.relay with notReady := s.relay.notReady.erase (peer, serial, cls, seq) }
      match s.flightOf peer serial cls seq with
      | some f => s.resend f
      | none => s
    else s)

/-- PLANE_PROBE: after 1 ms one packet probes an unusable plane; one more timeout makes it unusable again. -/
def execPlaneProbe (peer plane : Nat) (s : State) : Host.Outcome State Fault Refusal :=
  .next (
    let key := 8 * peer + plane
    if s.relay.unusable.contains key then
      (s.setRelay { s.relay with
        unusable := s.relay.unusable.filter fun x => x != key
        planeExpiries := Tab.put s.relay.planeExpiries key 1 }).pump
    else s)

/-- LINK_STATE_CHANGE: a port's link goes up or down. -/
def execLinkStateChange (port : Nat) (up : Bool) (s : State) : Host.Outcome State Fault Refusal :=
  .next (
    if 8 ≤ port then s
    else
      let l := s.relay.links.filter fun p => p != port
      let l := if up then (l.filter fun p => decide (p < port)) ++ [port] ++ l.filter fun p => decide (port < p) else l
      (s.setRelay { s.relay with links := l }).pump)

/-- DISCARDED_FRAME: a frame that no rule describes, or that fails its checks, is discarded and counted. -/
def execDiscardedFrame (s : State) : Host.Outcome State Fault Refusal := .next (s.bump Reg.rlyDiscarded 1)

end Sys2Proof.Machine
end

