-- ==== Sys2Proof/Machine/Secure.lean ====
section
/-! DEFINITION. Measurements, session certificates, offers, grants and key blobs (R475 to R497), and the security commands
(R501 to R504). -/

namespace Sys2Proof.Machine

/-! ## Measurements (R483) -/

def SecMode.code : SecMode → Nat
  | .opened => 0
  | .locked => 1
  | .attested => 2

def TdiState.code : TdiState → Nat
  | .unlocked => 0
  | .locked => 1
  | .run => 2
  | .error => 3

/-- Blocks 1 to 9 of a measurement report; block 10 rests on the session certificate. -/
def State.plainBlock (s : State) : Nat → List Byte
  | 1 => slice Config.bootRomDigest 0 64
  | 2 => s.mgt.activeBank.measure 1
  | 3 => s.mgt.activeBank.measure 2
  | 4 => s.mgt.activeBank.measure 3
  | 5 => Config.rawBlock 5 (s.mgt.activeBank.security :: s.mgt.activeBank.semantics)
  | 6 => Config.rawBlock 6 ((s.job.jobs.filter fun e => e.2.confidential).flatMap fun e =>
      [e.2.id.toNat, leNat e.2.digest] ++ (match e.2.staged with
        | some x => [leNat x.digest]
        | none => []))
  | 7 => Config.rawBlock 7 [s.integrity.patternVersion.toNat]
  | 8 => Config.rawBlock 8 [s.sec.mode.code, s.sec.tdi.code, if s.confidential then 1 else 0]
  | 9 => Config.rawBlock 9 (if s.metered then [1, s.meter.fwVersion, s.meter.checksum] else [0])
  | 11 => Config.rawBlock 11 (s.sec.keys.flatMap fun e => [e.1, leNat e.2.keyId, leNat e.2.baseRef])
  | _ => []

/-- The measurement digest (R477, R483). -/
def State.measurementDigest (s : State) : List Byte := sha3 ([1, 2, 3, 4, 5, 8].flatMap s.plainBlock)

/-! ## Certificates and chains (R476, R477, R497) -/

/-- The signature by AK over every byte before it. -/
def State.signed (s : State) (b : List Byte) : List Byte := b ++ aliasSignature s.sec.measured b

def certLength : Nat := 6323
def offerLength : Nat := 6259
def grantLength : Nat := 6307
def blobLength : Nat := 1680
/-- Bytes of a signature. -/
def signatureLength : Nat := 4627

/-- The session certificate in force. -/
def State.certificate (s : State) : List Byte :=
  s.signed (leBytes 4 0x54435353 ++ leBytes 2 1 ++ leBytes 1 s.sec.mode.code ++ leBytes 1 (if s.metered then 1 else 0) ++
    leBytes 8 s.sec.session ++ leBytes 2 (s.moduleId.getD 0xFFFF) ++ leBytes 6 0 ++ s.measurementDigest ++ leBytes 40 0 ++
    kemKey s.sec.kem)

/-- A block of a measurement report. -/
def State.block (s : State) (n : Nat) : List Byte := if n = 10 then sha3 s.certificate else s.plainBlock n

/-- One entry of a chain list: its length, its DER bytes, zeros to a multiple of 64. -/
def chainEntry (der : List Byte) : List Byte := padTo (up64 (8 + der.length)) (leBytes 8 der.length ++ der)

/-- This module's chain: the three links of flash and the overlaps certificate. -/
def State.chainDer (s : State) : List (List Byte) :=
  [Config.deviceChain 0, Config.deviceChain 1, Config.deviceChain 2, Config.aliasCertificate s.sec.measured]
def State.chain (s : State) : List Byte := s.chainDer.flatMap chainEntry

/-- Bytes of a chain list of k entries in memory. -/
def State.chainBytes (s : State) : Nat → Nat → Nat
  | 0, _ => 0
  | k + 1, a =>
    let n := up64 (8 + s.loadNat a 8)
    n + State.chainBytes s k (a + n)

/-- Bytes of a session certificate and its chain. -/
def State.memberBytes (s : State) (a : Nat) : Nat := certLength + s.chainBytes 4 (a + certLength)

/-- The addresses of k members' certificates, one after the other, and the end of the last. -/
def State.memberAts (s : State) : Nat → Nat → List Nat × Nat
  | 0, a => ([], a)
  | k + 1, a =>
    let r := State.memberAts s k (a + s.memberBytes a)
    (a :: r.1, r.2)

/-- A signed structure verifies under a chain: none, or the reason of R502. -/
def signedReason (magic : Nat) (b chain : List Byte) : Option Nat :=
  match Config.chainKey chain with
  | none => some 3
  | some ak =>
    let n := b.length - signatureLength
    if leField b 0 4 = magic ∧ Config.verify ak (b.take n) (b.drop n) then none else some 1

/-- Fields of a session certificate. -/
def certState (b : List Byte) : Nat := leField b 6 1
def certSession (b : List Byte) : Nat := leField b 8 8
def certModule (b : List Byte) : Nat := leField b 16 2
def certKem (b : List Byte) : List Byte := slice b 128 1568

def State.memberCert (s : State) (a : Nat) : List Byte := s.load a certLength
def State.certReason (s : State) (a : Nat) : Option Nat :=
  signedReason 0x54435353 (s.memberCert a) (s.load (a + certLength) (s.chainBytes 4 (a + certLength)))

/-! ## Keys between modules (R495, R496) -/

/-- The pairwise key of modules A and B. -/
def pairKey (ss : List Byte) (a b sessionA sessionB : Nat) : List Byte :=
  (sha3 (ascii "SNRL-PAIR" ++ ss ++ leBytes 2 a ++ leBytes 2 b ++ leBytes 8 sessionA ++ leBytes 8 sessionB)).take 32

/-- The key that wraps another under a label (R491). -/
def wrapKey (label : String) (ss head : List Byte) : List Byte := (sha3 (ascii label ++ ss ++ head)).take 32
def zeroIv : List Byte := leBytes 12 0

/-- Install a pairwise key: its stream starts at 0, and of more than two keys the oldest goes with its streams (R427, R495). -/
def State.installPair (s : State) (peer : Nat) (key : List Byte) (peerSession : Nat) (confidential : Bool) : State :=
  let held := s.sec.pairs.filter fun k => k.peer == peer
  let serial := held.foldl (fun n k => max n (k.serial + 1)) 0
  let keep := fun (n : Nat) => decide (serial ≤ n + 1)
  let stale := fun (k : Nat) => k / 4 / 2 ^ 32 == peer && !keep (k / 4 % 2 ^ 32)
  let s : State := { s with
    sec := { s.sec with
      pairs := (s.sec.pairs.filter fun k => k.peer != peer || keep k.serial) ++
        [⟨peer, key, s.sec.session, peerSession, serial, confidential⟩] }
    relay := { s.relay with
      sends := s.relay.sends.filter fun e => !stale e.1
      recvs := s.relay.recvs.filter fun e => !stale e.1
      flights := s.relay.flights.filter fun f => f.peer != peer || keep f.serial } }
  s.settleRelay

/-- Install a job key generation: the two newest are held (R475, R496). -/
def State.installJobKey (s : State) (slot generation : Nat) (key : List Byte) : State :=
  let mine := s.sec.jobKeys.filter fun k => k.slot == slot
  let others := s.sec.jobKeys.filter fun k => k.slot != slot
  let newest := mine.foldl (fun n k => max n k.generation) 0
  let kept := mine.filter fun k => k.generation == newest
  let s : State := { s with sec := { s.sec with
    jobKeys := others ++ kept ++ [⟨slot, generation, key⟩]
    generations := Tab.put s.sec.generations slot (generation + 1) } }
  s.settleRelay

/-- The generation is one that exceeds every earlier one of the job. -/
def State.freshGeneration (s : State) (slot generation : Nat) : Bool := decide (Tab.get 0 s.sec.generations slot ≤ generation)

/-! ## SEC_SESSION_OPEN (R501) -/

def sessionOp (p : Packet) : Nat := p.param 0 1
def sessionCount (p : Packet) : Nat := p.param 8 4
def sessionIn (p : Packet) : Nat := p.param 16 8
def sessionOut (p : Packet) : Nat := p.param 24 8

/-- Check 6 of an op that writes `bytes` bytes. -/
def sessionParams (p : Packet) (bytes : Nat) : Option Fail :=
  let op := sessionOp p
  let io := op == 3 || op == 4
  firstFail [need (decide (1 ≤ op) && decide (op ≤ 4)) 64,
    need (if op = 4 then decide (p.param 1 1 ≤ 254) else p.param 1 1 == 0) 65, p.zeros 66 2,
    need (op == 4 || p.param 4 4 == 0xFFFFFFFF) 68,
    need (if op = 3 then sessionCount p == 1
      else if op = 4 then decide (1 ≤ sessionCount p) && decide (sessionCount p ≤ 65536) else sessionCount p == 0) 72,
    p.zeros 76 4, need (io || sessionIn p == 0) 80, need ((op != 1 || sessionOut p == 0) && sessionOut p % 64 == 0) 88,
    need (decide (bytes ≤ p.param 32 8)) 96, p.zeros 104 24]

def State.sessionUses (s : State) (p : Packet) (bytes : Nat) : List Use :=
  (if sessionCount p = 0 then [] else
    [⟨80, ⟨sessionIn p, (s.memberAts (sessionCount p) (sessionIn p)).2 - sessionIn p⟩, false⟩]) ++
    [⟨88, ⟨sessionOut p, bytes⟩, true⟩]

/-- What keeps a new session from starting (R501). -/
def State.sessionBusy (s : State) : Bool :=
  !s.sec.keys.isEmpty || (s.memory.regions.any fun e => e.2.key.isSome) || (s.job.jobs.any fun e => decide (1 < e.2.rankCount)) ||
    !s.relay.qps.isEmpty || s.sec.mode == .attested

/-- A new security session: a new number and KEM key, every pairwise and job key discarded, the state OPEN (R501). -/
def State.newSession (s : State) : State :=
  let s : State := { s with
    sec := { s.sec with session := s.sec.session + 1, kem := s.sec.kem + 1, pairs := [], jobKeys := [], mode := .opened }
    relay := { s.relay with sends := [], recvs := [], flights := [], serials := [], notReady := [] } }
  s.logPlain 5 0 2 (leBytes 8 s.sec.session)

def secSessionOpenNewCommand : Command where
  code := 0x0B01
  lens := fun n => n == 1
  job := .optional
  params := fun _ p => sessionParams p 0
  own := fun s _ => demand (!s.sessionBusy) Status.sessionBusy 64
  effect := fun p s =>
    if s.sec.entropyFault then s.complete p Status.entropyFailed 0 0 0
    else s.newSession.complete p Status.ok 0 0 0

/-- SEC_SESSION_OPEN op NEW (R501), and every op outside 1 to 4. -/
def execSecSessionOpenNew (p : Packet) (s : State) : Host.Outcome State Fault Refusal :=
  .next (if sessionOp p = 2 ∨ sessionOp p = 3 ∨ sessionOp p = 4 then s else secSessionOpenNewCommand.start p s)

def secSessionOpenCertifyCommand : Command where
  code := 0x0B01
  lens := fun n => n == 1
  job := .optional
  params := fun s p => sessionParams p (s.certificate ++ s.chain).length
  uses := fun s p => s.sessionUses p (s.certificate ++ s.chain).length
  security := fun s p => s.openFail (s.sessionUses p (s.certificate ++ s.chain).length)
  effect := fun p s =>
    let out := s.certificate ++ s.chain
    (s.store (sessionOut p) out).complete p Status.ok out.length 0 0

/-- SEC_SESSION_OPEN op CERTIFY (R495, R501). -/
def execSecSessionOpenCertify (p : Packet) (s : State) : Host.Outcome State Fault Refusal :=
  .next (if sessionOp p = 2 then secSessionOpenCertifyCommand.start p s else s)

/-- Refuse a key for a reason of R502. -/
def State.refuseKey (s : State) (p : Packet) (reason : Nat) : State := s.complete p Status.keyRefused reason 0 0

/-- The offer of R497 without its signature. -/
def offerBody (a b sessionA sessionB : Nat) (cipher : List Byte) : List Byte :=
  leBytes 4 0x46524F50 ++ leBytes 4 0 ++ leBytes 2 a ++ leBytes 2 b ++ leBytes 4 0 ++ leBytes 8 sessionA ++
    leBytes 8 sessionB ++ leBytes 32 0 ++ cipher

/-- PAIR_OFFER once the peer's certificate has verified. -/
def State.makeOffer (s : State) (p : Packet) (a : Nat) (cert : List Byte) : State :=
  let b := certModule cert
  let e := kemSeal (certKem cert) s.free
  let key := pairKey e.2 a b s.sec.session (certSession cert)
  let offer := s.signed (offerBody a b s.sec.session (certSession cert) e.1)
  let s := { s with free := s.free + 1 }
  ((s.store (sessionOut p) offer).installPair b key (certSession cert) (certState cert != 0)).complete p Status.ok
    offerLength 0 0

def secSessionOpenPairOfferCommand : Command where
  code := 0x0B01
  lens := fun n => n == 1
  job := .optional
  params := fun _ p => sessionParams p offerLength
  uses := fun s p => s.sessionUses p offerLength
  security := fun s p => s.openFail (s.sessionUses p offerLength)
  effect := fun p s =>
    if s.sec.entropyFault then s.complete p Status.entropyFailed 0 0 0
    else match s.certReason (sessionIn p) with
      | some r => s.refuseKey p r
      | none =>
        let cert := s.memberCert (sessionIn p)
        match s.moduleId with
        | none => s.refuseKey p 5
        | some a => if a < certModule cert ∧ certModule cert ≠ 0xFFFF then s.makeOffer p a cert else s.refuseKey p 5

/-- SEC_SESSION_OPEN op PAIR_OFFER (R495, R501): only the lower-numbered module makes an offer. -/
def execSecSessionOpenPairOffer (p : Packet) (s : State) : Host.Outcome State Fault Refusal :=
  .next (if sessionOp p = 3 then secSessionOpenPairOfferCommand.start p s else s)

/-- The first 64 bytes of a grant (R497). -/
def grantHead (job : Word) (generation member leader memberSession leaderSession : Nat) : List Byte :=
  leBytes 4 0x54524E47 ++ leBytes 4 job.toNat ++ leBytes 1 generation ++ leBytes 3 0 ++ leBytes 2 member ++
    leBytes 2 leader ++ leBytes 4 0 ++ leBytes 8 memberSession ++ leBytes 8 leaderSession ++ leBytes 28 0

/-- A grant of a job key to the member of a certificate, with one draw. -/
def State.grantFor (s : State) (job : Word) (generation : Nat) (key cert : List Byte) (draw : Nat) : List Byte :=
  let e := kemSeal (certKem cert) draw
  let head := grantHead job generation (certModule cert) (s.moduleId.getD 0xFFFF) (certSession cert) s.sec.session
  let w := gcmSeal (wrapKey "SNRL-JOB" e.2 head) zeroIv head key
  s.signed (head ++ e.1 ++ w.1 ++ w.2)

/-- Why a member may not be granted a key of the job (R496). -/
def State.memberReason (s : State) (confidential : Bool) (a : Nat) : Option Nat :=
  match s.certReason a with
  | some r => some r
  | none => if confidential && certState (s.memberCert a) == 0 then some 4 else none

/-- JOB_KEY_ISSUE for an open job (R496): one grant for each member, and the key is held. -/
def State.issueJobKey (s : State) (p : Packet) (slot : Nat) (j : Job) : State :=
  let ats := (s.memberAts (sessionCount p) (sessionIn p)).1
  let generation := p.param 1 1
  if !s.freshGeneration slot generation then s.refuseKey p 5
  else match ats.findSome? fun a => s.memberReason j.confidential a with
    | some r => s.refuseKey p r
    | none =>
      let key := drawBytes s.free 32
      let draws := (List.range ats.length).map fun i => s.free + 1 + i
      let out := (ats.zip draws).flatMap fun x => s.grantFor j.id generation key (s.memberCert x.1) x.2
      let s := { s with free := s.free + 1 + ats.length }
      ((s.store (sessionOut p) out).installJobKey slot generation key).complete p Status.ok (grantLength * ats.length) 0 0

def secSessionOpenJobKeyIssueCommand : Command where
  code := 0x0B01
  lens := fun n => n == 1
  job := .paramOpen 4
  params := fun _ p => sessionParams p (grantLength * sessionCount p)
  uses := fun s p => s.sessionUses p (grantLength * sessionCount p)
  security := fun s p => s.openFail (s.sessionUses p (grantLength * sessionCount p))
  own := fun s p => need ((s.findJob p.job).any fun e => e.2.ranks.contains 0) 68
  effect := fun p s =>
    if s.sec.entropyFault then s.complete p Status.entropyFailed 0 0 0
    else match s.findJob p.job with
      | none => s
      | some (slot, j) => s.issueJobKey p slot j

/-- SEC_SESSION_OPEN op JOB_KEY_ISSUE (R496, R501). -/
def execSecSessionOpenJobKeyIssue (p : Packet) (s : State) : Host.Outcome State Fault Refusal :=
  .next (if sessionOp p = 4 then secSessionOpenJobKeyIssueCommand.start p s else s)

/-! ## SEC_KEY_IMPORT (R491, R495, R496, R502) -/

def importKind (p : Packet) : Nat := p.param 0 1
def importSlot (p : Packet) : Nat := p.param 1 1
def importBlob (p : Packet) : Range := ⟨p.param 8 8, p.param 16 4⟩
def importChain (p : Packet) : Range := if importKind p = 1 then ⟨0, 0⟩ else ⟨p.param 24 8, p.param 32 4⟩
def State.blob (s : State) (p : Packet) : List Byte := s.load (importBlob p).lo (importBlob p).len
def State.blobChain (s : State) (p : Packet) : List Byte := s.load (importChain p).lo (importChain p).len

def importParams (p : Packet) (bytes : Nat) : Option Fail :=
  firstFail [need (decide (1 ≤ importKind p) && decide (importKind p ≤ 3)) 64,
    need (if importKind p = 1 then decide (importSlot p ≤ 15) else importSlot p == 0) 65, p.zeros 66 6,
    need (p.param 16 4 == bytes) 80, p.zeros 84 4, p.zeros 100 28]

def importUses (p : Packet) : List Use :=
  ⟨72, importBlob p, false⟩ :: (if importKind p = 1 then [] else [⟨88, importChain p, false⟩])

/-- An import is refused for a reason, which the ledger notes (R502, R521). -/
def State.refuseImport (s : State) (p : Packet) (reason : Nat) : State :=
  (s.logPlain 5 1 3 (leBytes 1 reason)).refuseKey p reason

/-- Why a key blob is not imported into a slot, or its model key. -/
def State.openBlob (s : State) (slot : Nat) (b : List Byte) : Except Nat ModelKey :=
  let policy := leField b 6 2
  let ss := kemOpen s.sec.kem (slice b 64 1568)
  let head := b.take 64
  if leField b 0 4 ≠ 0x4B4D4C53 ∨ leField b 4 2 ≠ 1 ∨ 4 ≤ policy then .error 1
  else if leField b 24 8 ≠ s.sec.session then .error 2
  else match gcmOpen (wrapKey "SNRL-MODEL" ss head) zeroIv head (slice b 1632 32) (slice b 1664 16) with
    | none => .error 1
    | some key =>
      if (Tab.look s.sec.keys slot).isSome ∨ (s.sec.keys.any fun e => e.2.baseRef == slice b 32 32) then .error 6
      else .ok ⟨slice b 8 16, policy, slice b 32 32, key⟩

def secKeyImportModelKeyCommand : Command where
  code := 0x0B02
  lens := fun n => n == 1
  job := .optional
  params := fun _ p => importParams p blobLength
  uses := fun _ p => importUses p
  security := fun s p =>
    firstFail [demand (s.sec.mode == .attested) Status.notAttested 64, s.openFail (importUses p)]
  effect := fun p s =>
    match s.openBlob (importSlot p) (s.blob p) with
    | .error r => s.refuseImport p r
    | .ok k =>
      let s : State := { s with sec := { s.sec with keys := Tab.put s.sec.keys (importSlot p) k } }
      s.lock.complete p Status.ok 0 0 0

/-- SEC_KEY_IMPORT kind MODEL_KEY (R491, R502), and every kind outside 1 to 3. -/
def execSecKeyImportModelKey (p : Packet) (s : State) : Host.Outcome State Fault Refusal :=
  .next (if importKind p = 2 ∨ importKind p = 3 then s else secKeyImportModelKeyCommand.start p s)

/-- Why an offer is not accepted (R495, R502). -/
def State.offerReason (s : State) (b chain : List Byte) : Option Nat :=
  match signedReason 0x46524F50 b chain with
  | some r => some r
  | none =>
    if s.moduleId ≠ some (leField b 10 2) ∨ leField b 10 2 ≤ leField b 8 2 then some 5
    else if leField b 24 8 ≠ s.sec.session then some 2
    else none

def secKeyImportPairCommand : Command where
  code := 0x0B02
  lens := fun n => n == 1
  job := .optional
  params := fun _ p => importParams p offerLength
  uses := fun _ p => importUses p
  security := fun s p => s.openFail (importUses p)
  effect := fun p s =>
    let b := s.blob p
    match s.offerReason b (s.blobChain p) with
    | some r => s.refuseImport p r
    | none =>
      let ss := kemOpen s.sec.kem (slice b 64 1568)
      let key := pairKey ss (leField b 8 2) (leField b 10 2) (leField b 16 8) (leField b 24 8)
      (s.installPair (leField b 8 2) key (leField b 16 8) false).complete p Status.ok 0 0 0

/-- SEC_KEY_IMPORT kind PAIR (R495, R502): the offer of the lower-numbered module. -/
def execSecKeyImportPair (p : Packet) (s : State) : Host.Outcome State Fault Refusal :=
  .next (if importKind p = 2 then secKeyImportPairCommand.start p s else s)

/-- Why a grant is not accepted, or its job slot and key (R496, R502). -/
def State.openGrant (s : State) (b chain : List Byte) : Except Nat (Nat × List Byte) :=
  match signedReason 0x54524E47 b chain with
  | some r => .error r
  | none =>
    if s.moduleId ≠ some (leField b 12 2) then .error 5
    else if leField b 20 8 ≠ s.sec.session then .error 2
    else
      let head := b.take 64
      let ss := kemOpen s.sec.kem (slice b 64 1568)
      match gcmOpen (wrapKey "SNRL-JOB" ss head) zeroIv head (slice b 1632 32) (slice b 1664 16),
          s.findJob (BitVec.ofNat 32 (leField b 4 4)) with
      | none, _ => .error 1
      | _, none => .error 5
      | some key, some (slot, _) =>
        if leField b 8 1 ≤ 254 ∧ s.freshGeneration slot (leField b 8 1) then .ok (slot, key) else .error 5

def secKeyImportJobKeyCommand : Command where
  code := 0x0B02
  lens := fun n => n == 1
  job := .optional
  params := fun _ p => importParams p grantLength
  uses := fun _ p => importUses p
  security := fun s p => s.openFail (importUses p)
  effect := fun p s =>
    let b := s.blob p
    match s.openGrant b (s.blobChain p) with
    | .error r => s.refuseImport p r
    | .ok (slot, key) => (s.installJobKey slot (leField b 8 1) key).complete p Status.ok 0 0 0

/-- SEC_KEY_IMPORT kind JOB_KEY (R496, R502). -/
def execSecKeyImportJobKey (p : Packet) (s : State) : Host.Outcome State Fault Refusal :=
  .next (if importKind p = 3 then secKeyImportJobKeyCommand.start p s else s)

/-! ## SEC_WEIGHTS_IMPORT and SEC_WEIGHTS_EXPORT (R493, R494, R503) -/

def weightsSrc (p : Packet) : Range := ⟨p.param 8 8, p.param 16 8⟩
def weightsDst (p : Packet) : Range := ⟨p.param 24 8, p.param 32 8⟩
def weightsSlot (p : Packet) : Nat := p.param 4 1

/-- The job named is in state IDLE or HELD, or none is named. -/
def State.weightsJob (s : State) (p : Packet) : Bool :=
  match s.findJob p.job with
  | some (_, j) => j.state == .idle || j.state == .held
  | none => true

/-- A range lies in one region that is bound to the key slot and belongs to the job named, or to no open job. -/
def State.boundTo (s : State) (p : Packet) (r : Range) : Bool :=
  s.memory.regions.any fun e => e.2.key == some (weightsSlot p) && r.inside e.2.range &&
    (if p.job = noJob then !s.jobOpen e.2.owner else e.2.owner == p.job)

def weightsUses (p : Packet) : List Use := [⟨72, weightsSrc p, false⟩, ⟨88, weightsDst p, true⟩]

/-- The plaintext length a package states. -/
def State.packagePlain (s : State) (p : Packet) : Nat := packLength (s.load (weightsSrc p).lo 256)

def secWeightsImportCommand : Command where
  code := 0x0B03
  lens := fun n => n == 1
  job := .param 0
  params := fun s p =>
    firstFail [need (s.weightsJob p) 64, need (decide (weightsSlot p ≤ 15)) 68, need (p.param 5 1 == 0) 69, p.zeros 70 2,
      need (decide (s.packagePlain p ≤ p.param 32 8)) 96, p.zeros 104 24]
  uses := fun _ p => weightsUses p
  security := fun s p =>
    firstFail [demand (s.sec.mode == .attested) Status.notAttested 64, s.openFail [⟨72, weightsSrc p, false⟩]]
  own := fun s p => need (s.boundTo p (weightsDst p)) 88
  unit := 1
  total := fun s p => s.packagePlain p
  effect := fun p s =>
    let d := weightsDst p
    s.orPoisoned p [weightsSrc p] (fun t => t.zero d.lo d.len) fun s =>
      match Tab.look s.sec.keys (weightsSlot p) with
      | none => s
      | some k =>
        let b := s.load (weightsSrc p).lo (weightsSrc p).len
        match openPackage k b with
        | .error i =>
          (s.zero d.lo d.len).complete p Status.packageInvalid i (if i = 0xFFFFFFFFFFFFFFFF then 0 else i * 2 ^ packChunk b) 0
        | .ok plain => ((s.store d.lo plain).bump Reg.secImports 1).complete p Status.ok 0 plain.length plain.length

/-- SEC_WEIGHTS_IMPORT (R493, R503). -/
def execSecWeightsImport (p : Packet) (s : State) : Host.Outcome State Fault Refusal :=
  .next (secWeightsImportCommand.start p s)

def secWeightsExportCommand : Command where
  code := 0x0B04
  lens := fun n => n == 1
  job := .param 0
  params := fun s p =>
    firstFail [need (s.weightsJob p) 64, need (decide (weightsSlot p ≤ 15)) 68,
      need (decide (16 ≤ p.param 5 1) && decide (p.param 5 1 ≤ 24)) 69, p.zeros 70 2,
      need (decide (packageBytes (p.param 16 8) (p.param 5 1) ≤ p.param 32 8)) 96, p.zeros 104 24]
  uses := fun _ p => weightsUses p
  security := fun s p =>
    firstFail [demand (s.sec.mode == .attested) Status.notAttested 64, s.openFail [⟨88, weightsDst p, true⟩],
      demand ((Tab.look s.sec.keys (weightsSlot p)).all fun k => bitOf k.policy 0) Status.keyRefused 5]
  own := fun s p => need (s.boundTo p (weightsSrc p)) 72
  unit := 1
  total := fun _ p => p.param 16 8
  effect := fun p s =>
    let d := weightsDst p
    s.orPoisoned p [weightsSrc p] (fun t => t.scramble d.lo d.len) fun s =>
      match Tab.look s.sec.keys (weightsSlot p) with
      | none => s
      | some k =>
        let plain := s.load (weightsSrc p).lo (weightsSrc p).len
        let b := sealPackage k (drawBytes s.free 32) (p.param 5 1) plain
        let s := { s with free := s.free + 1 }
        ((s.store d.lo b).bump Reg.secExports 1).complete p Status.ok 0 plain.length plain.length

/-- SEC_WEIGHTS_EXPORT (R494, R503). -/
def execSecWeightsExport (p : Packet) (s : State) : Host.Outcome State Fault Refusal :=
  .next (secWeightsExportCommand.start p s)

/-! ## SEC_REGION_PROTECT (R504) -/

def State.protectRegion (s : State) (p : Packet) : Option Region := Tab.look s.memory.regions (p.param 0 4)

def secRegionProtectCommand : Command where
  code := 0x0B05
  lens := fun n => n == 1
  job := .optional
  params := fun s p =>
    firstFail [need ((s.protectRegion p).any fun r => r.key.isNone && !s.jobOpen r.owner) 64,
      need ((Tab.look s.sec.keys (p.param 4 1)).isSome) 68, p.zeros 69 59]
  uses := fun s p => match s.protectRegion p with
    | some r => [⟨64, r.range, true⟩]
    | none => []
  effect := fun p s =>
    match s.protectRegion p with
    | none => s
    | some r =>
      let s : State := { s with memory := { s.memory with
        regions := Tab.put s.memory.regions (p.param 0 4) { r with key := some (p.param 4 1) } } }
      ((s.zero r.base r.size).lock).complete p Status.ok 0 0 0

/-- SEC_REGION_PROTECT (R504). -/
def execSecRegionProtect (p : Packet) (s : State) : Host.Outcome State Fault Refusal :=
  .next (secRegionProtectCommand.start p s)

end Sys2Proof.Machine
end

