-- ==== Sys2Proof/Machine/Attest.lean ====
section
/-! DEFINITION. The SPDM responder, IDE streams and the TDISP interface: rows ENTROPY_HEALTH_FAILURE to
STOP_INTERFACE_REQUEST (R478 to R485). Response and error codes are those of DSP0274 and TDISP. -/

namespace Sys2Proof.Machine

/-- ENTROPY_HEALTH_FAILURE (R478): the fault stays until the next start-up. -/
def execEntropyHealthFailure (s : State) : Host.Outcome State Fault Refusal :=
  .next { s with sec := { s.sec with entropyFault := true } }

/-! ## The responder (R482) -/

/-- Requests over DOE reach the responder once the management processor runs and the link is up. -/
def State.doe (s : State) (f : State → State) : State := if 3 ≤ s.glb.stage ∧ s.glb.linkUp then f s else s

/-- A response, and an ERROR response with its code. -/
def State.respond (s : State) (code : Nat) (body : List Byte) : State := s.emit (.spdm code body)
def State.spdmError (s : State) (code : Nat) : State := s.respond 0x7F (leBytes 1 code)
def spdmInvalid : Nat := 0x01
def spdmUnexpected : Nat := 0x04
def spdmUnspecified : Nat := 0x05
def spdmDecrypt : Nat := 0x06
def spdmSession : Nat := 0x0B

/-- A request that needs negotiated algorithms. -/
def State.negotiated (s : State) (f : State → State) : State :=
  s.doe fun s => if s.sec.spdm = .negotiated then f s else s.spdmError spdmUnexpected

/-- A request inside an established secure session. -/
def State.inSession (s : State) (f : State → State) : State :=
  s.negotiated fun s => if s.sec.secured = 2 then f s else s.spdmError spdmSession

/-- GET_VERSION (R482): version 1.4; it starts the connection again. -/
def execGetVersion (s : State) : Host.Outcome State Fault Refusal :=
  .next (s.doe fun s =>
    State.respond { s with sec := { s.sec with spdm := .version, secured := 0 } } 0x04 (leBytes 1 0x14))

/-- GET_CAPABILITIES (R482). -/
def execGetCapabilities (s : State) : Host.Outcome State Fault Refusal :=
  .next (s.doe fun s =>
    if s.sec.spdm = .version then State.respond { s with sec := { s.sec with spdm := .capabilities } } 0x61 []
    else s.spdmError spdmUnexpected)

/-- NEGOTIATE_ALGORITHMS (R482): `offered`: the requester offers ML-DSA-87, ML-KEM-1024, SHA3-512 and AES-256-GCM. -/
def execNegotiateAlgorithms (offered : Bool) (s : State) : Host.Outcome State Fault Refusal :=
  .next (s.doe fun s =>
    if s.sec.spdm ≠ .capabilities then s.spdmError spdmUnexpected
    else if offered then State.respond { s with sec := { s.sec with spdm := .negotiated } } 0x63 []
    else s.spdmError spdmInvalid)

/-- The digest of the chain of slot 0. -/
def State.chainDigest (s : State) : List Byte := sha3 s.chain

/-- GET_DIGESTS (R482). -/
def execGetDigests (s : State) : Host.Outcome State Fault Refusal :=
  .next (s.negotiated fun s => s.respond 0x01 s.chainDigest)

/-- GET_CERTIFICATE (R482): a part of the chain of slot 0, with the bytes that remain after it. -/
def execGetCertificate (slot off len : Nat) (s : State) : Host.Outcome State Fault Refusal :=
  .next (s.negotiated fun s =>
    let c := s.chain
    if slot ≠ 0 ∨ c.length ≤ off then s.spdmError spdmInvalid
    else
      let part := slice c off (min len (c.length - off))
      s.respond 0x02 (leBytes 4 part.length ++ leBytes 4 (c.length - off - part.length) ++ part))

/-- CHALLENGE (R482): signed by AK over the requester's nonce. -/
def execChallenge (slot : Nat) (nonce : List Byte) (s : State) : Host.Outcome State Fault Refusal :=
  .next (s.negotiated fun s =>
    if slot ≠ 0 then s.spdmError spdmInvalid
    else
      let own := drawBytes s.free 32
      let body := s.chainDigest ++ own ++ s.measurementDigest
      State.respond { s with free := s.free + 1 } 0x03 (body ++ aliasSignature s.sec.measured (nonce ++ body)))

/-- Indices of the measurement blocks (R483). -/
def blockIndices : List Nat := [1, 2, 3, 4, 5, 6, 7, 8, 9, 10, 11]

/-- A block with its index, its form (1 raw, 0 digest) and its length. -/
def State.blockEntry (s : State) (n : Nat) : List Byte :=
  let b := s.block n
  leBytes 1 n ++ leBytes 1 (if [5, 6, 7, 8, 9, 11].contains n then 1 else 0) ++ leBytes 2 b.length ++ b

/-- GET_MEASUREMENTS (R482, R483): index 0 asks for the number of blocks, 255 for all of them. A report with a nonce is
signed by AK over it. -/
def execGetMeasurements (index : Nat) (nonce : Option (List Byte)) (s : State) : Host.Outcome State Fault Refusal :=
  .next (s.negotiated fun s =>
    let wanted := if index = 0 then [] else if index = 255 then blockIndices else blockIndices.filter fun n => n == index
    if index ≠ 0 ∧ wanted = [] then s.spdmError spdmInvalid
    else
      let body := leBytes 1 (if index = 0 then blockIndices.length else wanted.length) ++ wanted.flatMap s.blockEntry
      match nonce with
      | none => s.respond 0x60 body
      | some n =>
        let own := drawBytes s.free 32
        State.respond { s with free := s.free + 1 } 0x60
          (body ++ own ++ aliasSignature s.sec.measured (n ++ own ++ body)))

/-- KEY_EXCHANGE (R482): ML-KEM-1024 to the requester's key; the session then waits for FINISH. -/
def execKeyExchange (key : List Byte) (s : State) : Host.Outcome State Fault Refusal :=
  .next (s.negotiated fun s =>
    if s.sec.entropyFault then s.spdmError spdmUnspecified
    else if s.sec.secured ≠ 0 then s.spdmError spdmUnexpected
    else
      let e := kemSeal key s.free
      State.respond { s with free := s.free + 1, sec := { s.sec with secured := 1 } } 0x64
        (e.1 ++ aliasSignature s.sec.measured e.1))

/-- FINISH (R482): `verified`: the requester's verify data are right. -/
def execFinish (verified : Bool) (s : State) : Host.Outcome State Fault Refusal :=
  .next (s.negotiated fun s =>
    if s.sec.secured ≠ 1 then s.spdmError spdmUnexpected
    else if verified then State.respond { s with sec := { s.sec with secured := 2 } } 0x65 []
    else State.spdmError { s with sec := { s.sec with secured := 0 } } spdmDecrypt)

/-- END_SESSION (R482). -/
def execEndSession (s : State) : Host.Outcome State Fault Refusal :=
  .next (s.inSession fun s => State.respond { s with sec := { s.sec with secured := 0 } } 0x6C [])

/-! ## Vendor-defined messages (R484) -/

/-- A TDISP response, and a TDISP error. -/
def State.tdisp (s : State) (code : Nat) (body : List Byte) : State := s.respond 0x7E (leBytes 1 code ++ body)
def State.tdispError (s : State) (code : Nat) : State := s.tdisp 0x7F (leBytes 4 code)
def tdispBadState : Nat := 0x04
def tdispBadConfig : Nat := 0x104

/-- The streams that are keyed and enabled, as bits. -/
def SecState.liveStreams (x : SecState) : Nat :=
  (if x.stream0.keyed && x.stream0.enabled then 1 else 0) + (if x.stream1.keyed && x.stream1.enabled then 2 else 0)

/-- VENDOR_DEFINED_REQUEST (R482, R484): messages of TDISP and IDE_KM that change nothing. The device interface report
lists BAR0 and BAR2 as TEE MMIO (1) and BAR4 as non-TEE (0). -/
def execVendorDefinedRequest (m : VendorMessage) (s : State) : Host.Outcome State Fault Refusal :=
  .next (s.inSession fun s =>
    match m with
    | .tdispVersion => s.tdisp 0x01 (leBytes 1 0x10)
    | .tdispCapabilities => s.tdisp 0x02 []
    | .tdispReport =>
      if s.sec.tdi = .locked ∨ s.sec.tdi = .run then
        s.tdisp 0x04 (leBytes 1 0 ++ leBytes 1 1 ++ leBytes 1 2 ++ leBytes 1 1 ++ leBytes 1 4 ++ leBytes 1 0)
      else s.tdispError tdispBadState
    | .tdispState => s.tdisp 0x05 (leBytes 1 s.sec.tdi.code)
    | .ideQuery => s.respond 0x7E (leBytes 1 s.sec.liveStreams)
    | .other => s.spdmError spdmInvalid)

/-! ## IDE streams (R484, R485) -/

def SecState.setStream (x : SecState) (n : Nat) (v : IdeStream) : SecState :=
  if n = 0 then { x with stream0 := v } else { x with stream1 := v }
def SecState.stream (x : SecState) (n : Nat) : IdeStream := if n = 0 then x.stream0 else x.stream1

/-- A ledger entry of an IDE or TDI change (R521). -/
def State.noteInterface (s : State) : State :=
  s.logPlain 5 0 4 (leBytes 1 s.sec.tdi.code ++ leBytes 1 s.sec.liveStreams)

/-- IDE_KM_KEY_PROGRAM (R484): keys a selective stream, or enables a keyed one. -/
def execIdeKmKeyProgram (stream : Nat) (go : Bool) (s : State) : Host.Outcome State Fault Refusal :=
  .next (s.inSession fun s =>
    if 2 ≤ stream then s.spdmError spdmInvalid
    else
      let v := s.sec.stream stream
      if go && !v.keyed then s.spdmError spdmInvalid
      else
        let v : IdeStream := if go then ⟨true, true⟩ else ⟨true, v.enabled⟩
        (State.noteInterface { s with sec := s.sec.setStream stream v }).respond 0x7E (leBytes 1 stream))

/-- IDE_STREAM_LOSS (R485): a stream is disabled or loses its keys. When it was the last one while the TDI runs, the TDI
enters ERROR and the module LOCKED. -/
def execIdeStreamLoss (stream : Nat) (s : State) : Host.Outcome State Fault Refusal :=
  .next (
    if 2 ≤ stream then s
    else
      let s : State := { s with sec := s.sec.setStream stream ⟨false, false⟩ }
      if s.sec.tdi = .run ∧ s.sec.liveStreams = 0 then (s.leaveRun .error).noteInterface else s.noteInterface)

/-! ## TDISP (R479, R481, R485) -/

/-- LOCK_INTERFACE_REQUEST (R479): the TDI is CONFIG_LOCKED and the module LOCKED. -/
def execLockInterfaceRequest (s : State) : Host.Outcome State Fault Refusal :=
  .next (s.inSession fun s =>
    if s.sec.tdi ≠ .unlocked then s.tdispError tdispBadState
    else
      let s : State := { s.lock with free := s.free + 1 }
      (State.noteInterface { s with sec := { s.sec with tdi := .locked } }).tdisp 0x03 (drawBytes (s.free - 1) 32))

/-- START_INTERFACE_REQUEST (R485): accepted while a stream is keyed and enabled; the module enters ATTESTED. -/
def execStartInterfaceRequest (s : State) : Host.Outcome State Fault Refusal :=
  .next (s.inSession fun s =>
    if s.sec.tdi ≠ .locked then s.tdispError tdispBadState
    else if s.sec.liveStreams = 0 then s.tdispError tdispBadConfig
    else
      let s := s.lock
      let s : State := { s with sec := { s.sec with tdi := .run, mode := .attested } }
      ((s.logPlain 5 0 1 (leBytes 1 2)).noteInterface).tdisp 0x06 [])

/-- STOP_INTERFACE_REQUEST (R481): the TDI is unlocked; from RUN the module goes to LOCKED. -/
def execStopInterfaceRequest (s : State) : Host.Outcome State Fault Refusal :=
  .next (s.inSession fun s => ((s.leaveRun .unlocked).noteInterface).tdisp 0x07 [])

end Sys2Proof.Machine
end

