-- ==== Sys2Proof/Machine/Integrity.lean ====
section
/-! DEFINITION. Structural tests, the test-fence, the rotation, pattern sets and the integrity commands (R30, R465 to
R471). -/

namespace Sys2Proof.Machine

/-! ## Pattern sets (R465, R468) -/

/-- The pattern set in use: the active half of the test store. -/
def State.patterns (s : State) : List Byte :=
  if s.integrity.patternHalf = 0 then s.integrity.patterns0 else s.integrity.patterns1

/-- Patterns of each unit type with pattern-set version 1. -/
def firstPatterns : Nat → Nat
  | 1 => 48000
  | 2 => 8000
  | 3 => 8000
  | 4 => 6000
  | 5 => 4000
  | 6 => 4096
  | 7 => 6000
  | 8 => 194000
  | _ => 0

/-- The pattern count of a unit type in a pattern set: that of the type's section entry. -/
def setPatterns (b : List Byte) (t : Nat) : Option Nat :=
  ((List.range 8).find? fun i => leField b (64 + 16 * i) 1 == t).map fun i => leField b (68 + 16 * i) 4

/-- Patterns a test of a unit scans. -/
def State.patternsOf (s : State) (unit : Nat) : Nat :=
  let t := unitType unit
  if s.patterns.isEmpty then firstPatterns t else (setPatterns s.patterns t).getD (firstPatterns t)

/-- Layout faults of a pattern-set header (R468): the offset of the first. -/
def patternFault (b : List Byte) (length : Nat) : Option Nat :=
  lowestAt [faultAt (leField b 0 4 == 0x54544150) 0, faultAt (leField b 4 2 == 1) 4, spareAt b 6 2, faultAt (leField b 12 8 == length) 12,
    spareAt b 20 44]

/-- A verified pattern set goes to the inactive half, which becomes the active one. A test that runs completes under the
old set. -/
def State.adoptPatterns (s : State) (b : List Byte) : State :=
  let i := s.integrity
  let v := BitVec.ofNat 32 (leField b 8 4)
  let s := { s with integrity :=
    if i.patternHalf = 0 then { i with patterns1 := b, patternHalf := 1, patternVersion := v }
    else { i with patterns0 := b, patternHalf := 0, patternVersion := v } }
  s.logPlain 3 0 5 (leBytes 4 v.toNat)

/-! ## Requests (R30) -/

/-- The running command a test request belongs to. -/
def State.testOp (s : State) (w : TestFor) : Option RunOp :=
  match w with
  | .rotation => none
  | .command ring era seq => s.running.find? fun o => o.pkt.ring == ring && o.pkt.era == era && o.pkt.seq == seq &&
    match o.kind with
    | .test _ => true
    | .testAll _ _ => true
    | _ => false

/-- A request joins those that wait for the module's test-fence. -/
def State.requestTest (s : State) (unit : Nat) (why : TestFor) (unfence : Bool) : State :=
  { s with integrity := { s.integrity with waiting := s.integrity.waiting ++ [⟨unit, why, unfence, false, []⟩] } }

def Packet.testFor (p : Packet) : TestFor := .command p.ring p.era p.seq

/-- Replace a running command. -/
def State.setOp (s : State) (o n : RunOp) : State :=
  { s with running := s.running.map fun x => if x = o then n else x }

/-- The units of the types of a mask, in ascending unit ID (R469). -/
def maskUnits (mask : Nat) : List Nat := ([1, 2, 3, 4, 5, 6, 7, 8].filter fun t => bitOf mask t).flatMap unitsOf

/-- Patterns of the units of a list. -/
def State.patternTotal (s : State) (l : List Nat) : Nat := l.foldl (fun n u => n + s.patternsOf u) 0

/-- Tests that take turns: any two while a job is open, and two of one type on one die while none is (R30, R466). -/
def State.takeTurns (s : State) (a b : Nat) : Bool :=
  !s.job.jobs.isEmpty || (unitType a == unitType b && unitDie a == unitDie b)

/-- A test request of a command that has not ended. -/
def State.openTests (s : State) (w : TestFor) : List Nat :=
  ((s.integrity.testing ++ s.integrity.waiting).filter fun q => q.why == w).map fun q => q.unit

/-- A pass asks for the tests of the units whose turn has come, in ascending order; a unit under a fault fence is skipped
and its patterns count as done (R469). The answer is the state, the units left and the patterns skipped. -/
def State.askTests (s : State) (w : TestFor) : List Nat → State × List Nat × Nat
  | [] => (s, [], 0)
  | u :: l =>
    if (s.openTests w).any fun v => s.takeTurns v u then
      let r := State.askTests s w l
      (r.1, u :: r.2.1, r.2.2)
    else if s.faultFenced u then
      let r := State.askTests s w l
      (r.1, r.2.1, r.2.2 + s.patternsOf u)
    else State.askTests (s.requestTest u w false) w l

/-- INT_TEST_ALL goes on with its next units, or completes with the count of units that failed (R469). `left`: the units
not yet asked for; `position` counts the patterns done. -/
def State.passOn (s : State) (o : RunOp) (left : List Nat) (failed position : Nat) : State :=
  let r := s.askTests o.pkt.testFor left
  let done := position + r.2.2
  let o' := { o with kind := .testAll r.2.1 failed, position := done }
  let s := r.1.setOp o o'
  if r.2.1.isEmpty ∧ (s.openTests o.pkt.testFor).isEmpty then s.finish o' Status.ok failed else s.advance o.pkt done o.total

/-- A test request has ended: its command completes or goes on. `result`: none where it could not run because bank
entries had no holes (R466). -/
def State.answerTest (s : State) (q : TestReq) (result : Option (Option Nat)) : State :=
  match s.testOp q.why with
  | none => s
  | some o =>
    let patterns := s.patternsOf q.unit
    match o.kind with
    | .testAll left failed =>
      let bad := match result with
        | some (some _) => 1
        | _ => 0
      s.passOn o left (failed + bad) (o.position + patterns)
    | _ =>
      let o' := { o with position := patterns }
      let s := s.setOp o o'
      match result with
      | none => (s.setOp o' o).finish o Status.directoryFull 0
      | some r =>
        if q.unfence && q.struck then s.finish o' Status.unitFenced 0
        else match r with
          | some n => s.finish o' Status.testFail n
          | none => s.finish o' Status.ok 0

/-! ## The test-fence (R30, R466) -/

/-- The unit a test covers, with the four arrays of a cluster. -/
def testedUnits (unit : Nat) : List Nat :=
  if unitType unit = 8 then unit :: (List.range 4).map fun i => unitId 1 (4 * unitIndex unit + i) else [unit]

/-- Work is running on a unit. -/
def State.busy (s : State) (unit : Nat) : Bool :=
  !(Tab.get [] s.graph.units unit).isEmpty ||
  (unitType unit == 2 && s.ingest.programs.any fun e => e.2.run.any fun r => r.started.any fun x => x.2 == unitIndex unit) ||
  (unitType unit == 3 && (s.samples.window0 ++ s.samples.window1).any fun e => e.lane == some (unitIndex unit) && e.result.isNone)

/-- The bank of a directory-bank unit holds entries that the bank which would serve it cannot take. -/
def State.bankStuck (s : State) (unit : Nat) : Bool :=
  if unitType unit ≠ 6 ∨ s.faultFenced unit then false
  else match s.bank (unitIndex unit) with
    | none => false
    | some b => if b.slots.isEmpty then false else match (s.moveTarget (unitIndex unit)).bind s.bank with
      | none => true
      | some t => decide (t.size < t.entries + b.entries)

/-- The bank indices that a bank serves; none for another unit. -/
def State.servedBy (s : State) (unit : Nat) : List Nat :=
  if unitType unit ≠ 6 then []
  else unitIndex unit :: (s.dir.serves.filter fun e => e.2 == unitIndex unit).map fun e => e.1

/-- Before a bank is tested its entries move (R466). -/
def State.clearBank (s : State) (unit : Nat) : State :=
  if unitType unit ≠ 6 ∨ s.faultFenced unit then s else s.moveBank (unitIndex unit)

/-- The request gets the test-fence: its units' work goes on elsewhere, and in confidential mode their storage is cleared
before the scan (R480). -/
def State.beginTest (s : State) (q : TestReq) : State :=
  let us := testedUnits q.unit
  let q := { q with moved := s.servedBy q.unit }
  let s := { s with integrity := { s.integrity with testing := s.integrity.testing ++ [q] } }
  let s := (us.foldl (fun t u => t.evict u) s).clearBank q.unit
  if s.confidential then us.foldl (fun t u => t.clearLocal u) s else s

/-- A request that a fault fence on its unit ends: that of the rotation or of a pass (R467, R469). -/
def State.skipsFenced (s : State) (q : TestReq) : Bool :=
  s.faultFenced q.unit && match s.testOp q.why with
    | some o => match o.kind with
      | .testAll _ _ => true
      | _ => false
    | none => true

/-- The units a request covers run nothing, or the request ends without a test. -/
def State.testFree (s : State) (q : TestReq) : Bool :=
  s.skipsFenced q || s.bankStuck q.unit || (testedUnits q.unit).all fun u => !s.busy u

/-- The request served next: the oldest whose turn has come and whose units are free. `ahead`: the tests that run and the
older requests (R30, R466). -/
def State.nextTest (s : State) : List TestReq → List TestReq → Option TestReq
  | _, [] => none
  | ahead, q :: l =>
    if (ahead.all fun r => !s.takeTurns r.unit q.unit && (testedUnits r.unit).all fun u => !testCovers q.unit u) && s.testFree q
    then some q
    else s.nextTest (ahead ++ [q]) l

/-- TEST_FENCE_START (R30, R466): the waiting request that is served next gets a test-fence. A bank whose entries cannot
move ends the request (R466); a unit now under a fault fence is skipped by the rotation and by a pass (R467, R469). -/
def execTestFenceStart (s : State) : Host.Outcome State Fault Refusal :=
  .next (
    match s.nextTest s.integrity.testing s.integrity.waiting with
    | none => s
    | some q =>
      let taken := { s with integrity := { s.integrity with waiting := s.integrity.waiting.erase q } }
      if s.skipsFenced q then
        match s.testOp q.why with
        | some o => match o.kind with
          | .testAll left failed => (taken.passOn o left failed (o.position + s.patternsOf q.unit)).wake
          | _ => taken
        | none => taken
      else if s.bankStuck q.unit then (taken.answerTest q none).wake
      else taken.beginTest q)

/-- A passing INT_UNFENCE clears the unit's strikes and its fault fence (R469). -/
def State.unfenceUnit (s : State) (unit : Nat) : State :=
  let gone : Fence := if unitType unit = 8 then .cluster (unitIndex unit) else .unit unit
  let s := { s with integrity := { s.integrity with
    strikes := s.integrity.strikes.filter fun k => k.on != Charged.unit unit
    fences := s.integrity.fences.filter fun f => f != gone } }
  (s.log 4 0 4 unit noJob noJob []).remedies

/-- A test failed: the unit stays fenced (R467), and a failing array makes its cluster eligible for a test. -/
def State.failUnit (s : State) (unit pattern : Nat) : State :=
  let s := (s.log 4 2 5 unit noJob noJob (leBytes 8 pattern)).alert 1
  let s := if unitType unit = 1 then
    { s with integrity := { s.integrity with
      eligible := (s.integrity.eligible.filter fun c => c != unitIndex unit / 4) ++ [unitIndex unit / 4] } }
    else s
  if s.faultFenced unit then s
  else s.placeFence (if unitType unit = 8 then .cluster (unitIndex unit) else .unit unit) unit (leBytes 8 pattern)

/-- A test passed: an INT_UNFENCE that no strike met returns the unit; a bank serves its indices again unless a fault
fence holds it. -/
def State.passUnit (s : State) (q : TestReq) : State :=
  let s := s.log 4 0 5 q.unit noJob noJob []
  let s := if unitType q.unit = 8 then
    { s with integrity := { s.integrity with eligible := s.integrity.eligible.filter fun c => c != unitIndex q.unit } }
    else s
  let s := if q.unfence && !q.struck then s.unfenceUnit q.unit else s
  if unitType q.unit = 6 ∧ !s.faultFenced q.unit then s.restoreBank (unitIndex q.unit) q.moved else s

/-- STRUCTURAL_TEST_COMPLETE (R466, R467, R469, R470): the test of a unit ends; `failed` is the first failing pattern, none
where every response agreed. -/
def execStructuralTestComplete (unit : Nat) (failed : Option Nat) (s : State) : Host.Outcome State Fault Refusal :=
  .next (
    match s.integrity.testing.find? fun q => q.unit == unit with
    | none => s
    | some q =>
      let s := { s with integrity := { s.integrity with testing := s.integrity.testing.erase q } }
      let s := (s.bump Reg.intTestsRun 1).bump Reg.intTestsFailed (if failed.isSome then 1 else 0)
      let s := match failed with
        | some n => s.failUnit q.unit n
        | none => s.passUnit q
      (s.answerTest q (some failed)).wake)

/-- ABORT of a test (R469): a request that waits is dropped; a running test ends, and its unit stays under a fault
fence. -/
def State.dropTest (s : State) (w : TestFor) : State :=
  let mine := s.integrity.testing.filter fun q => q.why == w
  let s := { s with integrity := { s.integrity with
    waiting := s.integrity.waiting.filter fun q => q.why != w
    testing := s.integrity.testing.filter fun q => q.why != w } }
  mine.foldl (fun t q => t.placeFence (if unitType q.unit = 8 then .cluster (unitIndex q.unit) else .unit q.unit) q.unit []) s

/-! ## The rotation (R467) -/

/-- The units of the rotation: every unit, and clusters that are eligible. -/
def State.rotationUnits (s : State) : List Nat :=
  ([1, 2, 3, 4, 5, 6, 7].flatMap unitsOf) ++ (unitsOf 8).filter fun u => s.integrity.eligible.contains (unitIndex u)

/-- ROTATION_TEST_DUE (R467): the next unit's test falls due, or that of an observed unit, which comes at one eighth of
the period. A unit under a fault fence is skipped. -/
def execRotationTestDue (watched : Option Nat) (s : State) : Host.Outcome State Fault Refusal :=
  .next (
    match watched with
    | some u =>
      if unitValid u && s.observed u && !s.faultFenced u then s.requestTest u .rotation false else s
    | none =>
      let all := s.rotationUnits
      let next := ((all.find? fun u => decide (s.integrity.rotationNext ≤ u)).or all.head?).getD 0x1000
      let s := { s with integrity := { s.integrity with rotationNext := next + 1 } }
      if s.faultFenced next then s else s.requestTest next .rotation false)

/-! ## Commands (R469) -/

def Packet.unitParam (p : Packet) : Nat := p.param 0 2

/-- A unit ID within R12. -/
def unitKnown (u : Nat) : Bool := decide (1 ≤ unitType u) && decide (unitType u ≤ 8) && unitValid u

def intTestUnitCommand : Command where
  code := 0x0A01
  lens := fun n => n == 1
  job := .optional
  params := fun _ p => firstFail [need (unitKnown p.unitParam) 64, p.zeros 66 62]
  own := fun s p => demand (!s.faultFenced p.unitParam) Status.unitFenced 64
  unit := 5
  total := fun s p => s.patternsOf p.unitParam
  effect := fun p s =>
    (s.enroll p (.test p.unitParam) [] (s.patternsOf p.unitParam)).requestTest p.unitParam p.testFor false

/-- INT_TEST_UNIT (R469): it completes when its test has ended. -/
def execIntTestUnit (p : Packet) (s : State) : Host.Outcome State Fault Refusal := .next (intTestUnitCommand.start p s)

def intTestAllCommand : Command where
  code := 0x0A02
  lens := fun n => n == 1
  job := .optional
  params := fun _ p =>
    firstFail [need (p.param 0 2 % 2 == 0 && decide (p.param 0 2 < 512)) 64, need (decide (p.param 2 2 ≤ 720)) 66, p.zeros 68 60]
  unit := 5
  total := fun s p => if p.param 2 2 = 0 then s.patternTotal (maskUnits (p.param 0 2)) else 0
  effect := fun p s =>
    if p.param 2 2 ≠ 0 then
      ({ s with integrity := { s.integrity with periodHours := p.param 2 2 } }).complete p Status.ok 0 0 0
    else
      let units := maskUnits (p.param 0 2)
      let total := s.patternTotal units
      let s := s.enroll p (.testAll units 0) [] total
      match s.running.getLast? with
      | none => s
      | some o => s.passOn o units 0 0

/-- INT_TEST_ALL (R469): one pass over the types named, or a new rotation period. -/
def execIntTestAll (p : Packet) (s : State) : Host.Outcome State Fault Refusal := .next (intTestAllCommand.start p s)

/-- Units with a live strike, in ascending unit ID (R469). -/
def State.struckUnits (s : State) : List Nat :=
  ([1, 2, 3, 4, 5, 6, 7, 8].flatMap unitsOf).filter fun u => decide (0 < s.liveUnit u)

/-- The remedy code of a unit (R453, R455, R469). -/
def State.remedyCode (s : State) (u : Nat) : Nat :=
  if s.observed u then 4
  else if s.observe then 0
  else match unitType u with
    | 1 => if s.liveUnit u = 0 then 0 else if s.liveUnit u = 1 then 1 else 2
    | 2 => if s.liveUnit u = 0 then 0 else 3
    | 3 => if s.liveUnit u = 0 then 0 else 3
    | 4 => if s.liveUnit u = 0 then 0 else 3
    | _ => 0

/-- A strike record of 16 bytes (R469). -/
def State.strikeRecord (s : State) (u : Nat) : List Byte :=
  let last := (s.integrity.strikes.filter fun k => k.on == .unit u && s.strikeLive k).getLast?
  leBytes 2 u ++ leBytes 1 (min 255 (s.liveUnit u)) ++ leBytes 1 ((last.map fun k => k.cause).getD 0) ++
    leBytes 1 (s.remedyCode u) ++ leBytes 3 0 ++ leBytes 8 ((last.map fun k => k.clock).getD 0)

/-- What INT_STRIKES_QUERY writes: the 64-byte header and the records. -/
def State.strikeReport (s : State) (max_ : Nat) : List Byte :=
  let all := s.struckUnits
  let shown := all.take max_
  leBytes 8 s.integrity.clock ++ leBytes 4 all.length ++ leBytes 4 shown.length ++ leBytes 48 0 ++ shown.flatMap s.strikeRecord

def intStrikesQueryCommand : Command where
  code := 0x0A03
  lens := fun n => n == 1
  job := .optional
  params := fun _ p =>
    firstFail [need (p.param 0 8 % 64 == 0) 64, need (decide (1 ≤ p.param 8 4) && decide (p.param 8 4 ≤ 4096)) 72, p.zeros 76 52]
  uses := fun _ p => [⟨64, ⟨p.param 0 8, 64 + 16 * p.param 8 4⟩, true⟩]
  security := fun s p => s.openFail [⟨64, ⟨p.param 0 8, 64 + 16 * p.param 8 4⟩, true⟩]
  effect := fun p s =>
    (s.store (p.param 0 8) (s.strikeReport (p.param 8 4))).complete p Status.ok (min (p.param 8 4) s.struckUnits.length) 0 0

/-- INT_STRIKES_QUERY (R469). -/
def execIntStrikesQuery (p : Packet) (s : State) : Host.Outcome State Fault Refusal :=
  .next (intStrikesQueryCommand.start p s)

def intFenceCommand : Command where
  code := 0x0A04
  lens := fun n => n == 1
  job := .optional
  params := fun s p =>
    firstFail [need (unitKnown p.unitParam && decide (unitType p.unitParam ≤ 7) &&
      (s.unfenced (unitType p.unitParam)).any fun u => u != p.unitParam) 64, p.zeros 66 62]
  own := fun s p => demand (!s.faultFenced p.unitParam) Status.unitFenced 64
  effect := fun p s => ((s.fenceUnit p.unitParam).complete p Status.ok 0 0 0).wake

/-- INT_FENCE (R469): a fault fence on a unit. -/
def execIntFence (p : Packet) (s : State) : Host.Outcome State Fault Refusal := .next (intFenceCommand.start p s)

def intUnfenceCommand : Command where
  code := 0x0A05
  lens := fun n => n == 1
  job := .optional
  params := fun _ p => firstFail [need (unitKnown p.unitParam) 64, p.zeros 66 62]
  unit := 5
  total := fun s p => s.patternsOf p.unitParam
  effect := fun p s =>
    (s.enroll p (.test p.unitParam) [] (s.patternsOf p.unitParam)).requestTest p.unitParam p.testFor true

/-- INT_UNFENCE (R469): the unit is tested, and returns if it passes. -/
def execIntUnfence (p : Packet) (s : State) : Host.Outcome State Fault Refusal := .next (intUnfenceCommand.start p s)

/-- The image a PATTERN_SET_STAGE packet names. -/
def Packet.patternRange (p : Packet) : Range := ⟨p.param 0 8, p.param 8 4⟩
def State.patternImage (s : State) (p : Packet) : List Byte := s.load (p.param 0 8) (p.param 8 4)

def patternSetStageCommand : Command where
  code := 0x0A06
  lens := fun n => n == 1
  job := .optional
  params := fun s p =>
    firstFail [need (decide (64 + 16 * 8 + 4627 ≤ p.param 8 4) && decide (p.param 8 4 ≤ 2 ^ 28)) 72, p.zeros 76 52,
      if p.patternRange.space.isNone then none
      else (patternFault (s.load (p.param 0 8) 64) (p.param 8 4)).map fun o => ⟨Status.badParam, inStruct 64 o⟩]
  uses := fun _ p => [⟨64, p.patternRange, false⟩]
  security := fun s p => s.openFail [⟨64, p.patternRange, false⟩]
  own := fun s p =>
    firstFail [demand (Config.vendorSigned (s.patternImage p)) Status.imageSignature 64,
      demand (decide (s.integrity.patternVersion.toNat < leField (s.patternImage p) 8 4)) Status.imageVersion 64]
  effect := fun p s =>
    s.orPoisoned p [p.patternRange] (fun t => t) fun s => (s.adoptPatterns (s.patternImage p)).complete p Status.ok 0 0 0

/-- PATTERN_SET_STAGE (R468, R469). -/
def execPatternSetStage (p : Packet) (s : State) : Host.Outcome State Fault Refusal :=
  .next (patternSetStageCommand.start p s)

end Sys2Proof.Machine
end

