-- ==== Sys2Proof/Machine/Records.lean ====
section
/-! DEFINITION. The ledger in flash, its chain and its window: rows LEDGER_FLUSH, LEDGER_READ and LOG_WINDOW_REFILL_DONE (R518
to R523, R534). -/

namespace Sys2Proof.Machine

/-- Bytes 0 to 95 of an entry (R518). -/
def LedgerEntry.head (e : LedgerEntry) (seq : Nat) : List Byte :=
  leBytes 8 seq ++ leBytes 8 e.time ++ leBytes 1 e.cls ++ leBytes 1 e.severity ++ leBytes 2 e.code ++ leBytes 2 e.unit ++
    leBytes 1 (if e.confidential then 1 else 0) ++ leBytes 1 0 ++ leBytes 4 e.job.toNat ++ leBytes 4 e.step.toNat ++
    (e.data ++ List.replicate (64 - e.data.length) 0).take 64

/-- The chain value of an entry after the one before it (R519). -/
def chainNext (c : List Byte) (x : Nat × LedgerEntry) : List Byte := (sha3 (c ++ x.2.head x.1)).take 32

/-- Retained entries with their sequence numbers, those of the buffer included. -/
def Ledger.all (l : Ledger) : List (Nat × LedgerEntry) :=
  l.flash ++ ((List.range l.buffer.length).map (· + l.next)).zip l.buffer

/-- The chain value before the entry with a sequence number. -/
def Ledger.chainBefore (l : Ledger) (seq : Nat) : List Byte :=
  (l.all.filter fun x => decide (x.1 < seq)).foldl chainNext l.base

/-- The 128 bytes of an entry. -/
def Ledger.entryBytes (l : Ledger) (x : Nat × LedgerEntry) : List Byte := x.2.head x.1 ++ chainNext (l.chainBefore x.1) x

/-- Write one entry to flash; the oldest of more than 65,536 goes (R518). -/
def Ledger.program (l : Ledger) (e : LedgerEntry) : Ledger :=
  let l := { l with flash := Tab.put l.flash l.next e, next := l.next + 1 }
  if l.flash.length ≤ 65536 then l
  else match l.flash with
    | [] => l
    | x :: t => { l with flash := t, base := chainNext l.base x, oldest := x.1 + 1 }

/-- LEDGER_FLUSH (R511, R520): buffered entries go to both banks, then the SUPPRESSED entry that stands for INFO entries
which were not buffered is made. -/
def execLedgerFlush (s : State) : Host.Outcome State Fault Refusal :=
  .next (
    let l := s.mgt.ledger
    let l' := l.buffer.foldl Ledger.program { l with buffer := [] }
    let n := l.suppressed
    let s := { s with mgt := { s.mgt with ledger := { l' with suppressed := 0 } } }
    if n = 0 then s else (s.logPlain 8 1 1 (leBytes 4 n)).alert 3)

/-! ## LEDGER_READ (R522, R523) -/

def ledgerCount (p : Packet) : Nat := p.param 8 4
def ledgerSeal (p : Packet) : Bool := bitOf (p.param 12 1) 0
def ledgerBytes (p : Packet) : Nat := 128 * ledgerCount p + if ledgerSeal p then 4755 else 0
def ledgerUses (p : Packet) : List Use := [⟨80, ⟨p.param 16 8, ledgerBytes p⟩, true⟩]

/-- Entries that a LEDGER_READ writes. -/
def State.ledgerShown (s : State) (p : Packet) : List (Nat × LedgerEntry) :=
  (s.mgt.ledger.all.filter fun x => decide (p.param 0 8 ≤ x.1)).take (ledgerCount p)

/-- The seal after the entries (R523). -/
def State.ledgerSealBytes (s : State) (p : Packet) (l : List (Nat × LedgerEntry)) : List Byte :=
  let lo := (l.head?.map fun x => x.1).getD (p.param 0 8)
  let hi := (l.getLast?.map fun x => x.1).getD (lo + 2 ^ 64 - 1)
  let body := leBytes 4 0x4C414553 ++ leBytes 4 0 ++ leBytes 8 lo ++ leBytes 8 hi ++ leBytes 8 s.sec.session ++
    p.paramBytes 32 32 ++ s.mgt.ledger.chainBefore lo ++ s.mgt.ledger.chainBefore (lo + l.length)
  body ++ aliasSignature s.sec.measured body

def ledgerReadCommand : Command where
  code := 0x0C05
  lens := fun n => n == 1
  job := .optional
  params := fun _ p =>
    firstFail [need (decide (1 ≤ ledgerCount p) && decide (ledgerCount p ≤ 65536)) 72, p.spare 76 1, p.zeros 77 3,
      need (p.param 16 8 % 64 == 0) 80, need (decide (ledgerBytes p ≤ p.param 24 8)) 88]
  uses := fun _ p => ledgerUses p
  security := fun s p => s.openFail (ledgerUses p)
  effect := fun p s =>
    let l := s.ledgerShown p
    let out := l.flatMap s.mgt.ledger.entryBytes ++ if ledgerSeal p then s.ledgerSealBytes p l else []
    (s.store (p.param 16 8) out).complete p Status.ok l.length 0 0

/-- LEDGER_READ (R522, R523). -/
def execLedgerRead (p : Packet) (s : State) : Host.Outcome State Fault Refusal := .next (ledgerReadCommand.start p s)

/-! ## The window (R534) -/

/-- LOG_WINDOW_REFILL_DONE: FILLING clears. -/
def execLogWindowRefillDone (s : State) : Host.Outcome State Fault Refusal :=
  .next { s with mgt := { s.mgt with filling := false } }

end Sys2Proof.Machine
end

