-- ==== Sys2Proof/Machine/Time.lean ====
section
/-! DEFINITION. Module time, second boundaries and what they publish, and sensors as they are shown: rows
MGT_TIME_CTRL_WRITE, SECOND_BOUNDARY, PPS_EDGE, PTP_MESSAGE_RECEIVED and REFERENCE_LOST (R499, R513 to R515, R583). -/

namespace Sys2Proof.Machine

/-- The rate of module time without discipline: 2^-32 ns per timer clock cycle at 106.25 MHz. -/
def nominalRate : Nat := 40423221609

/-- One timer clock cycle of module time (R515). -/
def State.advanceTime (s : State) : State :=
  if s.glb.stage < 3 then s
  else
    let t := s.mgt.time * 2 ^ 32 + s.mgt.frac + ((nominalRate : Int) + s.mgt.rate).toNat
    { s with mgt := { s.mgt with time := t / 2 ^ 32 % 2 ^ 64, frac := t % 2 ^ 32 } }

/-- One period of the timer clock: the model's choice for a step with no command waiting. -/
def State.tick (s : State) : State := State.advanceTime { s with clk := s.clk + 1 }

/-! ## Mode (R515) -/

/-- Fields of MGT_TIME_CTRL in force: the mode (3 acts as 0), the port and the domain. -/
def State.timeKind (s : State) : Nat := if s.mgt.timeMode.toNat % 4 = 3 then 0 else s.mgt.timeMode.toNat % 4
def State.timePort (s : State) : Nat := bitsOf s.mgt.timeMode.toNat 4 2
def State.timeDomain (s : State) : Nat := bitsOf s.mgt.timeMode.toNat 15 8

/-- MGT_TIME_CTRL_WRITE (R515): in force from the next second boundary. -/
def execMgtTimeCtrlWrite (v : Word) (tee : Bool) (s : State) : Host.Outcome State Fault Refusal :=
  .next (s.hostAccess tee fun s => { s with mgt := { s.mgt with timeCtrl := v &&& 0xFF1F } })

/-- A rate offset within 500 ppm of the nominal rate, whose value the discipline sets and the spec leaves open. -/
def boundedRate (n : Nat) : Int := (n % 40423221 : Nat) - 20211610

/-- The discipline sets a rate. -/
def State.discipline (s : State) : State :=
  { s with mgt := { s.mgt with rate := boundedRate (Config.freeNat s.free) }, free := s.free + 1 }

/-- PTP_MESSAGE_RECEIVED (R515): message type 0 Sync, 8 Follow_Up, 9 Delay_Resp, 11 Announce; `origin` is the reference's
time that the message gives. Messages of another port or domain are ignored. A Sync is answered with a Delay_Req (1). The
first message that gives a time sets module time; later ones adjust its rate. -/
def execPtpMessageReceived (port domain kind sequence origin : Nat) (s : State) : Host.Outcome State Fault Refusal :=
  .next (
    if s.timeKind = 0 ∨ s.timePort ≠ port ∨ s.timeDomain ≠ domain ∨ s.glb.stage < 9 then s
    else
      let s := if kind = 0 then { s with sent := s.sent ++ [.ptp 1 sequence] } else s
      if kind = 0 ∨ kind = 8 ∨ kind = 9 then
        let set := !s.mgt.locked && !s.mgt.holdover
        let s := s.discipline
        { s with mgt := { s.mgt with
          time := if set then origin % 2 ^ 64 else s.mgt.time
          frac := if set then 0 else s.mgt.frac
          locked := true, holdover := false } }
      else s)

/-- REFERENCE_LOST (R515): the last rate is held. -/
def execReferenceLost (s : State) : Host.Outcome State Fault Refusal :=
  .next (
    if s.timeKind = 0 then s
    else { s with mgt := { s.mgt with holdover := true, locked := false } })

/-- PPS_EDGE (R583): an edge within 1 ms of its expected second is accepted; `off` is its distance in ns. -/
def execPpsEdge (off : Int) (s : State) : Host.Outcome State Fault Refusal :=
  .next (
    if s.timeKind ≠ 2 ∨ 1000000 < off.natAbs then s
    else
      let s := s.discipline
      { s with mgt := { s.mgt with ppsSeen := true, ppsMissed := 0 } })

/-- The PPS part of a second boundary: after three seconds in a row without an accepted edge, HOLDOVER (R583). -/
def State.countPps (s : State) : State :=
  if s.timeKind ≠ 2 then { s with mgt := { s.mgt with ppsSeen := false, ppsMissed := 0 } }
  else
    let n := if s.mgt.ppsSeen then 0 else s.mgt.ppsMissed + 1
    { s with mgt := { s.mgt with ppsSeen := false, ppsMissed := n, holdover := s.mgt.holdover || decide (3 ≤ n) } }

/-- A change of mode takes effect: FREE is not disciplined. -/
def State.applyTimeMode (s : State) : State :=
  if s.mgt.timeMode = s.mgt.timeCtrl then s
  else
    let s := { s with mgt := { s.mgt with timeMode := s.mgt.timeCtrl, locked := false, holdover := false } }
    if s.timeKind = 0 then { s with mgt := { s.mgt with rate := 0 } } else s

/-- Means of the second's samples (R499). -/
def State.meanSamples (s : State) : State :=
  if s.mgt.samples = 0 then s
  else
    let n : Int := (s.mgt.samples : Nat)
    { s with mgt := { s.mgt with means := Tab.mapVal (fun _ v => v / n) s.mgt.sums, sums := [], samples := 0 } }

/-- SECOND_BOUNDARY (R93, R499, R515, R583): counters, progress entries and sensor means are published, and a new time mode
takes effect. -/
def execSecondBoundary (s : State) : Host.Outcome State Fault Refusal :=
  .next (
    let s := s.publish
    let s := { s with shown := s.progress, glb := { s.glb with uptimeS := if s.glb.stage = 10 then s.glb.uptimeS + 1 else s.glb.uptimeS } }
    ((s.meanSamples).countPps).applyTimeMode)

/-! ## Sensors as shown (R499, R513, R514) -/

/-- Kind of a sensor: 1 temperature, 2 voltage, 3 current, 4 power; 0 for an ID above 186. -/
def sensorKind (i : Nat) : Nat :=
  if i ≤ 46 then 1
  else if i = 47 then 2
  else if i = 48 then 3
  else if i = 49 then 4
  else if i ≤ 85 then 2
  else if i ≤ 121 then 3
  else if i ≤ 137 then 2
  else if i ≤ 153 then 3
  else if i ≤ 155 then 2
  else if i ≤ 157 then 3
  else if i = 158 then 2
  else if i = 159 then 3
  else if i ≤ 171 then 2
  else if i ≤ 183 then 3
  else if i ≤ 186 then 4
  else 0

/-- The nearest multiple. -/
def nearest (m x : Int) : Int := (x + m / 2) / m * m

/-- The setpoint in mV that a voltage sensor shows in confidential mode (R514, R560). -/
def State.setpoint (s : State) (i : Nat) : Int :=
  let offset := fun (rail : Nat) => ((Tab.get 0 s.pwr.offsets rail : Nat) : Int)
  if i = 47 then 44000
  else if i ≤ 85 then 750 + offset (i - 50)
  else if i ≤ 137 then 750 + offset (36 + (i - 122))
  else if i ≤ 158 then 800
  else (Config.hbmSetpoint : Nat)

/-- The value of a sensor that a host or a management bus reads. -/
def State.sensorShown (s : State) (i : Nat) : Int :=
  if s.confidential then
    match sensorKind i with
    | 1 => nearest 32 (Tab.get 0 s.mgt.means i)
    | 2 => s.setpoint i
    | 4 => nearest 500 (Tab.get 0 s.mgt.means i)
    | _ => 0
  else Tab.get 0 s.mgt.sensors i

end Sys2Proof.Machine
end

