-- ==== Sys2Proof/Machine/Firmware.lean ====
section
/-! DEFINITION. Firmware images, staging and live activation, MCTP and PLDM, and the JTAG port: rows FW_STAGE, FW_ACTIVATE,
ACTIVATION_STAGE_START, PROCESSOR_READY_TIMEOUT, WAIT_MS_EXPIRY, SET_ENDPOINT_ID to CANCEL_UPDATE and JTAG_ACCESS (R480, R512,
R516, R517, R524 to R531). -/

namespace Sys2Proof.Machine

/-! ## Images (R524, R525) -/

/-- The instruction memory of a component's processor (R508). -/
def componentLimit : Nat → Nat
  | 1 => 2 ^ 21
  | 2 => 2 ^ 22
  | 3 => 2 ^ 20
  | _ => 0

/-- Where a header of a given image length breaks R524: the offset of the first field. -/
def imageFault (b : List Byte) (length : Nat) : Option Nat :=
  let n := leField b 20 4
  let v := fun (i : Nat) => leField b (24 + 4 * i) 4
  let comp := fun (i : Nat) => leField b (64 + 32 * i) 1
  let component := fun (i : Nat) =>
    let c := 64 + 32 * i
    let lo := leField b (c + 4) 4
    let len := leField b (c + 8) 4
    [faultAt (decide (1 ≤ comp i) && decide (comp i ≤ 3) && (List.range i).all fun k => comp k != comp i) c, spareAt b (c + 1) 3,
      faultAt (decide (256 ≤ lo) && decide (lo + 4627 ≤ length)) (c + 4),
      faultAt (decide (len ≤ componentLimit (comp i)) && decide (lo + len + 4627 ≤ length)) (c + 8), spareAt b (c + 12) 4]
  lowestAt ([faultAt (leField b 0 4 == 0x57464E53) 0, faultAt (leField b 4 2 == 1) 4, faultAt (leField b 6 2 == 3) 6,
    faultAt (decide (leField b 12 1 ≤ 64)) 12, faultAt (decide (leField b 13 1 < 2)) 13, spareAt b 14 2,
    faultAt (leField b 16 4 == length) 16, faultAt (decide (1 ≤ n) && decide (n ≤ 8)) 20,
    (firstIdx (fun i => if i < n then decide (0 < i) && decide (v i ≤ v (i - 1)) else v i != 0) 0 (List.range 8)).map fun i => 24 + 4 * i,
    spareAt b 56 8, spareAt b 160 96] ++ [0, 1, 2].flatMap component)

/-- Every component has its digest. -/
def Bank.digestsOk (b : Bank) : Bool :=
  b.image.isEmpty || (List.range 3).all fun i =>
    slice b.image (80 + 32 * i) 16 == (sha3 (b.component (leField b.image (64 + 32 * i) 1))).take 16

def Bank.raises (b : Bank) : Bool := bitOf (leField b.image 13 1) 0

def MgtState.setInactive (m : MgtState) (b : Bank) : MgtState := if m.active = 0 then { m with bankB := b } else { m with bankA := b }
def State.setInactive (s : State) (b : Bank) : State := { s with mgt := s.mgt.setInactive b }

/-- A firmware entry of the ledger: event, version and bank (R521). -/
def State.noteFirmware (s : State) (severity code version bank : Nat) : State :=
  s.logPlain 3 severity code (leBytes 4 version ++ leBytes 1 bank)

/-- Erase and program the inactive bank with an image, read it back and check its digests (R526); false when that fails
and the bank is EMPTY. -/
def State.programBank (s : State) (image : List Byte) : State × Bool :=
  let m := s.mgt
  let b : Bank := { m.inactiveBank with image := image, bootable := true }
  let bad := Config.flashFails s.free || !b.digestsOk
  let s := { s with free := s.free + 1 }
  if bad then (s.setInactive { b with image := [], bootable := false }, false)
  else ((s.setInactive b).noteFirmware 0 1 b.version (1 - m.active), true)

/-- A stage, an activation or a PLDM update is in progress (R526, R533). -/
def State.updateBusy (s : State) : Bool := s.mgt.activation.isSome || s.mgt.pldm != .idle

/-! ## FW_STAGE (R526) -/

def stageSource (p : Packet) : Range := ⟨if p.param 0 1 = 2 then hostWindow + p.param 8 8 else p.param 8 8, p.param 16 4⟩
def State.stageImage (s : State) (p : Packet) : List Byte := s.load (stageSource p).lo (stageSource p).len

def fwStageCommand : Command where
  code := 0x0C02
  lens := fun n => n == 1
  job := .optional
  params := fun s p =>
    firstFail [need (p.param 0 1 == 1 || p.param 0 1 == 2) 64, p.zeros 65 7,
      need (decide (256 + 4627 ≤ p.param 16 4) && decide (p.param 16 4 ≤ 2 ^ 23)) 80, p.zeros 84 44,
      if (stageSource p).space.isNone then none
      else (imageFault (s.load (stageSource p).lo 256) (p.param 16 4)).map fun o => ⟨Status.badParam, inStruct 72 o⟩]
  uses := fun _ p => [⟨72, stageSource p, false⟩]
  overlaps := fun _ p => need (if p.param 0 1 = 1 then (stageSource p).inModule else (stageSource p).inside hostRange) 72
  security := fun s p => s.openFail [⟨72, stageSource p, false⟩]
  own := fun s p =>
    firstFail [demand (Config.vendorSigned (s.stageImage p)) Status.imageSignature 72,
      demand (decide (s.mgt.floor ≤ leField (s.stageImage p) 12 1)) Status.imageVersion 72,
      demand (!s.updateBusy) Status.updateBusy 64]
  unit := 1
  total := fun _ p => p.param 16 4
  effect := fun p s =>
    let empty := fun (t : State) => t.setInactive { t.mgt.inactiveBank with image := [], bootable := false }
    s.orPoisoned p [stageSource p] empty fun s =>
      let r := s.programBank (s.stageImage p)
      if r.2 then r.1.complete p Status.ok 0 (p.param 16 4) (p.param 16 4)
      else r.1.complete p Status.flashFault 0 (p.param 16 4) (p.param 16 4)

/-- FW_STAGE (R526). -/
def execFwStage (p : Packet) (s : State) : Host.Outcome State Fault Refusal := .next (fwStageCommand.start p s)

/-! ## Live activation (R527 to R530) -/

/-- Compute-semantics versions that open jobs, loaded programs and loaded graphs name. -/
def State.versionsNamed (s : State) : List Nat :=
  (s.job.jobs.map fun e => manSemantics e.2.image) ++ (s.ingest.programs.map fun e => imageSemantics e.2.image) ++
    s.graph.graphs.map fun e => graphSemantics e.2.image

/-- The versions named that the staged image does not implement. -/
def State.versionsLeft (s : State) : List Nat :=
  s.versionsNamed.filter fun v => !s.mgt.inactiveBank.semantics.contains v

/-- An activation ends; its command completes. -/
def State.endActivation (s : State) (st : Status) (detail : Nat) : State :=
  let s := { s with mgt := { s.mgt with activation := none } }
  s.finishAll (fun o => o.kind == .activate) st detail

/-- The next stage starts: the command's progress shows the stages completed. -/
def State.enterStage (s : State) (n : Nat) : State :=
  let begun := fun (a : Activation) => { a with stage := n, startedAt := s.clk }
  let s : State := { s with mgt := { s.mgt with activation := s.mgt.activation.map begun } }
  let move := fun (t : State) (o : RunOp) =>
    (t.advance o.pkt (n - 1) 6).setOp o { o with position := n - 1 }
  (s.running.filter fun o => o.kind == .activate).foldl move s

/-- What the start of stages 2 and 3 reads in the inactive bank (R527, R529). -/
def State.checkStaged (s : State) (n : Nat) : State :=
  let b := s.mgt.inactiveBank
  let bad := Config.flashFails s.free || !b.digestsOk || !(b.image.isEmpty || Config.vendorSigned b.image)
  let s := { s with free := s.free + 1 }
  if bad then s.endActivation Status.flashFault 0
  else if !b.image.isEmpty && decide (b.security < s.mgt.floor) then s.endActivation Status.imageVersion 0
  else s.enterStage n

/-- The end of stage 6: bank records, fuses, ledger entry; the inactive bank is the active one (R527). -/
def State.switchBanks (s : State) : State :=
  let m := s.mgt
  let b := m.inactiveBank
  let b' : Bank := { b with count := max m.bankA.count m.bankB.count + 1 }
  let floor := if b.raises then max m.floor b.security else m.floor
  let m' := { m.setInactive b' with active := 1 - m.active, floor := floor, activations := m.activations + 1 }
  let s := State.noteFirmware { s with mgt := m' } 0 2 b.version (1 - m.active)
  if m.floor < floor then s.logPlain 3 0 4 (leBytes 1 floor) else s

def fwActivateCommand : Command where
  code := 0x0C03
  lens := fun n => n == 1
  job := .optional
  params := fun _ p => p.zeros 68 60
  own := fun s _ =>
    firstFail [demand s.mgt.inactiveBank.bootable Status.nothingStaged 64, demand (!s.updateBusy) Status.updateBusy 64]
  unit := 6
  total := fun _ _ => 6
  effect := fun p s =>
    let ms := p.param 0 4
    let a : Activation := ⟨1, if ms = 0 then none else some (s.clk + milliseconds ms), s.clk, false⟩
    State.enroll { s with mgt := { s.mgt with activation := some a } } p .activate [] 6

/-- FW_ACTIVATE (R527): stage 1 begins. -/
def execFwActivate (p : Packet) (s : State) : Host.Outcome State Fault Refusal := .next (fwActivateCommand.start p s)

/-- ACTIVATION_STAGE_START (R527): the stage that runs has done its work and the next starts; stage 2 once no version is
named that the staged image lacks. With stage 6 running it is the end of that stage. -/
def execActivationStageStart (s : State) : Host.Outcome State Fault Refusal :=
  .next (
    match s.mgt.activation with
    | none => s
    | some a =>
      if a.stage = 1 then (if s.versionsLeft = [] then s.checkStaged 2 else s)
      else if a.stage = 2 then s.checkStaged 3
      else if a.stage < 6 then s.enterStage (a.stage + 1)
      else
        let s := s.switchBanks
        let s := { s with mgt := { s.mgt with pldm := if a.pldm then .idle else s.mgt.pldm } }
        s.endActivation Status.ok 0)

/-- PROCESSOR_READY_TIMEOUT (R529): a processor of stage 4, 5 or 6 has not reported ready within 10 ms; every processor
returns to its old memory. -/
def execProcessorReadyTimeout (s : State) : Host.Outcome State Fault Refusal :=
  .next (
    match s.mgt.activation with
    | none => s
    | some a =>
      if a.stage < 4 ∨ s.clk < a.startedAt + milliseconds 10 then s
      else
        let s := s.noteFirmware 1 3 s.mgt.inactiveBank.version (1 - s.mgt.active)
        let s := { s with mgt := { s.mgt with pldm := if a.pldm then .idle else s.mgt.pldm } }
        s.endActivation Status.activationReverted a.stage)

/-- WAIT_MS_EXPIRY (R528): stage 1 still waits; the detail is the lowest version still named. -/
def execWaitMsExpiry (s : State) : Host.Outcome State Fault Refusal :=
  .next (
    match s.mgt.activation with
    | none => s
    | some a =>
      match a.deadline, s.versionsLeft with
      | some d, v :: t =>
        if a.stage = 1 ∧ d ≤ s.clk then s.endActivation Status.semanticsUnavailable (t.foldl min v) else s
      | _, _ => s)

/-! ## MCTP (R516) -/

/-- The management processor answers on its buses. -/
def State.managed (s : State) (f : State → State) : State := if 3 ≤ s.glb.stage then f s else s

def State.answer (s : State) (smbus : Bool) (type command code : Nat) (body : List Byte) : State :=
  { s with sent := s.sent ++ [.mctp (if smbus then 1 else 0) type command code body] }

/-- SET_ENDPOINT_ID (R516): one EID per binding; 0, 1 to 7 and 255 cannot be set. -/
def execSetEndpointId (smbus : Bool) (eid : Nat) (s : State) : Host.Outcome State Fault Refusal :=
  .next (s.managed fun s =>
    if eid < 8 ∨ 254 < eid then s.answer smbus 0 1 2 []
    else
      let m := if smbus then { s.mgt with eidSmbus := eid } else { s.mgt with eidVdm := eid }
      State.answer { s with mgt := m } smbus 0 1 0 (leBytes 1 eid))

/-! ## PLDM types 0 and 2 (R517) -/

/-- PLDM_SENSOR_REQUEST (R517): readings pass the tollgate (R499, R514); polling tells the MGT_ALERTS bits. -/
def execPldmSensorRequest (smbus : Bool) (q : PldmQuery) (s : State) : Host.Outcome State Fault Refusal :=
  .next (s.managed fun s =>
    match q with
    | .discovery c => s.answer smbus 256 c 0 (Config.pldmBody 0 c 0)
    | .reading i =>
      if 187 ≤ i then s.answer smbus 258 0x11 0x80 []
      else s.answer smbus 258 0x11 0 (leBytes 4 (unsignedOf 32 (s.sensorShown i)))
    | .pdr i =>
      if 187 ≤ i then s.answer smbus 258 0x51 0x82 [] else s.answer smbus 258 0x51 0 (Config.pldmBody 2 0x51 i)
    | .poll => s.answer smbus 258 0x0B 0 (leBytes 4 (s.reg Reg.mgtAlerts).toNat))

/-! ## PLDM type 5 (R512, R517) -/

/-- No bank verified: the boot ROM takes one image over SMBus (R512). -/
def State.recovering (s : State) : Bool := s.glb.stage == 1 && s.glb.cause == 1

/-- A PLDM type 5 message reaches its agent. -/
def State.updateAgent (s : State) (smbus : Bool) (f : State → State) : State :=
  if s.recovering then (if smbus then f s else s) else s.managed f

def State.setPldm (s : State) (m : PldmMode) : State := { s with mgt := { s.mgt with pldm := m } }
def pldmNotInUpdate : Nat := 0x80
def pldmAlready : Nat := 0x81
def pldmBadState : Nat := 0x84
def pldmIncomplete : Nat := 0x85

/-- Answer a type 5 command. -/
def State.update5 (s : State) (smbus : Bool) (command code : Nat) (body : List Byte) : State := s.answer smbus 261 command code body

/-- A command of update mode that is accepted in one state only. -/
def State.inMode (s : State) (smbus : Bool) (command : Nat) (m : PldmMode) (f : State → State) : State :=
  s.updateAgent smbus fun s =>
    if s.mgt.pldm = .idle then s.update5 smbus command pldmNotInUpdate []
    else if s.mgt.pldm = m then f s
    else s.update5 smbus command pldmBadState []

/-- REQUEST_UPDATE (R517, R531). -/
def execRequestUpdate (smbus : Bool) (s : State) : Host.Outcome State Fault Refusal :=
  .next (s.updateAgent smbus fun s =>
    if s.updateBusy then s.update5 smbus 0x10 pldmAlready []
    else (s.setPldm .learn).update5 smbus 0x10 0 [])

/-- PASS_COMPONENT_TABLE (R517): the last entry of the table ends the learning of components. -/
def execPassComponentTable (smbus last : Bool) (s : State) : Host.Outcome State Fault Refusal :=
  .next (s.inMode smbus 0x13 .learn fun s =>
    (if last then s.setPldm .readyXfer else s).update5 smbus 0x13 0 [])

/-- UPDATE_COMPONENT (R517): component 1 is a firmware image, 2 a pattern set. -/
def execUpdateComponent (smbus : Bool) (component size : Nat) (s : State) : Host.Outcome State Fault Refusal :=
  .next (s.inMode smbus 0x14 .readyXfer fun s =>
    if component = 1 ∨ (component = 2 ∧ !s.recovering) then
      let m := { s.mgt with component := component, componentSize := size, received := [], pldm := .download }
      State.update5 { s with mgt := m } smbus 0x14 0 (leBytes 1 0)
    else s.update5 smbus 0x14 0 (leBytes 1 1))

/-- REQUEST_FIRMWARE_DATA (R517): the device asks for its next block and takes it in. -/
def execRequestFirmwareData (smbus : Bool) (data : List Byte) (s : State) : Host.Outcome State Fault Refusal :=
  .next (s.updateAgent smbus fun s =>
    let at_ := s.mgt.received.length
    let n := min (if smbus then 256 else 1024) (s.mgt.componentSize - at_)
    if s.mgt.pldm ≠ .download ∨ n = 0 ∨ data.length ≠ n then s
    else State.update5 { s with mgt := { s.mgt with received := s.mgt.received ++ data } } smbus 0x15 0 (leBytes 4 at_ ++ leBytes 4 n))

/-- TRANSFER_COMPLETE (R517). -/
def execTransferComplete (smbus : Bool) (s : State) : Host.Outcome State Fault Refusal :=
  .next (s.updateAgent smbus fun s =>
    if s.mgt.pldm ≠ .download ∨ s.mgt.received.length < s.mgt.componentSize then s
    else (s.setPldm .verify).update5 smbus 0x16 0 (leBytes 1 0))

/-- Why a component is not acceptable: the status that FW_STAGE or PATTERN_SET_STAGE would end with. -/
def State.componentFault (s : State) : Option Status :=
  let b := s.mgt.received
  if s.mgt.component = 1 then
    if 2 ^ 23 < b.length ∨ (imageFault b b.length).isSome then some Status.badParam
    else if !Config.vendorSigned b then some Status.imageSignature
    else if leField b 12 1 < s.mgt.floor then some Status.imageVersion
    else none
  else
    if 2 ^ 28 < b.length ∨ (patternFault b b.length).isSome then some Status.badParam
    else if !Config.vendorSigned b then some Status.imageSignature
    else if leField b 8 4 ≤ s.integrity.patternVersion.toNat then some Status.imageVersion
    else none

/-- VERIFY_COMPLETE (R517): a component that fails goes no further. -/
def execVerifyComplete (smbus : Bool) (s : State) : Host.Outcome State Fault Refusal :=
  .next (s.updateAgent smbus fun s =>
    if s.mgt.pldm ≠ .verify then s
    else match s.componentFault with
      | none => (s.setPldm .apply).update5 smbus 0x17 0 (leBytes 1 0)
      | some c => (s.setPldm .readyXfer).update5 smbus 0x17 0 (leBytes 2 c.toNat))

/-- The boot ROM writes the image to FLASH_A and start-up begins again (R512). -/
def State.recover (s : State) : State :=
  let b : Bank := ⟨s.mgt.bankA.count, true, s.mgt.received⟩
  let f := s.integrity.fences.filter fun x => x != .package
  State.begin { s with
    mgt := { s.mgt with bankA := b, active := 0, pldm := .idle }
    integrity := { s.integrity with fences := f }
    glb := { s.glb with cause := 0 } }

/-- APPLY_COMPLETE (R517): the component is applied as FW_STAGE or PATTERN_SET_STAGE applies it. -/
def execApplyComplete (smbus : Bool) (s : State) : Host.Outcome State Fault Refusal :=
  .next (s.updateAgent smbus fun s =>
    if s.mgt.pldm ≠ .apply then s
    else if s.recovering then s.recover
    else if s.mgt.component = 1 then
      let r := s.programBank s.mgt.received
      (r.1.setPldm .readyXfer).update5 smbus 0x18 0 (leBytes 1 (if r.2 then 0 else 1))
    else ((s.adoptPatterns s.mgt.received).setPldm .readyXfer).update5 smbus 0x18 0 (leBytes 1 0))

/-- ACTIVATE_FIRMWARE (R517): the live activation runs; with no bank staged there is nothing to activate. -/
def execActivateFirmware (smbus : Bool) (s : State) : Host.Outcome State Fault Refusal :=
  .next (s.inMode smbus 0x1A .readyXfer fun s =>
    if s.recovering ∨ !s.mgt.inactiveBank.bootable then s.update5 smbus 0x1A pldmIncomplete []
    else
      let m := { s.mgt with pldm := .activate, activation := some ⟨1, none, s.clk, true⟩ }
      State.update5 { s with mgt := m } smbus 0x1A 0 [])

def PldmMode.code : PldmMode → Nat
  | .idle => 0
  | .learn => 1
  | .readyXfer => 2
  | .download => 3
  | .verify => 4
  | .apply => 5
  | .activate => 6

/-- GET_STATUS (R517). -/
def execGetStatus (smbus : Bool) (s : State) : Host.Outcome State Fault Refusal :=
  .next (s.updateAgent smbus fun s => s.update5 smbus 0x1B 0 (leBytes 1 s.mgt.pldm.code))

/-- CANCEL_UPDATE (R517): update mode ends; an activation that runs goes on. -/
def execCancelUpdate (smbus : Bool) (s : State) : Host.Outcome State Fault Refusal :=
  .next (s.updateAgent smbus fun s =>
    if s.mgt.pldm = .idle then s.update5 smbus 0x1D pldmNotInUpdate []
    else if s.mgt.pldm = .activate then s.update5 smbus 0x1D pldmBadState []
    else State.update5 { s with mgt := { s.mgt with pldm := .idle, received := [] } } smbus 0x1D 0 [])

/-! ## JTAG (R480) -/

/-- JTAG_ACCESS (R480): an access is served, and what it captures is data the spec leaves open. In confidential mode only
EXTEST on the module connector pins is reachable; any other access meets a disconnected chain. -/
def execJtagAccess (extest connector : Bool) (s : State) : Host.Outcome State Fault Refusal :=
  .next (
    if s.confidential && !(extest && connector) then s
    else { s with sent := s.sent ++ [.jtag [Config.freeByte s.free]], free := s.free + 1 })

end Sys2Proof.Machine
end

