-- ==== Sys2Proof/Machine/View.lean ====
section
/-! DEFINITION. What a read of BAR0 returns: the registers of every block, as the host sees them (R72, R100, R101, R132, R166,
R224, R252, R277, R297, R324, R354, R383, R404, R441, R472, R507, R533, R534, R551, R572, R573), confidential mode included
(R499). -/

namespace Sys2Proof.Machine

/-- A word of fields: lowest bit and value of each. -/
def fields : List (Nat × Nat) → Nat
  | [] => 0
  | (lo, v) :: t => v * 2 ^ lo + fields t

def flag (b : Bool) : Nat := if b then 1 else 0

/-- Bits of a map: bit i of word k says whether a test accepts member 32 * k + i of n. -/
def regMap (n k : Nat) (f : Nat → Bool) : Nat :=
  fields (((List.range 32).filter fun i => decide (32 * k + i < n) && f (32 * k + i)).map fun i => (i, 1))

/-- A level of instantaneous activity reads 0 in confidential mode (R499). -/
def State.activity (s : State) (n : Nat) : Nat := if s.tollgate then 0 else n

/-- An event counter as published (R499). -/
def State.counter (s : State) (off : Nat) : Nat := if s.tollgate then Tab.get 0 s.published off else (s.reg off).toNat
/-- A 64-bit event count as published. -/
def State.count64 (s : State) (lo : Nat) : Nat := if s.tollgate then Tab.get 0 s.published lo else Tab.get 0 s.wide lo
/-- A counter that a selector chooses, as published. -/
def State.selected (s : State) (off sel v : Nat) : Nat := if s.tollgate then Tab.get 0 s.published (selKey off sel) else v

def low32 (n : Nat) : Nat := n % 2 ^ 32
def high32 (n : Nat) : Nat := n / 2 ^ 32 % 2 ^ 32

/-- Unfenced units of a type. -/
def State.unfencedCount (s : State) (t : Nat) : Nat := (s.unfenced t).length

/-! ## Each block -/

/-- MAN (R72). -/
def State.readMan (s : State) (off : Nat) : Nat :=
  let n := (s.reg Reg.manJobSel).toNat
  if off = Reg.manJobSel then n
  else match Tab.look s.job.jobs n with
    | none => if off = Reg.manCommittedStep ∨ off = Reg.manSwitchStep then 0xFFFFFFFF else 0
    | some j =>
      let state := match j.state with
        | .idle => 1
        | .running => 2
        | .held => 3
        | .rehosting => 4
      let staged := (j.staged.map fun x => leNat (x.digest.take 8)).getD 0
      if off = Reg.manJobState then
        fields [(16, j.ranks.length), (8, j.attempt), (1, state), (0, flag (j.ranks.contains 0))]
      else if off = Reg.manCommittedStep then low32 (j.next + 0xFFFFFFFF)
      else if off = Reg.manActiveTagLo then low32 (leNat (j.digest.take 8))
      else if off = Reg.manActiveTagHi then high32 (leNat (j.digest.take 8))
      else if off = Reg.manStagedTagLo then low32 staged
      else if off = Reg.manStagedTagHi then high32 staged
      else if off = Reg.manSwitchStep then (j.staged.map fun x => x.step).getD 0xFFFFFFFF
      else if off = Reg.manTagRefused then s.selected off n j.tagRefused.toNat
      else if off = Reg.manStaleAttempt then s.selected off n j.staleAttempt.toNat
      else if off = Reg.manStaleGeneration then s.selected off n j.staleGen.toNat
      else if off = Reg.manReplays then s.selected off n j.replays.toNat
      else 0

/-- CMD (R90, R100). -/
def State.readCmd (s : State) (off : Nat) : Nat :=
  let o := off - 0x100000
  if o = 0 then fields [(12, 1023), (5, 64), (0, 16)]
  else if o = 4 then s.held.length
  else if 0x100 ≤ o ∧ o < 0x500 then
    let r := s.ring ((o - 0x100) / 0x40)
    match (o - 0x100) % 0x40 with
    | 0x00 => r.ctrl.toNat
    | 0x04 => fields [(11, flag r.phase), (8, r.stateCode), (0, r.head)]
    | 0x08 => r.seq.toNat
    | 0x0C => r.retired.toNat
    | 0x10 => r.cqBaseLo.toNat
    | 0x14 => r.cqBaseHi.toNat
    | 0x18 => r.cqSize.toNat
    | 0x1C => r.cqTail
    | 0x20 => r.cqHead.toNat
    | 0x24 => r.cqMod.toNat
    | 0x28 => r.refused.toNat
    | _ => 0
  else if 0x8000 ≤ o ∧ o < 0x8200 then (Tab.get (if o % 16 = 12 then 1 else 0) s.msix (o - 0x8000)).toNat
  else if o = 0x9000 then s.pba.toNat
  else 0

/-- PRG (R101): entries as published (R93). -/
def State.readPrg (s : State) (off : Nat) : Nat :=
  let e := Tab.get Progress.idle s.shown ((off - 0x800000) / 0x40)
  match off % 0x40 with
  | 0x00 => e.seq.toNat
  | 0x04 => fields [(12, e.permille), (4, e.unit), (0, e.state)]
  | 0x08 => fields [(16, e.status.toNat), (0, e.opcode.toNat)]
  | 0x0C => fields [(28, e.ring), (0, e.sequence)]
  | 0x10 => low32 e.handle.toNat
  | 0x14 => high32 e.handle.toNat
  | 0x18 => low32 e.position
  | 0x1C => high32 e.position
  | 0x20 => low32 e.total
  | 0x24 => high32 e.total
  | _ => 0

/-- INT (R472). -/
def State.readInt (s : State) (off : Nat) : Nat :=
  let n := (s.reg Reg.intJobSel).toNat
  let map := fun (t k : Nat) => regMap (unitCount t) k fun i => s.fenced (unitId t i)
  let live := (s.integrity.strikes.filter s.strikeLive).length
  if off = Reg.intCaps then fields [(24, 12), (16, 3), (8, 3), (0, 8)]
  else if off = Reg.intStatus then
    fields [(16, flag s.observe), (8, s.activity (min 255 s.integrity.waiting.length)), (0, flag !s.integrity.testing.isEmpty)]
  else if off = Reg.intTestFenced then match s.integrity.testing with
    | q :: _ => fields [(16, 1), (0, q.unit)]
    | [] => 0
  else if off = Reg.intPatternVersion then s.integrity.patternVersion.toNat
  else if off = Reg.intStepClockLo then low32 s.integrity.clock
  else if off = Reg.intStepClockHi then high32 s.integrity.clock
  else if off = Reg.intRotation then s.integrity.periodHours
  else if 0x300020 ≤ off ∧ off < 0x300034 then map 1 ((off - 0x300020) / 4)
  else if off = Reg.intFenceFeaLo then map 2 0
  else if off = Reg.intFenceFeaHi then map 2 1
  else if off = Reg.intFenceDec then map 3 0
  else if off = Reg.intFenceGat then map 4 0
  else if off = Reg.intFenceSel then map 5 0
  else if off = Reg.intFenceDirLo then map 6 0
  else if off = Reg.intFenceDirHi then map 6 1
  else if off = Reg.intFenceRly then map 7 0
  else if off = Reg.intJobSel then n
  else if off = Reg.intMusterStep then match Tab.look s.job.jobs n with
    | some j => low32 (j.mustered + 0xFFFFFFFF)
    | none => 0xFFFFFFFF
  else if off = Reg.intStrikes then min 0xFFFF live
  else s.counter off

/-- SEC (R507). -/
def State.readSec (s : State) (off : Nat) : Nat :=
  let mode := match s.sec.mode with
    | .opened => 0
    | .locked => 1
    | .attested => 2
  let tdi := match s.sec.tdi with
    | .unlocked => 0
    | .locked => 1
    | .run => 2
    | .error => 3
  let on := fun (x : IdeStream) => flag (x.keyed && x.enabled)
  if off = Reg.secCaps then fields [(24, 16), (16, 2), (8, 1), (0, 4)]
  else if off = Reg.secState then
    fields [(8, tdi), (5, flag s.sec.entropyFault), (4, flag s.confidential), (3, flag s.tollgate), (0, mode)]
  else if off = Reg.secSessionLo then low32 s.sec.session
  else if off = Reg.secSessionHi then high32 s.sec.session
  else if off = Reg.secKeySlots then regMap 16 0 fun i => (Tab.look s.sec.keys i).isSome
  else if off = Reg.secProtected then (s.memory.regions.filter fun e => e.2.key.isSome).length
  else if off = Reg.secIde then fields [(1, on s.sec.stream1), (0, on s.sec.stream0)]
  else if 0x400020 ≤ off ∧ off < 0x400040 then leField s.mgt.fused.idkId (off - 0x400020) 4
  else (s.reg off).toNat

/-- MGT (R533). -/
def State.readMgt (s : State) (off : Nat) : Nat :=
  let m := s.mgt
  let sensor := (s.reg Reg.mgtSensorSel).toNat
  if off = Reg.mgtCaps then fields [(24, 187), (16, 16), (8, 8), (0, 64)]
  else if off = Reg.mgtStatus then
    fields [(24, (m.activation.map fun a => a.stage).getD 0), (19, flag s.updateBusy), (18, flag (m.pldm != .idle)),
      (17, flag m.inactiveBank.bootable), (16, m.active), (8, m.floor), (0, m.activeBank.security)]
  else if off = Reg.mgtFwVersion then m.activeBank.version
  else if off = Reg.mgtInactiveVersion then if m.inactiveBank.bootable then m.inactiveBank.version else 0
  else if off = Reg.mgtSemVersion then m.activeBank.semantics.getD (s.reg Reg.mgtSemSel).toNat 0
  else if off = Reg.mgtSensorValue then if sensorKind sensor = 0 then 0 else unsignedOf 32 (s.sensorShown sensor)
  else if off = Reg.mgtSensorInfo then
    if sensorKind sensor = 0 then 0 else fields [(16, sensorKind sensor), (0, flag (Tab.look m.sensors sensor).isSome)]
  else if off = Reg.mgtMctp then fields [(8, m.eidSmbus), (0, m.eidVdm)]
  else if off = Reg.mgtTimeLo then low32 m.time
  else if off = Reg.mgtTimeHi then m.timeHi.toNat
  else if off = Reg.mgtTimeCtrl then m.timeCtrl.toNat
  else if off = Reg.mgtTimeStatus then fields [(1, flag m.holdover), (0, flag m.locked)]
  else if off = Reg.mgtActivations then low32 m.activations
  else (s.reg off).toNat

/-- Sequence of the newest entry in flash; 0 while there is none. -/
def Ledger.newest (l : Ledger) : Nat := l.next - 1

/-- LOG (R534). -/
def State.readLog (s : State) (off : Nat) : Nat :=
  let m := s.mgt
  if 0x1101000 ≤ off ∧ off < 0x1102000 then
    let seq := m.window + (off - 0x1101000) / 128
    if m.filling then 0
    else match Tab.look m.ledger.flash seq with
      | some e => leField (m.ledger.entryBytes (seq, e)) (off % 128) 4
      | none => 0
  else if off = Reg.logCaps then fields [(24, 32), (16, 7), (0, 16)]
  else if off = Reg.logNewestLo then low32 m.ledger.newest
  else if off = Reg.logNewestHi then m.newestHi.toNat
  else if off = Reg.logOldestLo then low32 m.ledger.oldest
  else if off = Reg.logOldestHi then m.oldestHi.toNat
  else if off = Reg.logStatus then fields [(16, flag m.filling), (0, min 256 m.ledger.buffer.length)]
  else (s.reg off).toNat

/-- The energy reading in Wh (R543). -/
def MirrorState.wattHours (m : MirrorState) : Nat := m.reading.energy / 10

/-- The 16 bytes of an entry of the metrological event log (R548). -/
def MeterEvent.bytes (e : MeterEvent) : List Byte :=
  leBytes 4 e.seq ++ leBytes 4 e.seconds ++ leBytes 6 e.energy ++ leBytes 1 e.code ++ leBytes 1 e.detail

/-- WGH (R551). -/
def State.readWgh (s : State) (off : Nat) : Nat :=
  let m := s.mirror
  let r := m.reading
  if off = Reg.wghStatus then
    fields [(7, flag r.gated), (6, flag r.unsaved), (5, flag r.logFull), (4, flag r.sealOpen), (2, r.state),
      (1, flag (m.seen && decide (m.age ≤ 300))), (0, flag s.metered)]
  else if off = Reg.wghEnergyLo then low32 m.wattHours
  else if off = Reg.wghEnergyHi then m.energyHi.toNat
  else if off = Reg.wghFwVersion then r.fwVersion
  else if off = Reg.wghFwChecksum then r.checksum
  else if off = Reg.wghSerialLo then low32 r.serial
  else if off = Reg.wghSerialHi then high32 r.serial
  else if off = Reg.wghOperatingS then r.seconds
  else if off = Reg.wghPowerUps then r.powerUps
  else if off = Reg.wghLinkAge then m.age
  else if off = Reg.wghLogNewest then r.newest
  else if off = Reg.wghLogCount then r.logCount
  else if 0x600034 ≤ off ∧ off < 0x600044 then match m.entry with
    | some e => leField e.bytes (off - 0x600034) 4
    | none => 0
  else if off = Reg.wghIgnored then r.ignored
  else (s.reg off).toNat

/-- A unit, region or die is fenced, or a pool is empty (R131, R572). -/
def State.degraded (s : State) : Bool :=
  let empty := fun (p : Pool) => decide (32768 ≤ p.pages.length) || decide (32 ≤ p.granules.length)
  !s.integrity.fences.isEmpty || !s.integrity.testing.isEmpty || empty s.memory.pool0 || empty s.memory.pool1

/-- GLB (R572). -/
def State.readGlb (s : State) (off : Nat) : Nat :=
  if off = Reg.glbIdent then fields [(16, 0x8412), (12, s.mgt.fused.build), (8, 1)]
  else if off = Reg.glbStatus then
    fields [(31, flag s.packageFenced), (30, flag s.degraded), (29, flag (s.glb.stage == 10)), (20, s.glb.stage),
      (16, s.glb.cause)]
  else if off = Reg.glbSerialLo then low32 s.mgt.fused.serial
  else if off = Reg.glbSerialHi then high32 s.mgt.fused.serial
  else if off = Reg.glbSlot then s.glb.slotId
  else if off = Reg.glbResetCause then (if s.glb.lastStart = 0 then 0 else 2 ^ s.glb.lastStart) + (s.reg off).toNat
  else if off = Reg.glbStartMs then s.glb.startMs
  else if off = Reg.glbUptimeS then min 0xFFFFFFFF s.glb.uptimeS
  else (s.reg off).toNat

/-- Watts of a power sensor (units of 0.1 W). -/
def State.watts (s : State) (i : Nat) : Nat := (s.sensorShown i / 10).toNat

/-- PWR (R573). -/
def State.readPwr (s : State) (off : Nat) : Nat :=
  let p := s.pwr
  let rail := (s.reg Reg.pwrRailSel).toNat
  if off = Reg.pwrCaps then fields [(20, 2000), (8, 600), (0, 64)]
  else if off = Reg.pwrCap then fields [(16, s.effectiveCap), (0, p.hostCap)]
  else if off = Reg.pwrStatus then
    fields [(30, p.die1), (28, p.die0), (22, flag p.capUnmet), (20, flag p.brk), (19, s.activity (flag p.fastLimit)),
      (18, s.activity (flag p.thermalEngaged)), (17, s.activity (flag (decide (0 < p.capLevel)))), (0, s.activity s.throttle)]
  else if off = Reg.pwrInputW then s.watts 49
  else if off = Reg.pwrAd0W then s.watts 184
  else if off = Reg.pwrAd1W then s.watts 185
  else if off = Reg.pwrPortW then s.watts 186
  else if off = Reg.pwrRailSel then rail
  else if off = Reg.pwrRail then if 51 < rail then 0 else fields [(16, 750 + s.offset rail), (0, s.offset rail)]
  else s.counter off

/-- CNT (R132, R224). -/
def State.readCnt (s : State) (off : Nat) : Nat :=
  let pages := fun (p : Pool) => p.pages.length
  let granules := fun (p : Pool) => p.granules.length
  if off = Reg.cntHbmRetired then pages s.memory.pool0 + pages s.memory.pool1
  else if off = Reg.cntSeraiRetired then granules s.memory.pool0 + granules s.memory.pool1
  else if off = Reg.cntPoolFree then
    fields [(24, 32 - granules s.memory.pool1), (16, 32 - granules s.memory.pool0),
      (8, (32768 - pages s.memory.pool1) / 256), (0, (32768 - pages s.memory.pool0) / 256)]
  else s.counter off

/-- RLY (R441). -/
def State.readRly (s : State) (off : Nat) : Nat :=
  let r := s.relay
  if off = Reg.rlyCaps then fields [(24, 32), (20, 8), (0, 4096)]
  else if off = Reg.rlyStatus then
    fields [(16, (r.local_.map fun l => l.module).getD 0), (15, flag r.local_.isSome),
      (0, regMap 8 0 fun i => r.links.contains i)]
  else if off = Reg.rlyPortMode then (r.local_.map fun l => l.mode).getD 0
  else if off = Reg.rlyQueues then s.unfencedCount 7
  else if off = Reg.rlyTxPktsLo then low32 (s.count64 Reg.rlyTxPktsLo)
  else if off = Reg.rlyTxPktsHi then high32 (s.count64 Reg.rlyTxPktsLo)
  else if off = Reg.rlyRxPktsLo then low32 (s.count64 Reg.rlyRxPktsLo)
  else if off = Reg.rlyRxPktsHi then high32 (s.count64 Reg.rlyRxPktsLo)
  else if off = Reg.rlyQps then r.qps.length
  else s.counter off

/-- The index that DIR_BANK_INFO shows: that of the fenced bank it serves, else its own in its table (R373, R383). -/
def State.bankIndex (s : State) (n table : Nat) : Nat :=
  let own := ((s.dir.serves.find? fun e => e.2 == n).map fun e => e.1).getD n
  (firstIdx (fun x => x == own) 0 (s.tableBanks table (bankDie n))).getD 0

/-- DIR (R383). -/
def State.readDir (s : State) (off : Nat) : Nat :=
  let n := (s.reg Reg.dirBankSel).toNat
  let hot := fun (k : Nat) => ((s.hotEntries 0 ++ s.hotEntries 1).filter fun e => e.state == k).length
  let lost := fun (d : Nat) => flag (s.dir.lost.any fun x => x.2 == d)
  if off = Reg.dirCaps then fields [(24, 64), (12, 2048), (0, 255)]
  else if off = Reg.dirStatus then fields [(16, s.unfencedCount 6), (1, lost 1), (0, lost 0)]
  else if off = Reg.dirBankSel then n
  else if off = Reg.dirBankInfo then
    let fence := flag (s.fenced (unitId 6 n))
    match s.bank n with
    | none => fields [(30, fence)]
    | some b => fields [(31, 1), (30, fence), (28, b.width.log2), (26, b.pitch.log2 - 3), (8, s.bankIndex n b.table), (0, b.table)]
  else if off = Reg.dirBankUse then match s.bank n with
    | none => fields [(16, s.activity 2048)]
    | some b => fields [(16, s.activity (b.size - b.entries)), (0, s.activity b.entries)]
  else if off = Reg.dirHotCopying then hot 1
  else if off = Reg.dirHotReplicated then hot 2
  else if off = Reg.dirHotDraining then hot 3
  else if off = Reg.dirSearchesLo then low32 (s.count64 Reg.dirSearchesLo)
  else if off = Reg.dirSearchesHi then high32 (s.count64 Reg.dirSearchesLo)
  else s.counter off

/-- FEA (R166). -/
def State.readFea (s : State) (off : Nat) : Nat :=
  let n := (s.reg Reg.feaProgSel).toNat
  let slot := Tab.look s.ingest.programs n
  let busy := fun (k : Nat) => s.activity (regMap 64 k fun i => s.busyLanes.contains i)
  if off = Reg.feaCaps then fields [(16, 8), (8, 64), (0, 64)]
  else if off = Reg.feaStatus then fields [(8, s.unfencedCount 2), (0, s.programsRunning)]
  else if off = Reg.feaLaneBusyLo then busy 0
  else if off = Reg.feaLaneBusyHi then busy 1
  else if off = Reg.feaProgSel then n
  else if off = Reg.feaProgState then match slot with
    | none => 0
    | some g => fields [(16, imageNodes g.image), (8, imagePasses g.image), (4, (g.run.map fun r => r.pass).getD 0),
        (0, if g.run.isSome then 2 else 1)]
  else if off = Reg.feaStripesDone then
    s.selected off n ((slot.bind fun g => g.run.map fun r => r.stripes).getD 0)
  else if off = Reg.feaIngestRowsLo then low32 (s.count64 Reg.feaIngestRowsLo)
  else if off = Reg.feaIngestRowsHi then high32 (s.count64 Reg.feaIngestRowsLo)
  else s.counter off

/-- SMP (R252, R277). -/
def State.readSmp (s : State) (off : Nat) : Nat :=
  let window := fun (l : List WindowEntry) => fields [(16, s.activity l.length), (0, s.activity (flag (decide (4096 ≤ l.length))))]
  let all := s.samples.window0 ++ s.samples.window1
  if off = Reg.smpCaps then fields [(16, 4096), (8, 32), (0, 16)]
  else if off = Reg.smpStatus then fields [(8, s.unfencedCount 3), (0, s.samples.datasets.length)]
  else if off = Reg.smpLaneBusy then s.activity (regMap 32 0 fun i => all.any fun e => e.lane == some i && e.result.isNone)
  else if off = Reg.smpWindowAd0 then window s.samples.window0
  else if off = Reg.smpWindowAd1 then window s.samples.window1
  else if off = Reg.smpSamplesLo then low32 (s.count64 Reg.smpSamplesLo)
  else if off = Reg.smpSamplesHi then high32 (s.count64 Reg.smpSamplesLo)
  else if off = Reg.smpImgCaps then fields [(17, 16384), (9, 65), (0, 256)]
  else if off = Reg.smpCorrLoaded then s.samples.sets.length
  else if off = Reg.smpPixelsLo then low32 (s.count64 Reg.smpPixelsLo)
  else if off = Reg.smpPixelsHi then high32 (s.count64 Reg.smpPixelsLo)
  else s.counter off

/-- Batches bound to SUPERSEDED versions of a slice (R345, R354). -/
def State.boundSuperseded (s : State) (key : Nat) : Nat :=
  match s.embSlice key with
  | none => 0
  | some x =>
    let olds := (x.versions.filter fun v => v.state == .superseded).map fun v => v.number
    let hits := fun (l : List (Nat × Nat)) => l.any fun b => b.1 == key && olds.contains b.2
    (s.graph.runs.filter fun e => hits e.2.bound).length + (s.emb.gathers.filter fun e => e.2.run.isNone && hits e.2.bound).length

/-- GAT (R354). -/
def State.readGat (s : State) (off : Nat) : Nat :=
  let sel := (s.reg Reg.gatTableSel).toNat
  let table := sel % 1024
  let key := 64 * table + sel / 1024
  let slice := s.embSlice key
  let staged := Tab.look s.emb.staged table
  if off = Reg.gatCaps then fields [(16, 64), (8, 12), (0, 32)]
  else if off = Reg.gatStatus then fields [(16, s.emb.slices.length), (8, s.unfencedCount 4)]
  else if off = Reg.gatTableSel then sel
  else if off = Reg.gatTableState then match slice with
    | none => 0
    | some x => fields [(13, x.group.log2), (9, flag staged.isSome), (8, flag x.hot), (0, x.versions.length)]
  else if off = Reg.gatCurVersion then ((slice.bind Slice.current).map fun v => v.number).getD 0
  else if off = Reg.gatStagedVersion then (staged.map fun x => x.1).getD 0
  else if off = Reg.gatSwitchStep then (staged.map fun x => x.2).getD 0xFFFFFFFF
  else if off = Reg.gatBoundBatches then s.boundSuperseded key
  else if off = Reg.gatReadsHbmLo then low32 (s.count64 Reg.gatReadsHbmLo)
  else if off = Reg.gatReadsHbmHi then high32 (s.count64 Reg.gatReadsHbmLo)
  else if off = Reg.gatReadsSeraiLo then low32 (s.count64 Reg.gatReadsSeraiLo)
  else if off = Reg.gatReadsSeraiHi then high32 (s.count64 Reg.gatReadsSeraiLo)
  else s.counter off

/-- SEL (R404). -/
def State.readSel (s : State) (off : Nat) : Nat :=
  if off = Reg.selCaps then fields [(16, 4096), (8, 24), (0, 8)]
  else if off = Reg.selStatus then
    fields [(8, s.unfencedCount 5), (0, s.activity (regMap 8 0 fun i => !(s.entries (unitId 5 i)).isEmpty))]
  else if off = Reg.selRowsLo then low32 (s.count64 Reg.selRowsLo)
  else if off = Reg.selRowsHi then high32 (s.count64 Reg.selRowsLo)
  else s.counter off

/-- ACTIVITY of an array: 4 TEST, else what its oldest task is: 2 VECTOR for a VECTOR task, 1 TILE for another. -/
def State.arrayActivity (s : State) (unit : Nat) : Nat :=
  if s.testFenced unit then 4
  else match (s.entries unit).head? with
    | none => 0
    | some e => if (s.taskRecord e.1 e.2.1).type = 2 then 2 else 1

/-- The level of the next task to be admitted on a die, for the running graph of the lowest slot (R324). -/
def State.headLevel (s : State) (die : Nat) : Nat :=
  let l := s.graph.runs.map fun e => e.2
  let best := l.foldl (fun (acc : Option GraphRun) g => match acc with
    | none => some g
    | some b => if g.slot < b.slot then some g else some b) none
  match best with
  | none => 0
  | some g => match s.admissionHead g die with
    | none => 0
    | some t => (graphTask (s.runImage g) t).level

/-- ARR (R297, R324). -/
def State.readArr (s : State) (off : Nat) : Nat :=
  let n := (s.reg Reg.arrSel).toNat
  let u := unitId 1 n
  let tiles := s.selected Reg.arrTilesLo n (Tab.get 0 s.graph.tiles n)
  let ms := fun (d : Nat) => s.activity (fields [(16, s.headLevel d), (0, s.graph.runs.foldl (fun k e => k + s.slotsHeld e.2 d) 0)])
  let ready := fun (d : Nat) => s.activity ((List.range 8).foldl (fun k i => k + (Tab.get [] s.graph.ready (d * 8 + i)).length) 0)
  if off = Reg.arrCaps then fields [(24, 128), (16, 144), (8, 128), (0, 8)]
  else if off = Reg.arrSel then n
  else if off = Reg.arrState then
    if 143 < n then 0
    else fields [(12, s.divider u), (9, flag (s.divider u != 8)), (8, flag (s.fenced u)), (0, s.activity (s.arrayActivity u))]
  else if off = Reg.arrTilesLo then if 143 < n then 0 else low32 tiles
  else if off = Reg.arrTilesHi then if 143 < n then 0 else high32 tiles
  else if 0x1000020 ≤ off ∧ off < 0x1000034 then regMap 144 ((off - 0x1000020) / 4) fun i => s.divider (unitId 1 i) != 8
  else if off = Reg.arrMsAd0 then ms 0
  else if off = Reg.arrMsAd1 then ms 1
  else if off = Reg.arrReadyAd0 then ready 0
  else if off = Reg.arrReadyAd1 then ready 1
  else if off = Reg.arrGraphs then fields [(8, s.graph.graphs.length), (0, s.graph.runs.length)]
  else s.counter off

/-- The 32-bit value that a host reads at an offset of BAR0. Offsets outside the blocks read 0. -/
def State.readReg (s : State) (off : Nat) : Nat :=
  match off / 0x100000 with
  | 0x0 => s.readGlb off
  | 0x1 => s.readCmd off
  | 0x2 => s.readMan off
  | 0x3 => s.readInt off
  | 0x4 => s.readSec off
  | 0x5 => s.readMgt off
  | 0x6 => s.readWgh off
  | 0x7 => s.readPwr off
  | 0x8 => if off < 0x810000 then s.readPrg off else 0
  | 0x9 => s.readCnt off
  | 0xA => s.readRly off
  | 0xB => s.readDir off
  | 0xC => s.readFea off
  | 0xD => s.readSmp off
  | 0xE => s.readGat off
  | 0xF => s.readSel off
  | 0x10 => s.readArr off
  | 0x11 => s.readLog off
  | _ => 0

end Sys2Proof.Machine
end

