-- ==== Sys2Proof/Machine/Control.lean ====
section
/-! DEFINITION. NOP and ABORT (R94, R95), and host accesses to registers that no other row writes or reads: rows
REGISTER_WRITE, LOG_WINDOW_SEQ_WRITE and LATCHING_REGISTER_READ (R8, R90, R100, R499, R534). -/

namespace Sys2Proof.Machine

/-! ## NOP (R94) -/

def nopCommand : Command where
  code := 0x0C00
  lens := fun n => n == 0
  job := .optional
  params := fun _ _ => none
  effect := fun p s => s.complete p Status.ok 0 0 0

/-- NOP. -/
def execNop (p : Packet) (s : State) : Host.Outcome State Fault Refusal := .next (nopCommand.start p s)

/-! ## ABORT (R95) -/

def abortHandle (p : Packet) : DWord := BitVec.ofNat 64 (p.param 0 8)
/-- The rings an ABORT names. -/
def abortNames (p : Packet) (ring : Nat) : Bool := bitOf (p.param 8 1) 7 || p.param 8 1 % 16 == ring

/-- Abort a STEP_RUN: the running one runs no step after its current one; a queued one ends, and those behind it are out of
order. The answer says whether the packet is aborted. -/
def State.abortStep (s : State) (slot : Nat) (o : RunOp) : State × Bool :=
  match Tab.look s.job.jobs slot with
  | none => (s, false)
  | some j => match firstIdx (fun r => r.pkt == o.pkt) 0 j.runs with
    | none => (s, false)
    | some 0 =>
      if j.runs.head?.any (fun r => r.aborted) then (s, false)
      else (s.setJob slot { j with runs := setAt j.runs 0 fun r => { r with aborted := true } }, true)
    | some n =>
      let t := (s.setJob slot { j with runs := j.runs.take n }).finish o Status.aborted 0
      ((j.runs.drop (n + 1)).foldl (fun u r => u.endStepRun r Status.stepOrder 0) t, true)

/-- Abort a GRAPH_RUN: nothing more is admitted, and granted tasks finish (R321). -/
def State.abortGraph (s : State) (run : Nat) (o : RunOp) : State × Bool :=
  if o.aborted then (s, false)
  else (((s.setOp o { o with aborted := true }).onGraphRun run fun g => { g with stopped := true }).settleRun run, true)

/-- Abort a live activation in its stages 1 to 3 (R528). -/
def State.abortActivation (s : State) : State × Bool :=
  match s.mgt.activation with
  | some a => if a.stage ≤ 3 then (s.endActivation Status.aborted (a.stage - 1), true) else (s, false)
  | none => (s, false)

/-- Abort one running command; a short operation completes normally (R95). -/
def State.abortOp (s : State) (o : RunOp) : State × Bool :=
  if !s.running.contains o then (s, false)
  else match o.kind with
    | .stepRun slot => s.abortStep slot o
    | .fprogStart slot => ((s.endProgram slot Status.aborted o.position).startQueued, true)
    | .exchange _ => (s.failExchange o Status.aborted o.position, true)
    | .batchPrepare k => (s.sampleFault (.batch k) 0 Status.aborted o.position, true)
    | .graphRun run => s.abortGraph run o
    | .test _ => (((s.dropTest o.pkt.testFor).finish o Status.aborted o.position).wake, true)
    | .testAll _ _ => (((s.dropTest o.pkt.testFor).finish o Status.aborted o.position).wake, true)
    | .activate => s.abortActivation
    | .regionRelease _ _ _ | .jobClose _ | .tableRelease _ | .fprogUnload _ | .graphUnload _ | .embGather _ | .embDestroy _
    | .relayPost _ | .capSet _ => (s, false)

/-- Abort every packet that an ABORT names: those that run, the latest start first, then those that have not started. -/
def State.abortAll (s : State) (p : Packet) : State × Nat :=
  let hit := fun (q : Packet) => q.handle == abortHandle p && abortNames p q.ring
  let r := ((s.running.filter fun o => hit o.pkt).reverse).foldl (fun (acc : State × Nat) o =>
    let t := acc.1.abortOp o
    (t.1, if t.2 then acc.2 + 1 else acc.2)) (s, 0)
  let staged := (List.range 16).flatMap fun n => (s.ring n).staged.filter hit
  (staged.foldl (fun t q => t.abortStaged q) r.1, r.2 + staged.length)

def abortCommand : Command where
  code := 0x0C01
  lens := fun n => n == 1
  job := .optional
  params := fun _ p => firstFail [need (bitsOf (p.param 8 1) 6 4 == 0) 72, p.zeros 73 55]
  effect := fun p s =>
    let r := s.abortAll p
    r.1.complete p (if r.2 = 0 then Status.noTarget else Status.ok) r.2 0 0

/-- ABORT may start: it does not wait behind earlier packets of its own ring where it names that ring. -/
def State.abortReady (s : State) (p : Packet) : Bool :=
  let r := s.ring p.ring
  (if abortNames p p.ring then r.staged.contains p else r.staged.head? == some p) &&
    s.waitMet p && s.fenceMet p && r.stateCode != 3 && !s.commandHeld

/-- ABORT. -/
def execAbort (p : Packet) (s : State) : Host.Outcome State Fault Refusal :=
  .next (
    if p.opcode ≠ abortCommand.code || !s.abortReady p then s
    else if s.stageRuns p [] then (abortCommand.run p s).settle
    else if s.startFault then (s.unstage p).fallDue (s.recordOf p Status.unitFenced 0)
    else s)

/-! ## Register writes (R8) -/

/-- A write to a ring register that has no row of its own (R100). -/
def State.writeRingReg (s : State) (n o : Nat) (v : Word) : State :=
  let r := s.ring n
  match o with
  | 0x00 => if bitOf v.toNat 0 == r.enabled then s.writeCtrl n v else s
  | 0x18 => s.setRing n { r with cqSize := v &&& 0x1F }
  | 0x24 => (s.setRing n { r with cqMod := v &&& 0xFFFF01FF }).moderate n false
  | 0x28 => s.setRing n { r with refused := r.refused &&& ~~~v }
  | _ => s

/-- A write to the MSI-X table: unmasking a vector that is pending raises it (R90). -/
def State.writeMsix (s : State) (o : Nat) (v : Word) : State :=
  let n := o / 16
  let s := { s with msix := Tab.put s.msix o v }
  if o % 16 = 12 ∧ bitOf v.toNat 0 = false ∧ bitOf s.pba.toNat n then
    { s with pba := s.pba &&& ~~~(BitVec.ofNat 32 (2 ^ n)), irqs := s.irqs ++ [n] }
  else s

/-- Blocks whose event counters the tollgate publishes: writes to them are ignored in confidential mode (R499, R573). -/
def tollgated (off : Nat) : Bool := [0x2, 0x3, 0x7, 0x9, 0xA, 0xB, 0xC, 0xD, 0xE, 0xF, 0x10].contains (off / 0x100000)

/-- A write of 1s to a counter of the job that MAN_JOB_SEL selects (R72). -/
def State.clearJobCounter (s : State) (off : Nat) (v : Word) : State :=
  s.onJob (s.reg Reg.manJobSel).toNat fun j =>
    if off = Reg.manTagRefused then { j with tagRefused := j.tagRefused &&& ~~~v }
    else if off = Reg.manStaleAttempt then { j with staleAttempt := j.staleAttempt &&& ~~~v }
    else if off = Reg.manStaleGeneration then { j with staleGen := j.staleGen &&& ~~~v }
    else j

/-- A write to a register: RW fields take the value, RW1C bits written 1 clear, and RO registers are unchanged (R8). -/
def State.writeReg (s : State) (off : Nat) (v : Word) : State :=
  if 0x100100 ≤ off ∧ off < 0x100500 then s.writeRingReg ((off - 0x100100) / 0x40) ((off - 0x100100) % 0x40) v
  else if 0x108000 ≤ off ∧ off < 0x108200 then s.writeMsix (off - 0x108000) v
  else match Tab.look (Reg.selectors.filter fun e => e.1 == off) off with
    | some mask => s.setReg off (v &&& BitVec.ofNat 32 mask)
    | none =>
      if s.confidential && tollgated off then s
      else match Tab.look (Reg.clearable.filter fun e => e.1 == off) off with
        | some mask => s.setReg off (s.reg off &&& ~~~(v &&& BitVec.ofNat 32 mask))
        | none => s.clearJobCounter off v

/-- REGISTER_WRITE: a 32-bit write to an offset of BAR0. -/
def execRegisterWrite (off : Nat) (v : Word) (tee : Bool) (s : State) : Host.Outcome State Fault Refusal :=
  .next (s.hostAccess tee fun s => if off % 4 = 0 then s.writeReg off v else s)

/-- LOG_WINDOW_SEQ_WRITE (R534): the window shows the entries from the sequence that the two registers hold, once it is
refilled. -/
def execLogWindowSeqWrite (v : Word) (tee : Bool) (s : State) : Host.Outcome State Fault Refusal :=
  .next (s.hostAccess tee fun s =>
    let s := s.setReg Reg.logWindowSeqLo v
    { s with mgt := { s.mgt with
      filling := true
      window := v.toNat + 2 ^ 32 * (s.reg Reg.logWindowSeqHi).toNat } })

/-! ## Latching reads (R515, R534, R551) -/

/-- A read of a LO register latches its HI half. -/
def State.latch (s : State) (off : Nat) : State :=
  let hi := fun (n : Nat) => BitVec.ofNat 32 (high32 n)
  if off = Reg.mgtTimeLo then { s with mgt := { s.mgt with timeHi := hi s.mgt.time } }
  else if off = Reg.logNewestLo then { s with mgt := { s.mgt with newestHi := hi s.mgt.ledger.newest } }
  else if off = Reg.logOldestLo then { s with mgt := { s.mgt with oldestHi := hi s.mgt.ledger.oldest } }
  else if off = Reg.wghEnergyLo then { s with mirror := { s.mirror with energyHi := hi s.mirror.wattHours } }
  else s

/-- LATCHING_REGISTER_READ: a read that the device does not take returns all ones (R484). -/
def execLatchingRegisterRead (off : Nat) (tee : Bool) (s : State) : Host.Outcome State Fault Refusal :=
  .next (
    if !s.mmioOpen || s.teeBlocked tee then { s with hostRead := leBytes 4 0xFFFFFFFF }
    else State.latch { s with hostRead := leBytes 4 (s.readReg off) } off)

end Sys2Proof.Machine
end

