-- ==== Sys2Proof/Machine/DirCommands.lean ====
section
/-! DEFINITION. Commands and events of the key directory: DIR_BANK_CONFIG, DIR_INSERT, DIR_DELETE, DIR_SEARCH, DIR_COMPACT,
DIR_HOT_PROMOTE, DIR_HOT_DEMOTE, HOT_ROW_COPY_COMPLETE and DRAIN_EPOCH_DRAINED (R364 to R381, R208). -/

namespace Sys2Proof.Machine

/-- A running program probes a directory table: commands that change its entries wait (R208). -/
def State.probed (s : State) (table : Nat) : Bool :=
  s.ingest.programs.any fun e => e.2.run.isSome && (probedTables e.2.image).contains table

/-- The dies of a mask. -/
def maskDies (m : Nat) : List Nat := [0, 1].filter fun d => bitOf m d

/-- Entries of a table on a die. -/
def State.entriesOn (s : State) (table die : Nat) : Nat :=
  ((s.tableBanks table die).filterMap s.bank).foldl (fun n b => n + b.entries) 0

/-! ## DIR_BANK_CONFIG (R375) -/

def configTable (p : Packet) : Nat := p.param 2 2
def configClear (p : Packet) : Bool := bitOf (p.param 5 1) 0

/-- The bank's entries after CLEAR. -/
def State.bankLeft (s : State) (p : Packet) : Nat :=
  match s.bank (p.param 0 1) with
  | none => 0
  | some b => if configClear p then 0 else b.entries

/-- Nothing but the pitch changes. -/
def State.onlyPitch (s : State) (p : Packet) : Bool :=
  match s.bank (p.param 0 1) with
  | none => false
  | some b => b.table == configTable p && b.width == p.param 1 1 && b.hashKey == BitVec.ofNat 64 (p.param 8 8)

/-- Entries of a table on a die, leaving out what CLEAR would delete of this bank. -/
def State.othersLeft (s : State) (p : Packet) (table : Nat) : Nat :=
  let n := p.param 0 1
  let own := match s.bank n with
    | some b => if b.table = table then b.entries else 0
    | none => 0
  s.entriesOn table (bankDie n) - own + (if own = 0 then 0 else s.bankLeft p)

/-- The first other bank of the new table on the die. -/
def State.sibling (s : State) (p : Packet) : Option DirBank :=
  ((s.tableBanks (configTable p) (bankDie (p.param 0 1))).filter fun x => x != p.param 0 1).head?.bind s.bank

def dirBankConfigCommand : Command where
  code := 0x0701
  lens := fun n => n == 1
  job := .optional
  params := fun s p =>
    let hot := configTable p == hotTable
    let held := match s.bank (p.param 0 1) with
      | some b => b.table == hotTable && b.entries != 0
      | none => false
    lowestFail [need (decide (p.param 0 1 ≤ 63)) 64,
      need ([1, 2, 4].contains (p.param 1 1) && (!hot || p.param 1 1 == 1)) 65,
      need (decide (configTable p ≤ 255) || configTable p == 0xFFFF) 66, need ([8, 16, 32].contains (p.param 4 1)) 68,
      need (decide (p.param 5 1 < 2) && !(configClear p && held)) 69, p.zeros 70 2,
      need (!hot || p.param 8 8 == 0) 72, p.zeros 80 48]
  own := fun s p =>
    let n := p.param 0 1
    let old := match s.bank n with
      | some b => some b.table
      | none => none
    let moves := old != (if configTable p = 0xFFFF then none else some (configTable p))
    let agree := match s.sibling p with
      | some b => b.width == p.param 1 1 && b.hashKey == BitVec.ofNat 64 (p.param 8 8)
      | none => true
    firstFail [need (!s.fenced (unitId 6 n)) 64, need (s.bankLeft p == 0 || s.onlyPitch p) 69,
      need (!moves || (old.all (fun t => s.othersLeft p t == 0) && s.othersLeft p (configTable p) == 0)) 66,
      need (configTable p == 0xFFFF || agree) 65]
  ready := fun s p =>
    !(s.bankLeft p == 0 && (match s.bank (p.param 0 1) with
      | some b => b.entries != 0 && s.probed b.table
      | none => false))
  effect := fun p s =>
    let n := p.param 0 1
    let keep := match s.bank n with
      | some b => if configClear p then [] else b.slots
      | none => []
    let serves := if s.onlyPitch p then s.dir.serves else (Tab.del s.dir.serves n).filter fun e => e.2 != n
    let banks :=
      if configTable p = 0xFFFF then Tab.del s.dir.banks n
      else Tab.put s.dir.banks n
        ⟨configTable p, p.param 1 1, p.param 4 1, BitVec.ofNat 64 (p.param 8 8), keep⟩
    let s := { s with dir := { s.dir with banks := banks, serves := serves } }
    let lost := s.dir.lost.filter fun x => !(s.tableBanks x.1 x.2).isEmpty
    (({ s with dir := { s.dir with lost := lost } } : State).dropReplicas).complete p Status.ok 0 0 0

/-- DIR_BANK_CONFIG. -/
def execDirBankConfig (p : Packet) (s : State) : Host.Outcome State Fault Refusal := .next (dirBankConfigCommand.start p s)

/-! ## DIR_INSERT and DIR_DELETE (R376, R377) -/

def listTable (p : Packet) : Nat := p.param 0 2
def listDies (p : Packet) : List Nat := maskDies (p.param 2 1)
def listCount (p : Packet) : Nat := p.param 4 4
def listRange (p : Packet) (size : Nat) : Range := ⟨p.param 8 8, size * listCount p⟩

/-- Record i of a list. -/
def State.dirRecord (s : State) (p : Packet) (i : Nat) : List Byte := s.load (p.param 8 8 + 64 * i) 64
def recordKey (r : List Byte) (w : Nat) : List DWord := (List.range w).map fun i => BitVec.ofNat 64 (leField r (8 * i) 8)
def recordEntry (r : List Byte) (w : Nat) : DirEntry :=
  ⟨recordKey r w, leField r 32 8 % 2 ^ 48, leField r 40 1, 128 + leField r 41 1 * 4, 0, false, 0⟩

/-- The first fault in a record for an entry width. -/
def recordFault (r : List Byte) (w : Nat) : Option Nat :=
  lowestAt [spareAt r (8 * w) (32 - 8 * w), spareAt r 38 2, faultAt (decide (leField r 41 1 < 32)) 41, spareAt r 42 22]

/-- The width the records are read with: that of the table's banks on the lowest named die that has some. -/
def State.listWidth (s : State) (p : Packet) : Nat :=
  ((listDies p).findSome? fun d => s.tableShape (listTable p) d).elim 4 fun x => x.1

/-- The first record at fault. -/
def State.recordsFault (s : State) (p : Packet) : Option Fail :=
  let w := s.listWidth p
  if (listRange p 64).space.isNone then none
  else ((List.range (listCount p)).findSome? fun i => (recordFault (s.dirRecord p i) w).map fun o => 64 * i + o).map fun o =>
    ⟨Status.badParam, inStruct 72 o⟩

/-- Every named die has banks of the table, a power of two of them. -/
def State.banksThere (s : State) (p : Packet) : Bool :=
  (listDies p).all fun d => isPow2 (s.tableBanks (listTable p) d).length

def listParams (flagBits : Nat) (s : State) (p : Packet) : Option Fail :=
  firstFail [lowestFail [need (decide (listTable p ≤ 254)) 64, need (within (p.param 2 1) 1 3) 66,
    need (decide (p.param 3 1 < 2 ^ flagBits)) 67, need (within (listCount p) 1 65536) 68,
    need (p.param 8 8 % 64 == 0) 72, p.zeros 80 48], s.recordsFault p]

/-- Insert records on one die from index i on; the count inserted, and the index that found no hole. -/
def State.insertAll (s : State) (p : Packet) (die w : Nat) : Nat → Nat → State × Nat × Option Nat
  | 0, _ => (s, 0, none)
  | k + 1, i =>
    match s.dirInsert (listTable p) die (recordEntry (s.dirRecord p i) w) with
    | none => (s.bump Reg.dirFullRefused 1, 0, some i)
    | some t =>
      let r := State.insertAll t p die w k (i + 1)
      (r.1, r.2.1 + 1, r.2.2)

/-- Insert on the dies in order: the total, and the die and index of a full bank. -/
def State.insertDies (s : State) (p : Packet) (w : Nat) : List Nat → State × Nat × Option (Nat × Nat)
  | [] => (s, 0, none)
  | d :: t =>
    let r := s.insertAll p d w (listCount p) 0
    match r.2.2 with
    | some i => (r.1, r.2.1, some (d, i))
    | none =>
      let q := State.insertDies r.1 p w t
      (q.1, r.2.1 + q.2.1, q.2.2)

def dirInsertCommand : Command where
  code := 0x0702
  lens := fun n => n == 1
  job := .optional
  params := listParams 0
  uses := fun _ p => [⟨72, listRange p 64, false⟩]
  overlaps := fun _ p => need (listRange p 64).inModule 72
  security := fun s p => s.openFail [⟨72, listRange p 64, false⟩]
  own := fun s p => need (s.banksThere p) 64
  ready := fun s p => !s.probed (listTable p)
  effect := fun p s =>
    s.orPoisoned p [listRange p 64] id fun s =>
      let r := s.insertDies p (s.listWidth p) (listDies p)
      match r.2.2 with
      | some (d, i) => r.1.complete p Status.directoryFull (d * 2 ^ 32 + i) 0 0
      | none => r.1.complete p Status.ok r.2.1 0 0

/-- DIR_INSERT. -/
def execDirInsert (p : Packet) (s : State) : Host.Outcome State Fault Refusal := .next (dirInsertCommand.start p s)

/-- Delete the records' entries on one die; how many there were. -/
def State.deleteAll (s : State) (p : Packet) (w : Nat) (die : Nat) : State × Nat :=
  let byPriority := bitOf (p.param 3 1) 0
  (List.range (listCount p)).foldl (fun r i =>
    let x := recordEntry (r.1.dirRecord p i) w
    let q := r.1.dirDelete (listTable p) die x.key fun e => !byPriority || e.priority == x.priority
    (q.1, r.2 + q.2)) (s, 0)

def dirDeleteCommand : Command where
  code := 0x0703
  lens := fun n => n == 1
  job := .optional
  params := listParams 1
  uses := fun _ p => [⟨72, listRange p 64, false⟩]
  overlaps := fun _ p => need (listRange p 64).inModule 72
  security := fun s p => s.openFail [⟨72, listRange p 64, false⟩]
  own := fun s p => need (s.banksThere p) 64
  ready := fun s p => !s.probed (listTable p)
  effect := fun p s =>
    s.orPoisoned p [listRange p 64] id fun s =>
      let r := (listDies p).foldl (fun (r : State × Nat) d =>
        let q := r.1.deleteAll p (s.listWidth p) d
        (q.1, r.2 + q.2)) (s, 0)
      r.1.complete p Status.ok r.2 0 0

/-- DIR_DELETE. -/
def execDirDelete (p : Packet) (s : State) : Host.Outcome State Fault Refusal := .next (dirDeleteCommand.start p s)

/-! ## DIR_SEARCH (R378) -/

/-- The 16 bytes of a result. -/
def Found.bytes (f : Found) : List Byte :=
  match f.winner with
  | none => leBytes 16 0
  | some (_, e) =>
    leBytes 6 e.value ++ leBytes 1 e.priority ++ leBytes 1 e.flags ++ leBytes 2 (min f.matched 65535) ++ leBytes 1 1 ++ leBytes 5 0

def searchResults (p : Packet) : Range := ⟨p.param 16 8, 16 * listCount p⟩

def dirSearchCommand : Command where
  code := 0x0704
  lens := fun n => n == 1
  job := .optional
  params := fun _ p =>
    lowestFail [need (decide (listTable p ≤ 255)) 64, need (decide (p.param 2 1 ≤ 1)) 66, p.zeros 67 1,
      need (within (listCount p) 1 65536) 68, p.zeros 88 40]
  uses := fun _ p => [⟨72, listRange p 32, false⟩, ⟨80, searchResults p, true⟩]
  overlaps := fun _ p => clashFail [listRange p 32] [⟨80, searchResults p, true⟩]
  security := fun s p => s.openFail [⟨72, listRange p 32, false⟩, ⟨80, searchResults p, true⟩]
  effect := fun p s =>
    let die := p.param 2 1
    let t := listTable p
    if s.dirLost t die then s.complete p Status.directoryLost t 0 0
    else s.orPoisoned p [listRange p 32] (fun u => u.scramble (searchResults p).lo (searchResults p).len) fun s =>
      let w := ((s.tableShape t die).elim 1 fun x => x.1)
      let v := s
      let r := (List.range (listCount p)).foldl (fun (r : State × Nat) i =>
        let f := v.dirFind t die (recordKey (v.load (p.param 8 8 + 32 * i) 32) w)
        ((r.1.countSearch f).store (p.param 16 8 + 16 * i) f.bytes, r.2 + (if f.winner.isSome then 1 else 0))) (s, 0)
      r.1.complete p Status.ok r.2 0 0

/-- DIR_SEARCH. -/
def execDirSearch (p : Packet) (s : State) : Host.Outcome State Fault Refusal := .next (dirSearchCommand.start p s)

/-! ## DIR_COMPACT (R379) -/

/-- The banks to compact in ascending number. -/
def State.compactBanks (s : State) (p : Packet) : List Nat := (listDies p).flatMap fun d => s.tableBanks (listTable p) d
def State.compactTotal (s : State) (p : Packet) : Nat :=
  ((s.compactBanks p).filterMap s.bank).foldl (fun n b => n + b.shifts) 0

def dirCompactCommand : Command where
  code := 0x0705
  lens := fun n => n == 1
  job := .optional
  params := fun _ p =>
    lowestFail [need (decide (listTable p ≤ 255)) 64, need (within (p.param 2 1) 1 3) 66, p.zeros 67 61]
  ready := fun s p => !s.probed (listTable p)
  unit := 0
  total := fun s p => s.compactTotal p
  effect := fun p s =>
    let n := s.compactTotal p
    let t := (s.compactBanks p).foldl (fun (u : State) b => match u.bank b with
      | some x => (u.setBank b x.compact).bump Reg.dirStolen x.shifts
      | none => u) s
    t.complete p Status.ok 0 n n

/-- DIR_COMPACT. -/
def execDirCompact (p : Packet) (s : State) : Host.Outcome State Fault Refusal := .next (dirCompactCommand.start p s)

/-! ## Hot rows (R367 to R372, R380, R381) -/

def hotSliceKey (p : Packet) : Nat := 64 * p.param 0 2 + p.param 2 1
def hotRows (p : Packet) : Range := ⟨p.param 8 8, 8 * listCount p⟩
/-- Row n of the list, wrapped under R122, and whether it wrapped. -/
def State.hotRow (s : State) (p : Packet) (x : Slice) (n : Nat) : Nat × Bool :=
  let i := signedOf 64 (s.loadNat (p.param 8 8 + 8 * n) 8)
  (wrapIndex i x.rows, decide (i ≠ (wrapIndex i x.rows : Int)))

/-- Replica ranges by die; a die with address 0 is skipped. -/
def replicaRange (p : Packet) (width die : Nat) : Range :=
  let a := p.param (16 + 8 * die) 8
  ⟨a, if a = 0 then 0 else width * listCount p⟩
def promoteDies (p : Packet) : List Nat := [0, 1].filter fun d => p.param (16 + 8 * d) 8 != 0
def State.promoteWidth (s : State) (p : Packet) : Nat := (s.embSlice (hotSliceKey p)).elim 0 Slice.width

/-- The slice of a hot command is held, with HOT. -/
def State.hotSliceFail (s : State) (p : Packet) : Option Fail :=
  firstFail [need (decide (p.param 0 2 ≤ 1023)) 64,
    need (decide (p.param 2 1 < 64) && (s.embSlice (hotSliceKey p)).any fun x => x.hot) 66]

/-- Promote one row on a die; a row that is not HOME there is skipped. -/
def State.promoteRow (s : State) (p : Packet) (x : Slice) (vslot die n : Nat) : Option (State × Nat) :=
  let row := (s.hotRow p x n).1
  let key := [hotKey (p.param 0 2) (p.param 2 1) row]
  if (s.dirFind hotTable die key).winner.isSome then some (s, 0)
  else
    let a := p.param (16 + 8 * die) 8 + n * x.width
    let e : DirEntry := ⟨key, (a - seraiBase die) / 64, 0, hotFlags false false vslot false 1, 0, false, 0⟩
    (s.dirInsert hotTable die e).map fun t => (t, 1)

def State.promoteAll (s : State) (p : Packet) (x : Slice) (vslot die : Nat) : Nat → Nat → State × Nat × Option Nat
  | 0, _ => (s, 0, none)
  | k + 1, n =>
    match s.promoteRow p x vslot die n with
    | none => (s.bump Reg.dirFullRefused 1, 0, some n)
    | some (t, c) =>
      let r := State.promoteAll t p x vslot die k (n + 1)
      (r.1, r.2.1 + c, r.2.2)

def State.promoteOn (s : State) (p : Packet) (x : Slice) (vslot : Nat) : List Nat → State × Nat × Option (Nat × Nat)
  | [] => (s, 0, none)
  | d :: t =>
    let r := s.promoteAll p x vslot d (listCount p) 0
    match r.2.2 with
    | some i => (r.1, r.2.1, some (d, i))
    | none =>
      let q := State.promoteOn r.1 p x vslot t
      (q.1, r.2.1 + q.2.1, q.2.2)

/-- Wrapped rows of a list count as index vectors of class GATHER (R123). -/
def State.countRows (s : State) (p : Packet) (x : Slice) : State :=
  s.bump Reg.cntWrapGather ((List.range (listCount p)).filter fun n => (s.hotRow p x n).2).length

def dirHotPromoteCommand : Command where
  code := 0x0706
  lens := fun n => n == 1
  job := .optional
  params := fun s p =>
    let w := s.promoteWidth p
    let one := fun d =>
      let r := replicaRange p w d
      need (r.len == 0 || (r.inside (seraiRange d) && r.lo % 64 == 0)) (80 + 8 * d)
    lowestFail [s.hotSliceFail p, p.zeros 67 1, need (within (listCount p) 1 65536) 68,
      need (p.param 16 8 != 0 || p.param 24 8 != 0) 80, one 0, one 1, p.zeros 96 32]
  uses := fun s p =>
    ⟨72, hotRows p, false⟩ :: [0, 1].map fun d => ⟨80 + 8 * d, replicaRange p (s.promoteWidth p) d, true⟩
  overlaps := fun s p =>
    clashFail [hotRows p] ([0, 1].map fun d => ⟨80 + 8 * d, replicaRange p (s.promoteWidth p) d, true⟩)
  security := fun s p => s.openFail [⟨72, hotRows p, false⟩]
  own := fun s p =>
    let x := s.embSlice (hotSliceKey p)
    let clean := fun d => need (!s.protectedHit (replicaRange p (s.promoteWidth p) d)) (80 + 8 * d)
    firstFail [need (x.any fun y => y.current.isSome) 64, clean 0, clean 1,
      need ((promoteDies p).all fun d => isPow2 (s.tableBanks hotTable d).length) 80]
  effect := fun p s =>
    match s.embSlice (hotSliceKey p) with
    | none => s
    | some x => match x.current with
      | none => s
      | some v =>
        s.orPoisoned p [hotRows p] id fun s =>
          let s := s.countRows p x
          let hide := s.protectedHit ⟨v.base, v.size⟩
          let s := (promoteDies p).foldl (fun t d => t.guard .replica (hotSliceKey p) (replicaRange p x.width d) hide) s
          let r := s.promoteOn p x v.vslot (promoteDies p)
          let t := r.1.dropReplicas
          match r.2.2 with
          | some (d, i) => t.complete p Status.directoryFull (d * 2 ^ 32 + i) 0 0
          | none => t.complete p Status.ok r.2.1 0 0

/-- DIR_HOT_PROMOTE. -/
def execDirHotPromote (p : Packet) (s : State) : Host.Outcome State Fault Refusal := .next (dirHotPromoteCommand.start p s)

/-- Demote one row on a die (R368, R371, R374): a COPYING entry is deleted, a REPLICATED one drains at the next commit or,
outside jobs, at once, and a DRAINING one loses REBUILD. It answers the entries affected. -/
def State.demoteRow (s : State) (x : Slice) (key : DWord) (die : Nat) : State × Nat :=
  match (s.dirFind hotTable die [key]).winner with
  | none => (s, 0)
  | some (_, e) =>
    let s := s.bump Reg.dirStolen 1
    if e.state = 1 then ((s.dirDelete hotTable die [key] fun _ => true).1, 1)
    else
      let free := s.sliceFree x
      let ep := if die = 0 then s.dir.epoch0 else s.dir.epoch1
      let s := s.mapHot die fun y =>
        if y.key ≠ [key] then some y
        else if y.state = 2 then
          some (if free then { y with flags := hotFlags y.copied false y.vslot y.dirty 3, epoch := ep } else { y with demoted := true })
        else some { y with flags := hotFlags y.copied false y.vslot y.dirty 3 }
      let d := if e.state = 2 ∧ free then
          (if die = 0 then { s.dir with epoch0 := ep + 1 } else { s.dir with epoch1 := ep + 1 })
        else s.dir
      ({ s with dir := d }, 1)

def dirHotDemoteCommand : Command where
  code := 0x0707
  lens := fun n => n == 1
  job := .optional
  params := fun s p =>
    lowestFail [s.hotSliceFail p, p.zeros 67 1, need (within (listCount p) 1 65536) 68, p.zeros 80 48]
  uses := fun _ p => [⟨72, hotRows p, false⟩]
  security := fun s p => s.openFail [⟨72, hotRows p, false⟩]
  effect := fun p s =>
    match s.embSlice (hotSliceKey p) with
    | none => s
    | some x =>
      s.orPoisoned p [hotRows p] id fun s =>
        let s := s.countRows p x
        let go := fun (r : State × Nat) (d : Nat) => (List.range (listCount p)).foldl (fun (r : State × Nat) n =>
          let q := r.1.demoteRow x (hotKey (p.param 0 2) (p.param 2 1) (r.1.hotRow p x n).1) d
          (q.1, r.2 + q.2)) r
        let r := [0, 1].foldl go (s, 0)
        r.1.dropReplicas.complete p Status.ok r.2 0 0

/-- DIR_HOT_DEMOTE. -/
def execDirHotDemote (p : Packet) (s : State) : Host.Outcome State Fault Refusal := .next (dirHotDemoteCommand.start p s)

/-- A gather unit has copied the home row of a COPYING entry: COPIED is set, and for a slice outside jobs the entry
becomes REPLICATED at once (R370). -/
def State.hotCopied (s : State) (die sliceKey row : Nat) : State :=
  let mine := fun (e : DirEntry) => e.sliceKey == sliceKey && e.row == row && e.state == 1 && !e.copied
  match (s.hotEntries die).find? mine, s.embSlice sliceKey with
  | some e, some x =>
    let s := (s.copyHot die e).bump Reg.dirStolen 1
    s.mapHot die fun y =>
      if !mine y then some y
      else some { y with flags := hotFlags true y.rebuild y.vslot y.dirty (if s.sliceFree x then 2 else 1) }
  | _, _ => s

/-- HOT_ROW_COPY_COMPLETE. -/
def execHotRowCopyComplete (die table slice row : Nat) (s : State) : Host.Outcome State Fault Refusal :=
  .next (if (s.unfenced 4).any fun u => unitDie u == some die then s.hotCopied die (64 * table + slice) row else s)

/-- DRAIN_EPOCH_DRAINED: no window of an epoch before the current one is in flight, since a window is one step (R371). -/
def execDrainEpochDrained (die epoch : Nat) (s : State) : Host.Outcome State Fault Refusal :=
  .next (
    let now := if die = 0 then s.dir.epoch0 else s.dir.epoch1
    if die < 2 ∧ epoch < now then s.drainHot die epoch else s)

end Sys2Proof.Machine
end

