-- ==== Sys2Proof/Machine/RelayCommands.lean ====
section
/-! DEFINITION. Relay commands (R408 to R414, R438): RELAY_PEER_SET, and the operations of RELAY_POST between modules. -/

namespace Sys2Proof.Machine

/-! ## RELAY_PEER_SET (R409, R410) -/

def peerKind (p : Packet) : Nat := p.param 0 1
def peerRecord (p : Packet) : Nat := p.param 16 8
/-- Bytes of the relay state area. -/
def relayArea : Nat := 0x4000000

/-- Faults of a LOCAL record, lowest offset first. -/
def State.localFault (s : State) (b : List Byte) : Option Nat :=
  let bad := fun (c : Bool) (o : Nat) => if c then none else some o
  let zero := fun (o n : Nat) => firstIdx (fun x => x != 0#8) o (slice b o n)
  let base := leField b 8 8
  let area : Range := ⟨base, relayArea⟩
  let others := s.memory.guards.filter fun g => g.kind != .relayState
  [bad (decide (1 ≤ leField b 2 1) && decide (leField b 2 1 ≤ 3)) 2, bad (decide (leField b 3 1 < 4)) 3,
    bad (decide (leField b 4 2 < 2 ^ 12)) 5, zero 6 2,
    bad (base % 4096 == 0 && area.inHbm && !others.any fun g => g.range.meets area) 8,
    (firstIdx (fun x : Byte => decide (64 ≤ x.toNat)) 16 (slice b 16 4)),
    (firstIdx (fun x : Byte => decide (8 ≤ x.toNat)) 20 (slice b 20 4)), zero 24 8, zero 224 32].findSome? fun k => k

/-- The LOCAL record of 256 bytes. -/
def localRecordOf (b : List Byte) : LocalRecord where
  module := leField b 0 2
  mode := leField b 2 1
  ipv6 := bitOf (leField b 3 1) 0
  vlan := if bitOf (leField b 3 1) 1 then some (leField b 4 2) else none
  stateBase := leField b 8 8
  dscp := slice b 16 4
  pcp := slice b 20 4
  address := slice b 32 128
  gateway := slice b 160 64

/-- Accept a LOCAL record: the relay state area is the device's own. A new area holds no peer states. -/
def State.acceptLocal (s : State) (r : LocalRecord) : State :=
  let same := s.relay.local_.any fun o => o.stateBase == r.stateBase
  let s := (s.unguard .relayState 0).guard .relayState 0 ⟨r.stateBase, relayArea⟩ true
  s.setRelay { s.relay with local_ := some r, peers := if same then s.relay.peers else [] }

def relayPeerSetLocalCommand : Command where
  code := 0x0901
  lens := fun n => n == 1
  job := .optional
  params := fun _ p => lowestFail [need (peerKind p == 1) 64, p.zeros 65 3, p.zeros 76 4,
    need (peerRecord p % 64 == 0) 80, p.zeros 88 40]
  uses := fun _ p => [⟨80, ⟨peerRecord p, 256⟩, false⟩]
  security := fun s p => s.openFail [⟨80, ⟨peerRecord p, 256⟩, false⟩]
  own := fun s p =>
    firstFail [need (s.job.jobs.isEmpty && s.relay.qps.isEmpty) 64,
      (s.localFault (s.load (peerRecord p) 256)).map fun o => ⟨Status.badParam, inStruct 80 o⟩]
  effect := fun p s =>
    s.orPoisoned p [⟨peerRecord p, 256⟩] id fun s =>
      ((s.acceptLocal (localRecordOf (s.load (peerRecord p) 256))).complete p Status.ok 0 0 0).pump

/-- RELAY_PEER_SET with kind LOCAL, or with a kind that is refused. -/
def execRelayPeerSetLocal (p : Packet) (s : State) : Host.Outcome State Fault Refusal :=
  .next (if peerKind p = 2 then s else relayPeerSetLocalCommand.start p s)

def peerEntries (p : Packet) : Range := ⟨peerRecord p, 160 * p.param 8 4⟩

/-- The first fault of the module entries, as an offset from their start. -/
def State.peersFault (s : State) (p : Packet) : Option Nat :=
  let zero := fun (b : List Byte) (o n : Nat) => firstIdx (fun x => x != 0#8) o (slice b o n)
  (List.range (p.param 8 4)).findSome? fun i =>
    let b := s.load (peerRecord p + 160 * i) 160
    let bad := if leField b 0 2 ≠ p.param 4 4 + i then some 0 else if 4 ≤ leField b 2 2 then
        some (if 4 ≤ leField b 2 1 then 2 else 3) else none
    ([bad, zero b 4 12, zero b 144 16].findSome? fun k => k).map fun o => 160 * i + o

/-- Write module entries into peer states. -/
def State.setPeers (s : State) (p : Packet) : State :=
  (List.range (p.param 8 4)).foldl (fun t i =>
    let b := s.load (peerRecord p + 160 * i) 160
    let n := p.param 4 4 + i
    let flags := leField b 2 2
    let e : PeerEntry := ⟨bitOf flags 1, slice b 16 128⟩
    t.setRelay { t.relay with peers := if bitOf flags 0 then Tab.put t.relay.peers n e else Tab.del t.relay.peers n }) s

def relayPeerSetModulesCommand : Command where
  code := 0x0901
  lens := fun n => n == 1
  job := .optional
  params := fun _ p => lowestFail [p.zeros 65 3, need (decide (p.param 4 4 < 65536)) 68,
    need (decide (1 ≤ p.param 8 4) && decide (p.param 8 4 ≤ 65536) && decide (p.param 4 4 + p.param 8 4 ≤ 65536)) 72,
    p.zeros 76 4, need (peerRecord p % 64 == 0) 80, p.zeros 88 40]
  uses := fun _ p => [⟨80, peerEntries p, false⟩]
  security := fun s p => s.openFail [⟨80, peerEntries p, false⟩]
  own := fun s p =>
    firstFail [demand s.relay.local_.isSome Status.relayNotConfigured 64,
      (s.peersFault p).map fun o => ⟨Status.badParam, inStruct 80 o⟩]
  effect := fun p s => s.orPoisoned p [peerEntries p] id fun s => ((s.setPeers p).complete p Status.ok 0 0 0).pump

/-- RELAY_PEER_SET with kind MODULES. -/
def execRelayPeerSetModules (p : Packet) (s : State) : Host.Outcome State Fault Refusal :=
  .next (if peerKind p = 2 then relayPeerSetModulesCommand.start p s else s)

/-! ## RELAY_POST (R438) -/

def postOp (p : Packet) : Nat := p.param 0 1
def postClass (p : Packet) : Nat := p.param 1 1
def postPeer (p : Packet) : Nat := p.param 4 4
def postJob (p : Packet) : Word := BitVec.ofNat 32 (p.param 8 4)
def postRegion (p : Packet) : Nat := p.param 12 4
def postLocal (p : Packet) : Nat := p.param 16 8
def postRemote (p : Packet) : Nat := p.param 24 8
def postLength (p : Packet) : Nat := p.param 32 4
def postResult (p : Packet) : Nat := p.param 64 8

/-- Reserved fields, and the timeout, of every RELAY_POST. -/
def postCommon (p : Packet) : List (Option Fail) :=
  [p.zeros 66 2, p.zeros 108 4, need (decide (100 ≤ p.param 72 4) && decide (p.param 72 4 ≤ 600000)) 136, p.zeros 140 52]

/-- Where operations toward a table store stand (R412): the tag that section 4 gives the store, and the step of the job whose peer
table names it. -/
def State.storeOrigin (s : State) (job : Word) : Option Origin :=
  s.job.jobs.findSome? fun e =>
    (((manSection e.2.image 4).map storeEntries).getD []).findSome? fun x =>
      let at_ := e.2.peerTable + 4 * e.2.rankCount + 8 * leField x 0 1
      if BitVec.ofNat 32 (s.loadNat (at_ + 4) 4) = job then some ⟨slice x 8 8, job, e.2.next, 0, e.2.ranks.headD 0⟩ else none

/-- Where the operation of a RELAY_POST stands: its job's next step, attempt 0. -/
def State.postOrigin (s : State) (job : Word) : Option Origin :=
  match s.findJob job with
  | some (_, j) => some (j.origin j.next 0 (j.ranks.headD 0))
  | none => s.storeOrigin job

/-- Check 5, and the job of an extension operation. -/
def State.postJobFail (s : State) (p : Packet) : Option Fail :=
  firstFail [need (s.jobOpen p.job || (s.storeOrigin p.job).isSome) 16,
    need ((s.findJob p.job).all fun e => !e.2.stepping) 72]

def sealedPostCommand (op : Nat) : Command where
  code := 0x0904
  lens := fun n => n == 2
  job := .fresh 8
  params := fun s p =>
    firstFail [s.postJobFail p, lowestFail (postCommon p ++
      [need (op == 19 || postClass p == 1 || postClass p == 2) 65, need (decide (postPeer p < 65536)) 68,
        need (op == 19 || (postLength p != 0 && postLength p % 64 == 0)) 96])]
  uses := fun _ p => if op = 19 then [] else [⟨80, ⟨postLocal p, postLength p⟩, op == 17⟩]
  own := fun s _ => demand s.relay.local_.isSome Status.relayNotConfigured 64
  effect := fun p s =>
    match s.postOrigin p.job with
    | none => s
    | some g =>
      let owner : OpOwner := .post p.ring p.seq
      let local_ : Range := ⟨postLocal p, postLength p⟩
      let go := fun (s : State) =>
        let s := s.enroll p (.relayPost s.starts) (if op = 19 then [] else [⟨80, local_, op == 17⟩]) 0
        let s := if op = 16 then
            s.sealedPut owner (postPeer p) (postClass p) (postRegion p) (postRemote p) g (s.load local_.lo local_.len)
          else if op = 17 then
            s.sealedGet owner (postPeer p) (postClass p) (postRegion p) (postRemote p) local_.len g [(local_.lo, local_.len)]
          else s.fenceOp owner (postPeer p) g
        s.settleRelay
      if op = 16 then s.orPoisoned p [local_] id go else go s

/-- RELAY_POST op SEALED_PUT. -/
def execRelayPostSealedPut (p : Packet) (s : State) : Host.Outcome State Fault Refusal :=
  .next (if postOp p = 16 then (sealedPostCommand 16).start p s else s)
/-- RELAY_POST op SEALED_GET. -/
def execRelayPostSealedGet (p : Packet) (s : State) : Host.Outcome State Fault Refusal :=
  .next (if postOp p = 17 then (sealedPostCommand 17).start p s else s)
/-- RELAY_POST op FENCE. -/
def execRelayPostFence (p : Packet) (s : State) : Host.Outcome State Fault Refusal :=
  .next (if postOp p = 19 then (sealedPostCommand 19).start p s else s)

/-! ## ARP and neighbour discovery (R406) -/

/-- ARP_REQUEST: a request for an address of the module on that port is answered; `asker` is the asker's hardware and protocol
addresses. -/
def execArpRequest (port : Nat) (ipv6 : Bool) (target asker : List Byte) (s : State) : Host.Outcome State Fault Refusal :=
  .next (match s.relay.local_ with
    | none => s
    | some r =>
      let n := if r.ipv6 then 16 else 4
      if port < 8 ∧ r.ipv6 = ipv6 ∧ target = slice r.address (16 * port) n then s.emit (.arp port (target ++ asker)) else s)

end Sys2Proof.Machine
end

