-- ==== Sys2Proof/Machine/QueuePairs.lean ====
section
/-! DEFINITION. Queue pairs for foreign peers (R413, R414, R438): RELAY_QP_CREATE, RELAY_QP_DESTROY, RELAY_POST ops 1 to 5, and the
requester and responder of RoCEv2's reliable connected transport. PRESUMED: packet layouts and opcodes are those of the InfiniBand
Architecture specification, which R413 names. -/

namespace Sys2Proof.Machine

/-! ## The parameter block (R414) -/

def QueuePair.f (q : QueuePair) (o n : Nat) : Nat := leField q.params o n
def QueuePair.plane (q : QueuePair) : Nat := q.f 2 1
def QueuePair.allows (q : QueuePair) (bit : Nat) : Bool := bitOf (q.f 3 1) bit
def QueuePair.remoteQpn (q : QueuePair) : Nat := q.f 4 4
def QueuePair.mtu (q : QueuePair) : Nat := q.f 32 2
def QueuePair.timeout (q : QueuePair) : Nat := q.f 34 1
def QueuePair.retryCnt (q : QueuePair) : Nat := q.f 35 1 % 8
def QueuePair.rnrRetry (q : QueuePair) : Nat := q.f 35 1 / 16 % 8
def QueuePair.maxRd (q : QueuePair) : Nat := q.f 36 1
def QueuePair.regions (q : QueuePair) : List (Nat × Nat) :=
  (List.range (q.f 37 1)).map fun i => (q.f (48 + 8 * i) 4, q.f (52 + 8 * i) 4)
def QueuePair.recvRing (q : QueuePair) : Nat := q.f 80 8
def QueuePair.recvLog2 (q : QueuePair) : Nat := q.f 88 1

def State.qp (s : State) (n : Nat) : Option QueuePair := Tab.look s.relay.qps n
def State.setQp (s : State) (n : Nat) (q : QueuePair) : State := s.setRelay { s.relay with qps := Tab.put s.relay.qps n q }
/-- The peer index of a queue pair (R408). -/
def qpPeer (n : Nat) : Nat := 65536 + n

/-! ## RELAY_QP_CREATE and RELAY_QP_DESTROY -/

def recvRange (p : Packet) : Range := if p.param 80 8 = 0 then ⟨0, 0⟩ else ⟨p.param 80 8, 16 * 2 ^ p.param 88 1⟩

def qpRegionIds (p : Packet) : List (Nat × Nat) := (List.range (p.param 37 1)).map fun i => (112 + 8 * i, p.param (48 + 8 * i) 4)

def relayQpCreateCommand : Command where
  code := 0x0902
  lens := fun n => n == 2
  job := .optional
  params := fun s p =>
    lowestFail [need (decide (p.param 0 2 ≤ 4095) && (s.qp (p.param 0 2)).isNone) 64, need (decide (p.param 2 1 ≤ 7)) 66,
      p.spare 67 4, need (decide (p.param 4 4 < 2 ^ 24)) 68, need (decide (p.param 8 4 < 2 ^ 24)) 72,
      need (decide (p.param 12 4 < 2 ^ 24)) 76, need ([1024, 2048, 4096].contains (p.param 32 2)) 96,
      need (decide (p.param 34 1 ≤ 31)) 98, need (!bitOf (p.param 35 1) 7 && !bitOf (p.param 35 1) 3) 99,
      need (decide (1 ≤ p.param 36 1) && decide (p.param 36 1 ≤ 16)) 100, need (decide (p.param 37 1 ≤ 4)) 101, p.zeros 102 10,
      need (p.param 80 8 % 4096 == 0) 144,
      need (p.param 80 8 == 0 || (decide (6 ≤ p.param 88 1) && decide (p.param 88 1 ≤ 16))) 152, p.zeros 153 39]
  uses := fun _ p => [⟨144, recvRange p, true⟩]
  security := fun s p =>
    lowestFail (s.openFail [⟨144, recvRange p, true⟩] :: (qpRegionIds p).map fun e =>
      demand ((Tab.look s.memory.regions e.2).all fun r => r.key.isNone) Status.protectedRegion e.1)
  own := fun s _ => demand s.relay.local_.isSome Status.relayNotConfigured 64
  effect := fun p s =>
    let q : QueuePair := ⟨p.paramBytes 0 128, p.param 8 4, p.param 12 4, 0, false, 0, 0, 0, false, false, 0, false, 0, [], []⟩
    (s.setQp (p.param 0 2) q).complete p Status.ok 0 0 0

/-- RELAY_QP_CREATE. -/
def execRelayQpCreate (p : Packet) (s : State) : Host.Outcome State Fault Refusal := .next (relayQpCreateCommand.start p s)

/-- The queue pair enters its error state: its outstanding work completes with QP_ERROR (R438). -/
def State.failQp (s : State) (n : Nat) (syndrome : Nat) : State :=
  match s.qp n with
  | none => s
  | some q =>
    let s := s.setQp n { q with failed := true, syndrome := syndrome, work := [], rnrWait := false, writing := false }
    q.work.foldl (fun t w => t.endPost w.ring w.seq Status.qpError syndrome) s

def relayQpDestroyCommand : Command where
  code := 0x0903
  lens := fun n => n == 1
  job := .optional
  params := fun _ p => lowestFail [need (decide (p.param 0 2 ≤ 4095)) 64, p.zeros 66 62]
  own := fun s p =>
    firstFail [demand s.relay.local_.isSome Status.relayNotConfigured 64, need (s.qp (p.param 0 2)).isSome 64]
  effect := fun p s =>
    let n := p.param 0 2
    let s := s.failQp n Config.silentSyndrome
    (s.setRelay { s.relay with qps := Tab.del s.relay.qps n }).complete p Status.ok 0 0 0

/-- RELAY_QP_DESTROY. -/
def execRelayQpDestroy (p : Packet) (s : State) : Host.Outcome State Fault Refusal := .next (relayQpDestroyCommand.start p s)

/-! ## Packets of a queue pair -/

/-- A packet from the BTH to the padded payload: opcode, acknowledge request, packet number, headers and payload. -/
def QueuePair.packet (q : QueuePair) (opcode : Nat) (ack : Bool) (psn : Nat) (body : List Byte) : List Byte :=
  let pad := (4 - body.length % 4) % 4
  leBytes 1 opcode ++ leBytes 1 (16 * pad) ++ beBytes 2 0xFFFF ++ [0] ++ beBytes 3 q.remoteQpn ++
    leBytes 1 (if ack then 128 else 0) ++ beBytes 3 (psn % 2 ^ 24) ++ body ++ List.replicate pad 0

/-- Send a packet of a queue pair on its plane, if that plane's link is up. -/
def State.sendRoce (s : State) (n : Nat) (q : QueuePair) (b : List Byte) : State :=
  if s.relay.links.contains q.plane then (s.emit (.roce n b)).bumpWide Reg.rlyTxPktsLo 1 else s

def reth (va key len : Nat) : List Byte := beBytes 8 va ++ beBytes 4 key ++ beBytes 4 len
def aeth (syndrome msn : Nat) : List Byte := beBytes 1 syndrome ++ beBytes 3 (msn % 2 ^ 24)

/-- Pieces of at most one path MTU. -/
def QueuePair.pieces (q : QueuePair) (n : Nat) : List (Nat × Nat) :=
  (List.range (max 1 (ceilDiv n q.mtu))).map fun i => (i * q.mtu, min q.mtu (n - i * q.mtu))

/-- Packet numbers an operation takes: one for each packet of a write or of a read's response. -/
def QueuePair.counts (q : QueuePair) (op len : Nat) : Nat := if op ≤ 3 then (q.pieces len).length else 1

/-- The opcode of packet i of n packets of a write. -/
def writeOpcode (imm : Bool) (i n : Nat) : Nat :=
  if n = 1 then (if imm then 0x0B else 0x0A)
  else if i = 0 then 0x06
  else if i + 1 = n then (if imm then 0x09 else 0x08)
  else 0x07

/-- The request packets of a piece of work, with how far each lies from its first packet number. -/
def State.workPackets (s : State) (q : QueuePair) (w : QpWork) : List (Nat × List Byte) :=
  let first := w.first.getD 0
  if w.op ≤ 2 then
    let l := q.pieces w.length
    l.zipIdx.map fun x =>
      let last := x.2 + 1 == l.length
      let op := writeOpcode (w.op == 2) x.2 l.length
      let head := (if x.2 = 0 then reth w.remote w.key w.length else []) ++
        (if last && w.op == 2 then beBytes 4 w.immediate else [])
      (x.2, q.packet op last (first + x.2) (head ++ s.load (w.local_ + x.1.1) x.1.2))
  else if w.op = 3 then
    let done := w.landed / q.mtu
    [(done, q.packet 0x0C true (first + done) (reth (w.remote + w.landed) w.key (w.length - w.landed)))]
  else if w.op = 4 then [(0, q.packet 0x14 true first (beBytes 8 w.remote ++ beBytes 4 w.key ++ beBytes 8 w.compare ++ beBytes 8 0))]
  else [(0, q.packet 0x13 true first (beBytes 8 w.remote ++ beBytes 4 w.key ++ beBytes 8 w.swap ++ beBytes 8 w.compare))]

/-- Send the packets of a piece of work from a place on. -/
def State.sendWork (s : State) (n : Nat) (q : QueuePair) (w : QpWork) (from_ : Nat) : State :=
  ((s.workPackets q w).filter fun x => decide (from_ ≤ x.1) || decide (3 ≤ w.op)).foldl (fun t x => t.sendRoce n q x.2) s

/-- Give packet numbers to waiting work in order, and send it; reads and atomics wait while max_rd_atomic of them are outstanding. -/
def State.issueWork (s : State) (n : Nat) : Nat → State
  | 0 => s
  | k + 1 =>
    match s.qp n with
    | none => s
    | some q => match q.work.find? fun w => w.first.isNone with
      | none => s
      | some w =>
        let open_ := (q.work.filter fun x => x.first.isSome && decide (3 ≤ x.op)).length
        if q.failed ∨ q.rnrWait ∨ (3 ≤ w.op ∧ q.maxRd ≤ open_) then s
        else
          let w' := { w with first := some q.sendPsn, count := q.counts w.op w.length }
          let q' := { q with
            sendPsn := (q.sendPsn + w'.count) % 2 ^ 24
            work := q.work.map fun x => if x = w then w' else x }
          ((s.setQp n q').sendWork n q' w' 0).issueWork n k

def State.issueQp (s : State) (n : Nat) : State :=
  match s.qp n with
  | some q => s.issueWork n q.work.length
  | none => s

/-! ## RELAY_POST ops 1 to 5 -/

/-- Where local bytes lie: the source or destination, and an atomic's result. -/
def qpUses (op : Nat) (p : Packet) : List Use :=
  if op ≤ 2 then [⟨80, ⟨postLocal p, postLength p⟩, false⟩]
  else if op = 3 then [⟨80, ⟨postLocal p, postLength p⟩, true⟩]
  else [⟨128, ⟨postResult p, 8⟩, true⟩]

def qpPostCommand (op : Nat) : Command where
  code := 0x0904
  lens := fun n => n == 2
  job := .optional
  params := fun s p =>
    lowestFail (postCommon p ++
      [need (postOp p == op) 64,
        need (decide (65536 ≤ postPeer p) && decide (postPeer p ≤ 69631) &&
          (s.relay.local_.isNone || (s.qp (postPeer p - 65536)).isSome)) 68,
        need (p.param 8 4 == 0xFFFFFFFF) 72, need (decide (op ≤ 3) || postLength p == 8) 96,
        need (decide (op ≤ 3) || postResult p % 8 == 0) 128])
  uses := fun _ p => qpUses op p
  security := fun s p => s.openFail (qpUses op p)
  own := fun s _ => demand s.relay.local_.isSome Status.relayNotConfigured 64
  effect := fun p s =>
    let n := postPeer p - 65536
    match s.qp n with
    | none => s
    | some q =>
      let place := if op ≤ 3 then postLocal p else postResult p
      let w : QpWork := ⟨p.ring, p.seq, op, none, 0, place, postRemote p, postLength p, p.param 36 4, p.param 40 4, p.param 48 8,
        p.param 56 8, 0, 0, 0⟩
      let go := fun (s : State) =>
        if q.failed then s.complete p Status.qpError q.syndrome 0 0
        else ((s.enroll p (.relayPost s.starts) (qpUses op p) 0).setQp n { q with work := q.work ++ [w] }).issueQp n
      if op ≤ 2 then s.orPoisoned p [⟨postLocal p, postLength p⟩] id go else go s

/-- RELAY_POST op WRITE, or an op that is refused. -/
def execRelayPostWrite (p : Packet) (s : State) : Host.Outcome State Fault Refusal :=
  .next (if [2, 3, 4, 5, 16, 17, 19].contains (postOp p) then s else (qpPostCommand 1).start p s)
/-- RELAY_POST op WRITE_IMM. -/
def execRelayPostWriteImm (p : Packet) (s : State) : Host.Outcome State Fault Refusal :=
  .next (if postOp p = 2 then (qpPostCommand 2).start p s else s)
/-- RELAY_POST op READ. -/
def execRelayPostRead (p : Packet) (s : State) : Host.Outcome State Fault Refusal :=
  .next (if postOp p = 3 then (qpPostCommand 3).start p s else s)
/-- RELAY_POST op FETCH_ADD. -/
def execRelayPostFetchAdd (p : Packet) (s : State) : Host.Outcome State Fault Refusal :=
  .next (if postOp p = 4 then (qpPostCommand 4).start p s else s)
/-- RELAY_POST op CMP_SWAP. -/
def execRelayPostCmpSwap (p : Packet) (s : State) : Host.Outcome State Fault Refusal :=
  .next (if postOp p = 5 then (qpPostCommand 5).start p s else s)

/-- RELAY_POST_TIMEOUT: timeout_ms has passed with the packet of a ring and sequence incomplete. -/
def execRelayPostTimeout (ring : Nat) (seq : Word) (s : State) : Host.Outcome State Fault Refusal :=
  .next (match s.postCommand ring seq with
    | none => s
    | some o =>
      let n := postPeer o.pkt - 65536
      let s := match s.qp n with
        | some q => if 65536 ≤ postPeer o.pkt then
            s.setQp n { q with work := q.work.filter fun w => !(w.ring == ring && w.seq == seq) } else s
        | none => s
      ((s.endPost ring seq Status.peerUnreachable 0).issueQp n).settleRelay)

/-! ## The requester -/

/-- How far a packet number lies from another, modulo 2^24. -/
def psnFrom (base psn : Nat) : Nat := (psn + 2 ^ 24 - base % 2 ^ 24) % 2 ^ 24

/-- The first work sent and not complete. -/
def QueuePair.head (q : QueuePair) : Option QpWork := q.work.find? fun w => w.first.isSome

def QueuePair.drop (q : QueuePair) (w : QpWork) : QueuePair := { q with work := q.work.erase w }

/-- The last packet number of a piece of work, counted from a base. -/
def QpWork.lastFrom (w : QpWork) (base : Nat) : Nat := psnFrom base (w.first.getD 0) + (w.count - 1)

/-- A piece of work is complete. -/
def State.workDoneAt (s : State) (n : Nat) (w : QpWork) : State :=
  match s.qp n with
  | some q => (s.setQp n (q.drop w)).endPost w.ring w.seq Status.ok 0
  | none => s

/-- Retry all work sent, from the packet at a packet number on; the queue pair enters its error state once retry_cnt is spent. -/
def State.retryQp (s : State) (n psn syndrome : Nat) : State :=
  match s.qp n with
  | none => s
  | some q => match q.head with
    | none => s
    | some w =>
      if q.retryCnt ≤ w.retries then s.failQp n syndrome
      else
        let w' := { w with retries := w.retries + 1 }
        let q' := { q with work := q.work.map fun x => if x = w then w' else x }
        let from_ := let d := psnFrom (w.first.getD 0) psn; if d < w.count then d else 0
        (q'.work.filter fun x => x.first.isSome).foldl (fun t x => t.sendWork n q' x (if x = w' then from_ else 0)) (s.setQp n q')

/-- Complete the writes that a packet number acknowledges; a read or an atomic before it has lost its response and is retried. -/
def State.ackThrough (s : State) (n psn : Nat) : Nat → State
  | 0 => s
  | k + 1 =>
    match s.qp n with
    | none => s
    | some q => match q.head with
      | none => s
      | some w =>
        let base := w.first.getD 0
        let d := psnFrom base psn
        if 2 ^ 23 ≤ d ∨ d < w.lastFrom base then s
        else if 3 ≤ w.op then (if d < w.count then s else s.retryQp n base Config.silentSyndrome)
        else (s.workDoneAt n w).ackThrough n psn k

def State.ackQp (s : State) (n psn : Nat) : State :=
  match s.qp n with
  | some q => s.ackThrough n psn q.work.length
  | none => s

/-- A NAK: what precedes it is acknowledged; the request it names is retried, waits, or fails. -/
def State.nakQp (s : State) (n psn syndrome : Nat) : State :=
  let s := s.ackQp n ((psn + 2 ^ 24 - 1) % 2 ^ 24)
  match s.qp n with
  | none => s
  | some q => match q.head with
    | none => s
    | some w =>
      if syndrome / 32 = 1 then
        if q.rnrRetry ≠ 7 ∧ q.rnrRetry ≤ w.rnr then s.failQp n syndrome
        else s.setQp n { q with rnrWait := true, work := q.work.map fun x => if x = w then { w with rnr := w.rnr + 1 } else x }
      else if syndrome = 0x60 then s.retryQp n psn syndrome
      else if syndrome = 0x62 then ((s.setQp n (q.drop w)).endPost w.ring w.seq Status.remoteAccess syndrome).failQp n syndrome
      else s.failQp n syndrome

/-- A packet of a read's response: it lands where it is the next one; a later one shows a loss. -/
def State.readResponse (s : State) (n psn : Nat) (data : List Byte) : State :=
  let s := s.ackQp n ((psn + 2 ^ 24 - 1) % 2 ^ 24)
  match s.qp n with
  | none => s
  | some q => match q.head with
    | none => s
    | some w =>
      let next := w.first.getD 0 + w.landed / q.mtu
      if w.op ≠ 3 ∨ 2 ^ 23 ≤ psnFrom next psn then s
      else if psnFrom next psn ≠ 0 then s.retryQp n next Config.silentSyndrome
      else
        let d := data.take (w.length - w.landed)
        let w' := { w with landed := w.landed + d.length, retries := 0 }
        let s := s.store (w.local_ + w.landed) d
        let s := s.setQp n { q with work := q.work.map fun x => if x = w then w' else x }
        if w.length ≤ w'.landed then s.workDoneAt n w' else s

/-- The response of an atomic: the original value goes to result_addr. -/
def State.atomicResponse (s : State) (n psn value : Nat) : State :=
  let s := s.ackQp n ((psn + 2 ^ 24 - 1) % 2 ^ 24)
  match s.qp n with
  | none => s
  | some q => match q.head with
    | none => s
    | some w => if w.op < 4 ∨ psnFrom (w.first.getD 0) psn ≠ 0 then s else (s.store w.local_ (leBytes 8 value)).workDoneAt n w

/-! ## The responder -/

/-- The range a foreign request may reach: its R_Key names a region of the queue pair, the range lies in it, the queue pair allows
the access, and the region is not protected. -/
def State.foreignRange (s : State) (q : QueuePair) (bit key va len : Nat) : Option Range :=
  let r : Range := ⟨va, len⟩
  if !q.allows bit then none
  else (q.regions.find? fun e => e.2 == key && (Tab.look s.memory.regions e.1).any fun x =>
    r.inside x.range && x.key.isNone).map fun _ => r

def State.ackOut (s : State) (n syndrome psn : Nat) : State :=
  match s.qp n with
  | some q => s.sendRoce n q (q.packet 0x11 false psn (aeth syndrome q.msn))
  | none => s

/-- The code of an acknowledgement without a credit count. -/
def ackSyndrome : Nat := 0x1F

/-- A request is refused: its NAK goes back and the queue pair enters its error state. -/
def State.refuseRequest (s : State) (n syndrome psn : Nat) : State := (s.ackOut n syndrome psn).failQp n syndrome

/-- The packet is taken: the next packet number is expected. -/
def State.expectNext (s : State) (n k : Nat) (message : Bool) : State :=
  match s.qp n with
  | some q => s.setQp n { q with
      expectPsn := (q.expectPsn + k) % 2 ^ 24
      nakSent := false
      msn := if message then (q.msn + 1) % 2 ^ 24 else q.msn }
  | none => s

/-- Bytes of a write packet land; the last packet of a WRITE with immediate adds a record to the receive ring. -/
def State.writeIn (s : State) (n : Nat) (q : QueuePair) (psn : Nat) (ack first last : Bool) (imm : Option Nat) (rethB data : List Byte) :
    State :=
  let va := if first then beNat (slice rethB 0 8) else q.writeAddr
  let total := if first then beNat (slice rethB 12 4) else q.writeLen
  let left := if first then total else q.writeLeft
  let sizeOk := if last then data.length == left else data.length == q.mtu && decide (q.mtu < left)
  let rangeOk := !first || total == 0 || (s.foreignRange q 1 (beNat (slice rethB 8 4)) va total).isSome
  if first = q.writing ∨ !sizeOk then s.refuseRequest n 0x61 psn
  else if !rangeOk then s.refuseRequest n 0x62 psn
  else if imm.isSome ∧ q.recvRing = 0 then s.ackOut n (32 + Config.rnrTimer % 32) psn
  else
    let s := s.store va data
    let q' := { q with writing := !last, writeAddr := va + data.length, writeLeft := left - data.length, writeLen := total }
    let s := match imm with
      | some v =>
        let t := s.store (q.recvRing + 16 * q.recvIndex) (slice (Config.immediateRecord v total) 0 16)
        t.setQp n { q' with recvIndex := (q.recvIndex + 1) % 2 ^ q.recvLog2 }
      | none => s.setQp n q'
    let s := s.expectNext n 1 last
    if ack then s.ackOut n ackSyndrome psn else s

/-- The response packets of a read. -/
def State.readAnswer (s : State) (n : Nat) (q : QueuePair) (psn va len : Nat) : State :=
  let l := q.pieces len
  l.zipIdx.foldl (fun t x =>
    let only := l.length == 1
    let first := x.2 == 0
    let last := x.2 + 1 == l.length
    let op := if only then 0x10 else if first then 0x0D else if last then 0x0F else 0x0E
    let head := if first || last then aeth ackSyndrome q.msn else []
    t.sendRoce n q (q.packet op false (psn + x.2) (head ++ t.load (va + x.1.1) x.1.2))) s

/-- A READ request. A repeated one is answered again. -/
def State.readIn (s : State) (n : Nat) (q : QueuePair) (psn : Nat) (again : Bool) (b : List Byte) : State :=
  let va := beNat (slice b 0 8)
  let len := beNat (slice b 12 4)
  if q.writing then s.refuseRequest n 0x61 psn
  else if len ≠ 0 ∧ (s.foreignRange q 2 (beNat (slice b 8 4)) va len).isNone then s.refuseRequest n 0x62 psn
  else
    let s := if again then s else s.expectNext n (q.pieces len).length true
    match s.qp n with
    | some q => s.readAnswer n q psn va len
    | none => s

/-- An atomic on an 8-byte word (R413): the original value goes back, and is kept for a repeated request. -/
def State.atomicIn (s : State) (n : Nat) (q : QueuePair) (psn : Nat) (swap : Bool) (b : List Byte) : State :=
  let va := beNat (slice b 0 8)
  if q.writing ∨ va % 8 ≠ 0 then s.refuseRequest n 0x61 psn
  else if (s.foreignRange q 3 (beNat (slice b 8 4)) va 8).isNone then s.refuseRequest n 0x62 psn
  else
    let old := s.loadNat va 8
    let x := beNat (slice b 12 8)
    let v := if swap then (if old = beNat (slice b 20 8) then x else old) else (old + x) % 2 ^ 64
    let s := (s.store va (leBytes 8 v)).expectNext n 1 true
    match s.qp n with
    | none => s
    | some q =>
      let out := q.packet 0x12 false psn (aeth ackSyndrome q.msn ++ beBytes 8 old)
      let kept := (q.answers ++ [(⟨psn, out⟩ : QpAnswer)]).drop (q.answers.length + 1 - q.maxRd)
      (s.setQp n { q with answers := kept }).sendRoce n q out

/-- A request that has been taken before. -/
def State.repeated (s : State) (n : Nat) (q : QueuePair) (opcode psn : Nat) (b : List Byte) : State :=
  if opcode = 0x0C then s.readIn n q psn true b
  else if opcode = 0x13 ∨ opcode = 0x14 then match q.answers.find? fun a => a.psn == psn with
    | some a => s.sendRoce n q a.packet
    | none => s
  else s.ackOut n ackSyndrome ((q.expectPsn + 2 ^ 24 - 1) % 2 ^ 24)

/-- A request with the packet number expected. -/
def State.requestIn (s : State) (n : Nat) (q : QueuePair) (opcode psn : Nat) (ack : Bool) (b : List Byte) : State :=
  match opcode with
  | 0x06 => s.writeIn n q psn ack true false none (b.take 16) (b.drop 16)
  | 0x07 => s.writeIn n q psn ack false false none [] b
  | 0x08 => s.writeIn n q psn ack false true none [] b
  | 0x09 => s.writeIn n q psn ack false true (some (beNat (slice b 0 4))) [] (b.drop 4)
  | 0x0A => s.writeIn n q psn ack true true none (b.take 16) (b.drop 16)
  | 0x0B => s.writeIn n q psn ack true true (some (beNat (slice b 16 4))) (b.take 16) (b.drop 20)
  | 0x0C => s.readIn n q psn false b
  | 0x13 => s.atomicIn n q psn true b
  | 0x14 => s.atomicIn n q psn false b
  | _ => s.refuseRequest n 0x61 psn

/-- Bytes of a READ response packet's payload after its AETH. -/
def responseData (opcode : Nat) (b : List Byte) : List Byte := if opcode = 0x0E then b else b.drop 4

/-- A packet of a queue pair that stands in order of transport. -/
def State.roceIn (s : State) (n : Nat) (q : QueuePair) (opcode psn : Nat) (ack : Bool) (b : List Byte) : State :=
  if opcode = 0x11 then
    let syndrome := leField b 0 1
    if syndrome / 32 = 0 then s.ackQp n psn else s.nakQp n psn syndrome
  else if opcode = 0x12 then s.atomicResponse n psn (beNat (slice b 4 8))
  else if 0x0D ≤ opcode ∧ opcode ≤ 0x10 then s.readResponse n psn (responseData opcode b)
  else
    let d := psnFrom q.expectPsn psn
    if d = 0 then s.requestIn n q opcode psn ack b
    else if 2 ^ 23 ≤ d then s.repeated n q opcode psn b
    else if q.nakSent then s
    else (s.setQp n { q with nakSent := true }).ackOut n 0x60 q.expectPsn

/-- ROCE_PACKET_RECEIVED: a packet whose DestQP names a queue pair in use, from its peer's address, on its plane. -/
def execRocePacketReceived (f : Frame) (s : State) : Host.Outcome State Fault Refusal :=
  .next (
    let dest := beNat (slice f.bytes 5 3)
    let n := dest - 0x1000
    match if 0x1000 ≤ dest ∧ dest < 0x2000 ∧ 12 ≤ f.bytes.length then s.qp n else none with
    | none => s
    | some q =>
      let address := slice q.params 16 16
      let known := if q.allows 0 then f.src == address else f.src.take 4 == address.take 4
      if !known ∨ f.port ≠ q.plane then s
      else
        let s := s.bumpWide Reg.rlyRxPktsLo 1
        let s := if f.ce then s.congestion (qpPeer n) f.port else s
        if q.failed then s
        else
          let pad := leField f.bytes 1 1 / 16 % 4
          let body := (f.bytes.drop 12).take (f.bytes.length - 12 - pad)
          (s.roceIn n q (leField f.bytes 0 1) (beNat (slice f.bytes 9 3)) (bitOf (leField f.bytes 8 1) 7) body).issueQp n)

/-- LOCAL_ACK_TIMEOUT: the local ACK timeout, or the delay of an RNR NAK, of a queue pair expires. A timeout of 0 never does. -/
def execLocalAckTimeout (n : Nat) (s : State) : Host.Outcome State Fault Refusal :=
  .next (match s.qp n with
    | none => s
    | some q => match q.head with
      | none => s
      | some w =>
        if q.rnrWait then
          let q' := { q with rnrWait := false }
          ((q'.work.filter fun x => x.first.isSome).foldl (fun t x => t.sendWork n q' x 0) (s.setQp n q')).issueQp n
        else if q.timeout = 0 then s
        else s.retryQp n (w.first.getD 0) Config.silentSyndrome)

end Sys2Proof.Machine
end

