-- ==== Sys2Proof/Machine/Snapshots.lean ====
section
/-! DEFINITION. JOB_SNAPSHOT and JOB_RESTORE (R53 to R56, R486, R494). -/

namespace Sys2Proof.Machine

/-! ## The entries of a snapshot (R56) -/

/-- One entry, with the range its data comes from; anchors have their bytes instead. -/
structure SnapEntry where
  kind : Nat
  rank : Nat
  id : Nat
  version : Nat
  size : Nat
  source : Range
  bytes : List Byte
  deriving DecidableEq, Repr

/-- Memory regions that the job owns, but for its hold area, in ascending identifier. -/
def State.ownedRegions (s : State) (j : Job) : List (Nat × Region) :=
  s.memory.regions.filter fun e => e.2.owner == j.id && decide (e.1 < 4096)

/-- The lowest rank held here that owns a slice (R326). -/
def Job.sliceRank (j : Job) (group slice : Nat) : Nat :=
  ((j.ranks.filter fun r => r % group == slice).foldl (fun (a : Option Nat) r => match a with
    | none => some r
    | some x => some (min x r)) none).getD (j.ranks.headD 0)

/-- Slices of the job that have a CURRENT version, as entries. -/
def State.sliceEntries (s : State) (j : Job) : List SnapEntry :=
  s.emb.slices.filterMap fun e =>
    if e.2.job = j.id then
      e.2.current.map fun v =>
        let n := e.2.rows * e.2.width
        ⟨2, j.sliceRank e.2.group (e.1 % 64), e.1 / 64 + 65536 * (e.1 % 64), v.number, n, ⟨v.base, n⟩, []⟩
    else none

/-- The anchors that steps after the last committed one can use. -/
def State.jobAnchors (s : State) (slot : Nat) (j : Job) : List (Nat × Nat) :=
  match Tab.look s.samples.pipes slot with
  | some x => anchorsFrom x.anchors j.next
  | none => Tab.get [] s.samples.restored slot

def insertSnap (x : SnapEntry) : List SnapEntry → List SnapEntry
  | [] => [x]
  | y :: t => if decide ([x.kind, x.rank, x.id] ≤ [y.kind, y.rank, y.id]) then x :: y :: t else y :: insertSnap x t

/-- All entries in kind order, then ascending rank, then ascending id. -/
def State.snapEntries (s : State) (slot : Nat) (j : Job) : List SnapEntry :=
  let regions : List SnapEntry := (s.ownedRegions j).map fun e =>
    ⟨1, j.ranks.foldl min (j.ranks.headD 0), e.1, 0, e.2.size, e.2.range, []⟩
  let anchors := s.jobAnchors slot j
  let last : List SnapEntry := if anchors.isEmpty then [] else
    [⟨3, 0xFFFFFFFF, 0, 0, 8 * anchors.length, ⟨0, 0⟩, anchors.flatMap fun a => leBytes 4 a.1 ++ leBytes 4 a.2⟩]
  (regions ++ s.sliceEntries j).foldr insertSnap last

/-- The data of each entry: its plain bytes, or for a confidential job a package under the job's key with a salt of its own. -/
def State.snapData (s : State) (key : Option ModelKey) (l : List SnapEntry) : List (List Byte) :=
  l.zipIdx.map fun e =>
    let plain := if e.1.kind = 3 then e.1.bytes else s.load e.1.source.lo e.1.source.len
    match key with
    | some k => if e.1.kind = 3 then plain
      else sealPackage k (drawBytes (s.free + e.2) 32) (16 + Config.snapshotChunk % 9) plain
    | none => plain

/-- Bytes of an entry's data. -/
def snapLength (key : Bool) (e : SnapEntry) : Nat :=
  if key && e.kind != 3 then packageBytes e.size (16 + Config.snapshotChunk % 9) else e.size

/-- Offsets of the data, and the total length. -/
def snapLayout : Nat → List Nat → List Nat × Nat
  | at_, [] => ([], at_)
  | at_, n :: t =>
    let r := snapLayout (up64 (at_ + n)) t
    (at_ :: r.1, if t.isEmpty then at_ + n else r.2)

def snapHead (j : Job) (isSealed : Bool) (count total : Nat) : List Byte :=
  let flags := (if j.mustered ≠ 0 ∧ j.mustered = j.next then 1 else 0) + (if isSealed then 2 else 0)
  leBytes 4 0x50414E53 ++ leBytes 2 1 ++ leBytes 2 flags ++ leBytes 4 j.id.toNat ++
    leBytes 4 (j.ranks.foldl min (j.ranks.headD 0)) ++ leBytes 4 j.ranks.length ++ leBytes 4 (j.next + 0xFFFFFFFF) ++
    leBytes 4 j.rankCount ++ leBytes 4 (manShards j.image) ++ leBytes 4 (manSemantics j.image) ++ leBytes 4 count ++
    leBytes 8 total ++ leBytes 16 0 ++ j.digest ++ leBytes 128 0

def SnapEntry.head (e : SnapEntry) (off len : Nat) : List Byte :=
  leBytes 1 e.kind ++ leBytes 3 0 ++ leBytes 4 e.rank ++ leBytes 4 e.id ++ leBytes 4 e.version ++ leBytes 8 off ++
    leBytes 8 len ++ leBytes 8 e.size ++ leBytes 24 0

/-! ## JOB_SNAPSHOT (R54, R56, R494, R498) -/

def snapDest (p : Packet) : Range := ⟨p.param 8 8, p.param 16 8⟩

/-- The entries of the job that a packet names. -/
def State.packetEntries (s : State) (p : Packet) : List SnapEntry :=
  match s.findJob p.job with
  | some (slot, j) => s.snapEntries slot j
  | none => []

def State.snapSources (s : State) (p : Packet) : List Use :=
  ((s.packetEntries p).filter fun e => e.kind != 3).map fun e => ⟨64, e.source, false⟩

/-- The key that a confidential job's snapshot is sealed under. -/
def State.sealKey (s : State) (j : Job) : Option ModelKey := j.keySlot.bind fun k => Tab.look s.sec.keys k

/-- Write the snapshot, or end with TABLE_FULL where it does not fit. -/
def State.writeSnapshot (s : State) (p : Packet) (slot : Nat) (j : Job) : State :=
  let d := snapDest p
  let key := if j.confidential then s.sealKey j else none
  let l := s.snapEntries slot j
  let lens := l.map (snapLength key.isSome)
  let place := snapLayout (up64 (256 + 64 * l.length)) lens
  let total := if l.isEmpty then 256 else place.2
  if d.len < total then (s.scramble d.lo d.len).complete p Status.tableFull total 0 0
  else
    let data := s.snapData key l
    let heads := (l.zip (place.1.zip lens)).flatMap fun e => e.1.head e.2.1 e.2.2
    let s1 := s.store d.lo (padTo (up64 (256 + 64 * l.length)) (snapHead j key.isSome l.length total ++ heads))
    let s2 := (place.1.zip data).foldl (fun (t : State) e => t.store (d.lo + e.1) (e.2 ++ List.replicate
      (min (up64 e.2.length) (total - e.1) - e.2.length) 0)) s1
    let s2 := s2.bump Reg.secExports (if key.isSome then (l.filter fun e => e.kind != 3).length else 0)
    ({ s2 with free := s2.free + l.length } : State).complete p Status.ok total 0 0

def jobSnapshotCommand : Command where
  code := 0x0104
  lens := fun n => n == 1
  job := .paramOpen 0
  params := fun s p =>
    lowestFail [need ((s.findJob p.job).any fun e => e.2.state == .idle || e.2.state == .held) 64, p.zeros 68 4,
      need (p.param 8 8 % 64 == 0) 72, p.zeros 88 40]
  uses := fun s p => ⟨72, snapDest p, true⟩ :: s.snapSources p
  overlaps := fun _ p => need ((snapDest p).inModule || (snapDest p).inside hostRange) 72
  security := fun s p =>
    match s.findJob p.job with
    | none => none
    | some (_, j) =>
      if j.confidential then demand ((s.sealKey j).any fun k => bitOf k.policy 1) Status.keyRefused 5
      else s.openFail (s.snapSources p)
  effect := fun p s =>
    match s.findJob p.job with
    | none => s
    | some (slot, j) =>
      let d := snapDest p
      s.orPoisoned p ((s.snapSources p).map fun u => u.range) (fun t => t.scramble d.lo d.len) fun t => t.writeSnapshot p slot j

/-- JOB_SNAPSHOT. -/
def execJobSnapshot (p : Packet) (s : State) : Host.Outcome State Fault Refusal := .next (jobSnapshotCommand.start p s)

/-! ## JOB_RESTORE (R55) -/

def restoreCount (p : Packet) : Nat := p.param 14 2
def restoreSlices (p : Packet) : Nat := p.param 56 4
def restoreList (p : Packet) : Range := ⟨p.param 40 8, 16 * restoreCount p⟩
def restoreMap (p : Packet) : Range := ⟨p.param 48 8, 32 * restoreSlices p⟩

/-- Address and length of snapshot i. -/
def State.snapAt (s : State) (p : Packet) (i : Nat) : Range :=
  ⟨s.loadNat (p.param 40 8 + 16 * i) 8, s.loadNat (p.param 40 8 + 16 * i + 8) 8⟩

/-- The header and the entries of a snapshot. -/
def State.snapBytes (s : State) (r : Range) : List Byte := s.load r.lo 256
def snapFlags (h : List Byte) : Nat := leField h 6 2
def snapStep (h : List Byte) : Nat := leField h 20 4
def snapEntryCount (h : List Byte) : Nat := leField h 36 4

/-- An entry of a snapshot as it stands in memory: its fields. -/
structure SnapFound where
  kind : Nat
  rank : Nat
  id : Nat
  version : Nat
  off : Nat
  len : Nat
  size : Nat
  /-- the lowest reserved byte that is not 0 -/
  spare : Option Nat
  /-- the module address of its snapshot -/
  base : Nat
  deriving DecidableEq, Repr

def State.foundEntries (s : State) (r : Range) : List SnapFound :=
  (List.range (snapEntryCount (s.snapBytes r))).map fun i =>
    let b := s.load (r.lo + 256 + 64 * i) 64
    ⟨leField b 0 1, leField b 4 4, leField b 8 4, leField b 12 4, leField b 16 8, leField b 24 8, leField b 32 8,
      lowestAt [spareAt b 1 3, spareAt b 40 24], r.lo⟩

/-- The first fault of a snapshot's header: it is well formed for a snapshot of a length, and it agrees with the first one's in
job_id, committed_step, flags and manifest_digest. -/
def snapHeadFault (first h : List Byte) (len : Nat) : Option Nat :=
  lowestAt [faultAt (leField h 0 4 == 0x50414E53) 0, faultAt (leField h 4 2 == 1) 4,
    faultAt (decide (leField h 6 1 < 4) && leField first 6 2 == leField h 6 2) 6, faultAt (leField h 7 1 == 0) 7,
    faultAt (slice first 8 4 == slice h 8 4) 8, faultAt (slice first 20 4 == slice h 20 4) 20,
    faultAt (decide (256 + 64 * snapEntryCount h ≤ leField h 40 8)) 36, faultAt (decide (leField h 40 8 ≤ len)) 40, spareAt h 48 16,
    faultAt (slice first 64 64 == slice h 64 64) 64, spareAt h 128 128]

/-- An entry of the slice map: table and slice, destination. -/
def State.mapEntry (s : State) (p : Packet) (i : Nat) : Nat × Nat × Range :=
  let b := s.load (p.param 48 8 + 32 * i) 32
  (leField b 0 2, leField b 2 1, ⟨leField b 8 8, leField b 16 8⟩)

def State.mapEntries (s : State) (p : Packet) : List (Nat × Nat × Range) := (List.range (restoreSlices p)).map (s.mapEntry p)

/-- The first fault of entry i of the slice map. -/
def State.mapFault (s : State) (p : Packet) (i : Nat) : Option Nat :=
  let b := s.load (p.param 48 8 + 32 * i) 32
  let d : Range := ⟨leField b 8 8, leField b 16 8⟩
  (lowestAt [spareAt b 3 5, faultAt (d.lo % 4096 == 0 && d.inHbm) 8, spareAt b 24 8]).map fun o => 32 * i + o

/-- The destination of a SLICE entry. -/
def State.sliceDest (s : State) (p : Packet) (e : SnapFound) : Option Range :=
  ((s.mapEntries p).find? fun m => m.1 == e.id % 65536 && m.2.1 == e.id / 65536 % 256).map fun m => m.2.2

def State.restoreFound (s : State) (p : Packet) : List SnapFound :=
  (List.range (restoreCount p)).flatMap fun i => s.foundEntries (s.snapAt p i)

/-- The section 3 entry that a SLICE entry needs: for a rank that this module will hold. -/
def State.restoreTable (s : State) (p : Packet) (e : SnapFound) : Option (List Byte) :=
  (s.openPair p).bind fun mo =>
    ((manSection (patched mo.1 mo.2) 3).bind fun b => (tableEntries b).find? fun t => leField t 0 2 == e.id % 65536).bind fun t =>
      let g := leField t 4 2
      let held := (List.range (p.param 8 4)).any fun i => (p.param 4 4 + i) % g == e.id / 65536
      if held then some t else none

/-- The first fault of an entry under R55 and R56. -/
def State.snapEntryFault (s : State) (p : Packet) (isSealed : Bool) (total : Nat) (e : SnapFound) : Option Nat :=
  let target : Bool × Bool := match e.kind with
    | 1 => match Tab.look s.memory.regions e.id with
      | some r => (r.owner.toNat == p.param 0 4 && decide (e.id < 4096), r.size == e.size)
      | none => (false, true)
    | 2 => match s.sliceDest p e, s.restoreTable p e with
      | some d, some t => ((s.embSlice (64 * (e.id % 65536) + e.id / 65536)).isNone, decide (e.size ≤ d.len) &&
          e.size == leField t 8 8 * sliceWidth (leField t 2 1) (leField t 16 4) (leField t 4 2))
      | _, _ => (false, true)
    | _ => (true, e.size % 8 == 0)
  lowestAt [faultAt (decide (1 ≤ e.kind) && decide (e.kind ≤ 3)) 0, e.spare, faultAt target.1 8,
    faultAt (decide (e.off + e.len ≤ total) && e.off % 64 == 0) 16, faultAt ((isSealed && e.kind != 3) || e.len == e.size) 24,
    faultAt target.2 32]

/-- The first fault of a snapshot: its header, then its entries. -/
def State.snapFault (s : State) (p : Packet) (isSealed : Bool) (first : List Byte) (r : Range) : Option Nat :=
  let h := s.snapBytes r
  match snapHeadFault first h r.len with
  | some o => some o
  | none => ((s.foundEntries r).zipIdx).findSome? fun e =>
      (s.snapEntryFault p isSealed (leField h 40 8) e.1).map fun o => 256 + 64 * e.2 + o

/-- The ranks of the snapshots are disjoint and are together the ranks that the packet names. -/
def State.ranksCovered (s : State) (p : Packet) : Bool :=
  let l := (List.range (restoreCount p)).flatMap fun i =>
    let h := s.snapBytes (s.snapAt p i)
    (List.range (min 257 (leField h 16 4))).map fun k => leField h 12 4 + k
  let want := (List.range (p.param 8 4)).map fun i => p.param 4 4 + i
  l.length == want.length && want.all fun r => l.contains r

def State.restoreSealed (s : State) (p : Packet) : Bool := bitOf (snapFlags (s.snapBytes (s.snapAt p 0))) 1

/-- The checks made before anything is written (R55). The detail counts in the snapshot at fault. -/
def State.restoreFault (s : State) (p : Packet) : Option Fail :=
  let first := s.snapBytes (s.snapAt p 0)
  let open_ := match s.openPair p with
    | some (_, o) => overlayConfidential o
    | none => false
  let bad := fun (off : Nat) (x : Option Nat) => x.map fun o => (⟨Status.badParam, inStruct off o⟩ : Fail)
  firstFail [bad 112 ((List.range (restoreSlices p)).findSome? (s.mapFault p)),
    bad 104 ((List.range (restoreCount p)).findSome? fun i => s.snapFault p (s.restoreSealed p) first (s.snapAt p i)),
    bad 104 (faultAt (s.ranksCovered p) 12), bad 104 (faultAt (s.restoreSealed p == open_) 6)]

/-- Ranges a restore writes. -/
def State.restoreWrites (s : State) (p : Packet) : List Range :=
  (s.restoreFound p).filterMap fun e => match e.kind with
    | 1 => (Tab.look s.memory.regions e.id).map Region.range
    | 2 => s.sliceDest p e
    | _ => none

/-- The plain bytes of an entry, or the detail of PACKAGE_INVALID. -/
def State.entryPlain (s : State) (key : Option ModelKey) (e : SnapFound) : Except Nat (List Byte) :=
  let b := s.load (e.base + e.off) e.len
  match key with
  | some k => if e.kind = 3 then .ok b
    else match openPackage k b with
      | .ok plain => if plain.length = e.size then .ok plain else .error 0xFFFFFFFFFFFFFFFF
      | .error n => .error n
  | none => .ok b

/-- Write one entry: a region's bytes, or a slice with its CURRENT version. -/
def State.restoreEntry (s : State) (p : Packet) (e : SnapFound) (plain : List Byte) : State :=
  match e.kind with
  | 1 => match Tab.look s.memory.regions e.id with
    | some r => s.store r.base plain
    | none => s
  | 2 => match s.sliceDest p e, s.restoreTable p e with
    | some d, some t =>
      let key := 64 * (e.id % 65536) + e.id / 65536
      let x : Slice := ⟨leField t 2 1, leField t 4 2, bitOf (leField t 3 1) 0, BitVec.ofNat 32 (p.param 0 4), leField t 8 8,
        leField t 16 4, [⟨e.version, .current, d.lo, d.len, 0⟩], e.version⟩
      let s := s.store d.lo plain
      ({ s with emb := { s.emb with slices := Tab.put s.emb.slices key x } } : State).guard .version (4 * key) d false
    | _, _ => s
  | _ => s

/-- Read all entries before any is written. -/
def State.allPlain (s : State) (key : Option ModelKey) (l : List SnapFound) : Except Nat (List (SnapFound × List Byte)) :=
  l.foldl (fun r e => match r with
    | .error n => .error n
    | .ok done => match s.entryPlain key e with
      | .ok b => .ok (done ++ [(e, b)])
      | .error n => .error n) (.ok [])

/-- Open the job with what its snapshots hold. -/
def State.restoreJob (s : State) (p : Packet) (l : List (SnapFound × List Byte)) : State :=
  let h := s.snapBytes (s.snapAt p 0)
  let next := (snapStep h + 1) % 2 ^ 32
  let slot := s.freeJobSlot
  let bytes := l.foldl (fun n e => n + e.1.size) 0
  let s := l.foldl (fun t e => t.restoreEntry p e.1 e.2) s
  let anchors := match l.find? fun e => e.1.kind == 3 with
    | some e => (List.range (e.1.size / 8)).map fun i => (leField e.2 (8 * i) 4, leField e.2 (8 * i + 4) 4)
    | none => []
  let s : State := { s with samples := { s.samples with
    restored := if anchors.isEmpty then s.samples.restored else Tab.put s.samples.restored slot anchors } }
  (s.openJob p next (if bitOf (snapFlags h) 0 then next else 0)).complete p Status.ok 0 bytes bytes

def jobRestoreCommand : Command where
  code := 0x0105
  lens := fun n => n == 2
  job := .fresh 0
  params := fun s p => lowestFail (s.openFields p ++
    [need (decide (1 ≤ restoreCount p) && decide (restoreCount p ≤ 256)) 78,
     need (p.param 40 8 % 64 == 0) 104, need ((restoreSlices p != 0 || p.param 48 8 == 0) && p.param 48 8 % 64 == 0) 112,
     need (decide (restoreSlices p ≤ 1024)) 120, p.zeros 124 68])
  uses := fun s p =>
    s.openUses p ++ [⟨104, restoreList p, false⟩, ⟨112, restoreMap p, false⟩] ++
      ((List.range (restoreCount p)).map fun i => (⟨104, s.snapAt p i, false⟩ : Use)) ++
      (s.mapEntries p).map fun m => ⟨112, m.2.2, true⟩
  overlaps := fun s p => firstFail [s.openAlias p,
    (firstIdx (fun i => !((s.snapAt p i).inModule || (s.snapAt p i).inside hostRange)) 0 (List.range (restoreCount p))).map fun i =>
      ⟨Status.badParam, inStruct 104 (16 * i)⟩]
  security := fun s p => firstFail [s.openSecurity p,
    match s.openPair p with
    | some (m, o) => demand (!s.restoreSealed p || !overlayConfidential o ||
        ((s.openKey m o).bind fun k => Tab.look s.sec.keys k).any fun k => bitOf k.policy 1) Status.keyRefused 5
    | none => none]
  own := fun s p => firstFail [s.openOwn p, s.restoreFault p,
    demand (decide (s.emb.slices.length + ((s.restoreFound p).filter fun e => e.kind == 2).length ≤ 1024)) Status.tableFull 112]
  unit := 1
  total := fun s p => (s.restoreFound p).foldl (fun n e => n + e.size) 0
  effect := fun p s =>
    let spoil := fun (t : State) => (s.restoreWrites p).foldl (fun (u : State) r => u.scramble r.lo r.len) t
    let total := (s.restoreFound p).foldl (fun n e => n + e.size) 0
    s.orPoisoned p ((List.range (restoreCount p)).map (s.snapAt p)) spoil fun s =>
      let key := (s.openPair p).bind fun mo => (s.openKey mo.1 mo.2).bind fun k => Tab.look s.sec.keys k
      match s.allPlain key (s.restoreFound p) with
      | .ok l => s.restoreJob p l
      | .error n => (spoil s).complete p Status.packageInvalid n 0 total

/-- JOB_RESTORE. -/
def execJobRestore (p : Packet) (s : State) : Host.Outcome State Fault Refusal := .next (jobRestoreCommand.start p s)

end Sys2Proof.Machine
end

