-- ==== Sys2Proof/Machine/Steps.lean ====
section
/-! DEFINITION. The phases of a step (R39 to R42, R45, R57, R303, R320, R342, R457 to R459, R598, R599): Prepare, Run, the end of
Check, the end of a commit, musters, and the timers of votes and decisions. -/

namespace Sys2Proof.Machine

def State.jobAt (s : State) (slot : Nat) : Option Job := Tab.look s.job.jobs slot

/-! ## Prepare (R39, R236, R303) -/

/-- The FPROG_START block of a prepare record for step t. -/
def prepareBlock (record : List Byte) (t : Nat) : List Byte :=
  let b := slice record 64 1152
  let b := overlay b 16 (leBytes 8 (startFirst b + t * leField record 8 8))
  (List.range 8).foldl (fun b i =>
    if startKind b i = 1 then overlay b (outAt i) (leBytes 8 (leField b (outAt i) 8 + t % 3 * leField record 16 8)) else b) b

/-- One past the last step that the job's STEP_RUNs cover. -/
def Job.lastToRun (j : Job) : Nat := j.nextToRun

/-- The step may be prepared: it is the next not prepared, at most lookahead steps ahead of the step that runs next, and covered by a
STEP_RUN. -/
def Job.mayPrepare (j : Job) (step : Nat) : Bool :=
  j.state == .running && !(j.muster.any fun m => m.only) && decide (j.next ≤ step) && decide (step < j.lastToRun) &&
    decide (step ≤ j.next + manLookahead (j.imageAt step)) && !j.prepared.contains step &&
    (List.range (step - j.next)).all fun i => j.prepared.contains (j.next + i)

/-- Prepare of a step: its programs are queued to start, and its batches are dealt. -/
def State.preparePhase (s : State) (slot step : Nat) : State :=
  match s.jobAt slot with
  | none => s
  | some j =>
    if !j.mayPrepare step then s
    else
      let img := s.stepImage j step
      let blocks := (List.range (graphPrepares img)).map fun i => (slot, step, prepareBlock (graphPrepare img i) step)
      let s := s.setJob slot { j with prepared := j.prepared ++ [step] }
      let s := { s with ingest := { s.ingest with waiting := s.ingest.waiting ++ blocks } }
      let s := if (Tab.look s.samples.pipes slot).isSome then j.ranks.foldl (fun t r => t.deal (.job slot) r step) s else s
      s.startQueued

/-- PREPARE_PHASE_START. -/
def execPreparePhaseStart (slot step : Nat) (s : State) : Host.Outcome State Fault Refusal := .next (s.preparePhase slot step)

/-! ## Run (R39, R308, R320, R345) -/

/-- The Run phase of the job's next step may start. -/
def Job.mayRun (j : Job) : Bool :=
  j.state == .running && j.phase == .idle && !(j.muster.any fun m => m.only) && j.prepared.contains j.next &&
    match j.runs with
    | r :: _ => decide (r.first ≤ j.next) && decide (j.next < r.first + r.count) || decide (j.next < r.first)
    | [] => false

/-- The step graph of the next step: none where it has none; its number, and the slot where it stands. -/
def State.nextGraph (s : State) (j : Job) : Option (Nat × Option (Nat × GraphSlot)) :=
  let m := j.imageAt j.next
  (stepGraphOf m).map fun x => (x.1, (s.graphByPrefix x.2).filter fun g => graphSemantics g.2.image == manSemantics m)

/-- Start the Run phase. -/
def State.runPhase (s : State) (slot : Nat) : State :=
  match s.jobAt slot with
  | none => s
  | some j =>
    if !j.mayRun then s
    else
      let attempt := Tab.get 0 j.floors j.next
      match s.nextGraph j with
      | none => s.startAttempt slot attempt
      | some (n, none) => (s.startAttempt slot attempt).onJob slot fun j => j.blame Status.graphUnavailable n
      | some (_, some (k, g)) =>
        if !s.budgetRoom g.image then s
        else
          let run : GraphRun := ⟨k, some slot, none, j.next, attempt, false, false, [], [], [], [], [], [], s.bindVersions g.image, [], []⟩
          (s.newRun run).startAttempt slot attempt

/-- RUN_PHASE_START. -/
def execRunPhaseStart (slot : Nat) (s : State) : Host.Outcome State Fault Refusal := .next (s.runPhase slot).settleRelay

/-! ## The end of Check (R45, R448 to R450) -/

/-- Every task of a kind has been accepted. -/
def State.tasksDone (s : State) (g : GraphRun) (commit : Bool) : Bool :=
  ((graphTaskList (s.runImage g)).zipIdx).all fun x => x.1.commit != commit ||
    (match Tab.look g.tasks x.2 with
      | some t => t.place == .accepted
      | none => false)

/-- Digests of a tile's runs. -/
def GraphRun.digests (g : GraphRun) (task : Nat) : List (Nat × DWord) :=
  (g.runs.filter fun x => x.1 == task).map fun x => x.2

/-- The reference digest of a tile: the first that two runs on different arrays have produced. -/
def referenceDigest : List (Nat × DWord) → List (Nat × DWord) → Option DWord
  | _, [] => none
  | before, x :: t =>
    if before.any fun y => y.2 == x.2 && y.1 != x.1 then some x.2 else referenceDigest (before ++ [x]) t

/-- Strikes against the arrays whose run of a tile differs from its reference. -/
def State.strikeDisputed (s : State) (g : GraphRun) (task : Nat) : State :=
  let l := g.digests task
  match referenceDigest [] l with
  | none => s
  | some d => (l.filter fun x => x.2 != d).foldl (fun t x => t.strike (.unit (unitId 1 x.1)) 1) s

/-- Compare the digests of a step's selected and disputed tiles. -/
def State.compareTiles (s : State) (slot run : Nat) (g : GraphRun) : State :=
  let differ := g.selected.filter fun t => match g.digests t with
    | x :: l => l.any fun y => y.2 != x.2
    | [] => false
  let open_ := g.disputed.filter fun t => (referenceDigest [] (g.digests t)).isNone
  let closed := g.disputed.filter fun t => (referenceDigest [] (g.digests t)).isSome
  let s := closed.foldl (fun t k => t.strikeDisputed g k) s
  let s := s.bump Reg.intDupMismatch differ.length
  let s := s.onGraphRun run fun g => { g with disputed := open_ ++ differ }
  (differ ++ open_).foldl (fun t _ => t.onJob slot fun j => j.blame Status.digestMismatch 0) s

/-- The Check phase of the attempt can end: its tasks and duplicates are done, or a failure is known and no page is being copied. -/
def State.checkDone (s : State) (slot : Nat) (j : Job) : Bool :=
  let done : Bool := match s.stepRunOf slot with
    | some (_, g) => s.tasksDone g false && g.dups.isEmpty
    | none => true
  let repairing := s.relay.ops.any fun o => match o.2.owner with
    | .repair k _ => k == slot
    | _ => false
  done || (!j.faults.isEmpty && !repairing)

/-- Check ends: the rank forms its vote, and its vote timer starts (R49). -/
def State.checkPhase (s : State) (slot : Nat) : State :=
  match s.jobAt slot with
  | none => s
  | some j =>
    if j.phase ≠ .run then s
    else
      let s := s.absorbEnded slot j.next
      match s.jobAt slot with
      | none => s
      | some j =>
        if !s.checkDone slot j then s
        else
          let s := match s.stepRunOf slot with
            | some (run, g) => if s.tasksDone g false && g.dups.isEmpty then s.compareTiles slot run g else s
            | none => s
          (s.onJob slot fun j => { j with phase := .voted, voteTimer := some s.clk }).tally slot

/-- CHECK_PHASE_END. -/
def execCheckPhaseEnd (slot : Nat) (s : State) : Host.Outcome State Fault Refusal := .next (s.checkPhase slot).settleRelay

/-! ## Commit (R41, R42, R342, R346, R370, R598) -/

/-- Contributions of one row at a time, in order. -/
def rowGroups (l : List Contribution) : List (Nat × Nat × List Contribution) :=
  let sorted := l.foldr insertContribution []
  let keys := (sorted.map fun c => (c.slice, c.row)).eraseDups
  keys.map fun k => (k.1, k.2, sorted.filter fun c => c.slice == k.1 && c.row == k.2)

/-- Apply the contributions of one row. A row that fails parity twice is poisoned: what is written is undefined (R598). -/
def State.applyGroup (s : State) (slot : Nat) (bound : List (Nat × Nat)) (x : Nat × Nat × List Contribution) : State :=
  match s.embSlice x.1, bound.find? fun b => b.1 == x.1 with
  | some e, some b => match e.versions.find? fun v => v.number == b.2 with
    | none => s
    | some v =>
      let lo := e.rowAt v x.2.1
      match s.poisonedIn [⟨lo, e.width⟩] with
      | some a =>
        let s := (s.parity (chargeOf a)).parity (chargeOf a)
        (s.scramble lo e.width).onJob slot fun j => { j with spoiled := some (j.spoiled.getD a) }
      | none => (s.journal slot lo e.width).applyRow x.1 x.2.1 b.2 x.2.2
  | _, _ => s

/-- Item 2 of a commit: scatter-adds. -/
def State.applyScatter (s : State) (slot : Nat) (bound : List (Nat × Nat)) : State :=
  let l := Tab.get [] s.emb.scatter slot
  let s := (rowGroups l).foldl (fun t x => t.applyGroup slot bound x) s
  { s with emb := { s.emb with scatter := Tab.del s.emb.scatter slot } }

/-- Item 4: table-version switches staged for the next step. -/
def State.switchVersions (s : State) (slot : Nat) (j : Job) : State :=
  let due := s.emb.staged.filter fun e => e.2.2 == j.next + 1 && (s.tableSlices e.1).any fun x => x.2.job == j.id
  due.foldl (fun t e =>
    let u := t.makeCurrent e.1 e.2.1
    let u := { u with emb := { u.emb with staged := Tab.del u.emb.staged e.1 } }
    u.onJob slot fun j => { j with switched := true }) s

/-- Item 5: a manifest switch staged for the next step. -/
def State.switchManifest (s : State) (slot : Nat) : State :=
  s.onJob slot fun j => match j.staged with
    | some x =>
      if x.step = j.next + 1 then { j with
        baseSlot := x.baseSlot
        overlaySlot := x.overlaySlot
        image := x.image
        digest := x.digest
        mode := ((s.overlayOf x.overlaySlot).map overlayMode).getD j.mode
        staged := none
        switched := true }
      else j
    | none => j

/-- The step report (R57). -/
def State.stepReport (s : State) (j : Job) : List Byte :=
  let note := if j.expelled.isSome then 0x0403 else if j.attempt = 0 then 0 else 0x0402
  leBytes 4 j.next ++ leBytes 1 (j.attempt + 1) ++ leBytes 1 0 ++ leBytes 2 note ++ j.tagAt j.next ++ slice j.words 0 32 ++
    leBytes 8 s.clk ++ leBytes 4 (j.expelled.getD 0xFFFFFFFF) ++ leBytes 4 0

/-- Where the report of the next step goes: where it was first written, or its place in the running STEP_RUN's buffer (R462). -/
def Job.reportAt (j : Job) : Option Nat :=
  match Tab.look j.reports j.next with
  | some e => some e.1
  | none => (j.runs.head?).map fun r => hostWindow + r.reports + 64 * (j.next - r.first)

/-- The muster that a committed step begins (R457, R459). -/
def Job.newMuster (j : Job) : Option Muster :=
  let n := manMuster (j.imageAt j.next)
  let last := match j.runs with
    | r :: _ => decide (r.first + r.count = j.next + 1)
    | [] => false
  if n ≠ 0 ∧ (j.next + 1) % n = 0 then some ⟨j.next, j.attempt, 0, false, last⟩ else j.muster

/-- The running STEP_RUN shows one more committed step; its position does not fall in a rollback (R462). -/
def State.showStep (s : State) (slot : Nat) : State :=
  match s.jobAt slot with
  | none => s
  | some j => match j.runs with
    | [] => s
    | r :: t =>
      let n := max r.shown (j.next - r.first)
      let s := s.setJob slot { j with runs := { r with shown := n } :: t }
      match s.stepCommand r with
      | some o =>
        let s := { s with running := s.running.map fun (x : RunOp) => if x = o then { o with position := n } else x }
        s.advance o.pkt n o.total
      | none => s

/-- The committed step number advances, and the step's held inputs are released (R40, R41). -/
def State.advanceStep (s : State) (slot : Nat) : State :=
  match s.jobAt slot with
  | none => s
  | some j =>
    let at_ := j.reportAt.getD 0
    let floors := Tab.del j.floors j.next
    let j1 := { j with
      next := j.next + 1
      phase := .idle
      attempt := 0
      floors := floors
      prepared := j.prepared.filter fun t => decide (j.next < t)
      faults := []
      votes := []
      voteTimer := none
      decisionTimer := none
      queryTimer := none
      expelled := if floors.isEmpty then none else j.expelled
      applyJournal := []
      parity := []
      words := List.replicate 32 0
      muster := j.newMuster
      digests := []
      verdicts := []
      reports := if manMuster (j.imageAt j.next) = 0 then j.reports else Tab.put j.reports j.next (at_, j.attempt) }
    let s := s.setJob slot j1
    let s := { s with
      integrity := { s.integrity with clock := s.integrity.clock + 1 }
      samples := { s.samples with ready := s.samples.ready.filter fun x => !(x.1 == slot && x.2.2 == j.next) }
      ingest := { s.ingest with ended := s.ingest.ended.filter fun e => !(e.1 == slot && e.2.1 == j.next) } }
    let s := s.setRelay { s.relay with planes := s.relay.planes.filter fun x => !(x.job == j.id && x.step == j.next) }
    match Tab.look s.samples.pipes slot with
    | some x => s.setPipe slot { x with anchors := anchorsFrom x.anchors j1.floorStep }
    | none => s

/-- The failed module's ranks are rehosted once the commit that the acting root found is complete; REPLAY(s + 1, 1), which names
rank 0, tells every other rank (R599). -/
def State.actingCommitted (s : State) (slot : Nat) : State :=
  match (s.jobAt slot).bind fun j => j.acting.map fun a => (j, a) with
  | none => s
  | some (j, a) =>
    let left := (List.range j.rankCount).filter fun r => !a.failed.contains (s.rankModule j r)
    if !j.ranks.contains (left.headD 0) then s.onJob slot fun j => { j with acting := none }
    else
      let others := (List.range j.rankCount).filter fun r => !j.ranks.contains r && !a.failed.contains (s.rankModule j r)
      let me := j.ranks.headD 0
      let cause := Status.rankExpelled.toNat
      let s := others.foldl (fun t r => t.sendSignal j j.next 1 me r 3 cause (replayValue 0 false false 0 none)) s
      let s := s.rehostModules slot (a.failed.take 1)
      s.onJob slot fun j => { j with
        acting := none
        floors := Tab.put j.floors j.next 1
        state := if j.state = .rehosting then .running else j.state }

/-- What follows the committed step: poisoned data or a lost journal copy, the end of the STEP_RUN, a muster-only round. -/
def State.afterStep (s : State) (slot : Nat) : State :=
  match s.jobAt slot with
  | none => s
  | some j =>
    match j.spoiled with
    | some a => s.failNext slot Status.dataPoisoned a
    | none =>
      if j.journalLost then s.failNext slot Status.journalFull 0
      else match j.runs with
        | [] => s
        | r :: _ =>
          let ended := decide (r.first + r.count ≤ j.next)
          if ended ∧ (j.muster.any fun m => m.only) then s
          else if ended ∨ r.aborted then s.endHead slot
          else s

/-- The commit's applies have finished. -/
def State.commitPhase (s : State) (slot : Nat) : State :=
  match s.jobAt slot with
  | none => s
  | some j =>
    let run := s.stepRunOf slot
    let done : Bool := match run with
      | some (_, g) => g.commitOpen && s.tasksDone g true
      | none => j.muster.isNone
    if j.phase ≠ .commit ∨ !done then s
    else
      let s := s.applyScatter slot ((run.map fun g => g.2.bound).getD [])
      let s := (s.hotSwitch 0).hotSwitch 1
      let s := (s.switchVersions slot j).switchManifest slot
      match s.jobAt slot with
      | none => s
      | some j1 =>
        let old := { j1 with image := j.image, digest := j.digest, staged := j.staged }
        let s := match j1.reportAt with
          | some a => s.store a (s.stepReport old)
          | none => s
        let s := s.advanceStep slot
        let s := match run with
          | some (k, _) => s.dropRun k
          | none => s.retireVersions
        (((s.showStep slot).actingCommitted slot).afterStep slot).wake.remedies

/-- COMMIT_APPLY_COMPLETE. -/
def execCommitApplyComplete (slot : Nat) (s : State) : Host.Outcome State Fault Refusal := .next (s.commitPhase slot).settleRelay

/-! ## Musters (R457, R458) -/

/-- Ranges of committed state that the module's replica groups share: what COMMIT tasks of the step graph write, and the CURRENT
version of every slice of the job, in module memory. -/
def State.musterRanges (s : State) (j : Job) (step : Nat) : List Range :=
  let img := s.stepImage j step
  let writes := ((graphTaskList img).filter fun t => t.commit).flatMap (taskWrites img)
  let slices := (s.emb.slices.filter fun e => e.2.job == j.id).filterMap fun e => e.2.current.map fun v => (⟨v.base, v.size⟩ : Range)
  (writes ++ slices).filter fun r => decide (0 < r.len) && r.inModule

/-- Insert a number in ascending order, once. -/
def insertOnce (n : Nat) : List Nat → List Nat
  | [] => [n]
  | a :: t => if n < a then n :: a :: t else if n = a then a :: t else a :: insertOnce n t

/-- The 4 KiB pages that ranges touch, ascending. -/
def pagesOf (l : List Range) : List Nat :=
  l.foldl (fun p r =>
    (List.range ((r.lo + r.len - 1) / 4096 + 1 - r.lo / 4096)).foldl (fun p i => insertOnce (4096 * (r.lo / 4096 + i)) p) p) []

/-- The digest of a page (R457). -/
def State.pageDigest (s : State) (seed : DWord) (page : Nat) : DWord :=
  (List.range 512).foldl (fun d w => mix64 (d ^^^ BitVec.ofNat 64 (s.loadNat (page + 8 * w) 8)) seed) (mix64 0 seed)

/-- The state digest of the job as its muster's step left it. -/
def State.stateDigest (s : State) (j : Job) (step : Nat) : List Byte :=
  let seed := BitVec.ofNat 64 (manSeed (j.imageAt step))
  sha3 ((pagesOf (s.musterRanges j step)).flatMap fun p => leBytes 8 (s.pageDigest seed p).toNat)

/-- A rank's digests go to its leader's muster area. -/
def State.sendDigests (s : State) (slot : Nat) (j : Job) (m : Muster) (d : List Byte) (r : Nat) : State :=
  let ways := manShards j.image
  let leader := r % ways
  if j.ranks.contains leader then
    s.onJob slot fun j => { j with digests := (j.digests.filter fun x => x.1 != r) ++ [(r, slice d 0 64, slice d 64 64)] }
  else s.sealedPut .nobody (s.rankModule j leader) 2 musterRegion (128 * (r / ways)) (j.origin m.step m.attempt r) d

/-- The members of a leader's replica group. -/
def Job.groupOf (j : Job) (leader : Nat) : List Nat :=
  (List.range j.rankCount).filter fun r => r % manShards j.image == leader

/-- The reads of a muster's digests are complete: the digests are sent, a group of one passes, and the next step may commit. -/
def State.musterFormed (s : State) (slot : Nat) : State :=
  match (s.jobAt slot).bind fun j => j.muster.map fun m => (j, m) with
  | none => s
  | some (j, m) =>
    if m.formed then s
    else
      let d := s.stateDigest j m.step ++ j.digestAt m.step
      let s := j.ranks.foldl (fun t r => t.sendDigests slot j m d r) s
      let alone := j.ranks.filter fun r => j.leads r && (j.groupOf r).length == 1
      let s := s.onJob slot fun j => { j with
        muster := some { m with formed := true }
        verdicts := j.verdicts ++ alone.map passVote
        voteTimer := if m.only then some s.clk else j.voteTimer }
      (s.openCommit slot).tally slot

/-- MUSTER_DIGEST_FORMED. -/
def execMusterDigestFormed (slot : Nat) (s : State) : Host.Outcome State Fault Refusal := .next (s.musterFormed slot).settleRelay

/-- The outcome of a comparison: the leader's vote on the muster. -/
def musterVerdict (leader : Nat) (l : List (Nat × List Byte × List Byte)) : Vote :=
  let count := fun (d : List Byte × List Byte) => (l.filter fun x => x.2 == d).length
  match l.find? fun x => decide (l.length < 2 * count x.2) with
  | some x => match l.find? fun y => y.2 != x.2 with
    | none => passVote leader
    | some y => ⟨leader, false, Status.rankExpelled, 0, some y.1, false⟩
  | none =>
    let own := (l.find? fun x => x.1 == leader).map fun x => x.2
    let first := l.find? fun x => some x.2 != own
    ⟨leader, false, Status.musterFailed, 0, first.map fun x => x.1, false⟩

/-- A leader compares its group's digests. -/
def State.musterCompare (s : State) (slot rank : Nat) : State :=
  match (s.jobAt slot).bind fun j => j.muster.map fun m => (j, m) with
  | none => s
  | some (j, m) =>
    let group := j.groupOf rank
    let l := group.filterMap fun r => j.digests.find? fun x => x.1 == r
    if !m.formed ∨ !j.ranks.contains rank ∨ !j.leads rank ∨ l.length ≠ group.length ∨ j.verdicts.any fun v => v.rank == rank then s
    else
      let v := musterVerdict rank l
      (s.onJob slot fun j => { j with verdicts := j.verdicts ++ [v] }).tally slot

/-- MUSTER_COMPARE. -/
def execMusterCompare (slot rank : Nat) (s : State) : Host.Outcome State Fault Refusal := .next (s.musterCompare slot rank).settleRelay

/-! ## Timers of votes and decisions (R49, R599) -/

/-- vote_timeout_ms has passed since a timer started. -/
def State.timedOut (s : State) (j : Job) (t : Option Nat) : Bool :=
  t.any fun n => decide (n + milliseconds (manVoteMs j.image) ≤ s.clk)

/-- VOTE_TIMEOUT. -/
def execVoteTimeout (slot : Nat) (s : State) : Host.Outcome State Fault Refusal :=
  .next (match s.jobAt slot with
    | none => s
    | some j =>
      if s.timedOut j j.voteTimer ∧ j.ballot.isSome then
        ((s.setJob slot { j with voteTimer := none }).tally slot).settleRelay
      else s)

/-- DECISION_TIMEOUT: the rank asks rank 0's module. -/
def execDecisionTimeout (slot : Nat) (s : State) : Host.Outcome State Fault Refusal :=
  .next (match s.jobAt slot with
    | none => s
    | some j =>
      if s.timedOut j j.decisionTimer ∧ j.phase = .voted ∧ !j.ranks.contains 0 then
        let s := s.setJob slot { j with decisionTimer := none, queryTimer := some s.clk }
        (s.sendSignal j j.next j.attempt (j.ranks.headD 0) 0 5 0 0).settleRelay
      else s)

/-- The module of rank 0 is taken as failed. The lowest rank it does not hold acts as root; any other rank waits once more. -/
def State.rootLost (s : State) (slot : Nat) (j : Job) : State :=
  let failed := s.rankModule j 0
  let left := (List.range j.rankCount).filter fun r => s.rankModule j r != failed
  let me := j.ranks.headD 0
  let asked := left.filter fun r => !j.ranks.contains r
  if j.ranks.contains (left.headD 0) then
    let s := s.setJob slot { j with acting := some ⟨[failed], asked, []⟩, queryTimer := some s.clk, state := .rehosting }
    (asked.foldl (fun t r => t.sendSignal j j.next j.attempt me r 5 0 0) s).actingDone slot
  else s.setJob slot { j with acting := some ⟨[failed], [], []⟩, queryTimer := some s.clk }

/-- QUERY_TIMEOUT. -/
def execQueryTimeout (slot : Nat) (s : State) : Host.Outcome State Fault Refusal :=
  .next (match s.jobAt slot with
    | none => s
    | some j =>
      if !s.timedOut j j.queryTimer ∨ j.phase ≠ .voted then s
      else match j.acting with
        | none => (s.rootLost slot j).settleRelay
        | some a =>
          if j.state = .rehosting then
            let silent := (a.asked.map fun r => s.rankModule j r).eraseDups
            let failed := a.failed ++ silent.filter fun m => !a.failed.contains m
            let s := s.setJob slot { j with acting := some { a with failed := failed, asked := [] }, queryTimer := none }
            (s.actingDone slot).settleRelay
          else (s.holdJob slot Status.peerUnreachable 0).settleRelay)

end Sys2Proof.Machine
end

