-- ==== Sys2Proof/Machine/Dispatch.lean ====
section
/-! DEFINITION. The dispatch of every command to its meaning: one arm per constructor of Instr. -/

namespace Sys2Proof.Machine

def exec (i : Instr) (s : State) : Host.Outcome State Fault Refusal :=
  match i with
  | .jobOpen p => Sys2Proof.Machine.execJobOpen p s
  | .jobAttach p => Sys2Proof.Machine.execJobAttach p s
  | .stepRun p => Sys2Proof.Machine.execStepRun p s
  | .jobSnapshot p => Sys2Proof.Machine.execJobSnapshot p s
  | .jobRestore p => Sys2Proof.Machine.execJobRestore p s
  | .jobClose p => Sys2Proof.Machine.execJobClose p s
  | .regionDefine p => Sys2Proof.Machine.execRegionDefine p s
  | .regionRelease p => Sys2Proof.Machine.execRegionRelease p s
  | .memCopy p => Sys2Proof.Machine.execMemCopy p s
  | .memFill p => Sys2Proof.Machine.execMemFill p s
  | .tableLoad p fetched => Sys2Proof.Machine.execTableLoad p fetched s
  | .tableRelease p => Sys2Proof.Machine.execTableRelease p s
  | .fprogLoad p => Sys2Proof.Machine.execFprogLoad p s
  | .fprogStart p => Sys2Proof.Machine.execFprogStart p s
  | .fprogQuery p => Sys2Proof.Machine.execFprogQuery p s
  | .fprogUnload p => Sys2Proof.Machine.execFprogUnload p s
  | .partitionExchange p => Sys2Proof.Machine.execPartitionExchange p s
  | .datasetOpen p => Sys2Proof.Machine.execDatasetOpen p s
  | .pipelineConfig p => Sys2Proof.Machine.execPipelineConfig p s
  | .epochSet p => Sys2Proof.Machine.execEpochSet p s
  | .batchPrepare p => Sys2Proof.Machine.execBatchPrepare p s
  | .correctionLoad p => Sys2Proof.Machine.execCorrectionLoad p s
  | .datasetClose p => Sys2Proof.Machine.execDatasetClose p s
  | .graphLoad p => Sys2Proof.Machine.execGraphLoad p s
  | .graphUnload p => Sys2Proof.Machine.execGraphUnload p s
  | .graphRun p => Sys2Proof.Machine.execGraphRun p s
  | .embTableCreate p => Sys2Proof.Machine.execEmbTableCreate p s
  | .embVersionLoad p fetched => Sys2Proof.Machine.execEmbVersionLoad p fetched s
  | .embVersionPublish p => Sys2Proof.Machine.execEmbVersionPublish p s
  | .embGather p => Sys2Proof.Machine.execEmbGather p s
  | .embTableDestroy p => Sys2Proof.Machine.execEmbTableDestroy p s
  | .dirBankConfig p => Sys2Proof.Machine.execDirBankConfig p s
  | .dirInsert p => Sys2Proof.Machine.execDirInsert p s
  | .dirDelete p => Sys2Proof.Machine.execDirDelete p s
  | .dirSearch p => Sys2Proof.Machine.execDirSearch p s
  | .dirCompact p => Sys2Proof.Machine.execDirCompact p s
  | .dirHotPromote p => Sys2Proof.Machine.execDirHotPromote p s
  | .dirHotDemote p => Sys2Proof.Machine.execDirHotDemote p s
  | .selectTopk p => Sys2Proof.Machine.execSelectTopk p s
  | .selectMerge p => Sys2Proof.Machine.execSelectMerge p s
  | .relayPeerSetLocal p => Sys2Proof.Machine.execRelayPeerSetLocal p s
  | .relayPeerSetModules p => Sys2Proof.Machine.execRelayPeerSetModules p s
  | .relayQpCreate p => Sys2Proof.Machine.execRelayQpCreate p s
  | .relayQpDestroy p => Sys2Proof.Machine.execRelayQpDestroy p s
  | .relayPostWrite p => Sys2Proof.Machine.execRelayPostWrite p s
  | .relayPostWriteImm p => Sys2Proof.Machine.execRelayPostWriteImm p s
  | .relayPostRead p => Sys2Proof.Machine.execRelayPostRead p s
  | .relayPostFetchAdd p => Sys2Proof.Machine.execRelayPostFetchAdd p s
  | .relayPostCmpSwap p => Sys2Proof.Machine.execRelayPostCmpSwap p s
  | .relayPostSealedPut p => Sys2Proof.Machine.execRelayPostSealedPut p s
  | .relayPostSealedGet p => Sys2Proof.Machine.execRelayPostSealedGet p s
  | .relayPostFence p => Sys2Proof.Machine.execRelayPostFence p s
  | .intTestUnit p => Sys2Proof.Machine.execIntTestUnit p s
  | .intTestAll p => Sys2Proof.Machine.execIntTestAll p s
  | .intStrikesQuery p => Sys2Proof.Machine.execIntStrikesQuery p s
  | .intFence p => Sys2Proof.Machine.execIntFence p s
  | .intUnfence p => Sys2Proof.Machine.execIntUnfence p s
  | .patternSetStage p => Sys2Proof.Machine.execPatternSetStage p s
  | .secSessionOpenNew p => Sys2Proof.Machine.execSecSessionOpenNew p s
  | .secSessionOpenCertify p => Sys2Proof.Machine.execSecSessionOpenCertify p s
  | .secSessionOpenPairOffer p => Sys2Proof.Machine.execSecSessionOpenPairOffer p s
  | .secSessionOpenJobKeyIssue p => Sys2Proof.Machine.execSecSessionOpenJobKeyIssue p s
  | .secKeyImportModelKey p => Sys2Proof.Machine.execSecKeyImportModelKey p s
  | .secKeyImportPair p => Sys2Proof.Machine.execSecKeyImportPair p s
  | .secKeyImportJobKey p => Sys2Proof.Machine.execSecKeyImportJobKey p s
  | .secWeightsImport p => Sys2Proof.Machine.execSecWeightsImport p s
  | .secWeightsExport p => Sys2Proof.Machine.execSecWeightsExport p s
  | .secRegionProtect p => Sys2Proof.Machine.execSecRegionProtect p s
  | .nop p => Sys2Proof.Machine.execNop p s
  | .abort p => Sys2Proof.Machine.execAbort p s
  | .fwStage p => Sys2Proof.Machine.execFwStage p s
  | .fwActivate p => Sys2Proof.Machine.execFwActivate p s
  | .powerCapSet p => Sys2Proof.Machine.execPowerCapSet p s
  | .ledgerRead p => Sys2Proof.Machine.execLedgerRead p s
  | .manifestLoad p => Sys2Proof.Machine.execManifestLoad p s
  | .manifestStage p => Sys2Proof.Machine.execManifestStage p s
  | .manifestQuery p => Sys2Proof.Machine.execManifestQuery p s
  | .packetConsumed ring stores hostStores tee => Sys2Proof.Machine.execPacketConsumed ring stores hostStores tee s
  | .statusRecordWrite ring => Sys2Proof.Machine.execStatusRecordWrite ring s
  | .interruptModerationTimeout ring => Sys2Proof.Machine.execInterruptModerationTimeout ring s
  | .cmdRingEnable ring v tee => Sys2Proof.Machine.execCmdRingEnable ring v tee s
  | .ringClearComplete ring => Sys2Proof.Machine.execRingClearComplete ring s
  | .cmdRingDisable ring v tee => Sys2Proof.Machine.execCmdRingDisable ring v tee s
  | .cmdCqHeadWrite ring v tee => Sys2Proof.Machine.execCmdCqHeadWrite ring v tee s
  | .cmdCqBaseWrite ring hi v tee => Sys2Proof.Machine.execCmdCqBaseWrite ring hi v tee s
  | .registerWrite off v tee => Sys2Proof.Machine.execRegisterWrite off v tee s
  | .bar4Access write off len data tee => Sys2Proof.Machine.execBar4Access write off len data tee s
  | .latchingRegisterRead off tee => Sys2Proof.Machine.execLatchingRegisterRead off tee s
  | .logWindowSeqWrite v tee => Sys2Proof.Machine.execLogWindowSeqWrite v tee s
  | .logWindowRefillDone => Sys2Proof.Machine.execLogWindowRefillDone s
  | .wghLogSelWrite v tee => Sys2Proof.Machine.execWghLogSelWrite v tee s
  | .mgtTimeCtrlWrite v tee => Sys2Proof.Machine.execMgtTimeCtrlWrite v tee s
  | .preparePhaseStart slot step => Sys2Proof.Machine.execPreparePhaseStart slot step s
  | .runPhaseStart slot => Sys2Proof.Machine.execRunPhaseStart slot s
  | .taskAdmission run die => Sys2Proof.Machine.execTaskAdmission run die s
  | .tokenArrival n => Sys2Proof.Machine.execTokenArrival n s
  | .taskGrant die ty dup => Sys2Proof.Machine.execTaskGrant die ty dup s
  | .taskResultOffered r => Sys2Proof.Machine.execTaskResultOffered r s
  | .engineTransferComplete unit => Sys2Proof.Machine.execEngineTransferComplete unit s
  | .queueSpaceReleased die prio => Sys2Proof.Machine.execQueueSpaceReleased die prio s
  | .prefetchCopyComplete n => Sys2Proof.Machine.execPrefetchCopyComplete n s
  | .checkPhaseEnd slot => Sys2Proof.Machine.execCheckPhaseEnd slot s
  | .voteReceived f => Sys2Proof.Machine.execVoteReceived f s
  | .commitReceived f => Sys2Proof.Machine.execCommitReceived f s
  | .commitApplyComplete slot => Sys2Proof.Machine.execCommitApplyComplete slot s
  | .replayReceived f => Sys2Proof.Machine.execReplayReceived f s
  | .queryReceived f => Sys2Proof.Machine.execQueryReceived f s
  | .voteTimeout slot => Sys2Proof.Machine.execVoteTimeout slot s
  | .decisionTimeout slot => Sys2Proof.Machine.execDecisionTimeout slot s
  | .queryTimeout slot => Sys2Proof.Machine.execQueryTimeout slot s
  | .musterDigestFormed slot => Sys2Proof.Machine.execMusterDigestFormed slot s
  | .musterCompare slot rank => Sys2Proof.Machine.execMusterCompare slot rank s
  | .stripeStart slot => Sys2Proof.Machine.execStripeStart slot s
  | .stripePlacement slot => Sys2Proof.Machine.execStripePlacement slot s
  | .sampleIssue die fetched => Sys2Proof.Machine.execSampleIssue die fetched s
  | .sampleDecodeComplete lane fetched => Sys2Proof.Machine.execSampleDecodeComplete lane fetched s
  | .slotHandOn die => Sys2Proof.Machine.execSlotHandOn die s
  | .sampleSourceTimeout die lane => Sys2Proof.Machine.execSampleSourceTimeout die lane s
  | .gatherWindowServed id w => Sys2Proof.Machine.execGatherWindowServed id w s
  | .hotRowCopyComplete die table slice row => Sys2Proof.Machine.execHotRowCopyComplete die table slice row s
  | .drainEpochDrained die epoch => Sys2Proof.Machine.execDrainEpochDrained die epoch s
  | .exchangeIncompleteTimeout key => Sys2Proof.Machine.execExchangeIncompleteTimeout key s
  | .slotPutReceived f => Sys2Proof.Machine.execSlotPutReceived f s
  | .sealedPutReceived f => Sys2Proof.Machine.execSealedPutReceived f s
  | .sealedGetRequestReceived f => Sys2Proof.Machine.execSealedGetRequestReceived f s
  | .sealedGetResponseReceived f => Sys2Proof.Machine.execSealedGetResponseReceived f s
  | .userSignalReceived f => Sys2Proof.Machine.execUserSignalReceived f s
  | .fenceReceived f => Sys2Proof.Machine.execFenceReceived f s
  | .ackReceived f => Sys2Proof.Machine.execAckReceived f s
  | .cnpReceived peer plane => Sys2Proof.Machine.execCnpReceived peer plane s
  | .rocePacketReceived f => Sys2Proof.Machine.execRocePacketReceived f s
  | .arpRequest port ipv6 target asker => Sys2Proof.Machine.execArpRequest port ipv6 target asker s
  | .discardedFrame => Sys2Proof.Machine.execDiscardedFrame s
  | .ackTimerExpiry peer serial cls => Sys2Proof.Machine.execAckTimerExpiry peer serial cls s
  | .retransmissionTimeout peer serial cls seq => Sys2Proof.Machine.execRetransmissionTimeout peer serial cls seq s
  | .notReadyResend peer serial cls seq => Sys2Proof.Machine.execNotReadyResend peer serial cls seq s
  | .rateLevelDecay peer plane => Sys2Proof.Machine.execRateLevelDecay peer plane s
  | .planeProbe peer plane => Sys2Proof.Machine.execPlaneProbe peer plane s
  | .linkStateChange port up => Sys2Proof.Machine.execLinkStateChange port up s
  | .relayPostTimeout ring seq => Sys2Proof.Machine.execRelayPostTimeout ring seq s
  | .pageRetirement granule addr poison => Sys2Proof.Machine.execPageRetirement granule addr poison s
  | .strikeExpiry => Sys2Proof.Machine.execStrikeExpiry s
  | .testFenceStart => Sys2Proof.Machine.execTestFenceStart s
  | .structuralTestComplete unit failed => Sys2Proof.Machine.execStructuralTestComplete unit failed s
  | .rotationTestDue watched => Sys2Proof.Machine.execRotationTestDue watched s
  | .railStepComplete rail => Sys2Proof.Machine.execRailStepComplete rail s
  | .railOutOfRegulation rail => Sys2Proof.Machine.execRailOutOfRegulation rail s
  | .sensorSample values => Sys2Proof.Machine.execSensorSample values s
  | .capLoopTick want unmet => Sys2Proof.Machine.execCapLoopTick want unmet s
  | .thermalLoopTick => Sys2Proof.Machine.execThermalLoopTick s
  | .fastLimiterTrip => Sys2Proof.Machine.execFastLimiterTrip s
  | .fastLimiterRelease => Sys2Proof.Machine.execFastLimiterRelease s
  | .pwrBrkAssert => Sys2Proof.Machine.execPwrBrkAssert s
  | .pwrBrkRelease => Sys2Proof.Machine.execPwrBrkRelease s
  | .thermalTrip => Sys2Proof.Machine.execThermalTrip s
  | .pllLossOfLock => Sys2Proof.Machine.execPllLossOfLock s
  | .inputReaches40v => Sys2Proof.Machine.execInputReaches40v s
  | .restartDelayExpiry => Sys2Proof.Machine.execRestartDelayExpiry s
  | .startUpStageComplete failed ms => Sys2Proof.Machine.execStartUpStageComplete failed ms s
  | .startUpStageTimeout ms => Sys2Proof.Machine.execStartUpStageTimeout ms s
  | .powerFail => Sys2Proof.Machine.execPowerFail s
  | .overvoltage => Sys2Proof.Machine.execOvervoltage s
  | .perstAssert => Sys2Proof.Machine.execPerstAssert s
  | .perstDeassert => Sys2Proof.Machine.execPerstDeassert s
  | .flr => Sys2Proof.Machine.execFlr s
  | .d3hotEntry => Sys2Proof.Machine.execD3hotEntry s
  | .d3hotExit => Sys2Proof.Machine.execD3hotExit s
  | .configurationRequest write off v early => Sys2Proof.Machine.execConfigurationRequest write off v early s
  | .entropyHealthFailure => Sys2Proof.Machine.execEntropyHealthFailure s
  | .getVersion => Sys2Proof.Machine.execGetVersion s
  | .getCapabilities => Sys2Proof.Machine.execGetCapabilities s
  | .negotiateAlgorithms offered => Sys2Proof.Machine.execNegotiateAlgorithms offered s
  | .getDigests => Sys2Proof.Machine.execGetDigests s
  | .getCertificate slot off len => Sys2Proof.Machine.execGetCertificate slot off len s
  | .challenge slot nonce => Sys2Proof.Machine.execChallenge slot nonce s
  | .getMeasurements index nonce => Sys2Proof.Machine.execGetMeasurements index nonce s
  | .keyExchange key => Sys2Proof.Machine.execKeyExchange key s
  | .finish verified => Sys2Proof.Machine.execFinish verified s
  | .endSession => Sys2Proof.Machine.execEndSession s
  | .vendorDefinedRequest m => Sys2Proof.Machine.execVendorDefinedRequest m s
  | .ideKmKeyProgram stream go => Sys2Proof.Machine.execIdeKmKeyProgram stream go s
  | .ideStreamLoss stream => Sys2Proof.Machine.execIdeStreamLoss stream s
  | .lockInterfaceRequest => Sys2Proof.Machine.execLockInterfaceRequest s
  | .startInterfaceRequest => Sys2Proof.Machine.execStartInterfaceRequest s
  | .stopInterfaceRequest => Sys2Proof.Machine.execStopInterfaceRequest s
  | .setEndpointId smbus eid => Sys2Proof.Machine.execSetEndpointId smbus eid s
  | .pldmSensorRequest smbus q => Sys2Proof.Machine.execPldmSensorRequest smbus q s
  | .requestUpdate smbus => Sys2Proof.Machine.execRequestUpdate smbus s
  | .passComponentTable smbus last => Sys2Proof.Machine.execPassComponentTable smbus last s
  | .updateComponent smbus component size => Sys2Proof.Machine.execUpdateComponent smbus component size s
  | .requestFirmwareData smbus data => Sys2Proof.Machine.execRequestFirmwareData smbus data s
  | .transferComplete smbus => Sys2Proof.Machine.execTransferComplete smbus s
  | .verifyComplete smbus => Sys2Proof.Machine.execVerifyComplete smbus s
  | .applyComplete smbus => Sys2Proof.Machine.execApplyComplete smbus s
  | .activateFirmware smbus => Sys2Proof.Machine.execActivateFirmware smbus s
  | .getStatus smbus => Sys2Proof.Machine.execGetStatus smbus s
  | .cancelUpdate smbus => Sys2Proof.Machine.execCancelUpdate smbus s
  | .activationStageStart => Sys2Proof.Machine.execActivationStageStart s
  | .processorReadyTimeout => Sys2Proof.Machine.execProcessorReadyTimeout s
  | .ledgerFlush => Sys2Proof.Machine.execLedgerFlush s
  | .secondBoundary => Sys2Proof.Machine.execSecondBoundary s
  | .ppsEdge off => Sys2Proof.Machine.execPpsEdge off s
  | .ptpMessageReceived port domain kind sequence origin => Sys2Proof.Machine.execPtpMessageReceived port domain kind sequence origin s
  | .meterLinkPoll => Sys2Proof.Machine.execMeterLinkPoll s
  | .meterLinkFrame f crcGood => Sys2Proof.Machine.execMeterLinkFrame f crcGood s
  | .meterReadRequest f crcGood => Sys2Proof.Machine.execMeterReadRequest f crcGood s
  | .meterStart sealOpen version checksum failed => Sys2Proof.Machine.execMeterStart sealOpen version checksum failed s
  | .counterRecordWrite => Sys2Proof.Machine.execCounterRecordWrite s
  | .meterPowerFail => Sys2Proof.Machine.execMeterPowerFail s
  | .sealSample isOpen => Sys2Proof.Machine.execSealSample isOpen s
  | .meterSelfTest failed => Sys2Proof.Machine.execMeterSelfTest failed s
  | .mtrPulse => Sys2Proof.Machine.execMtrPulse s
  | .reverse => Sys2Proof.Machine.execReverse s
  | .overrange => Sys2Proof.Machine.execOverrange s
  | .waitMsExpiry => Sys2Proof.Machine.execWaitMsExpiry s
  | .localAckTimeout n => Sys2Proof.Machine.execLocalAckTimeout n s
  | .referenceLost => Sys2Proof.Machine.execReferenceLost s
  | .throttleWindow => Sys2Proof.Machine.execThrottleWindow s
  | .reverification version checksum => Sys2Proof.Machine.execReverification version checksum s
  | .clockTreeOrResetDomainFault region => Sys2Proof.Machine.execClockTreeOrResetDomainFault region s
  | .portDieFault => Sys2Proof.Machine.execPortDieFault s
  | .jtagAccess extest connector => Sys2Proof.Machine.execJtagAccess extest connector s

end Sys2Proof.Machine
end

