-- ==== Sys2Proof/WellFormed.lean ====
section
/-! DEFINITION. Well-formed commands: a packet row carries a packet of that row's opcode as a ring delivers it (R75, R76, R97), and
the numbers an event row carries name things the module has (R12, R37, R73). -/

namespace Sys2Proof

open Sys2Proof.Machine

/-- A packet as a ring delivers it: of one of the 16 rings, as many slots as its LEN says, and the row's opcode. -/
def Machine.Packet.wf (p : Packet) (code : Nat) : Bool :=
  decide (p.ring < 16) && p.bytes.length == 64 * (1 + leField p.bytes 4 1 % 64) && leField p.bytes 0 2 == code

/-- A frame came in on one of the eight ports, from a 16-byte address. -/
def Machine.Frame.wf (f : Frame) : Bool := decide (f.port < 8) && f.src.length == 16

/-- The LO registers whose read latches a HI register. -/
def latching : List Nat := [Reg.mgtTimeLo, Reg.logNewestLo, Reg.logOldestLo, Reg.wghEnergyLo]

/-- A command is well formed. -/
def Instr.wf (i : Instr) : Bool :=
  match i with
  | .jobOpen p => p.wf 0x0101
  | .jobAttach p => p.wf 0x0102
  | .stepRun p => p.wf 0x0103
  | .jobSnapshot p => p.wf 0x0104
  | .jobRestore p => p.wf 0x0105
  | .jobClose p => p.wf 0x0106
  | .regionDefine p => p.wf 0x0201
  | .regionRelease p => p.wf 0x0202
  | .memCopy p => p.wf 0x0203
  | .memFill p => p.wf 0x0204
  | .tableLoad p _ => p.wf 0x0205
  | .tableRelease p => p.wf 0x0206
  | .fprogLoad p => p.wf 0x0301
  | .fprogStart p => p.wf 0x0302
  | .fprogQuery p => p.wf 0x0303
  | .fprogUnload p => p.wf 0x0304
  | .partitionExchange p => p.wf 0x0305
  | .datasetOpen p => p.wf 0x0401
  | .pipelineConfig p => p.wf 0x0402
  | .epochSet p => p.wf 0x0403
  | .batchPrepare p => p.wf 0x0404
  | .correctionLoad p => p.wf 0x0405
  | .datasetClose p => p.wf 0x0406
  | .graphLoad p => p.wf 0x0501
  | .graphUnload p => p.wf 0x0502
  | .graphRun p => p.wf 0x0503
  | .embTableCreate p => p.wf 0x0601
  | .embVersionLoad p _ => p.wf 0x0602
  | .embVersionPublish p => p.wf 0x0603
  | .embGather p => p.wf 0x0604
  | .embTableDestroy p => p.wf 0x0605
  | .dirBankConfig p => p.wf 0x0701
  | .dirInsert p => p.wf 0x0702
  | .dirDelete p => p.wf 0x0703
  | .dirSearch p => p.wf 0x0704
  | .dirCompact p => p.wf 0x0705
  | .dirHotPromote p => p.wf 0x0706
  | .dirHotDemote p => p.wf 0x0707
  | .selectTopk p => p.wf 0x0801
  | .selectMerge p => p.wf 0x0802
  | .relayPeerSetLocal p => p.wf 0x0901
  | .relayPeerSetModules p => p.wf 0x0901
  | .relayQpCreate p => p.wf 0x0902
  | .relayQpDestroy p => p.wf 0x0903
  | .relayPostWrite p => p.wf 0x0904
  | .relayPostWriteImm p => p.wf 0x0904
  | .relayPostRead p => p.wf 0x0904
  | .relayPostFetchAdd p => p.wf 0x0904
  | .relayPostCmpSwap p => p.wf 0x0904
  | .relayPostSealedPut p => p.wf 0x0904
  | .relayPostSealedGet p => p.wf 0x0904
  | .relayPostFence p => p.wf 0x0904
  | .intTestUnit p => p.wf 0x0A01
  | .intTestAll p => p.wf 0x0A02
  | .intStrikesQuery p => p.wf 0x0A03
  | .intFence p => p.wf 0x0A04
  | .intUnfence p => p.wf 0x0A05
  | .patternSetStage p => p.wf 0x0A06
  | .secSessionOpenNew p => p.wf 0x0B01
  | .secSessionOpenCertify p => p.wf 0x0B01
  | .secSessionOpenPairOffer p => p.wf 0x0B01
  | .secSessionOpenJobKeyIssue p => p.wf 0x0B01
  | .secKeyImportModelKey p => p.wf 0x0B02
  | .secKeyImportPair p => p.wf 0x0B02
  | .secKeyImportJobKey p => p.wf 0x0B02
  | .secWeightsImport p => p.wf 0x0B03
  | .secWeightsExport p => p.wf 0x0B04
  | .secRegionProtect p => p.wf 0x0B05
  | .nop p => p.wf 0x0C00
  | .abort p => p.wf 0x0C01
  | .fwStage p => p.wf 0x0C02
  | .fwActivate p => p.wf 0x0C03
  | .powerCapSet p => p.wf 0x0C04
  | .ledgerRead p => p.wf 0x0C05
  | .manifestLoad p => p.wf 0x0D01
  | .manifestStage p => p.wf 0x0D02
  | .manifestQuery p => p.wf 0x0D03
  | .packetConsumed ring _ _ _ => decide (ring < 16)
  | .statusRecordWrite ring => decide (ring < 16)
  | .interruptModerationTimeout ring => decide (ring < 16)
  | .cmdRingEnable ring _ _ => decide (ring < 16)
  | .ringClearComplete ring => decide (ring < 16)
  | .cmdRingDisable ring _ _ => decide (ring < 16)
  | .cmdCqHeadWrite ring _ _ => decide (ring < 16)
  | .cmdCqBaseWrite ring _ _ _ => decide (ring < 16)
  | .registerWrite off _ _ => decide (off < 0x2000000 ∧ off % 4 = 0)
  | .bar4Access _ _ len _ _ => decide (1 ≤ len ∧ len ≤ 4096)
  | .latchingRegisterRead off _ => latching.contains off
  | .logWindowSeqWrite _ _ => true
  | .logWindowRefillDone => true
  | .wghLogSelWrite _ _ => true
  | .mgtTimeCtrlWrite _ _ => true
  | .preparePhaseStart slot step => decide (slot < 16) && decide (step < 2 ^ 32)
  | .runPhaseStart slot => decide (slot < 16)
  | .taskAdmission _ die => decide (die < 2)
  | .tokenArrival _ => true
  | .taskGrant die ty _ => decide (die < 2) && decide (1 ≤ ty ∧ ty ≤ 7)
  | .taskResultOffered _ => true
  | .engineTransferComplete unit => unitValid unit
  | .queueSpaceReleased die prio => decide (die < 2) && decide (prio < 8)
  | .prefetchCopyComplete _ => true
  | .checkPhaseEnd slot => decide (slot < 16)
  | .voteReceived f => f.wf
  | .commitReceived f => f.wf
  | .commitApplyComplete slot => decide (slot < 16)
  | .replayReceived f => f.wf
  | .queryReceived f => f.wf
  | .voteTimeout slot => decide (slot < 16)
  | .decisionTimeout slot => decide (slot < 16)
  | .queryTimeout slot => decide (slot < 16)
  | .musterDigestFormed slot => decide (slot < 16)
  | .musterCompare slot _ => decide (slot < 16)
  | .stripeStart slot => decide (slot < 64)
  | .stripePlacement slot => decide (slot < 64)
  | .sampleIssue die _ => decide (die < 2)
  | .sampleDecodeComplete lane _ => decide (lane < 32)
  | .slotHandOn die => decide (die < 2)
  | .sampleSourceTimeout die _ => decide (die < 2)
  | .gatherWindowServed _ _ => true
  | .hotRowCopyComplete die table slice _ => decide (die < 2) && decide (table < 1024) && decide (slice < 64)
  | .drainEpochDrained die _ => decide (die < 2)
  | .exchangeIncompleteTimeout _ => true
  | .slotPutReceived f => f.wf
  | .sealedPutReceived f => f.wf
  | .sealedGetRequestReceived f => f.wf
  | .sealedGetResponseReceived f => f.wf
  | .userSignalReceived f => f.wf
  | .fenceReceived f => f.wf
  | .ackReceived f => f.wf
  | .cnpReceived peer plane => decide (peer < 65536) && decide (plane < 8)
  | .rocePacketReceived f => f.wf
  | .arpRequest port _ _ _ => decide (port < 8)
  | .discardedFrame => true
  | .ackTimerExpiry peer _ cls => decide (peer < 65536) && decide (cls < 4)
  | .retransmissionTimeout peer _ cls _ => decide (peer < 65536) && decide (cls < 4)
  | .notReadyResend peer _ cls _ => decide (peer < 65536) && decide (cls < 4)
  | .rateLevelDecay peer plane => decide (peer < 65536) && decide (plane < 8)
  | .planeProbe peer plane => decide (peer < 65536) && decide (plane < 8)
  | .linkStateChange port _ => decide (port < 8)
  | .relayPostTimeout ring _ => decide (ring < 16)
  | .pageRetirement _ addr _ => decide (addr < hostWindow)
  | .strikeExpiry => true
  | .testFenceStart => true
  | .structuralTestComplete unit _ => unitValid unit
  | .rotationTestDue _ => true
  | .railStepComplete rail => decide (rail < 52)
  | .railOutOfRegulation rail => decide (rail < 67)
  | .sensorSample values => decide (values.length = 187)
  | .capLoopTick _ _ => true
  | .thermalLoopTick => true
  | .fastLimiterTrip => true
  | .fastLimiterRelease => true
  | .pwrBrkAssert => true
  | .pwrBrkRelease => true
  | .thermalTrip => true
  | .pllLossOfLock => true
  | .inputReaches40v => true
  | .restartDelayExpiry => true
  | .startUpStageComplete _ _ => true
  | .startUpStageTimeout _ => true
  | .powerFail => true
  | .overvoltage => true
  | .perstAssert => true
  | .perstDeassert => true
  | .flr => true
  | .d3hotEntry => true
  | .d3hotExit => true
  | .configurationRequest _ off _ _ => decide (off < 4096)
  | .entropyHealthFailure => true
  | .getVersion => true
  | .getCapabilities => true
  | .negotiateAlgorithms _ => true
  | .getDigests => true
  | .getCertificate _ _ _ => true
  | .challenge _ nonce => decide (nonce.length = 32)
  | .getMeasurements _ _ => true
  | .keyExchange _ => true
  | .finish _ => true
  | .endSession => true
  | .vendorDefinedRequest _ => true
  | .ideKmKeyProgram stream _ => decide (stream < 2)
  | .ideStreamLoss stream => decide (stream < 2)
  | .lockInterfaceRequest => true
  | .startInterfaceRequest => true
  | .stopInterfaceRequest => true
  | .setEndpointId _ eid => decide (eid < 256)
  | .pldmSensorRequest _ _ => true
  | .requestUpdate _ => true
  | .passComponentTable _ _ => true
  | .updateComponent _ component _ => decide (component = 1 ∨ component = 2)
  | .requestFirmwareData _ _ => true
  | .transferComplete _ => true
  | .verifyComplete _ => true
  | .applyComplete _ => true
  | .activateFirmware _ => true
  | .getStatus _ => true
  | .cancelUpdate _ => true
  | .activationStageStart => true
  | .processorReadyTimeout => true
  | .ledgerFlush => true
  | .secondBoundary => true
  | .ppsEdge _ => true
  | .ptpMessageReceived port domain _ _ _ => decide (port < 8) && decide (domain < 128)
  | .meterLinkPoll => true
  | .meterLinkFrame _ _ => true
  | .meterReadRequest _ _ => true
  | .meterStart _ _ _ _ => true
  | .counterRecordWrite => true
  | .meterPowerFail => true
  | .sealSample _ => true
  | .meterSelfTest _ => true
  | .mtrPulse => true
  | .reverse => true
  | .overrange => true
  | .waitMsExpiry => true
  | .localAckTimeout _ => true
  | .referenceLost => true
  | .throttleWindow => true
  | .reverification _ _ => true
  | .clockTreeOrResetDomainFault region => decide (region < 4)
  | .portDieFault => true
  | .jtagAccess _ _ => true

end Sys2Proof
end

