-- ==== Sys2Proof/Safety.lean ====
section
/-! DEFINITION. What a safe state and a safe step are: the state invariants that statements assume and keep, and the
command behind a packet row. -/

namespace Sys2Proof.Machine

/-- The three memories are in canonical form: addresses strictly rise and no byte is listed at the value an unlisted address
reads as. -/
def State.canonical (s : State) : Bool := Memory.wf s.mem && Memory.wf s.host && Memory.wf s.bar2

/-- A step goes on: it answers a next state. -/
def State.goesOn (s : State) : Bool :=
  match step s with
  | .next _ => true
  | .fault _ => false
  | .refused _ => false

/-- A packet stands where it may start now: it is the oldest of its ring that has not started, its waits hold, its ring's
completion ring has room, no live activation holds it and the module runs packets (R80, R81, R88, R527, R568). -/
def State.mayStart (s : State) (p : Packet) : Bool := s.startable p && !s.commandHeld && s.glb.stage == 10

/-- A packet starts now and its command accepts it: the packet carries the command's opcode, may start, meets what else the
command waits for, and passes every check of R84. -/
def State.accepts (s : State) (c : Command) (p : Packet) : Bool :=
  p.opcode == c.code && s.mayStart p && c.ready s p && (c.fail s p).isNone

/-- How often a record stands among those that have fallen due and are not written: in its ring's list and in the held
store (R87, R96). -/
def State.dues (s : State) (r : Record) : Nat := (s.held ++ (s.ring r.ring).due).count r

/-- One more record of a packet has fallen due, with a status and a detail: that of the packet as the earlier state records
it. -/
def State.owes (t s : State) (p : Packet) (st : Status) (detail : Nat) : Bool :=
  t.dues (s.recordOf p st detail) == s.dues (s.recordOf p st detail) + 1

/-- No ring's next packet has an opcode outside the opcode table, so nothing is refused by the way (R84). -/
def State.headsKnown (s : State) : Bool :=
  (List.range 16).all fun n => (s.ring n).staged.all fun p => knownOpcode p.opcode

/-- The state a command's effect acts on: the packet has left its ring's waiting packets, its progress entry is claimed and
the start is counted. -/
def State.entered (s : State) (c : Command) (p : Packet) : State :=
  { (s.unstage p).claim p c.unit (c.total s p) with starts := s.starts + 1 }

/-- A state with the parts that the start and the completion of a packet write taken from another: the rings, the held store, the
progress entries and the count of starts. A frame `t = s.bookkept t` says that nothing else has changed. -/
def State.bookkept (s t : State) : State :=
  { s with rings := t.rings, held := t.held, progress := t.progress, shown := t.shown, starts := t.starts }

/-- Two ranges of bytes share none. -/
def apart (a n b m : Nat) : Bool := decide (a + n ≤ b ∨ b + m ≤ a)

/-- The packet of a packet row and the command that its opcode and, where several rows share an opcode, its operation field
name. ABORT starts by rules of its own (R95) and stands apart, as do the rows that are no packets. -/
def packetRow (i : Instr) : Option (Packet × Command) :=
  match i with
  | .jobOpen p => some (p, jobOpenCommand)
  | .jobAttach p => some (p, jobAttachCommand)
  | .stepRun p => some (p, stepRunCommand)
  | .jobSnapshot p => some (p, jobSnapshotCommand)
  | .jobRestore p => some (p, jobRestoreCommand)
  | .jobClose p => some (p, jobCloseCommand)
  | .regionDefine p => some (p, regionDefineCommand)
  | .regionRelease p => some (p, regionReleaseCommand)
  | .memCopy p => some (p, memCopyCommand)
  | .memFill p => some (p, memFillCommand)
  | .tableLoad p fetched => some (p, tableLoadCommand (fetched.map fun l => l.foldl (fun m e => Memory.write m e.1 e.2) []))
  | .tableRelease p => some (p, tableReleaseCommand)
  | .fprogLoad p => some (p, fprogLoadCommand)
  | .fprogStart p => some (p, fprogStartCommand)
  | .fprogQuery p => some (p, fprogQueryCommand)
  | .fprogUnload p => some (p, fprogUnloadCommand)
  | .partitionExchange p => some (p, partitionExchangeCommand)
  | .datasetOpen p => some (p, datasetOpenCommand)
  | .pipelineConfig p => some (p, pipelineConfigCommand)
  | .epochSet p => some (p, epochSetCommand)
  | .batchPrepare p => some (p, batchPrepareCommand)
  | .correctionLoad p => some (p, correctionLoadCommand)
  | .datasetClose p => some (p, datasetCloseCommand)
  | .graphLoad p => some (p, graphLoadCommand)
  | .graphUnload p => some (p, graphUnloadCommand)
  | .graphRun p => some (p, graphRunCommand)
  | .embTableCreate p => some (p, embTableCreateCommand)
  | .embVersionLoad p fetched => some (p, embVersionLoadCommand fetched)
  | .embVersionPublish p => some (p, embVersionPublishCommand)
  | .embGather p => some (p, embGatherCommand)
  | .embTableDestroy p => some (p, embTableDestroyCommand)
  | .dirBankConfig p => some (p, dirBankConfigCommand)
  | .dirInsert p => some (p, dirInsertCommand)
  | .dirDelete p => some (p, dirDeleteCommand)
  | .dirSearch p => some (p, dirSearchCommand)
  | .dirCompact p => some (p, dirCompactCommand)
  | .dirHotPromote p => some (p, dirHotPromoteCommand)
  | .dirHotDemote p => some (p, dirHotDemoteCommand)
  | .selectTopk p => some (p, selectTopkCommand)
  | .selectMerge p => some (p, selectMergeCommand)
  | .relayPeerSetLocal p => if peerKind p = 2 then none else some (p, relayPeerSetLocalCommand)
  | .relayPeerSetModules p => if peerKind p = 2 then some (p, relayPeerSetModulesCommand) else none
  | .relayQpCreate p => some (p, relayQpCreateCommand)
  | .relayQpDestroy p => some (p, relayQpDestroyCommand)
  | .relayPostWrite p => if [2, 3, 4, 5, 16, 17, 19].contains (postOp p) then none else some (p, qpPostCommand 1)
  | .relayPostWriteImm p => if postOp p = 2 then some (p, qpPostCommand 2) else none
  | .relayPostRead p => if postOp p = 3 then some (p, qpPostCommand 3) else none
  | .relayPostFetchAdd p => if postOp p = 4 then some (p, qpPostCommand 4) else none
  | .relayPostCmpSwap p => if postOp p = 5 then some (p, qpPostCommand 5) else none
  | .relayPostSealedPut p => if postOp p = 16 then some (p, sealedPostCommand 16) else none
  | .relayPostSealedGet p => if postOp p = 17 then some (p, sealedPostCommand 17) else none
  | .relayPostFence p => if postOp p = 19 then some (p, sealedPostCommand 19) else none
  | .intTestUnit p => some (p, intTestUnitCommand)
  | .intTestAll p => some (p, intTestAllCommand)
  | .intStrikesQuery p => some (p, intStrikesQueryCommand)
  | .intFence p => some (p, intFenceCommand)
  | .intUnfence p => some (p, intUnfenceCommand)
  | .patternSetStage p => some (p, patternSetStageCommand)
  | .secSessionOpenNew p => if sessionOp p = 2 ∨ sessionOp p = 3 ∨ sessionOp p = 4 then none else some (p, secSessionOpenNewCommand)
  | .secSessionOpenCertify p => if sessionOp p = 2 then some (p, secSessionOpenCertifyCommand) else none
  | .secSessionOpenPairOffer p => if sessionOp p = 3 then some (p, secSessionOpenPairOfferCommand) else none
  | .secSessionOpenJobKeyIssue p => if sessionOp p = 4 then some (p, secSessionOpenJobKeyIssueCommand) else none
  | .secKeyImportModelKey p => if importKind p = 2 ∨ importKind p = 3 then none else some (p, secKeyImportModelKeyCommand)
  | .secKeyImportPair p => if importKind p = 2 then some (p, secKeyImportPairCommand) else none
  | .secKeyImportJobKey p => if importKind p = 3 then some (p, secKeyImportJobKeyCommand) else none
  | .secWeightsImport p => some (p, secWeightsImportCommand)
  | .secWeightsExport p => some (p, secWeightsExportCommand)
  | .secRegionProtect p => some (p, secRegionProtectCommand)
  | .nop p => some (p, nopCommand)
  | .fwStage p => some (p, fwStageCommand)
  | .fwActivate p => some (p, fwActivateCommand)
  | .powerCapSet p => some (p, powerCapSetCommand)
  | .ledgerRead p => some (p, ledgerReadCommand)
  | .manifestLoad p => some (p, manifestLoadCommand)
  | .manifestStage p => some (p, manifestStageCommand)
  | .manifestQuery p => some (p, manifestQueryCommand)
  | _ => none

end Sys2Proof.Machine
end

