-- ==== Sys2Proof/Certificates/Slice0/Obligations.lean ====
section
/-! DEFINITION. The statements for the provers: what the rules of the specification say the module does, over every state and operand
that meets the premises. A statement `t = s.bookkept t` says that nothing has changed but the rings, the held records, the progress
entries and the count of starts. Where a statement rests on a choice of the model, its docstring names the log entry. -/

set_option maxRecDepth 4000

open Sys2Proof Sys2Proof.Machine

/-- The command at the front of the queue runs on the queue's rest; on an empty queue one period of the timer clock
passes (the tick is the model's choice, log entry 3). -/
def Obligations.StepRunsFront : Prop :=
  (∀ (c : Instr) (rest : List Instr) (s : State), step { s with pending := c :: rest } = exec c { s with pending := rest }) ∧
  (∀ s : State, s.pending = [] → step s = .next s.tick ∧ s.tick.clk = s.clk + 1 ∧ s.tick.mem = s.mem ∧
    s.tick.host = s.host ∧ s.tick.regs = s.regs ∧ s.tick.rings = s.rings ∧ s.tick.job = s.job)

/-- What registers read after reset, by the reset columns of the register tables: the capability registers of the
blocks, and the power cap at 2,000 W. -/
def Obligations.ResetRegisters : Prop :=
  State.reset.readReg 0x100000 = 1023 * 2 ^ 12 + 64 * 2 ^ 5 + 16 ∧
  State.reset.readReg Reg.feaCaps = 8 * 2 ^ 16 + 64 * 2 ^ 8 + 64 ∧
  State.reset.readReg Reg.smpCaps = 4096 * 2 ^ 16 + 32 * 2 ^ 8 + 16 ∧
  State.reset.readReg Reg.arrCaps = 128 * 2 ^ 24 + 144 * 2 ^ 16 + 128 * 2 ^ 8 + 8 ∧
  State.reset.readReg Reg.gatCaps = 64 * 2 ^ 16 + 12 * 2 ^ 8 + 32 ∧
  State.reset.readReg Reg.dirCaps = 64 * 2 ^ 24 + 2048 * 2 ^ 12 + 255 ∧
  State.reset.readReg Reg.selCaps = 4096 * 2 ^ 16 + 24 * 2 ^ 8 + 8 ∧
  State.reset.readReg Reg.rlyCaps = 32 * 2 ^ 24 + 8 * 2 ^ 20 + 4096 ∧
  State.reset.readReg Reg.intCaps = 12 * 2 ^ 24 + 3 * 2 ^ 16 + 3 * 2 ^ 8 + 8 ∧
  State.reset.readReg Reg.secCaps = 16 * 2 ^ 24 + 2 * 2 ^ 16 + 2 ^ 8 + 4 ∧
  State.reset.readReg Reg.mgtCaps = 187 * 2 ^ 24 + 16 * 2 ^ 16 + 8 * 2 ^ 8 + 64 ∧
  State.reset.readReg Reg.logCaps = 32 * 2 ^ 24 + 7 * 2 ^ 16 + 16 ∧
  State.reset.readReg Reg.pwrCaps = 2000 * 2 ^ 20 + 600 * 2 ^ 8 + 64 ∧
  State.reset.readReg Reg.pwrCap = 2000 * 2 ^ 16 + 2000 ∧ State.reset.readReg Reg.pwrThrottleMs = 0 ∧
  State.reset.readReg Reg.cntBar4Unmapped = 0 ∧ State.reset.readReg Reg.secKeyRefused = 0 ∧
  State.reset.pending = [] ∧ State.reset.running = []

/-- After reset the three memories are in canonical form: no byte is listed. -/
def Obligations.CanonicalAtReset : Prop :=
  State.reset.canonical = true ∧ State.reset.mem = [] ∧ State.reset.host = [] ∧ State.reset.bar2 = []

/-- Every step keeps the memories canonical: addresses strictly rise and no byte is listed at the value an unlisted
address reads as. -/
def Obligations.CanonicalKept : Prop :=
  ∀ s t : State, s.canonical = true → step s = .next t → t.canonical = true

/-- A packet that carries its row's opcode, may start and passes every check starts: it leaves its ring's waiting
packets, its progress entry is claimed, and its command takes effect (R80, R84, R91). A packet goes on waiting where
its waits do not hold: a later packet of its ring never passes it, FENCE waits for the ring's retired count,
wait_ring for the other ring's, and a full completion ring starts nothing (R80, R81, R88). After a start-up that
ended in FAULT, a packet that may start completes with UNIT_FENCED (R568). -/
def Obligations.PacketStartsOrWaits : Prop :=
  (∀ (i : Instr) (p : Packet) (c : Command) (s : State), packetRow i = some (p, c) → s.accepts c p = true →
    exec i s = .next (c.effect p (s.entered c p)) ∧
    ((s.entered c p).ring p.ring).staged = ((s.ring p.ring).staged.filter fun q => q != p) ∧
    (s.entered c p).mem = s.mem ∧ (s.entered c p).host = s.host ∧ (s.entered c p).regs = s.regs ∧
    (p.progress ≠ 0 → ((s.entered c p).entry p.progress).state = 1 ∧ ((s.entered c p).entry p.progress).handle = p.handle ∧
      ((s.entered c p).entry p.progress).position = 0)) ∧
  ((∀ (i : Instr) (p : Packet) (c : Command) (s : State), packetRow i = some (p, c) →
    ((s.ring p.ring).staged.head? ≠ some p ∨
      (p.waitValid = true ∧ 2 ^ 31 ≤ ((s.ring p.waitRing).retired - p.waitSeq).toNat) ∨
      (p.fence = true ∧ p.era = (s.ring p.ring).era ∧ (s.ring p.ring).retired ≠ p.seq) ∨
      ((s.ring p.ring).state = .active ∧ (s.ring p.ring).room = false)) →
    exec i s = .next s) ∧
  (∀ (i : Instr) (p : Packet) (c : Command) (s : State), packetRow i = some (p, c) → p.opcode = c.code →
    s.startable p = true → s.commandHeld = false → c.ready s p = true → s.glb.stage < 4 → s.glb.cause ≠ 0 →
    ∃ t, exec i s = .next t ∧ t.owes s p Status.unitFenced 0 = true ∧ t.mem = s.mem ∧ t.host = s.host ∧ t.regs = s.regs ∧
      t.running = s.running ∧ t.job = s.job ∧ t.relay = s.relay ∧ t.sec = s.sec ∧ t.mgt = s.mgt))

/-- A packet that fails a check changes no state but its ring's counters and its record (R84): it is counted in REFUSED,
its record carries the status and the detail of the first check that fails, and nothing else changes but the two
security counters of R498 and R507. -/
def Obligations.RefusalChangesNothing : Prop :=
  ∀ (i : Instr) (p : Packet) (c : Command) (f : Fail) (s : State), packetRow i = some (p, c) → p.opcode = c.code →
    s.mayStart p = true → c.ready s p = true → c.fail s p = some f →
    ∃ t, exec i s = .next t ∧ t.owes s p f.code f.detail = true ∧
      (t.ring p.ring).refused = satAdd (s.ring p.ring).refused 1 ∧
      (t.ring p.ring).staged = ((s.ring p.ring).staged.filter fun q => q != p) ∧
      (∀ o, o ≠ Reg.secKeyRefused → o ≠ Reg.secProtRefused → t.reg o = s.reg o) ∧
      t.mem = s.mem ∧ t.host = s.host ∧ t.bar2 = s.bar2 ∧ t.progress = s.progress ∧ t.running = s.running ∧
      t.job = s.job ∧ t.memory = s.memory ∧ t.ingest = s.ingest ∧ t.samples = s.samples ∧ t.emb = s.emb ∧ t.dir = s.dir ∧
      t.graph = s.graph ∧ t.relay = s.relay ∧ t.integrity = s.integrity ∧ t.sec = s.sec ∧ t.mgt = s.mgt ∧
      t.meter = s.meter ∧ t.pwr = s.pwr ∧ t.glb = s.glb ∧ t.sent = s.sent ∧ t.irqs = s.irqs

/-- NOP (R94): it takes LEN 0, completes with OK and changes nothing. -/
def Obligations.NopChangesNothing : Prop :=
  nopCommand.code = 0x0C00 ∧ (∀ n, nopCommand.lens n = true ↔ n = 0) ∧
  (∀ (p : Packet) (s : State), s.accepts nopCommand p = true →
    ∃ t, exec (.nop p) s = .next t ∧ t.owes s p Status.ok 0 = true ∧ t = s.bookkept t)

/-- PWR_BRK_ASSERT, PWR_BRK_RELEASE (R556) and the effective cap (R553): level 63 and 600 W while asserted, the host cap
after. FAST_LIMITER_TRIP and FAST_LIMITER_RELEASE (R555): a trip puts T at 63 and is counted; a release leaves the
other limiters. THROTTLE_WINDOW (R554): throttling changes timing only, so a new window changes no state of the
block. -/
def Obligations.ThrottlingAtLevel63 : Prop :=
  ((∀ s : State, s.pwr.brk = false → ∃ t, exec .pwrBrkAssert s = .next t ∧
    t.pwr = { s.pwr with brk := true, capLevel := 63 } ∧ t.effectiveCap = 600 ∧ 63 ≤ t.throttle ∧
    t.rings = s.rings ∧ t.mem = s.mem ∧ t.running = s.running) ∧
  (∀ s : State, s.pwr.brk = true → ∃ t, exec .pwrBrkRelease s = .next t ∧
    t.pwr = { s.pwr with brk := false } ∧ t.effectiveCap = s.pwr.hostCap ∧
    t.rings = s.rings ∧ t.mem = s.mem ∧ t.running = s.running)) ∧
  ((∀ s : State, s.pwr.fastLimit = false → ∃ t, exec .fastLimiterTrip s = .next t ∧
    t.pwr = { s.pwr with fastLimit := true } ∧ 63 ≤ t.throttle ∧
    t.reg Reg.pwrExcursions = satAdd (s.reg Reg.pwrExcursions) 1 ∧ t.mem = s.mem ∧ t.rings = s.rings) ∧
  (∀ s : State, exec .fastLimiterRelease s = .next { s with pwr := { s.pwr with fastLimit := false } })) ∧
  (∀ s : State, exec .throttleWindow s = .next s)

/-- CAP_LOOP_TICK (R555): the level rises by any amount and falls by at most 8 at one tick, and never passes 63.
THERMAL_LOOP_TICK (R564): the level rises by 4 while a sensor is at its first limit, goes to 63 at its second, and
falls by 1. -/
def Obligations.ControlLoopLevels : Prop :=
  (∀ (want : Nat) (unmet : Bool) (s : State), 3 ≤ s.glb.stage → s.pwr.capLevel ≤ 63 →
    ∃ t, exec (.capLoopTick want unmet) s = .next t ∧
      t.pwr.capLevel ≤ 63 ∧ s.pwr.capLevel ≤ t.pwr.capLevel + 8 ∧
      (s.pwr.capLevel ≤ min want 63 → unmet = false → t.pwr.capLevel = min want 63) ∧
      (unmet = true → t.pwr.capLevel = 63) ∧ t.pwr.capUnmet = unmet ∧
      t.pwr.hostCap = s.pwr.hostCap ∧ t.pwr.thermalLevel = s.pwr.thermalLevel ∧ t.mem = s.mem ∧ t.host = s.host) ∧
  (∀ s : State, 3 ≤ s.glb.stage → s.pwr.thermalLevel ≤ 63 →
    ∃ t, exec .thermalLoopTick s = .next t ∧ t.pwr.thermalLevel ≤ 63 ∧
      (s.hot 105 100 = true → s.hot 100 95 = true → t.pwr.thermalLevel = 63) ∧
      (s.hot 105 100 = false → s.hot 100 95 = true → t.pwr.thermalLevel = min 63 (s.pwr.thermalLevel + 4)) ∧
      (s.hot 105 100 = false → s.hot 100 95 = false → s.pwr.thermalEngaged = true →
        t.pwr.thermalLevel = s.pwr.thermalLevel - 1 ∨ t.pwr.thermalLevel = s.pwr.thermalLevel) ∧
      t.pwr.capLevel = s.pwr.capLevel ∧ t.mem = s.mem ∧ t.rings = s.rings)

/-- RAIL_STEP_COMPLETE (R561): a rail below the offset its units call for moves up by 15 mV; a lane-group rail above it
moves down by 15 mV; no other rail moves. Faults that fence (R28, R558, R561, R565): a lost clock, a port-die fault,
a thermal trip and the port-die rail fence the package; a clock-tree fault fences its region; a cluster rail fences
its cluster. -/
def Obligations.RailsAndFaultFences : Prop :=
  ((∀ (rail : Nat) (s : State), rail < 52 → s.offset rail < s.wantedOffset rail →
    ∃ t, exec (.railStepComplete rail) s = .next t ∧ t.offset rail = s.offset rail + 15 ∧
      (∀ r, r ≠ rail → t.offset r = s.offset r) ∧ t.mem = s.mem ∧ t.integrity = s.integrity) ∧
  (∀ (rail : Nat) (s : State), 36 ≤ rail → rail < 52 → s.wantedOffset rail < s.offset rail →
    ∃ t, exec (.railStepComplete rail) s = .next t ∧ t.offset rail = s.offset rail - 15 ∧
      (∀ r, r ≠ rail → t.offset r = s.offset r) ∧ t.mem = s.mem ∧ t.integrity = s.integrity)) ∧
  ((∀ s : State, ∃ t, exec .pllLossOfLock s = .next t ∧ t.packageFenced = true) ∧
  (∀ s : State, ∃ t, exec .portDieFault s = .next t ∧ t.packageFenced = true) ∧
  (∀ s : State, s.pwr.tripped = false → ∃ t, exec .thermalTrip s = .next t ∧ t.packageFenced = true ∧ t.mem = [] ∧
    t.pwr.die0 = 2 ∧ t.pwr.die1 = 2 ∧ t.pwr.tripped = true) ∧
  (∀ s : State, ∃ t, exec (.railOutOfRegulation 54) s = .next t ∧ t.packageFenced = true) ∧
  (∀ (region : Nat) (s : State), region < 4 → ∃ t, exec (.clockTreeOrResetDomainFault region) s = .next t ∧
    ∀ id, unitRegion id = some region → t.faultFenced id = true) ∧
  (∀ (rail : Nat) (s : State), rail < 36 → ∃ t, exec (.railOutOfRegulation rail) s = .next t ∧
    ∀ i, i < 4 → t.faultFenced (unitId 1 (4 * rail + i)) = true))

/-- INPUT_REACHES_40V and RESTART_DELAY_EXPIRY (R552, R566): start-up begins, with the cause of the last start recorded.
START_UP_STAGE_COMPLETE (R566): without a failure the next stage number is shown, and stage 10 is READY.
START_UP_STAGE_TIMEOUT and a module with no bootable bank (R512, R567): start-up ends in FAULT, with the package
fenced. -/
def Obligations.StartUp : Prop :=
  ((∀ s : State, s.glb.started = false → s.glb.offFor = 4 → ∃ t, exec .inputReaches40v s = .next t ∧
    t.glb = { s.glb with started := true, stage := 0, lastStart := 4 } ∧ t.pwr.die0 = 3 ∧ t.pwr.die1 = 3 ∧
    t.pwr.hostCap = s.pwr.keptCap.getD 2000 ∧ t.mem = s.mem) ∧
  (∀ s : State, s.glb.started = false → s.glb.offFor ≠ 4 → ∃ t, exec .restartDelayExpiry s = .next t ∧
    t.glb = { s.glb with started := true, stage := 0, lastStart := s.glb.offFor } ∧ t.pwr.die0 = 3 ∧ t.pwr.die1 = 3 ∧
    t.pwr.hostCap = s.pwr.keptCap.getD 2000 ∧ t.mem = s.mem)) ∧
  ((∀ (ms : Nat) (s : State), s.glb.started = true → s.glb.stage < 10 → s.glb.cause = 0 → s.packageFenced = false →
    (s.glb.stage = 1 → s.bootBank.isSome = true) →
    ∃ t, exec (.startUpStageComplete [] ms) s = .next t ∧ t.glb.stage = s.glb.stage + 1 ∧ t.glb.cause = 0) ∧
  (∀ (ms : Nat) (s : State), s.glb.started = true → s.glb.stage = 9 → s.glb.cause = 0 → s.packageFenced = false →
    ∃ t, exec (.startUpStageComplete [] ms) s = .next t ∧ bitOf (t.readReg Reg.glbStatus) 29 = true ∧
      t.readReg Reg.glbStartMs = ms)) ∧
  ((∀ (ms : Nat) (s : State), s.glb.started = true → s.glb.stage < 10 → s.glb.cause = 0 →
    ∃ t, exec (.startUpStageTimeout ms) s = .next t ∧ t.glb.cause = 6 ∧ t.glb.startMs = ms ∧ t.packageFenced = true ∧
      t.glb.stage = s.glb.stage) ∧
  (∀ (failed : List Nat) (ms : Nat) (s : State), s.glb.started = true → s.glb.stage = 1 → s.glb.cause = 0 → s.bootBank = none →
    ∃ t, exec (.startUpStageComplete failed ms) s = .next t ∧ t.glb.cause = 1 ∧ t.glb.stage = 1))

/-- POWER_FAIL and OVERVOLTAGE (R552, R562): what flash, fuses and the meter hold stays; rings, jobs, module memory and
keys go. -/
def Obligations.PowerLossKeepsFlash : Prop :=
  ∀ (c : Instr) (cause : Nat) (s : State), (c = .powerFail ∧ cause = 5 ∨ c = .overvoltage ∧ cause = 6) → s.glb.started = true →
    ∃ t, exec c s = .next t ∧ t.glb.offFor = cause ∧ t.glb.started = false ∧ t.glb.stage = 0 ∧
      t.mem = [] ∧ t.rings = [] ∧ t.held = [] ∧ t.running = [] ∧ t.job.jobs = [] ∧ t.sec.keys = [] ∧ t.sec.pairs = [] ∧
      t.mgt.fused = s.mgt.fused ∧ t.mgt.bankA = s.mgt.bankA ∧ t.mgt.bankB = s.mgt.bankB ∧ t.mgt.floor = s.mgt.floor ∧
      t.mgt.ledger.flash = s.mgt.ledger.flash ∧ t.sec.session = s.sec.session ∧ t.meter = s.meter ∧ t.host = s.host ∧
      t.integrity.strikes = s.integrity.strikes ∧ t.memory.pool0 = s.memory.pool0 ∧ t.memory.pool1 = s.memory.pool1

/-- PERST_ASSERT and FLR (R96, R570): every ring is disabled, no packet bytes stay in ring memory, the MSI-X table and
configuration space return to their reset values; jobs, memory and packets already consumed stay. PERST_DEASSERT,
D3HOT_ENTRY, D3HOT_EXIT and CONFIGURATION_REQUEST (R569, R570): the link trains; D3hot closes the rings and keeps
the configuration; requests before stage 3 are retried. -/
def Obligations.HostResetsAndPowerStates : Prop :=
  ((∀ s : State, s.glb.perst = false → ∃ t, exec .perstAssert s = .next t ∧
    t.glb.perst = true ∧ t.glb.linkUp = false ∧ t.bar2 = [] ∧ t.msix = [] ∧ t.glb.config = [] ∧
    (∀ n, n < 16 → (t.ring n).enabled = false ∧ (t.ring n).state = .disabled ∧ (t.ring n).staged = (s.ring n).staged ∧
      (t.ring n).due = (s.ring n).due) ∧
    t.job = s.job ∧ t.mem = s.mem ∧ t.running = s.running ∧ bitOf (t.reg Reg.glbResetCause).toNat 1 = true) ∧
  (∀ s : State, s.glb.linkUp = true → ∃ t, exec .flr s = .next t ∧
    t.glb.linkUp = true ∧ t.bar2 = [] ∧ t.msix = [] ∧ t.glb.config = [] ∧
    (∀ n, n < 16 → (t.ring n).enabled = false ∧ (t.ring n).state = .disabled ∧ (t.ring n).staged = (s.ring n).staged ∧
      (t.ring n).due = (s.ring n).due) ∧
    t.job = s.job ∧ t.mem = s.mem ∧ t.running = s.running ∧ bitOf (t.reg Reg.glbResetCause).toNat 2 = true)) ∧
  ((∀ s : State, exec .perstDeassert s =
    .next { s with glb := { s.glb with perst := false, linkUp := s.glb.started && decide (1 ≤ s.glb.stage) } }) ∧
  (∀ s : State, s.glb.linkUp = true → s.glb.d3hot = false → ∃ t, exec .d3hotEntry s = .next t ∧ t.glb.d3hot = true ∧
    (∀ n, n < 16 → (t.ring n).state = .closed ∧ (t.ring n).stateCode = 4 ∧ (t.ring n).enabled = false) ∧
    t.glb.config = s.glb.config ∧ t.msix = s.msix ∧ t.mem = s.mem ∧ t.job = s.job) ∧
  (∀ s : State, s.glb.d3hot = true → ∃ t, exec .d3hotExit s = .next t ∧ t.glb = { s.glb with d3hot := false } ∧
    bitOf (t.reg Reg.glbResetCause).toNat 3 = true ∧ t.rings = s.rings ∧ t.mem = s.mem) ∧
  (∀ (write early : Bool) (off : Nat) (v : Word) (s : State), s.glb.linkUp = true → 1 ≤ s.glb.stage → s.glb.stage < 3 →
    exec (.configurationRequest write off v early) s = .next { s with sent := s.sent ++ [.config 2 0] }) ∧
  (∀ (off : Nat) (v : Word) (s : State), s.glb.linkUp = true → 3 ≤ s.glb.stage →
    exec (.configurationRequest false off v false) s =
      .next { s with sent := s.sent ++ [.config 0 (Tab.get 0 s.glb.config off).toNat] }))

/-- CMD_RING_ENABLE (R74, R79, R86): the ring starts its clear with every count at its start value and reads as zeros;
other rings' slots, the packets already consumed and the records already due stay. CMD_RING_DISABLE (R74, R89):
consuming stops at once; packets already consumed stay, to run to completion. RING_CLEAR_COMPLETE (R74, R89, R96):
the ring becomes ACTIVE, and its held records leave the held store ahead of those still due. -/
def Obligations.RingsEnabledDisabledCleared : Prop :=
  (∀ (ring : Nat) (v : Word) (tee : Bool) (s : State), ring < 16 → s.mmioOpen = true → s.teeBlocked tee = false →
    (s.ring ring).enabled = false → v.toNat % 2 = 1 → 4 ≤ s.glb.stage →
    ∃ t, exec (.cmdRingEnable ring v tee) s = .next t ∧
      t.ring ring = { s.ring ring with
        ctrl := v &&& ctrlMask, state := .clearing, head := 0, phase := true, seq := 0, retired := 0, written := [],
        era := (s.ring ring).era + 1, baseInForce := (s.ring ring).baseWritten, log2InForce := (s.ring ring).log2Written,
        cqTail := 0, cqPhase := true, irqCount := 0, irqSince := none } ∧
      (∀ n, n ≠ ring → t.ring n = s.ring n) ∧
      (∀ a, Memory.read t.bar2 a =
        if ring * 0x40000 ≤ a ∧ a < (ring + 1) * 0x40000 then 0 else Memory.read s.bar2 a) ∧
      t.mem = s.mem ∧ t.host = s.host ∧ t.held = s.held ∧ t.regs = s.regs ∧ t.running = s.running) ∧
  (∀ (ring : Nat) (v : Word) (tee : Bool) (s : State), ring < 16 → s.mmioOpen = true → s.teeBlocked tee = false →
    (s.ring ring).enabled = true → v.toNat % 2 = 0 →
    exec (.cmdRingDisable ring v tee) s =
      .next (s.setRing ring { s.ring ring with ctrl := v &&& ctrlMask, state := .disabled })) ∧
  ((∀ (ring : Nat) (s : State), ring < 16 → (s.ring ring).state = .clearing → (s.ring ring).due = [] →
    (s.held.all fun h => h.ring != ring) = true → s.headsKnown = true →
    exec (.ringClearComplete ring) s = .next (s.setRing ring { s.ring ring with state := .active, redirect := false })) ∧
  (∀ (ring : Nat) (s : State), ring < 16 → (s.ring ring).state ≠ .clearing → exec (.ringClearComplete ring) s = .next s))

/-- PACKET_CONSUMED (R75, R78, R79): a slot whose stored phase is the expected one heads a packet, which is copied and
numbered; the consume position moves past it and the expected phase turns when it wraps. Another phase consumes
nothing. -/
def Obligations.ConsumeByPhase : Prop :=
  ∀ (ring : Nat) (stores hostStores : List (Nat × Byte)) (tee : Bool) (s : State), ring < 16 → s.mmioOpen = true →
    s.teeBlocked tee = false → (s.ring ring).state = .active → s.headsKnown = true →
    let s1 := (s.storeHost hostStores).storeBar2 ring stores
    let r := s.ring ring
    let len := leField (s1.slotBytes ring r.head) 4 1 % 64
    (s1.headerThere ring = false → exec (.packetConsumed ring stores hostStores tee) s = .next s1) ∧
    (s1.headerThere ring = true → knownOpcode (leField (s1.slotsFrom ring r.head (1 + len)) 0 2) = true →
      ∃ t, exec (.packetConsumed ring stores hostStores tee) s = .next t ∧
        t.ring ring = { r with
          head := (r.head + 1 + len) % 256, phase := if 256 ≤ r.head + 1 + len then !r.phase else r.phase, seq := r.seq + 1,
          staged := r.staged ++ [⟨ring, r.seq, r.era, s1.slotsFrom ring r.head (1 + len)⟩] } ∧
        (∀ n, n ≠ ring → t.ring n = s.ring n) ∧
        t.bar2 = s1.bar2 ∧ t.host = s1.host ∧ t.mem = s.mem ∧ t.regs = s.regs ∧ t.running = s.running ∧ t.held = s.held)

/-- STATUS_RECORD_WRITE (R86 to R88): the oldest due record is written at the tail with the phase in force, and the tail
moves by one entry; no other byte of host memory changes. A full completion ring writes nothing. -/
def Obligations.RecordWrittenAtTail : Prop :=
  (∀ (ring : Nat) (r : Record) (rest : List Record) (s : State), ring < 16 → (s.ring ring).due = r :: rest →
    (s.ring ring).redirect = false → (s.ring ring).state ≠ .clearing → (s.ring ring).room = true →
    s.recordBlocked r = false → (s.ring ring).baseInForce + 32 * (s.ring ring).cqTail + 32 ≤ 2 ^ 47 →
    s.headsKnown = true →
    ∃ t, exec (.statusRecordWrite ring) s = .next t ∧
      (let a := (s.ring ring).baseInForce + 32 * (s.ring ring).cqTail
       t.load (hostWindow + a) 32 = r.bytes (s.ring ring).cqPhase ∧
       (∀ x, x < a ∨ a + 32 ≤ x → Memory.read t.host x = Memory.read s.host x)) ∧
      (t.ring ring).due = rest ∧
      (t.ring ring).cqTail = (if (s.ring ring).entries ≤ (s.ring ring).cqTail + 1 then 0 else (s.ring ring).cqTail + 1) ∧
      (t.ring ring).cqPhase = (if (s.ring ring).entries ≤ (s.ring ring).cqTail + 1 then !(s.ring ring).cqPhase
        else (s.ring ring).cqPhase) ∧
      t.mem = s.mem ∧ t.held = s.held ∧ t.running = s.running ∧ t.regs = s.regs) ∧
  (∀ (ring : Nat) (s : State), ring < 16 → (s.ring ring).redirect = false → (s.ring ring).room = false →
    s.headsKnown = true → exec (.statusRecordWrite ring) s = .next s)

/-- CMD_CQ_HEAD_WRITE, CMD_CQ_BASE_WRITE and INTERRUPT_MODERATION_TIMEOUT (R88 to R90): the host's words are taken; a
base written while the ring is disabled sends later records to the held store; a record older than TIME raises the
ring's vector once. -/
def Obligations.CompletionRingRegisters : Prop :=
  (∀ (ring : Nat) (v : Word) (tee : Bool) (s : State), ring < 16 → s.mmioOpen = true → s.teeBlocked tee = false →
    exec (.cmdCqHeadWrite ring v tee) s = .next (s.setRing ring { s.ring ring with cqHead := v })) ∧
  (∀ (ring : Nat) (v : Word) (tee : Bool) (s : State), ring < 16 → s.mmioOpen = true → s.teeBlocked tee = false →
    ∃ t, exec (.cmdCqBaseWrite ring false v tee) s = .next t ∧
      t.ring ring = { s.ring ring with
        cqBaseLo := v, redirect := (s.ring ring).redirect || !(s.ring ring).enabled } ∧
      (∀ n, n ≠ ring → t.ring n = s.ring n) ∧ t.host = s.host ∧ t.mem = s.mem ∧ t.held = s.held) ∧
  (∀ (ring : Nat) (v : Word) (tee : Bool) (s : State), ring < 16 → s.mmioOpen = true → s.teeBlocked tee = false →
    ∃ t, exec (.cmdCqBaseWrite ring true v tee) s = .next t ∧
      t.ring ring = { s.ring ring with
        cqBaseHi := v, redirect := (s.ring ring).redirect || !(s.ring ring).enabled } ∧
      (∀ n, n ≠ ring → t.ring n = s.ring n) ∧ t.host = s.host ∧ t.mem = s.mem ∧ t.held = s.held) ∧
  (∀ (ring since' : Nat) (s : State), ring < 16 → (s.ring ring).intEnable = true → (s.ring ring).irqSince = some since' →
    0 < (s.ring ring).time → since' + microseconds (s.ring ring).time ≤ s.clk →
    (Tab.get 1 s.msix (16 * (s.ring ring).vector + 12)).toNat % 2 = 0 →
    ∃ t, exec (.interruptModerationTimeout ring) s = .next t ∧ t.irqs = s.irqs ++ [(s.ring ring).vector] ∧
      t.ring ring = { s.ring ring with irqCount := 0, irqSince := none } ∧
      (∀ n, n ≠ ring → t.ring n = s.ring n) ∧ t.host = s.host ∧ t.mem = s.mem)

/-- REGISTER_WRITE (R8): a selector takes the RW bits written, bits of a write-1-to-clear register that are written 1
become 0, an offset that is neither leaves every register bank as it is, and no write to BAR0 reaches memory.
LATCHING_REGISTER_READ (R515, R534, R551): the LO half is returned and its HI half is kept for the read that
follows. LOG_WINDOW_SEQ_WRITE, LOG_WINDOW_REFILL_DONE, WGH_LOG_SEL_WRITE and MGT_TIME_CTRL_WRITE (R534, R551, R515):
the windows read 0 until they are refilled, and a time mode waits for the second boundary. -/
def Obligations.RegistersAndWindows : Prop :=
  ((∀ (off mask : Nat) (v : Word) (tee : Bool) (s : State), (off, mask) ∈ Reg.selectors → s.mmioOpen = true →
    s.teeBlocked tee = false →
    ∃ t, exec (.registerWrite off v tee) s = .next t ∧ t.reg off = v &&& BitVec.ofNat 32 mask ∧
      (∀ o, o ≠ off → t.reg o = s.reg o) ∧ t.mem = s.mem ∧ t.host = s.host ∧ t.rings = s.rings ∧ t.job = s.job) ∧
  (∀ (off mask : Nat) (v : Word) (tee : Bool) (s : State), (off, mask) ∈ Reg.clearable → s.mmioOpen = true →
    s.teeBlocked tee = false → s.confidential = false →
    ∃ t, exec (.registerWrite off v tee) s = .next t ∧ t.reg off = s.reg off &&& ~~~(v &&& BitVec.ofNat 32 mask) ∧
      (∀ o, o ≠ off → t.reg o = s.reg o) ∧ t.mem = s.mem ∧ t.host = s.host ∧ t.rings = s.rings ∧ t.job = s.job) ∧
  (∀ (off : Nat) (v : Word) (tee : Bool) (s : State), s.mmioOpen = true → s.teeBlocked tee = true →
    ∃ t, exec (.registerWrite off v tee) s = .next t ∧
      t.reg Reg.secNonteeDropped = satAdd (s.reg Reg.secNonteeDropped) 1 ∧
      (∀ o, o ≠ Reg.secNonteeDropped → t.reg o = s.reg o) ∧ t.mem = s.mem ∧ t.host = s.host ∧ t.rings = s.rings)) ∧
  (∀ (tee : Bool) (s : State), s.mmioOpen = true → s.teeBlocked tee = false →
    (∃ t, exec (.latchingRegisterRead Reg.mgtTimeLo tee) s = .next t ∧ t.hostRead = leBytes 4 (low32 s.mgt.time) ∧
      t.readReg Reg.mgtTimeHi = high32 s.mgt.time ∧ t.mgt.time = s.mgt.time ∧ t.mem = s.mem ∧ t.regs = s.regs) ∧
    (∃ t, exec (.latchingRegisterRead Reg.logNewestLo tee) s = .next t ∧
      t.hostRead = leBytes 4 (low32 s.mgt.ledger.newest) ∧
      t.readReg Reg.logNewestHi = high32 s.mgt.ledger.newest ∧ t.mem = s.mem ∧ t.regs = s.regs) ∧
    (∃ t, exec (.latchingRegisterRead Reg.logOldestLo tee) s = .next t ∧
      t.hostRead = leBytes 4 (low32 s.mgt.ledger.oldest) ∧
      t.readReg Reg.logOldestHi = high32 s.mgt.ledger.oldest ∧ t.mem = s.mem ∧ t.regs = s.regs) ∧
    (∃ t, exec (.latchingRegisterRead Reg.wghEnergyLo tee) s = .next t ∧
      t.hostRead = leBytes 4 (low32 s.mirror.wattHours) ∧
      t.readReg Reg.wghEnergyHi = high32 s.mirror.wattHours ∧ t.mem = s.mem ∧ t.regs = s.regs)) ∧
  ((∀ (v : Word) (tee : Bool) (s : State), s.mmioOpen = true → s.teeBlocked tee = false →
    ∃ t, exec (.logWindowSeqWrite v tee) s = .next t ∧
      t.mgt = { s.mgt with filling := true, window := v.toNat + 2 ^ 32 * (s.reg Reg.logWindowSeqHi).toNat } ∧
      t.reg Reg.logWindowSeqLo = v ∧ (∀ o, o < 0x1000 → t.readReg (0x1101000 + o) = 0) ∧ t.mem = s.mem ∧ t.rings = s.rings) ∧
  (∀ s : State, exec .logWindowRefillDone s = .next { s with mgt := { s.mgt with filling := false } }) ∧
  (∀ (v : Word) (tee : Bool) (s : State), s.mmioOpen = true → s.teeBlocked tee = false → s.metered = true →
    ∃ t, exec (.wghLogSelWrite v tee) s = .next t ∧ t.reg Reg.wghLogSel = v ∧
      t.mirror = { s.mirror with entry := none, sent := s.mirror.sent ++ [.requestLog v.toNat] } ∧
      (∀ o, o < 0x10 → t.readReg (0x600034 + o) = 0) ∧ t.meter = s.meter ∧ t.mem = s.mem) ∧
  (∀ (v : Word) (tee : Bool) (s : State), s.mmioOpen = true → s.teeBlocked tee = false →
    exec (.mgtTimeCtrlWrite v tee) s = .next { s with mgt := { s.mgt with timeCtrl := v &&& 0xFF1F } }))

/-- BAR4_ACCESS (R109, R110): a piece in plain HBM is read and written; a piece of a protected region or of an open job
reads as ones and is not written; a piece outside HBM reads as ones; each refused piece is counted. -/
def Obligations.Bar4ServesOpenHbm : Prop :=
  (∀ (off : Nat) (data : List Byte) (tee : Bool) (s : State), s.mmioOpen = true → data ≠ [] →
    off % 64 + data.length ≤ 64 → s.pieceKind off data.length = .served →
    ∃ t, exec (.bar4Access true off 0 data tee) s = .next t ∧ t.load off data.length = data ∧
      (∀ x, x < off ∨ off + data.length ≤ x → Memory.read t.mem x = Memory.read s.mem x) ∧
      t.host = s.host ∧ t.rings = s.rings ∧ t.regs = s.regs ∧ t.hostRead = s.hostRead) ∧
  (∀ (off len : Nat) (tee : Bool) (s : State), s.mmioOpen = true → 0 < len → off % 64 + len ≤ 64 →
    s.pieceKind off len = .served →
    exec (.bar4Access false off len [] tee) s = .next { s with hostRead := s.load off len }) ∧
  (∀ (off : Nat) (data : List Byte) (tee : Bool) (s : State), s.mmioOpen = true → data ≠ [] →
    off % 64 + data.length ≤ 64 → s.pieceKind off data.length = .closed →
    exec (.bar4Access true off 0 data tee) s = .next (s.bump Reg.cntBar4ProtWrite 1)) ∧
  (∀ (off len : Nat) (tee : Bool) (s : State), s.mmioOpen = true → 0 < len → off % 64 + len ≤ 64 →
    s.pieceKind off len = .closed →
    exec (.bar4Access false off len [] tee) s =
      .next { s.bump Reg.cntBar4ProtRead 1 with hostRead := List.replicate len 0xFF }) ∧
  (∀ (off len : Nat) (tee : Bool) (s : State), s.mmioOpen = true → 0 < len → off % 64 + len ≤ 64 →
    s.pieceKind off len = .unmapped →
    exec (.bar4Access false off len [] tee) s =
      .next { s.bump Reg.cntBar4Unmapped 1 with hostRead := List.replicate len 0xFF })

/-- SECOND_BOUNDARY (R93, R499, R515): progress entries and sensor means are published, and the time mode written takes
effect; in FREE the rate is the oscillator's. SENSOR_SAMPLE (R513): every sensor shows its new sample, and nothing
but sensors, ledger, alerts and errors changes. PPS_EDGE, PTP_MESSAGE_RECEIVED and REFERENCE_LOST (R515, R583): an
edge more than 1 ms off is ignored; a Sync is answered with a Delay_Req; the discipline keeps the rate within 500
ppm of the nominal one, whatever rate it sets (a free value); a lost reference is HOLDOVER. -/
def Obligations.TimeAndSensors : Prop :=
  ((∀ s : State, ∃ t, exec .secondBoundary s = .next t ∧ t.shown = s.progress ∧ t.mgt.timeMode = s.mgt.timeCtrl ∧
    t.mgt.time = s.mgt.time ∧ t.mem = s.mem ∧ t.rings = s.rings ∧ t.job = s.job) ∧
  (∀ s : State, 0 < s.mgt.samples → ∃ t, exec .secondBoundary s = .next t ∧
    t.mgt.means = Tab.mapVal (fun _ v => v / (s.mgt.samples : Int)) s.mgt.sums ∧ t.mgt.sums = [] ∧ t.mgt.samples = 0) ∧
  (∀ s : State, s.mgt.timeMode ≠ s.mgt.timeCtrl → s.mgt.timeCtrl.toNat % 4 = 0 → ∃ t, exec .secondBoundary s = .next t ∧
    t.mgt.rate = 0 ∧ t.mgt.locked = false ∧ t.mgt.holdover = false)) ∧
  (∀ (values : List Int) (s : State), 3 ≤ s.glb.stage → values.length = 187 →
    ∃ t, exec (.sensorSample values) s = .next t ∧
      (∀ i, i < 187 → Tab.get 0 t.mgt.sensors i = values.getD i 0) ∧
      t.mgt.samples = s.mgt.samples + 1 ∧ t.mem = s.mem ∧ t.rings = s.rings ∧ t.pwr = s.pwr ∧ t.job = s.job) ∧
  ((∀ (off : Int) (s : State), s.timeKind = 2 → off.natAbs ≤ 1000000 → ∃ t, exec (.ppsEdge off) s = .next t ∧
    t.mgt.ppsSeen = true ∧ t.mgt.ppsMissed = 0 ∧ t.mgt.rate.natAbs * 1000000 ≤ nominalRate * 500 ∧
    t.mgt.time = s.mgt.time ∧ t.mem = s.mem) ∧
  (∀ (off : Int) (s : State), s.timeKind = 2 → 1000000 < off.natAbs → exec (.ppsEdge off) s = .next s) ∧
  (∀ (port domain sequence origin : Nat) (s : State), s.timeKind ≠ 0 → s.timePort = port → s.timeDomain = domain →
    9 ≤ s.glb.stage → ∃ t, exec (.ptpMessageReceived port domain 0 sequence origin) s = .next t ∧
      t.sent = s.sent ++ [.ptp 1 sequence] ∧ t.mgt.locked = true ∧ t.mgt.holdover = false ∧
      t.mgt.rate.natAbs * 1000000 ≤ nominalRate * 500 ∧
      (s.mgt.locked = false → s.mgt.holdover = false → t.mgt.time = origin % 2 ^ 64) ∧ t.mem = s.mem) ∧
  (∀ s : State, s.timeKind ≠ 0 →
    exec .referenceLost s = .next { s with mgt := { s.mgt with holdover := true, locked := false } }))

/-- MTR_PULSE (R539, R544): each pulse adds 0.1 Wh and nothing of the module but the meter changes; while the gate is
asserted pulses leave only as the reading crosses a whole Wh; in FAULT nothing is counted. METER_START,
COUNTER_RECORD_WRITE and METER_POWER_FAIL (R541): a start loads the newer valid record and counts a power-up; every
record written carries the running totals, over the older copy; a clean stop is what keeps UNSAVED clear at the next
start. SEAL_SAMPLE, METER_SELF_TEST and REVERIFICATION (R545 to R547): an open seal is remembered as UNSEALED, a
failed self-test is FAULT, and only reverification returns the meter to SEALED. -/
def Obligations.MeterCountsAndSeals : Prop :=
  ((∀ s : State, s.metered = true → s.meter.powered = true → s.meter.state ≠ 2 → s.gate = false →
    exec .mtrPulse s = .next { s with meter := { s.meter with
      energy := s.meter.energy + 1, heldPulses := 0, pulses := s.meter.pulses + s.meter.heldPulses + 1 } }) ∧
  (∀ s : State, s.metered = true → s.meter.powered = true → s.meter.state ≠ 2 → s.gate = true →
    (s.meter.energy + 1) % 10 ≠ 0 →
    exec .mtrPulse s = .next { s with meter := { s.meter with
      energy := s.meter.energy + 1, heldPulses := s.meter.heldPulses + 1 } }) ∧
  (∀ s : State, s.metered = true → s.meter.powered = true → s.meter.state ≠ 2 → s.gate = true →
    (s.meter.energy + 1) % 10 = 0 →
    exec .mtrPulse s = .next { s with meter := { s.meter with
      energy := s.meter.energy + 1, heldPulses := 0, pulses := s.meter.pulses + s.meter.heldPulses + 1 } }) ∧
  (∀ s : State, s.meter.state = 2 → exec .mtrPulse s = .next s)) ∧
  ((∀ (sealOpen : Bool) (version checksum : Nat) (r : CounterRecord) (s : State), s.metered = true → s.meter.newest = some r →
    ∃ t, exec (.meterStart sealOpen version checksum none) s = .next t ∧ t.meter.powered = true ∧ t.meter.energy = r.energy ∧
      t.meter.seconds = r.seconds ∧ t.meter.powerUps = r.powerUps + 1 ∧ t.meter.unsaved = !r.clean ∧
      t.meter.fwVersion = version ∧ t.meter.checksum = checksum ∧ t.meter.sealOpen = sealOpen ∧ t.mem = s.mem ∧
      t.mirror = s.mirror) ∧
  (∀ s : State, s.metered = true → s.meter.powered = true → ∃ t, exec .counterRecordWrite s = .next t ∧
    t.meter.newest = some ⟨(s.meter.newest.map fun r => r.seq + 1).getD 0, s.meter.energy, s.meter.seconds + 60,
      s.meter.powerUps, false, true⟩ ∧
    t.meter.energy = s.meter.energy ∧ t.meter.log = s.meter.log ∧ t.mem = s.mem) ∧
  (∀ s : State, s.metered = true → s.meter.powered = true → ∃ t, exec .meterPowerFail s = .next t ∧
    t.meter.powered = false ∧ (t.meter.newest.map fun r => (r.energy, r.clean)) = some (s.meter.energy, true) ∧
    t.mem = s.mem)) ∧
  ((∀ s : State, s.metered = true → s.meter.powered = true → s.meter.sealedNv = 0 → s.meter.state = 0 →
    ∃ t, exec (.sealSample true) s = .next t ∧ t.meter.sealOpen = true ∧ t.meter.sealedNv = 1 ∧ t.meter.state = 1 ∧
      t.meter.energy = s.meter.energy ∧ t.mem = s.mem) ∧
  (∀ s : State, s.metered = true → s.meter.powered = true →
    ∃ t, exec (.sealSample false) s = .next t ∧ t.meter = { s.meter with sealOpen := false } ∧ t.mem = s.mem) ∧
  (∀ (n : Nat) (s : State), s.metered = true → s.meter.powered = true →
    ∃ t, exec (.meterSelfTest (some n)) s = .next t ∧ t.meter.state = 2 ∧ t.meter.energy = s.meter.energy ∧ t.mem = s.mem) ∧
  (∀ (version checksum : Nat) (s : State), s.metered = true → s.meter.powered = true → s.meter.state ≠ 2 →
    ∃ t, exec (.reverification version checksum) s = .next t ∧ t.meter.state = 0 ∧ t.meter.sealedNv = 0 ∧
      t.meter.fwVersion = version ∧ t.meter.checksum = checksum ∧ t.meter.energy = s.meter.energy ∧ t.mem = s.mem))

/-- REVERSE and OVERRANGE (R538, R539, R548): each is one entry of the metrological log; a full log overwrites only
entries that may be replaced, and no count changes. METER_LINK_POLL, METER_READ_REQUEST and METER_LINK_FRAME (R536,
R543): the weigh-house answers reads and ignores and counts anything else; the mirror takes only a frame whose CRC
verifies. -/
def Obligations.MeterEventsAndLink : Prop :=
  (∀ (c : Instr) (code : Nat) (s : State), (c = .reverse ∧ code = 8 ∨ c = .overrange ∧ code = 7) → s.metered = true →
    s.meter.powered = true →
    ∃ t, exec c s = .next t ∧
      (s.meter.log.length < 1024 → t.meter.log =
        s.meter.log ++ [⟨s.meter.logNext, s.meter.seconds, s.meter.energy, code, 0⟩] ∧ t.meter.logNext = s.meter.logNext + 1) ∧
      (∀ e, e ∈ s.meter.log → e.replaceable = false → e ∈ t.meter.log) ∧
      t.meter.energy = s.meter.energy ∧ t.meter.state = s.meter.state ∧ t.mem = s.mem ∧ t.mirror = s.mirror) ∧
  ((∀ s : State, s.metered = true → s.mirror.seen = true → exec .meterLinkPoll s = .next { s with mirror := { s.mirror with
    age := min 0xFFFFFFFF (s.mirror.age + 100), sent := s.mirror.sent ++ [.requestCounters] } }) ∧
  (∀ s : State, s.metered = true → s.meter.powered = true →
    exec (.meterReadRequest .requestCounters true) s =
      .next { s with meter := { s.meter with sent := s.meter.sent ++ [.reading s.meterReading] } }) ∧
  (∀ (f : MeterFrame) (s : State), s.metered = true → s.meter.powered = true →
    exec (.meterReadRequest f false) s =
      .next { s with meter := { s.meter with ignored := min 0xFFFFFFFF (s.meter.ignored + 1) } }) ∧
  (∀ (r : MeterReading) (s : State), s.metered = true →
    exec (.meterLinkFrame (.reading r) true) s =
      .next { s with mirror := { s.mirror with reading := r, seen := true, age := 0 } }) ∧
  (∀ (f : MeterFrame) (s : State), exec (.meterLinkFrame f false) s = .next s))

/-- REGION_DEFINE and REGION_RELEASE (R111, R113): the region is entered under its identifier with its owner and range;
released, it is gone, and its bytes are zeroed if it was protected. No other region, and no byte of memory, changes. -/
def Obligations.RegionsDefinedReleased : Prop :=
  (∀ (p : Packet) (s : State), s.accepts regionDefineCommand p = true →
    ∃ t, exec (.regionDefine p) s = .next t ∧ t.owes s p Status.ok 0 = true ∧
      (Tab.look t.memory.regions (p.param 0 4)).map (fun r => (r.owner, r.base, r.size)) =
        some (BitVec.ofNat 32 (p.param 4 4), p.param 8 8, p.param 16 8) ∧
      (∀ id, id ≠ p.param 0 4 → Tab.look t.memory.regions id = Tab.look s.memory.regions id) ∧
      t = { s.bookkept t with memory := { s.memory with regions := t.memory.regions } }) ∧
  (∀ (p : Packet) (s : State), s.accepts regionReleaseCommand p = true → s.running = [] →
    ∃ t, exec (.regionRelease p) s = .next t ∧ t.owes s p Status.ok 0 = true ∧
      Tab.look t.memory.regions (p.param 0 4) = none ∧
      (∀ id, id ≠ p.param 0 4 → Tab.look t.memory.regions id = Tab.look s.memory.regions id) ∧
      (∀ r, Tab.look s.memory.regions (p.param 0 4) = some r → r.key = none → t.mem = s.mem ∧ t.host = s.host) ∧
      t = { s.bookkept t with
        mem := t.mem, host := t.host, memory := { s.memory with regions := t.memory.regions } })

/-- MEM_FILL (R129): each row of the destination holds the pattern repeated from its first byte and cut at its last; no
byte outside the rows changes. MEM_COPY (R124, R126, R127): without TRANSPOSE each row of the destination holds the
source row it held before, where no row written is one read or written twice; with a poisoned source the copy
completes with DATA_POISONED at the lowest poisoned address, counts two parity errors, and leaves its destination
undefined; the page or granule that holds the address takes a strike for each of the two (R444, R445). No byte
outside the destination's rows and scales changes. -/
def Obligations.FillAndCopy : Prop :=
  (∀ (p : Packet) (s : State), s.accepts memFillCommand p = true →
    ∃ t, exec (.memFill p) s = .next t ∧ t.owes s p Status.ok 0 = true ∧
      (∀ r, r < (memFillDst p).rows →
        (∀ q, q < (memFillDst p).rows → r < q → apart ((memFillDst p).rowAt r) (memFillDst p).rowBytes
          ((memFillDst p).rowAt q) (memFillDst p).rowBytes = true) →
        t.load ((memFillDst p).rowAt r) (memFillDst p).rowBytes =
          (List.range (memFillDst p).rowBytes).map fun i => (p.paramBytes 0 64).getD (i % 64) 0) ∧
      (∀ a n, (∀ r, r < (memFillDst p).rows → apart a n ((memFillDst p).rowAt r) (memFillDst p).rowBytes = true) →
        t.load a n = s.load a n) ∧
      t = { s.bookkept t with
        mem := t.mem, host := t.host, memory := { s.memory with poisoned := t.memory.poisoned } }) ∧
  ((∀ (p : Packet) (s : State), s.accepts memCopyCommand p = true →
    s.poisonedIn [(memCopySrc p).footprint, (memCopySrc p).scaleRange] = none → memCopyTranspose p = false →
    elemMx (memCopySrc p).elem = false →
    ∃ t, exec (.memCopy p) s = .next t ∧ t.owes s p Status.ok 0 = true ∧
      (∀ r, r < (memCopySrc p).rows →
        (∀ q, q < (memCopySrc p).rows → apart ((memCopyDst p).rowAt q) (memCopySrc p).rowBytes
          ((memCopySrc p).rowAt r) (memCopySrc p).rowBytes = true) →
        (∀ q, q < (memCopySrc p).rows → r < q → apart ((memCopyDst p).rowAt q) (memCopySrc p).rowBytes
          ((memCopyDst p).rowAt r) (memCopySrc p).rowBytes = true) →
        t.load ((memCopyDst p).rowAt r) (memCopySrc p).rowBytes = s.load ((memCopySrc p).rowAt r) (memCopySrc p).rowBytes) ∧
      (∀ a n, (∀ r, r < (memCopySrc p).rows → apart a n ((memCopyDst p).rowAt r) (memCopySrc p).rowBytes = true) →
        t.load a n = s.load a n) ∧
      t = { s.bookkept t with
        mem := t.mem, host := t.host, memory := { s.memory with poisoned := t.memory.poisoned } }) ∧
  (∀ (p : Packet) (s : State), s.accepts memCopyCommand p = true →
    s.poisonedIn [(memCopySrc p).footprint, (memCopySrc p).scaleRange] = none →
    ∃ t, exec (.memCopy p) s = .next t ∧ t.owes s p Status.ok 0 = true ∧
      t = { s.bookkept t with
        mem := ((s.entered memCopyCommand p).copyTensor (memCopyTranspose p) (memCopySrc p) (memCopyDst p)).mem
        host := ((s.entered memCopyCommand p).copyTensor (memCopyTranspose p) (memCopySrc p) (memCopyDst p)).host
        memory := { s.memory with poisoned := t.memory.poisoned } }) ∧
  (∀ (p : Packet) (a : Nat) (c : Charged) (s : State), s.accepts memCopyCommand p = true →
    s.poisonedIn [(memCopySrc p).footprint, (memCopySrc p).scaleRange] = some a → chargeOf a = some c → c.unitId = 0xFFFF →
    ∃ t, exec (.memCopy p) s = .next t ∧ t.owes s p Status.dataPoisoned a = true ∧
      t.reg Reg.intParityErrors = satAdd (s.reg Reg.intParityErrors) 2 ∧
      (∀ x n, (∀ r, r < (memCopyDst p).rows → apart x n ((memCopyDst p).rowAt r) (memCopyDst p).rowBytes = true) →
        t.load x n = s.load x n) ∧
      t.integrity.strikes = s.integrity.strikes ++ [⟨c, 2, s.integrity.clock⟩, ⟨c, 2, s.integrity.clock⟩] ∧
      t = { s.bookkept t with
        mem := t.mem, host := t.host, regs := t.regs, free := t.free
        memory := { s.memory with poisoned := t.memory.poisoned }
        integrity := { s.integrity with strikes := t.integrity.strikes }
        graph := { s.graph with divider := t.graph.divider, dividerNext := t.graph.dividerNext }
        mgt := { s.mgt with ledger := t.mgt.ledger } }))

/-- TABLE_LOAD and TABLE_RELEASE (R144, R148): a load completes at once, and its table is defined over its allocations
exactly when its record says OK; a source that does not answer ends it with PEER_UNREACHABLE. A release that no
running program holds up takes the table and its guards away. FPROG_LOAD, FPROG_UNLOAD and FPROG_QUERY (R161, R164,
R165): an image in order fills its empty slot and is guarded; one that is not is refused with its fault and the slot
stays empty; an idle slot is emptied; a query writes 256 bytes of host memory and nothing else. -/
def Obligations.TablesAndPrograms : Prop :=
  ((∀ (p : Packet) (fetched : Option (List (Nat × Byte))) (s : State),
    s.accepts (tableLoadCommand (fetched.map fun l => l.foldl (fun m e => Memory.write m e.1 e.2) [])) p = true →
    ∃ t st d, exec (.tableLoad p fetched) s = .next t ∧ t.owes s p st d = true ∧
      (st = Status.ok → Tab.look t.ingest.tables (p.param 0 4) = some (loadAllocs p)) ∧
      (st ≠ Status.ok → t.ingest = s.ingest) ∧
      (∀ id, id ≠ p.param 0 4 → Tab.look t.ingest.tables id = Tab.look s.ingest.tables id) ∧
      t.ingest.programs = s.ingest.programs ∧ t.running = s.running ∧ t.job = s.job ∧ t.graph = s.graph ∧
      t.relay = s.relay) ∧
  (∀ (p : Packet) (s : State), s.accepts (tableLoadCommand none) p = true → 3 ≤ loadSource p →
    ∃ t, exec (.tableLoad p none) s = .next t ∧ t.owes s p Status.peerUnreachable 0 = true ∧ t.ingest = s.ingest) ∧
  (∀ (p : Packet) (s : State), s.accepts tableReleaseCommand p = true → s.running = [] →
    (s.ingest.programs.all fun e => e.2.run.all fun r => !r.inputs.any fun x => x.1 == p.param 0 4) = true →
    ∃ t, exec (.tableRelease p) s = .next t ∧ t.owes s p Status.ok 0 = true ∧
      Tab.look t.ingest.tables (p.param 0 4) = none ∧
      (∀ id, id ≠ p.param 0 4 → Tab.look t.ingest.tables id = Tab.look s.ingest.tables id) ∧
      (t.memory.guards.all fun g => !(g.kind == .table && g.id == p.param 0 4)) = true ∧
      t = { s.bookkept t with
        ingest := { s.ingest with tables := t.ingest.tables }, memory := { s.memory with guards := t.memory.guards } })) ∧
  ((∀ (p : Packet) (s : State), s.accepts fprogLoadCommand p = true → s.poisonedIn [loadImage p] = none →
    s.programFault (s.load (loadImage p).lo (loadImage p).len) = none →
    ∃ t, exec (.fprogLoad p) s = .next t ∧ t.owes s p Status.ok 0 = true ∧
      Tab.look t.ingest.programs (p.param 0 1) =
        some ⟨p.param 8 8, s.load (loadImage p).lo (loadImage p).len, 0, 0, 0, [], 0, none⟩ ∧
      (∀ n, n ≠ p.param 0 1 → Tab.look t.ingest.programs n = Tab.look s.ingest.programs n) ∧
      t = { s.bookkept t with
        ingest := { s.ingest with programs := t.ingest.programs }, memory := { s.memory with guards := t.memory.guards } }) ∧
  (∀ (p : Packet) (st : Status) (d : Nat) (s : State), s.accepts fprogLoadCommand p = true →
    s.poisonedIn [loadImage p] = none → s.programFault (s.load (loadImage p).lo (loadImage p).len) = some (st, d) →
    ∃ t, exec (.fprogLoad p) s = .next t ∧ t.owes s p st d = true ∧ t.ingest = s.ingest ∧ t.mem = s.mem ∧ t.host = s.host) ∧
  (∀ (p : Packet) (g : ProgSlot) (s : State), s.accepts fprogUnloadCommand p = true → s.running = [] →
    Tab.look s.ingest.programs (p.param 0 1) = some g → g.run = none →
    ∃ t, exec (.fprogUnload p) s = .next t ∧ t.owes s p Status.ok 0 = true ∧
      Tab.look t.ingest.programs (p.param 0 1) = none ∧
      (∀ n, n ≠ p.param 0 1 → Tab.look t.ingest.programs n = Tab.look s.ingest.programs n) ∧
      t = { s.bookkept t with
        ingest := { s.ingest with programs := t.ingest.programs }, memory := { s.memory with guards := t.memory.guards } }) ∧
  (∀ (p : Packet) (s : State), s.accepts fprogQueryCommand p = true → hostWindow ≤ p.param 8 8 →
    ∃ t, exec (.fprogQuery p) s = .next t ∧ t.owes s p Status.ok 0 = true ∧
      t.load (p.param 8 8) 256 = ProgSlot.record (Tab.look s.ingest.programs (p.param 0 1)) ∧
      (∀ a n, apart a n (p.param 8 8) 256 = true → t.load a n = s.load a n) ∧ t = { s.bookkept t with host := t.host }))

/-- FPROG_START, STRIPE_START and STRIPE_PLACEMENT (R159, R162, R163): a start makes its slot's program run and joins
the running commands; a stripe starts on the free lane that R158 picks, within the stripe window; the next stripe in
order is placed, or its failure ends the program with that status. PARTITION_EXCHANGE and
EXCHANGE_INCOMPLETE_TIMEOUT (R218 to R221): the exchange joins the running commands and its images go out; a rank's
image that does not fit its slot ends it with TABLE_FULL and the rank; when a slot image has not come in time, the
command ends with EXCHANGE_INCOMPLETE and the lowest missing rank, and its table stays undefined. -/
def Obligations.ProgramRunsAndExchanges : Prop :=
  ((∀ (p : Packet) (g : ProgSlot) (s : State), s.accepts fprogStartCommand p = true →
    Tab.look s.ingest.programs (startSlot p.startBlock) = some g →
    ∃ t, exec (.fprogStart p) s = .next t ∧
      ((Tab.look t.ingest.programs (startSlot p.startBlock)).bind fun g => g.run).isSome = true ∧
      (∃ o, t.running = s.running ++ [o] ∧ o.pkt = p ∧ o.kind = .fprogStart (startSlot p.startBlock) ∧ o.position = 0) ∧
      (∀ n, n ≠ startSlot p.startBlock → Tab.look t.ingest.programs n = Tab.look s.ingest.programs n) ∧
      t.job = s.job ∧ t.graph = s.graph ∧ t.relay = s.relay) ∧
  (∀ (slot : Nat) (g : ProgSlot) (r : ProgRun) (k l : Nat) (x : Item) (s : State),
    Tab.look s.ingest.programs slot = some g → g.run = some r →
    (((List.range ((s.evOf g r 0).items r.pass).length).drop r.placed).find? fun k => !r.started.any fun y => y.1 == k) = some k →
    ((s.evOf g r 0).items r.pass)[k]? = some x → k < r.placed + stripeWindow r.params g.image →
    s.pickLane r.mask (s.itemDie (s.evOf g r 0) x) = some l →
    ∃ t, exec (.stripeStart slot) s = .next t ∧
      Tab.look t.ingest.programs slot = some { g with run := some { r with started := r.started ++ [(k, l)] } } ∧
      (∀ a n, apart a n ((startStaging r.params).lo + k % stripeWindow r.params g.image * imageStaging g.image)
        (imageStaging g.image) = true → t.load a n = s.load a n) ∧
      (∀ n, n ≠ slot → Tab.look t.ingest.programs n = Tab.look s.ingest.programs n) ∧
      t.rings = s.rings ∧ t.running = s.running ∧ t.job = s.job ∧ t.regs = s.regs) ∧
  (∀ (slot : Nat) (g : ProgSlot) (r r1 : ProgRun) (lane : Nat) (x : Item) (s s1 : State),
    Tab.look s.ingest.programs slot = some g → g.run = some r → s.ingest.waiting = [] →
    (r.started.find? fun y => y.1 == r.placed) = some (r.placed, lane) →
    ((s.evOf g r (lane / 32)).items r.pass)[r.placed]? = some x →
    placeItem (s.evOf g r (lane / 32)) r.params s r x = .ok (s1, r1) → s1.ingest = s.ingest →
    let r2 := { r1 with placed := r1.placed + 1, started := r1.started.filter fun y => y.1 != r.placed }
    let wraps := g.wraps + ((s1.reg Reg.cntWrapFeature).toNat - (s.reg Reg.cntWrapFeature).toNat)
    let u := (s1.setProgram slot { g with wraps := wraps, run := some r2 }).runProgress slot r2 (imagePasses g.image)
    r2.placed < ((u.evOf { g with wraps := wraps, run := some r2 } r2 0).items r2.pass).length →
    exec (.stripePlacement slot) s = .next u) ∧
  (∀ (slot : Nat) (g : ProgSlot) (r : ProgRun) (lane d : Nat) (st : Status) (x : Item) (o : RunOp) (s : State),
    Tab.look s.ingest.programs slot = some g → g.run = some r → r.step = none → s.ingest.waiting = [] →
    (r.started.find? fun y => y.1 == r.placed) = some (r.placed, lane) →
    ((s.evOf g r (lane / 32)).items r.pass)[r.placed]? = some x →
    placeItem (s.evOf g r (lane / 32)) r.params s r x = .error (st, d) →
    s.running = [o] → o.kind = .fprogStart slot →
    ∃ t, exec (.stripePlacement slot) s = .next t ∧ t.running = [] ∧ t.owes s o.pkt st d = true ∧
      (Tab.look t.ingest.programs slot).map (fun g => (g.lastStatus, g.run)) = some (st, none))) ∧
  ((∀ (p : Packet) (s : State), s.accepts partitionExchangeCommand p = true →
    s.poisonedIn (((exUses p).filter fun u => !u.write).map fun u => u.range) = none →
    (s.entered partitionExchangeCommand p).exTooLarge p = none →
    exec (.partitionExchange p) s =
      .next ((((s.entered partitionExchangeCommand p).enroll p (.exchange (s.starts + 1)) (exUses p) 0).sendImages p
        (s.starts + 1)).settleExchanges)) ∧
  (∀ (p : Packet) (q : Nat) (s : State), s.accepts partitionExchangeCommand p = true →
    s.poisonedIn (((exUses p).filter fun u => !u.write).map fun u => u.range) = none →
    (s.entered partitionExchangeCommand p).exTooLarge p = some q →
    ∃ t, exec (.partitionExchange p) s = .next t ∧ t.owes s p Status.tableFull q = true ∧ t = s.bookkept t) ∧
  (∀ (key r : Nat) (o : RunOp) (s : State), (s.exchanges.find? fun o => o.kind == .exchange key) = some o → s.running = [o] →
    s.exSent o = true → ((exGroup o.pkt).find? fun r => !s.exArrived o.pkt r) = some r →
    ∃ t, exec (.exchangeIncompleteTimeout key) s = .next t ∧ t.owes s o.pkt Status.exchangeIncomplete r = true ∧
      t.running = [] ∧ t.ingest = s.ingest ∧ t.job = s.job))

/-- The sample order (R233): the values of its table, and a permutation: every position below n reaches a sample below
n, and no two positions reach the same one. -/
def Obligations.SampleOrderPermutes : Prop :=
  orderKey 0 0 0 = 0xE220A8397B1DCDAF ∧ orderKey 0 0 1 = 0x6E789E6AA1B965F4 ∧ orderKey 0 0 2 = 0x06C45D188009454F ∧
  orderKey 0x9E3779B97F4A7C15 0 0 = 0x6E789E6AA1B965F4 ∧ orderKey 0x61C8864680B583EB 0 0 = 0 ∧
  orderBits 4 = 1 ∧ orderBits 5 = 2 ∧ orderBits (2 ^ 48) = 24 ∧
  (∀ (seed : DWord) (epoch : Nat), (sampleAtPosition 0 1 seed epoch).1 = 0) ∧
  (∀ (n : Nat) (seed : DWord) (epoch p q : Nat), n ≤ 2 ^ 48 → p < n → q < n →
    (sampleAtPosition p n seed epoch).1 < n ∧
    ((sampleAtPosition p n seed epoch).1 = (sampleAtPosition q n seed epoch).1 → p = q))

/-- DATASET_OPEN, DATASET_CLOSE, PIPELINE_CONFIG and EPOCH_SET (R227, R228, R237, R240): a dataset is entered or taken
away; a pipeline is set with its first anchor and a rank set for each rank held; an anchor takes its place in
ascending start step. Nothing else changes. BATCH_PREPARE and CORRECTION_LOAD (R241, R247, R262): the first batch is
dealt in blocks of 64 to the two dies by turns and its mask is cleared; a set is emptied, or loaded with its digest
and its vertex map, or refused with CORRECTION_INVALID. -/
def Obligations.PipelinesAndBatches : Prop :=
  ((∀ (p : Packet) (s : State), s.accepts datasetOpenCommand p = true →
    ∃ t, exec (.datasetOpen p) s = .next t ∧ t.owes s p Status.ok 0 = true ∧
      Tab.look t.samples.datasets (p.param 0 4) = some ⟨p.param 8 8, p.param 16 1, p.param 24 8, openSources p⟩ ∧
      (∀ n, n ≠ p.param 0 4 → Tab.look t.samples.datasets n = Tab.look s.samples.datasets n) ∧
      t = { s.bookkept t with samples := { s.samples with datasets := t.samples.datasets } }) ∧
  (∀ (p : Packet) (s : State), s.accepts datasetCloseCommand p = true →
    ∃ t, exec (.datasetClose p) s = .next t ∧ t.owes s p Status.ok 0 = true ∧
      Tab.look t.samples.datasets (p.param 0 4) = none ∧
      (∀ n, n ≠ p.param 0 4 → Tab.look t.samples.datasets n = Tab.look s.samples.datasets n) ∧
      t = { s.bookkept t with samples := { s.samples with datasets := t.samples.datasets } }) ∧
  (∀ (p : Packet) (slot : Nat) (j : Job) (s : State), s.accepts pipelineConfigCommand p = true →
    s.findJob p.job = some (slot, j) → Tab.get [] s.samples.restored slot = [] →
    ∃ t, exec (.pipelineConfig p) s = .next t ∧ t.owes s p Status.ok 0 = true ∧
      Tab.look t.samples.pipes slot = some ⟨p.param 4 1, p.param 8 8, p.param 16 8, p.param 24 4, [(p.param 28 4, p.param 32 4)],
        j.ranks.zipIdx.map fun e => (e.2, e.1)⟩ ∧
      (∀ n, n ≠ slot → Tab.look t.samples.pipes n = Tab.look s.samples.pipes n) ∧
      t = { s.bookkept t with
        samples := { s.samples with pipes := t.samples.pipes, restored := t.samples.restored } }) ∧
  (∀ (p : Packet) (slot : Nat) (j : Job) (x : Pipeline) (s : State), s.accepts epochSetCommand p = true →
    s.findJob p.job = some (slot, j) → Tab.look s.samples.pipes slot = some x →
    ∃ t, exec (.epochSet p) s = .next t ∧ t.owes s p Status.ok 0 = true ∧
      Tab.look t.samples.pipes slot = some { x with
        anchors := addAnchor (p.param 4 4, p.param 8 4) (anchorsFrom x.anchors j.floorStep) } ∧
      anchorOf (addAnchor (p.param 4 4, p.param 8 4) (anchorsFrom x.anchors j.floorStep)) (p.param 8 4) =
        (p.param 4 4, p.param 8 4) ∧
      (∀ n, n ≠ slot → Tab.look t.samples.pipes n = Tab.look s.samples.pipes n) ∧
      t = { s.bookkept t with samples := { s.samples with pipes := t.samples.pipes } })) ∧
  ((∀ (p : Packet) (slot : Nat) (j : Job) (st : PipeSettings) (x : Pipeline) (d : Dataset) (s : State),
    s.accepts batchPrepareCommand p = true → s.findJob p.job = some (slot, j) →
    s.pipeAt slot (p.param 8 4) = some (st, x, d) →
    (s.running.all fun o => o.kind != .batchPrepare (s.starts + 1)) = true →
    ∃ t o, exec (.batchPrepare p) s = .next t ∧ t.running = s.running ++ [o] ∧ o.pkt = p ∧ o.kind = .batchPrepare (s.starts + 1) ∧
      t.samples.left = s.samples.left ++ [(.batch (s.starts + 1), p.param 4 4, p.param 8 4, st.slots)] ∧
      t.samples.queue0 = s.samples.queue0 ++ ((List.range (ceilDiv st.slots 64)).filter fun i => i % 2 == 0).map
        (fun i => ⟨.batch (s.starts + 1), p.param 4 4, p.param 8 4, 64 * i, min 64 (st.slots - 64 * i)⟩) ∧
      t.samples.queue1 = s.samples.queue1 ++ ((List.range (ceilDiv st.slots 64)).filter fun i => i % 2 == 1).map
        (fun i => ⟨.batch (s.starts + 1), p.param 4 4, p.param 8 4, 64 * i, min 64 (st.slots - 64 * i)⟩) ∧
      t = { s.bookkept t with
        running := t.running, mem := t.mem, host := t.host
        samples := { s.samples with left := t.samples.left, queue0 := t.samples.queue0, queue1 := t.samples.queue1 } }) ∧
  (∀ (p : Packet) (s : State), s.accepts correctionLoadCommand p = true → p.param 4 4 = 0 →
    ∃ t, exec (.correctionLoad p) s = .next t ∧ t.owes s p Status.ok 0 = true ∧
      Tab.look t.samples.sets (p.param 0 2) = none ∧
      (∀ n, n ≠ p.param 0 2 → Tab.look t.samples.sets n = Tab.look s.samples.sets n) ∧ t.mem = s.mem ∧ t.host = s.host) ∧
  (∀ (p : Packet) (s : State), s.accepts correctionLoadCommand p = true → p.param 4 4 ≠ 0 →
    s.poisonedIn [correctionImage p] = none → setFault (s.load (p.param 8 8) (p.param 4 4)) = none →
    ∃ t d, exec (.correctionLoad p) s = .next t ∧ t.owes s p Status.ok d = true ∧
      (let g := s.load (p.param 8 8) (p.param 4 4)
       Tab.look t.samples.sets (p.param 0 2) = some ⟨g, sha3 g, p.param 16 8⟩ ∧
       t.load (p.param 16 8) (vertexBytes g).length = vertexBytes g ∧
       (∀ a n, apart a n (p.param 16 8) (vertexBytes g).length = true → t.load a n = s.load a n)) ∧
      (∀ n, n ≠ p.param 0 2 → Tab.look t.samples.sets n = Tab.look s.samples.sets n)) ∧
  (∀ (p : Packet) (o : Nat) (s : State), s.accepts correctionLoadCommand p = true → p.param 4 4 ≠ 0 →
    s.poisonedIn [correctionImage p] = none → setFault (s.load (p.param 8 8) (p.param 4 4)) = some o →
    ∃ t, exec (.correctionLoad p) s = .next t ∧ t.owes s p Status.correctionInvalid o = true ∧ t = s.bookkept t))

/-- SAMPLE_ISSUE and SAMPLE_DECODE_COMPLETE (R235, R242, R247): a die gives its lowest free lane the next slot of its
queue, with the sample that the order gives it; a lane that finishes an unsound entry leaves a corrupt result of
reason 3, and one that finishes a sound one its decoded result, without touching memory. SLOT_HAND_ON and
SAMPLE_SOURCE_TIMEOUT (R229, R238, R242, R246, R248): the oldest complete slot of a window writes its element,
label, mask bit and waybill, and is counted; a slot not yet complete holds back those behind it; a remote read that
has not come fails the job's step with SAMPLE_SOURCE_FAILED and the sample. -/
def Obligations.SamplesFlow : Prop :=
  ((∀ (die lane slot a : Nat) (b : SampleBlock) (rest : List SampleBlock) (st : PipeSettings) (x : Pipeline) (d : Dataset)
    (src : Source) (s : State), die ≤ 1 → s.dieDecodes die = true → s.laneFor die = some lane →
    (s.windowOf die).any (fun e => e.lane.isNone && e.result.isNone) = false → (s.windowOf die).length < 4096 →
    s.queueOf die = b :: rest → s.ownerSlot b.owner = some slot → s.pipeAt slot b.step = some (st, x, d) →
    src = d.sources.getD d.indexSource ⟨0, 0, 0, 0, 0⟩ → src.kind = 1 →
    a = d.indexOffset + 32 * (sampleOf st d.count x.anchors b.rank b.step b.first).1 →
    s.poisonedIn [⟨src.base + a, 32⟩] = none → s.settingsFault slot st x d (s.load (src.base + a) 32) = none →
    ∃ t, exec (.sampleIssue die none) s = .next t ∧
      t.windowOf die = s.windowOf die ++ [⟨b.owner, b.rank, b.step, b.first,
        (sampleOf st d.count x.anchors b.rank b.step b.first).1, s.load (src.base + a) 32, some lane, none⟩] ∧
      t.queueOf die = advanceBlock (b :: rest) ∧ t.queueOf (1 - die) = s.queueOf (1 - die) ∧
      t.windowOf (1 - die) = s.windowOf (1 - die) ∧ t.mem = s.mem ∧ t.host = s.host ∧ t.rings = s.rings ∧
      t.running = s.running ∧ t.job = s.job) ∧
  (∀ (lane slot : Nat) (e : WindowEntry) (fetched : Option (List (Nat × Byte))) (st : PipeSettings) (x : Pipeline) (d : Dataset)
    (s : State), ((s.samples.window0 ++ s.samples.window1).find? fun e => e.lane == some lane && e.result.isNone) = some e →
    s.ownerSlot e.owner = some slot → s.pipeAt slot e.step = some (st, x, d) → entrySound d st e.entry = false →
    exec (.sampleDecodeComplete lane fetched) s = .next { s with samples := { s.samples with
      window0 := updateFirst (fun e => e.lane == some lane && e.result.isNone)
        (fun e => { e with result := some ⟨3, 0, 0xFFFFFFFF, []⟩ }) s.samples.window0
      window1 := updateFirst (fun e => e.lane == some lane && e.result.isNone)
        (fun e => { e with result := some ⟨3, 0, 0xFFFFFFFF, []⟩ }) s.samples.window1 } }) ∧
  (∀ (lane slot : Nat) (e : WindowEntry) (st : PipeSettings) (x : Pipeline) (d : Dataset) (src : Source) (s : State),
    ((s.samples.window0 ++ s.samples.window1).find? fun e => e.lane == some lane && e.result.isNone) = some e →
    s.ownerSlot e.owner = some slot → s.pipeAt slot e.step = some (st, x, d) → entrySound d st e.entry = true →
    src = d.sources.getD (entrySource e.entry) ⟨0, 0, 0, 0, 0⟩ → src.kind = 1 →
    s.poisonedIn [⟨src.base + entryOffset e.entry, entryLength e.entry⟩] = none →
    let b := s.load (src.base + entryOffset e.entry) (entryLength e.entry)
    let set := if entrySet e.entry = 0xFFFF then none else s.namedSet st (entrySet e.entry)
    let r := if entryKind e.entry = 1 then (s.decodeJpeg st set b).1.1 else (s.decodeRaw st set (entryKind e.entry == 3) b).1
    ∃ t, exec (.sampleDecodeComplete lane none) s = .next t ∧
      t.samples = { s.samples with
        window0 := updateFirst (fun e => e.lane == some lane && e.result.isNone)
          (fun e => { e with result := some r }) s.samples.window0
        window1 := updateFirst (fun e => e.lane == some lane && e.result.isNone)
          (fun e => { e with result := some r }) s.samples.window1 } ∧
      t.mem = s.mem ∧ t.host = s.host ∧ t.rings = s.rings ∧ t.running = s.running ∧ t.job = s.job)) ∧
  ((∀ (die slot owner n : Nat) (e : WindowEntry) (rest : List WindowEntry) (r : SampleResult) (st : PipeSettings) (x : Pipeline)
    (d : Dataset) (s : State), s.windowOf die = e :: rest → e.result = some r → e.owner = .job owner →
    s.pipeAt owner e.step = some (st, x, d) → s.samples.left = [(e.owner, e.rank, e.step, n)] → 1 < n → slot = e.slot →
    ∃ t, exec (.slotHandOn die) s = .next t ∧ t.windowOf die = rest ∧
      t.samples.left = [(e.owner, e.rank, e.step, n - 1)] ∧
      (let u := s.writeSlot st (s.batchAt e.owner e.rank e.step) e r
       t.mem = u.mem ∧ t.host = u.host) ∧
      t.load (s.batchAt e.owner e.rank e.step + st.waybillsAt + 16 * slot) 16 =
        leBytes 6 e.sample ++ leBytes 1 r.reason ++ leBytes 1 0 ++ leBytes 4 r.symbols ++ leBytes 4 r.fault ∧
      (r.reason = 1 → t.reg Reg.smpCorruptDecode = satAdd (s.reg Reg.smpCorruptDecode) 1) ∧
      (r.reason = 0 → t.regs = s.regs) ∧ t.rings = s.rings ∧ t.running = s.running ∧ t.job = s.job) ∧
  (∀ (die : Nat) (e : WindowEntry) (rest : List WindowEntry) (s : State), s.windowOf die = e :: rest → e.result = none →
    exec (.slotHandOn die) s = .next s) ∧
  (∀ (die lane slot : Nat) (e : WindowEntry) (st : PipeSettings) (x : Pipeline) (d : Dataset) (s : State),
    ((s.samples.window0 ++ s.samples.window1).find? fun e => e.lane == some lane && e.result.isNone) = some e →
    e.owner = .job slot → s.pipeAt slot e.step = some (st, x, d) → entrySound d st e.entry = true →
    2 ≤ (d.sources.getD (entrySource e.entry) ⟨0, 0, 0, 0, 0⟩).kind →
    ∃ t, exec (.sampleSourceTimeout die (some lane)) s = .next t ∧
      t.ingest.ended = s.ingest.ended ++ [(slot, e.step, Status.sampleSourceFailed, e.sample)] ∧
      (t.samples.window0.all fun w => !(w.owner == .job slot && w.step == e.step)) = true ∧
      t.mem = s.mem ∧ t.host = s.host ∧ t.rings = s.rings ∧ t.job = s.job))

/-- GRAPH_LOAD, GRAPH_UNLOAD and GRAPH_RUN (R318, R319, R321): a graph that passes its checks fills its empty slot with
its digest and is guarded; one that fails is refused with its fault; a graph that no command runs is unloaded; a
GRAPH_RUN starts a run of attempt 0 with no task admitted, bound to the CURRENT versions. -/
def Obligations.GraphsLoadedAndRun : Prop :=
  (∀ (p : Packet) (s : State), s.accepts graphLoadCommand p = true → s.poisonedIn [graphSource p] = none →
    s.graphFault (s.load (p.param 8 8) (p.param 16 4)) = none →
    ∃ t, exec (.graphLoad p) s = .next t ∧ t.owes s p Status.ok 0 = true ∧
      Tab.look t.graph.graphs (p.param 0 1) =
        some ⟨p.param 8 8, s.load (p.param 8 8) (p.param 16 4), sha3 (s.load (p.param 8 8) (p.param 16 4))⟩ ∧
      (∀ n, n ≠ p.param 0 1 → Tab.look t.graph.graphs n = Tab.look s.graph.graphs n) ∧
      t = { s.bookkept t with
        graph := { s.graph with graphs := t.graph.graphs }, memory := { s.memory with guards := t.memory.guards } }) ∧
  (∀ (p : Packet) (st : Status) (d : Nat) (s : State), s.accepts graphLoadCommand p = true →
    s.poisonedIn [graphSource p] = none → s.graphFault (s.load (p.param 8 8) (p.param 16 4)) = some (st, d) →
    ∃ t, exec (.graphLoad p) s = .next t ∧ t.owes s p st d = true ∧ t.graph = s.graph ∧ t.mem = s.mem ∧ t.host = s.host) ∧
  (∀ (p : Packet) (s : State), s.accepts graphUnloadCommand p = true → s.running = [] →
    (s.graph.runs.all fun e => e.2.slot != p.param 0 1 || e.2.cmd.isNone) = true →
    ∃ t, exec (.graphUnload p) s = .next t ∧ t.owes s p Status.ok 0 = true ∧ Tab.look t.graph.graphs (p.param 0 1) = none ∧
      (∀ n, n ≠ p.param 0 1 → Tab.look t.graph.graphs n = Tab.look s.graph.graphs n) ∧
      t = { s.bookkept t with
        graph := { s.graph with graphs := t.graph.graphs }, memory := { s.memory with guards := t.memory.guards } }) ∧
  (∀ (p : Packet) (s : State), s.accepts graphRunCommand p = true →
    ∃ t o g, exec (.graphRun p) s = .next t ∧ t.running = s.running ++ [o] ∧ o.pkt = p ∧ o.kind = .graphRun s.graph.nextRun ∧
      t.graphRun s.graph.nextRun = some g ∧ g.slot = p.param 0 1 ∧ g.attempt = 0 ∧ g.tasks = [] ∧
      g.bound = s.bindVersions (s.graphImage (p.param 0 1)) ∧ g.cmd = some (p.ring, p.seq) ∧
      t = { s.bookkept t with
        running := t.running, graph := { s.graph with runs := t.graph.runs, nextRun := s.graph.nextRun + 1 } })

/-- TASK_ADMISSION and TOKEN_ARRIVAL (R304, R306, R308): the head of the admission order is admitted with empty slots
when the budget has room, and otherwise nothing moves; a token of the current attempt fills its slot, and one of a
run that is gone is counted as stale. TASK_GRANT (R310, R313): the dispatcher gives the task it picks to the unit it
picks, behind what the unit already holds; a duplicate goes to the array it picks; with nothing to grant nothing
moves. -/
def Obligations.TasksAdmittedAndGranted : Prop :=
  ((∀ (run die k : Nat) (g : GraphRun) (s : State), s.graphRun run = some g → s.admissionHead g die = some k →
    s.admissible g die k = true → (g.heldTokens.filter fun x => x.task == k) = [] →
    ((graphTask (s.runImage g) k).slots.all fun x => x.source != 6) = true → (graphTask (s.runImage g) k).slots ≠ [] →
    ∃ t, exec (.taskAdmission run die) s = .next t ∧
      t.runTask run k = some ⟨(graphTask (s.runImage g) k).slots.map fun _ => 0, .waiting, 0, []⟩ ∧
      (∀ i, i ≠ k → t.runTask run i = s.runTask run i) ∧
      t = { s with graph := { s.graph with runs := t.graph.runs, prefetch := t.graph.prefetch } }) ∧
  (∀ (run die k : Nat) (g : GraphRun) (s : State), s.graphRun run = some g → s.admissionHead g die = some k →
    s.admissible g die k = false → exec (.taskAdmission run die) s = .next s) ∧
  (∀ (n : Nat) (k : Token) (g : GraphRun) (x : TaskState) (s : State), s.graph.tokens[n]? = some k → s.graphRun k.run = some g →
    k.attempt = g.attempt → Tab.look g.tasks k.task = some x →
    x.fill.getD k.slot 0 < ((s.taskRecord k.run k.task).slot k.slot).arrivals →
    slotsFull (s.taskRecord k.run k.task) { x with fill := setAt x.fill k.slot fun n => n + 1 } = false →
    ∃ t, exec (.tokenArrival n) s = .next t ∧ t.graph.tokens = s.graph.tokens.eraseIdx n ∧
      t.runTask k.run k.task = some { x with fill := setAt x.fill k.slot fun n => n + 1 } ∧
      t = { s with graph := { s.graph with tokens := t.graph.tokens, runs := t.graph.runs } }) ∧
  (∀ (n : Nat) (k : Token) (g : GraphRun) (x : TaskState) (s : State), s.graph.tokens[n]? = some k → s.graphRun k.run = some g →
    k.attempt = g.attempt → Tab.look g.tasks k.task = some x → (g.direct.all fun y => y.2.1 != k.task) = true →
    x.fill.getD k.slot 0 < ((s.taskRecord k.run k.task).slot k.slot).arrivals →
    slotsFull (s.taskRecord k.run k.task) { x with fill := setAt x.fill k.slot fun n => n + 1 } = true →
    (Tab.get [] s.graph.ready (readyKey (s.taskRecord k.run k.task))).length < 2048 →
    ∃ t, exec (.tokenArrival n) s = .next t ∧ t.graph.tokens = s.graph.tokens.eraseIdx n ∧
      Tab.get [] t.graph.ready (readyKey (s.taskRecord k.run k.task)) =
        Tab.get [] s.graph.ready (readyKey (s.taskRecord k.run k.task)) ++ [(k.run, k.task)] ∧
      (t.runTask k.run k.task).map (fun y => y.place) = some .ready) ∧
  (∀ (n : Nat) (k : Token) (s : State), s.graph.tokens[n]? = some k → s.graphRun k.run = none →
    ∃ t, exec (.tokenArrival n) s = .next t ∧ t.graph = { s.graph with tokens := s.graph.tokens.eraseIdx n } ∧
      t.reg Reg.arrStaleTokens = satAdd (s.reg Reg.arrStaleTokens) 1 ∧ t.mem = s.mem ∧ t.job = s.job)) ∧
  ((∀ (die ty run task u : Nat) (g : GraphRun) (x : TaskState) (s : State),
    s.pickTask ty ((List.range 8).reverse.flatMap fun p => Tab.get [] s.graph.ready (die * 8 + p)) = some (run, task, u) →
    s.graphRun run = some g → Tab.look g.tasks task = some x →
    s.flowOk g (s.taskReads (s.runImage g) (graphTask (s.runImage g) task)) (taskWrites (s.runImage g) (graphTask (s.runImage g) task)) =
      true →
    (graphTask (s.runImage g) task).type ≠ 3 → (graphTask (s.runImage g) task).type ≠ 5 → s.taskGather run task = none →
    ∃ t, exec (.taskGrant die ty false) s = .next t ∧ t.runTask run task = some { x with place := .granted u } ∧
      t.entries u = s.entries u ++ [(run, task, x.gen, g.attempt)] ∧ (∀ v, v ≠ u → t.entries v = s.entries v) ∧
      (∀ i, i ≠ task → t.runTask run i = s.runTask run i) ∧ t.graph.tokens = s.graph.tokens ∧
      t.mem = s.mem ∧ t.host = s.host ∧ t.rings = s.rings ∧ t.job = s.job ∧ t.emb = s.emb) ∧
  (∀ (die ty run u : Nat) (d : DupRun) (g : GraphRun) (s : State), s.pickDup die = some (run, d, u) → s.graphRun run = some g →
    ∃ t, exec (.taskGrant die ty true) s = .next t ∧ t.entries u = s.entries u ++ [(run, d.task, dupGen, g.attempt)] ∧
      (t.graphRun run).map (fun g => g.dups) = some (g.dups.map fun x => if x = d then { x with on := some u } else x) ∧
      (∀ v, v ≠ u → t.entries v = s.entries v) ∧ t.mem = s.mem ∧ t.job = s.job ∧ t.relay = s.relay) ∧
  (∀ (die ty : Nat) (s : State),
    s.pickTask ty ((List.range 8).reverse.flatMap fun p => Tab.get [] s.graph.ready (die * 8 + p)) = none →
    exec (.taskGrant die ty false) s = .next s))

/-- TASK_RESULT_OFFERED (R50, R304, R444): a result of an earlier placement is discarded and counted; a current result
of a task that is no COMMIT task, with no parity error, takes effect, and its consumers' tokens set out in the order
the task lists them. ENGINE_TRANSFER_COMPLETE, QUEUE_SPACE_RELEASED and PREFETCH_COPY_COMPLETE (R27, R309, R316): a
transfer ends and the next of its engine is issued; the oldest task that waits for room joins its list; a copy under
way copies its source and sends its token. -/
def Obligations.ResultsAndEngines : Prop :=
  ((∀ (o : Offer) (g : GraphRun) (x : TaskState) (s : State), s.graphRun o.run = some g → Tab.look g.tasks o.task = some x →
    (s.entries o.unit).head? = some (o.run, o.task, o.gen, o.attempt) → o.dup = false →
    Tab.look s.graph.transfers o.unit = none → s.graph.holds.contains o.unit = false → x.gen ≠ o.gen → g.job = none →
    ∃ t, exec (.taskResultOffered o) s = .next t ∧ t.entries o.unit = (s.entries o.unit).drop 1 ∧
      t.reg Reg.arrStaleResults = satAdd (s.reg Reg.arrStaleResults) 1 ∧ t.graph.tokens = s.graph.tokens ∧
      t.graph.runs = s.graph.runs ∧ t.mem = s.mem ∧ t.job = s.job) ∧
  (∀ (o : Offer) (g : GraphRun) (x : TaskState) (s : State), s.graphRun o.run = some g → Tab.look g.tasks o.task = some x →
    (s.entries o.unit).head? = some (o.run, o.task, o.gen, o.attempt) → o.dup = false →
    Tab.look s.graph.transfers o.unit = none → s.graph.holds.contains o.unit = false →
    x.gen = o.gen → g.attempt = o.attempt → x.place = .granted o.unit → s.workDone o.run o.task = true →
    (s.endEntry o.unit).errorsMet g (graphTask (s.runImage g) o.task) o.parity = [] →
    (graphTask (s.runImage g) o.task).commit = false →
    exec (.taskResultOffered o) s = .next (((s.endEntry o.unit).taskEffect o.run g o).acceptResult o.run o)) ∧
  (∀ (o : Offer) (g : GraphRun) (x : TaskState) (s : State), s.graphRun o.run = some g → Tab.look g.tasks o.task = some x →
    s.runCommand o.run = none →
    ((s.acceptResult o.run o).runTask o.run o.task).map (fun y => y.place) = some .accepted ∧
    (s.acceptResult o.run o).graph.tokens = s.graph.tokens ++
      (taskConsumers (s.runImage g) (graphTask (s.runImage g) o.task)).map (fun c => ⟨o.run, c.1, c.2, g.attempt, o.unit⟩) ∧
    (s.acceptResult o.run o).mem = s.mem ∧ (s.acceptResult o.run o).job = s.job)) ∧
  ((∀ (unit a b : Nat) (s : State), Tab.look s.graph.transfers unit = some (a, b) → 0 < b →
    ∃ t, exec (.engineTransferComplete unit) s = .next t ∧
      (if (a, b - 1) = (0, 0) then Tab.look t.graph.transfers unit = none
        else Tab.look t.graph.transfers unit = some (a, b - 1)) ∧
      t = { s with graph := { s.graph with transfers := t.graph.transfers } }) ∧
  (∀ (unit a : Nat) (s : State), Tab.look s.graph.transfers unit = some (a, 0) →
    ∃ t, exec (.engineTransferComplete unit) s = .next t ∧
      (if a ≤ 1 then Tab.look t.graph.transfers unit = none else Tab.look t.graph.transfers unit = some (a - 1, 0)) ∧
      t = { s with graph := { s.graph with transfers := t.graph.transfers } }) ∧
  (∀ (die prio : Nat) (e : Nat × Nat) (g : GraphRun) (x : TaskState) (s : State),
    (Tab.get [] s.graph.ready (die * 8 + prio)).length < 2048 →
    (s.graph.crowded.find? fun e => readyKey (s.taskRecord e.1 e.2) == die * 8 + prio) = some e →
    s.graphRun e.1 = some g → Tab.look g.tasks e.2 = some x → (g.direct.all fun y => y.2.1 != e.2) = true →
    ∃ t, exec (.queueSpaceReleased die prio) s = .next t ∧ t.graph.crowded = s.graph.crowded.erase e ∧
      Tab.get [] t.graph.ready (die * 8 + prio) = Tab.get [] s.graph.ready (die * 8 + prio) ++ [e] ∧
      (t.runTask e.1 e.2).map (fun y => y.place) = some .ready ∧ t.mem = s.mem ∧ t.job = s.job) ∧
  (∀ (n run task slot : Nat) (g : GraphRun) (s : State), s.graph.prefetch[n]? = some (run, task, slot) → s.graphRun run = some g →
    (s.prefetchUnderWay (graphTask (s.runImage g) task).die).contains (run, task, slot) = true →
    let x := (graphTask (s.runImage g) task).slot slot
    let src := graphDesc (s.runImage g) x.desc
    let dst := graphDesc (s.runImage g) (x.desc + 1)
    s.poisonedIn [src.footprint, src.scaleRange] = none →
    ∃ t, exec (.prefetchCopyComplete n) s = .next t ∧ t.graph.prefetch = s.graph.prefetch.eraseIdx n ∧
      t.graph.tokens = s.graph.tokens ++ [⟨run, task, slot, g.attempt, 0xFFFF⟩] ∧
      (let u := (s.setGraph { s.graph with prefetch := s.graph.prefetch.eraseIdx n }).copyTensor false src dst
       t.mem = u.mem ∧ t.host = u.host) ∧
      t.rings = s.rings ∧ t.running = s.running ∧ t.job = s.job))

/-- EMB_TABLE_CREATE, EMB_VERSION_LOAD and EMB_TABLE_DESTROY (R329, R344, R348, R351): a slice is entered without
versions; a load gives it a LOADED version whose rows are the source's, or ends with PEER_UNREACHABLE and no
version; a destroyed slice that no batch is bound to is gone. EMB_VERSION_PUBLISH (R346, R347, R349): for a table of
no job the version becomes CURRENT at once; for a job past its first step it is staged for the step named, and the
CURRENT version stays. -/
def Obligations.EmbeddingTablesAndVersions : Prop :=
  ((∀ (p : Packet) (s : State), s.accepts embTableCreateCommand p = true →
    ∃ t, exec (.embTableCreate p) s = .next t ∧ t.owes s p Status.ok 0 = true ∧
      t.embSlice (sliceKeyOf (p.param 0 2) (p.param 2 1)) =
        some ⟨p.param 3 1, p.param 4 2, bitOf (p.param 6 1) 0, p.job, p.param 16 8, p.param 24 4, [], 0⟩ ∧
      (∀ k, k ≠ sliceKeyOf (p.param 0 2) (p.param 2 1) → t.embSlice k = s.embSlice k) ∧
      t = { s.bookkept t with emb := { s.emb with slices := t.emb.slices } }) ∧
  (∀ (p : Packet) (fetched : Option (List (Nat × Byte))) (x : Slice) (s : State),
    s.accepts (embVersionLoadCommand fetched) p = true → s.embSlice (versionSliceKey p) = some x →
    (p.param 3 1 < 3 ∨ fetched ≠ none) → s.poisonedIn [versionSource p x] = none →
    ∃ t, exec (.embVersionLoad p fetched) s = .next t ∧ t.owes s p Status.ok 0 = true ∧
      t.embSlice (versionSliceKey p) = some { x with
        versions := x.versions ++ [⟨p.param 4 4, .loaded, p.param 24 8, p.param 32 8, freeVslot x.versions⟩], highest := p.param 4 4 } ∧
      (∀ k, k ≠ versionSliceKey p → t.embSlice k = s.embSlice k) ∧
      (∀ r, r < x.rows → p.param 3 1 = 1 → (∀ q, q < x.rows → apart (p.param 24 8 + q * x.width) x.width
        (p.param 8 8 + r * p.param 40 8) x.width = true) →
        t.load (p.param 24 8 + r * x.width) x.width = s.load (p.param 8 8 + r * p.param 40 8) x.width) ∧
      (∀ a n, apart a n (p.param 24 8) (x.rows * x.width) = true → t.load a n = s.load a n) ∧
      t.job = s.job ∧ t.graph = s.graph ∧ t.running = s.running) ∧
  (∀ (p : Packet) (x : Slice) (s : State), s.accepts (embVersionLoadCommand none) p = true →
    s.embSlice (versionSliceKey p) = some x → 3 ≤ p.param 3 1 →
    ∃ t, exec (.embVersionLoad p none) s = .next t ∧ t.owes s p Status.peerUnreachable 0 = true ∧ t.emb = s.emb) ∧
  (∀ (p : Packet) (s : State), s.accepts embTableDestroyCommand p = true → s.running = [] →
    ((s.destroyedSlices (p.param 0 2 * 256 + p.param 2 1)).all fun e => s.sliceUnbound e.1) = true →
    ∃ t, exec (.embTableDestroy p) s = .next t ∧ t.owes s p Status.ok 0 = true ∧
      t.emb.slices = (s.emb.slices.filter fun e =>
        !(s.destroyedSlices (p.param 0 2 * 256 + p.param 2 1)).any fun x => x.1 == e.1) ∧
      t.mem = s.mem ∧ t.host = s.host ∧ t.job = s.job ∧ t.running = [])) ∧
  ((∀ (p : Packet) (s : State), s.accepts embVersionPublishCommand p = true → s.running = [] →
    s.tableJob (p.param 0 2) = none → s.tableSlices (p.param 0 2) ≠ [] →
    ((s.tableSlices (p.param 0 2)).all fun e => e.2.versions.any fun v => v.number == p.param 4 4) = true →
    ∃ t, exec (.embVersionPublish p) s = .next t ∧ t.owes s p Status.ok 0 = true ∧
      t.currentVersion (p.param 0 2) = some (p.param 4 4) ∧ t.emb.staged = s.emb.staged ∧ t.mem = s.mem ∧ t.host = s.host) ∧
  (∀ (p : Packet) (slot : Nat) (j : Job) (s : State), s.accepts embVersionPublishCommand p = true → s.running = [] →
    s.tableJob (p.param 0 2) = some (slot, j) → publishNow j = false →
    ∃ t, exec (.embVersionPublish p) s = .next t ∧ t.owes s p Status.ok 0 = true ∧
      Tab.look t.emb.staged (p.param 0 2) = some (p.param 4 4, p.param 8 4) ∧ t.emb.slices = s.emb.slices ∧
      t = { s.bookkept t with emb := { s.emb with staged := t.emb.staged } }))

/-- EMB_GATHER and GATHER_WINDOW_SERVED (R334, R335, R339, R350): a gather starts on the version it names, and ends with
VERSION_RETIRED where it is not resident; a window is served once, by an unfenced gather unit only; a response that
has landed before is counted and dropped. -/
def Obligations.GathersServed : Prop :=
  (∀ (p : Packet) (n k : Nat) (x : Slice) (s : State), s.accepts embGatherCommand p = true →
    s.poisonedIn ((s.embReads p).map fun u => u.range) = none → s.embVersion p = some n → s.embTable p = some (k, x) →
    exec (.embGather p) s = .next (((s.entered embGatherCommand p).startEmbGather p n x).settleGathers)) ∧
  (∀ (p : Packet) (s : State), s.accepts embGatherCommand p = true →
    s.poisonedIn ((s.embReads p).map fun u => u.range) = none → s.embVersion p = none →
    ∃ t, exec (.embGather p) s = .next t ∧ t.owes s p Status.versionRetired 0 = true ∧ t = s.bookkept t) ∧
  (∀ (id w key : Nat) (q : GatherReq) (x : Slice) (v : Version) (s : State), Tab.look s.emb.requests id = some q →
    s.unfenced 4 ≠ [] → s.windowPoison q w = none → w < reqWindows q.data → q.served.contains w = false →
    s.requestTarget q.data = some (key, x, v) → q.served.length + 1 ≠ reqWindows q.data →
    (s.emb.gathers.all fun e => e.2.cmd.isNone) = true →
    ∃ t, exec (.gatherWindowServed id w) s = .next t ∧
      Tab.look t.emb.requests id = some { q with served := q.served ++ [w] } ∧
      (∀ i, i ≠ id → Tab.look t.emb.requests i = Tab.look s.emb.requests i) ∧
      t.mem = s.mem ∧ t.host = s.host ∧ t.rings = s.rings ∧ t.running = s.running ∧ t.job = s.job) ∧
  (∀ (id w : Nat) (s : State), s.unfenced 4 = [] → exec (.gatherWindowServed id w) s = .next s) ∧
  (∀ (key slice : Nat) (data : List Byte) (g : GatherOp) (s : State), Tab.look s.emb.gathers key = some g →
    g.landed.contains slice = true → s.landSlice key slice data = s.bump Reg.gatDupResponses 1)

/-- A search answers the matching entry of the highest priority, and among those the one in the lowest slot, and counts
the matches (R360). -/
def Obligations.SearchFindsBest : Prop :=
  ∀ (b : DirBank) (key : List DWord), Tab.wf b.slots = true →
    (∀ k e, (b.search key).winner = some (k, e) → (k, e) ∈ b.slots ∧ e.key = key ∧ e.tag = dirTag (dirHash key b.hashKey) ∧
      ∀ x, x ∈ b.slots → x.2.key = key → x.2.tag = dirTag (dirHash key b.hashKey) →
        x.2.priority < e.priority ∨ (x.2.priority = e.priority ∧ k ≤ x.1)) ∧
    ((b.search key).winner = none → ∀ x, x ∈ b.slots → x.2.tag = dirTag (dirHash key b.hashKey) → x.2.key ≠ key) ∧
    (b.search key).matched = (b.slots.filter fun x => x.2.tag == dirTag (dirHash key b.hashKey) && x.2.key == key).length

/-- An insertion into a bank with a hole adds its entry, keeps every entry that was there, and keeps the slots in order;
a bank without one takes nothing (R362, R363). DIR_BANK_CONFIG, DIR_INSERT, DIR_DELETE and DIR_COMPACT (R365, R375
to R377, R379): a bank takes its table, width, pitch and hash key; insertions end with the count or with
DIRECTORY_FULL at the die and index that found no hole; deletions end with the count; a compaction lays every bank
of the table out. No byte of memory changes. DIR_SEARCH (R378): a lost table ends it with DIRECTORY_LOST; otherwise
the result of each key stands in the result list and the record counts the hits, and no other byte changes. -/
def Obligations.DirectoryEntriesKept : Prop :=
  (∀ (b : DirBank) (e : DirEntry), Tab.wf b.slots = true → (∀ x, x ∈ b.slots → x.1 < b.size) →
    (∀ b', b.insert e = some b' → Tab.wf b'.slots = true ∧ b'.entries = b.entries + 1 ∧ (∃ k, k < b.size ∧ (k, e) ∈ b'.slots) ∧
      (∀ x, x ∈ b.slots → ∃ k, (k, x.2) ∈ b'.slots) ∧ b'.table = b.table ∧ b'.width = b.width ∧ b'.hashKey = b.hashKey) ∧
    (b.insert e = none → b.entries = b.size)) ∧
  ((∀ (p : Packet) (s : State), s.accepts dirBankConfigCommand p = true → configTable p ≠ 0xFFFF →
    ∃ t, exec (.dirBankConfig p) s = .next t ∧ t.owes s p Status.ok 0 = true ∧
      (t.bank (p.param 0 1)).map (fun b => (b.table, b.width, b.pitch, b.hashKey)) =
        some (configTable p, p.param 1 1, p.param 4 1, BitVec.ofNat 64 (p.param 8 8)) ∧
      (configClear p = true → (t.bank (p.param 0 1)).map (fun b => b.slots) = some []) ∧
      (∀ n, n ≠ p.param 0 1 → t.bank n = s.bank n) ∧
      t = { s.bookkept t with dir := t.dir, memory := { s.memory with guards := t.memory.guards } }) ∧
  (∀ (p : Packet) (s : State), s.accepts dirBankConfigCommand p = true → configTable p = 0xFFFF →
    ∃ t, exec (.dirBankConfig p) s = .next t ∧ t.owes s p Status.ok 0 = true ∧ t.bank (p.param 0 1) = none ∧
      (∀ n, n ≠ p.param 0 1 → t.bank n = s.bank n) ∧ t.mem = s.mem ∧ t.host = s.host) ∧
  (∀ (p : Packet) (s : State), s.accepts dirInsertCommand p = true → s.poisonedIn [listRange p 64] = none →
    let r := (s.entered dirInsertCommand p).insertDies p (s.listWidth p) (listDies p)
    ∃ t, exec (.dirInsert p) s = .next t ∧ t.dir = r.1.dir ∧
      (r.2.2 = none → t.owes s p Status.ok r.2.1 = true) ∧
      (∀ d i, r.2.2 = some (d, i) → t.owes s p Status.directoryFull (d * 2 ^ 32 + i) = true) ∧
      t.mem = s.mem ∧ t.host = s.host ∧ t.running = s.running ∧ t.job = s.job ∧ t.emb = s.emb) ∧
  (∀ (p : Packet) (s : State), s.accepts dirDeleteCommand p = true → s.poisonedIn [listRange p 64] = none →
    ∃ t n, exec (.dirDelete p) s = .next t ∧ t.owes s p Status.ok n = true ∧
      (∀ b x, t.bank b = some x → ∃ y, s.bank b = some y ∧ x.table = y.table ∧ (∀ e, e ∈ x.slots → e ∈ y.slots)) ∧
      t.mem = s.mem ∧ t.host = s.host ∧ t.running = s.running ∧ t.job = s.job ∧ t.emb = s.emb) ∧
  (∀ (p : Packet) (s : State), s.accepts dirCompactCommand p = true →
    ∃ t, exec (.dirCompact p) s = .next t ∧ t.owes s p Status.ok 0 = true ∧
      (∀ b, b ∉ s.compactBanks p → t.bank b = s.bank b) ∧
      (∀ b x, (s.compactBanks p).Nodup → b ∈ s.compactBanks p → s.bank b = some x → t.bank b = some x.compact) ∧
      t.mem = s.mem ∧ t.host = s.host ∧ t.running = s.running ∧ t.job = s.job ∧ t.emb = s.emb)) ∧
  ((∀ (p : Packet) (s : State), s.accepts dirSearchCommand p = true → s.dirLost (listTable p) (p.param 2 1) = true →
    ∃ t, exec (.dirSearch p) s = .next t ∧ t.owes s p Status.directoryLost (listTable p) = true ∧ t = s.bookkept t) ∧
  (∀ (p : Packet) (s : State), s.accepts dirSearchCommand p = true → s.dirLost (listTable p) (p.param 2 1) = false →
    s.poisonedIn [listRange p 32] = none →
    let found := fun (i : Nat) => s.dirFind (listTable p) (p.param 2 1)
      (recordKey (s.load (p.param 8 8 + 32 * i) 32) ((s.tableShape (listTable p) (p.param 2 1)).elim 1 fun x => x.1))
    ∃ t, exec (.dirSearch p) s = .next t ∧
      t.owes s p Status.ok (((List.range (listCount p)).filter fun i => (found i).winner.isSome).length) = true ∧
      (∀ i, i < listCount p → t.load (p.param 16 8 + 16 * i) 16 = (found i).bytes) ∧
      (∀ a n, apart a n (p.param 16 8) (16 * listCount p) = true → t.load a n = s.load a n) ∧
      t.dir = s.dir ∧ t.running = s.running ∧ t.job = s.job ∧ t.emb = s.emb))

/-- A deletion takes away the entries of the key that its test accepts, in the bank the key reaches, and no others:
their slots are holes, and every other slot of every bank holds what it held (R366). -/
def Obligations.DeleteLeavesHole : Prop :=
  ∀ (table die : Nat) (key : List DWord) (test : DirEntry → Bool) (s : State),
    (∀ n b, s.bank n = some b → Tab.wf b.slots = true) →
    (∀ n b0, s.bank n = some b0 → ∃ b, ((s.dirDelete table die key test).1).bank n = some b ∧ b.table = b0.table ∧
      b.width = b0.width ∧ b.pitch = b0.pitch ∧ b.hashKey = b0.hashKey ∧
      (∀ k e, Tab.look b0.slots k = some e →
        Tab.look b.slots k = if s.bankFor table die key = some n ∧ e.key = key ∧ test e = true then none else some e) ∧
      (∀ k, Tab.look b0.slots k = none → Tab.look b.slots k = none)) ∧
    (∀ n, s.bank n = none → ((s.dirDelete table die key test).1).bank n = none)

/-- DIR_HOT_PROMOTE, DIR_HOT_DEMOTE, HOT_ROW_COPY_COMPLETE and DRAIN_EPOCH_DRAINED (R367 to R371, R380, R381): promotion
ends with the count of entries made or with DIRECTORY_FULL; demotion with the count affected; a copied row of a
slice outside jobs becomes REPLICATED with its home row in the replica; draining ends for entries of earlier epochs
only. -/
def Obligations.HotRowsMove : Prop :=
  (∀ (p : Packet) (x : Slice) (v : Version) (s : State), s.accepts dirHotPromoteCommand p = true →
    s.embSlice (hotSliceKey p) = some x → x.current = some v → s.poisonedIn [hotRows p] = none →
    ∃ t, exec (.dirHotPromote p) s = .next t ∧
      ((∃ n, t.owes s p Status.ok n = true) ∨ ∃ d i, t.owes s p Status.directoryFull (d * 2 ^ 32 + i) = true) ∧
      t.mem = s.mem ∧ t.host = s.host ∧ t.running = s.running ∧ t.job = s.job ∧ t.emb = s.emb) ∧
  (∀ (p : Packet) (x : Slice) (s : State), s.accepts dirHotDemoteCommand p = true → s.embSlice (hotSliceKey p) = some x →
    s.poisonedIn [hotRows p] = none →
    ∃ t n, exec (.dirHotDemote p) s = .next t ∧ t.owes s p Status.ok n = true ∧
      t.mem = s.mem ∧ t.host = s.host ∧ t.running = s.running ∧ t.job = s.job ∧ t.emb = s.emb) ∧
  (∀ (die table slice row : Nat) (e : DirEntry) (x : Slice) (v : Version) (s : State),
    ((s.unfenced 4).any fun u => unitDie u == some die) = true →
    ((s.hotEntries die).find? fun e => e.sliceKey == 64 * table + slice && e.row == row && e.state == 1 && !e.copied) = some e →
    s.embSlice (64 * table + slice) = some x → x.versions.find? (fun v => v.vslot == e.vslot) = some v → s.sliceFree x = true →
    ∃ t, exec (.hotRowCopyComplete die table slice row) s = .next t ∧
      t.load (e.replica die) x.width = s.load (x.rowAt v e.row) x.width ∧
      (∀ a n, apart a n (e.replica die) x.width = true → t.load a n = s.load a n) ∧
      (∃ e', e' ∈ t.hotEntries die ∧ e'.key = e.key ∧ e'.state = 2 ∧ e'.copied = true) ∧
      t.reg Reg.dirStolen = satAdd (s.reg Reg.dirStolen) 1 ∧ t.rings = s.rings ∧ t.job = s.job ∧ t.emb = s.emb) ∧
  (∀ (die epoch : Nat) (s : State), die ≤ 1 → epoch < (if die = 0 then s.dir.epoch0 else s.dir.epoch1) →
    ∃ t, exec (.drainEpochDrained die epoch) s = .next t ∧
      (∀ e, e ∈ t.hotEntries die → e.state = 3 → epoch < e.epoch) ∧
      (∀ e, e ∈ s.hotEntries die → (e.state ≠ 3 ∨ epoch < e.epoch) → e ∈ t.hotEntries die) ∧
      t.mem = s.mem ∧ t.host = s.host ∧ t.rings = s.rings ∧ t.job = s.job ∧ t.emb = s.emb) ∧
  (∀ (die epoch : Nat) (s : State), (if die = 0 then s.dir.epoch0 else s.dir.epoch1) ≤ epoch →
    exec (.drainEpochDrained die epoch) s = .next s)

/-- A selection takes the k best valid entries of a row, in descending key and then ascending index: it lists min(k,
valid) entries of the row, and every valid entry left out is worse than every entry taken (R387, R388). -/
def Obligations.SelectionTakesBest : Prop :=
  ∀ (elem k base : Nat) (smallest : Bool) (values : List Nat),
    let r := selectRow elem smallest k base values
    r.valid = (values.filter fun v => !selectInvalid elem v).length ∧ r.entries.length = min k r.valid ∧
    (∀ e, e ∈ r.entries → ∃ j, e.1 = base + j ∧ values[j]? = some e.2 ∧ selectInvalid elem e.2 = false) ∧
    (∀ e, e ∈ r.entries → ∀ j v, values[j]? = some v → selectInvalid elem v = false →
      (r.entries.all fun x => x.1 != base + j) = true →
      selectKey elem smallest v < selectKey elem smallest e.2 ∨
        (selectKey elem smallest v = selectKey elem smallest e.2 ∧ e.1 < base + j))

/-- SELECT_TOPK and SELECT_MERGE (R393, R395, R401): each row's list stands in the destination and the record counts the
rows with ties; a merge that meets conflicting inputs ends with MERGE_CONFLICT at the row and the input. No other
byte changes. -/
def Obligations.SelectionsWriteLists : Prop :=
  (∀ (p : Packet) (s : State), s.accepts selectTopkCommand p = true → s.poisonedIn [(selectSrc p).footprint] = none →
    let x := selectParams p
    let one := fun (row : Nat) => selectRow x.elem x.smallest x.k x.base (s.selectValues (selectSrc p) (selectBytes x.elem) row)
    let at_ := fun (row : Nat) => ((selectDst p).rowAddr [Int.ofNat row] 1).toNat
    ∃ t, exec (.selectTopk p) s = .next t ∧
      t.owes s p Status.ok (((List.range x.rows).filter fun row => decide (0 < (one row).ties)).length) = true ∧
      (∀ row, row < x.rows → (∀ q, q < x.rows → row < q → apart (at_ row) x.listBytes (at_ q) x.listBytes = true) →
        t.load (at_ row) x.listBytes = (one row).bytes x.elem x.smallest x.k) ∧
      (∀ a n, (∀ row, row < x.rows → apart a n (at_ row) x.listBytes = true) → t.load a n = s.load a n) ∧
      t.running = s.running ∧ t.job = s.job ∧ t.dir = s.dir ∧ t.emb = s.emb ∧ t.graph = s.graph) ∧
  (∀ (p : Packet) (t : State) (ties : Nat) (s : State), s.accepts selectMergeCommand p = true →
    s.poisonedIn [(selectSrc p).footprint] = none →
    (s.entered selectMergeCommand p).selectRows (selectParams p) (selectSrc p) (selectDst p)
      (List.range (selectParams p).rows) (s.entered selectMergeCommand p) 0 = (t, ties, none) →
    ∃ u, exec (.selectMerge p) s = .next u ∧ u.owes s p Status.ok ties = true ∧ u.mem = t.mem ∧ u.host = t.host ∧
      u.running = s.running ∧ u.job = s.job) ∧
  (∀ (p : Packet) (t : State) (ties row i : Nat) (s : State), s.accepts selectMergeCommand p = true →
    s.poisonedIn [(selectSrc p).footprint] = none →
    (s.entered selectMergeCommand p).selectRows (selectParams p) (selectSrc p) (selectDst p)
      (List.range (selectParams p).rows) (s.entered selectMergeCommand p) 0 = (t, ties, some (row, i)) →
    ∃ u, exec (.selectMerge p) s = .next u ∧ u.owes s p Status.mergeConflict (row * 2 ^ 32 + i) = true ∧ u.mem = t.mem ∧
      u.reg Reg.selMergeConflict = satAdd (t.reg Reg.selMergeConflict) 1)

/-- RELAY_PEER_SET (R409, R410): an accepted LOCAL record is in force and its state area is guarded; each module entry
given becomes the peer state of its module when VALID and is dropped otherwise; other peers stay. RELAY_QP_CREATE
and RELAY_QP_DESTROY (R414, R438): a queue pair is entered with its parameter block and its first packet numbers;
one without outstanding work is taken away; other queue pairs stay. -/
def Obligations.PeersAndQueuePairs : Prop :=
  ((∀ (p : Packet) (s : State), peerKind p ≠ 2 → s.accepts relayPeerSetLocalCommand p = true →
    s.poisonedIn [⟨peerRecord p, 256⟩] = none →
    ∃ t, exec (.relayPeerSetLocal p) s = .next t ∧ t.owes s p Status.ok 0 = true ∧
      t.relay.local_ = some (localRecordOf (s.load (peerRecord p) 256)) ∧
      (t.memory.guards.any fun g => g.kind == .relayState && g.lo == leField (s.load (peerRecord p) 256) 8 8) = true ∧
      ((s.relay.local_.any fun o => o.stateBase == leField (s.load (peerRecord p) 256) 8 8) = false → t.relay.peers = []) ∧
      t.mem = s.mem ∧ t.host = s.host ∧ t.running = s.running ∧ t.job = s.job ∧ t.sec = s.sec) ∧
  (∀ (p : Packet) (s : State), peerKind p = 2 → s.accepts relayPeerSetModulesCommand p = true →
    s.poisonedIn [peerEntries p] = none →
    ∃ t, exec (.relayPeerSetModules p) s = .next t ∧ t.owes s p Status.ok 0 = true ∧
      (∀ i, i < p.param 8 4 →
        let b := s.load (peerRecord p + 160 * i) 160
        Tab.look t.relay.peers (p.param 4 4 + i) =
          if bitOf (leField b 2 2) 0 then some ⟨bitOf (leField b 2 2) 1, slice b 16 128⟩ else none) ∧
      (∀ n, (n < p.param 4 4 ∨ p.param 4 4 + p.param 8 4 ≤ n) → Tab.look t.relay.peers n = Tab.look s.relay.peers n) ∧
      t.relay.local_ = s.relay.local_ ∧ t.mem = s.mem ∧ t.host = s.host ∧ t.running = s.running ∧ t.job = s.job ∧
      t.sec = s.sec)) ∧
  ((∀ (p : Packet) (s : State), s.accepts relayQpCreateCommand p = true →
    ∃ t q, exec (.relayQpCreate p) s = .next t ∧ t.owes s p Status.ok 0 = true ∧ t.qp (p.param 0 2) = some q ∧
      q.params = p.paramBytes 0 128 ∧ q.sendPsn = p.param 8 4 ∧ q.expectPsn = p.param 12 4 ∧ q.work = [] ∧ q.failed = false ∧
      (∀ n, n ≠ p.param 0 2 → t.qp n = s.qp n) ∧ t = { s.bookkept t with relay := { s.relay with qps := t.relay.qps } }) ∧
  (∀ (p : Packet) (q : QueuePair) (s : State), s.accepts relayQpDestroyCommand p = true → s.qp (p.param 0 2) = some q → q.work = [] →
    ∃ t, exec (.relayQpDestroy p) s = .next t ∧ t.owes s p Status.ok 0 = true ∧ t.qp (p.param 0 2) = none ∧
      (∀ n, n ≠ p.param 0 2 → t.qp n = s.qp n) ∧ t = { s.bookkept t with relay := { s.relay with qps := t.relay.qps } }))

/-- RELAY_POST to a queue pair, ops WRITE, WRITE_IMM, READ, FETCH_ADD and CMP_SWAP (R413, R438): the operation joins the
queue pair's work and the running commands, and no byte of memory changes yet; on a queue pair in its error state it
completes with QP_ERROR. RELAY_POST ops SEALED_PUT, SEALED_GET and FENCE (R418, R425, R438): the operation's packets
are formed where its job stands (or the store the job names), and the command runs until they are acknowledged. -/
def Obligations.RelayPosts : Prop :=
  (∀ (p : Packet) (c : Instr) (op : Nat) (q : QueuePair) (s : State),
    ((c, op) = (.relayPostWrite p, 1) ∨ (c, op) = (.relayPostWriteImm p, 2) ∨ (c, op) = (.relayPostRead p, 3) ∨
      (c, op) = (.relayPostFetchAdd p, 4) ∨ (c, op) = (.relayPostCmpSwap p, 5)) →
    postOp p = op → s.accepts (qpPostCommand op) p = true → s.qp (postPeer p - 65536) = some q →
    s.poisonedIn [⟨postLocal p, postLength p⟩] = none →
    (q.failed = false →
      ∃ t o w, exec c s = .next t ∧ t.running = s.running ++ [o] ∧ o.pkt = p ∧ o.kind = .relayPost (s.starts + 1) ∧
        (t.qp (postPeer p - 65536)).bind (fun q => q.work.getLast?) = some w ∧ w.op = op ∧ w.remote = postRemote p ∧
        w.length = postLength p ∧ w.ring = p.ring ∧ w.seq = p.seq ∧
        (t.qp (postPeer p - 65536)).map (fun q => q.work.length) = some (q.work.length + 1) ∧
        (∀ n, n ≠ postPeer p - 65536 → t.qp n = s.qp n) ∧ t.mem = s.mem ∧ t.host = s.host ∧ t.job = s.job ∧ t.held = s.held) ∧
    (q.failed = true → ∃ t, exec c s = .next t ∧ t.owes s p Status.qpError q.syndrome = true ∧ t = s.bookkept t)) ∧
  ((∀ (p : Packet) (g : Origin) (s : State), postOp p = 16 → s.accepts (sealedPostCommand 16) p = true →
    s.postOrigin p.job = some g → s.poisonedIn [⟨postLocal p, postLength p⟩] = none →
    exec (.relayPostSealedPut p) s =
      .next ((((s.entered (sealedPostCommand 16) p).enroll p (.relayPost (s.starts + 1))
        [⟨80, ⟨postLocal p, postLength p⟩, false⟩] 0).sealedPut (.post p.ring p.seq) (postPeer p) (postClass p) (postRegion p)
        (postRemote p) g (s.load (postLocal p) (postLength p))).settleRelay)) ∧
  (∀ (p : Packet) (g : Origin) (s : State), postOp p = 17 → s.accepts (sealedPostCommand 17) p = true →
    s.postOrigin p.job = some g →
    exec (.relayPostSealedGet p) s =
      .next ((((s.entered (sealedPostCommand 17) p).enroll p (.relayPost (s.starts + 1))
        [⟨80, ⟨postLocal p, postLength p⟩, true⟩] 0).sealedGet (.post p.ring p.seq) (postPeer p) (postClass p) (postRegion p)
        (postRemote p) (postLength p) g [(postLocal p, postLength p)]).settleRelay)) ∧
  (∀ (p : Packet) (g : Origin) (s : State), postOp p = 19 → s.accepts (sealedPostCommand 19) p = true →
    s.postOrigin p.job = some g →
    exec (.relayPostFence p) s =
      .next ((((s.entered (sealedPostCommand 19) p).enroll p (.relayPost (s.starts + 1)) [] 0).fenceOp (.post p.ring p.seq)
        (postPeer p) g).settleRelay)) ∧
  (∀ (data : List Byte), data ≠ [] →
    (payloads data).length = ceilDiv data.length 4096 ∧
    (∀ x, x ∈ payloads data → x.1 % 4096 = 0 ∧ x.2.length % 64 = 0 ∧ x.2.length ≤ 4096 ∧
      x.2.take (min 4096 (data.length - x.1)) = (data.drop x.1).take 4096)))

/-- The eleven rows of extension packets received (R426 steps 2 and 3): a frame that no key opens is counted under
RLY_RX_PKTS and RLY_AUTH_FAIL and has no other effect; one that opens is taken and what waited on the relay goes on;
a frame of another row has no effect here. What becomes of an opened packet that is no ACK (R69, R426, R427, R428):
one beyond the credit granted is counted and not used; one of no open job is answered with NO_JOB and stays
unreceived; one whose tag is not its job's is refused and counted; one of an earlier attempt is counted as stale and
received. -/
def Obligations.SealedPacketsReceived : Prop :=
  (∀ (c : Instr) (f : Frame) (opcode : Nat) (kind : Option Nat) (s : State),
    (c, opcode, kind) ∈ [(.slotPutReceived f, 0xC3, none), (.sealedPutReceived f, 0xC0, none),
      (.sealedGetRequestReceived f, 0xC1, none), (.sealedGetResponseReceived f, 0xC2, none), (.fenceReceived f, 0xC5, none),
      (.ackReceived f, 0xC6, none), (.voteReceived f, 0xC4, some 1), (.commitReceived f, 0xC4, some 2),
      (.replayReceived f, 0xC4, some 3), (.userSignalReceived f, 0xC4, some 4), (.queryReceived f, 0xC4, some 5)] →
    (f.opcode ≠ opcode → exec c s = .next s) ∧
    (f.opcode = opcode → f.sender.isSome = true → s.moduleId.isSome = true → s.openFrame f = none →
      exec c s = .next ((s.bumpWide Reg.rlyRxPktsLo 1).bump Reg.rlyAuthFail 1)) ∧
    (∀ o, f.opcode = opcode → s.openFrame f = some o → (∀ k, kind = some k → o.body.kind = k) →
      exec c s = .next (((s.bumpWide Reg.rlyRxPktsLo 1).takeOpened f o).settleRelay))) ∧
  ((∀ (f : Frame) (o : Opened) (s : State), f.ce = false → o.body.opcode ≠ 0xC6 → f.pkey ≠ 0xFFFF →
    (s.recvStream o.peer o.serial o.body.cls).limit ≤ o.seq →
    s.takeOpened f o = s.bump Reg.rlyCreditViolation 1) ∧
  (∀ (o : Opened) (s : State), o.body.opcode ≠ 0xC2 → s.findJob o.body.job = none →
    s.takePacket o = (s.bump Reg.rlyNotReady 1).sendAck o.peer o.serial o.body.cls .noJob o.seq 0) ∧
  (∀ (o : Opened) (slot : Nat) (j : Job) (s : State), o.body.opcode ≠ 0xC2 → s.findJob o.body.job = some (slot, j) →
    o.body.tag ≠ j.tagAt o.body.step → Tab.look s.job.jobs slot = some j →
    ((s.takePacket o).job.jobs |> fun l => (Tab.look l slot).map fun j => j.tagRefused) = some (satAdd j.tagRefused 1) ∧
    (s.takePacket o).mem = s.mem ∧ (s.takePacket o).host = s.host ∧ (s.takePacket o).running = s.running) ∧
  (∀ (o : Opened) (slot : Nat) (j : Job) (s : State), o.body.opcode ≠ 0xC2 → o.body.opcode ≠ 0xC5 →
    s.findJob o.body.job = some (slot, j) → Tab.look s.job.jobs slot = some j → o.body.tag = j.tagAt o.body.step →
    o.body.step ≠ j.next → j.timing o.body = .stale →
    s.takePacket o = ((s.setJob slot { j with staleAttempt := satAdd j.staleAttempt 1 }).accept o).ackIfDue o.peer o.serial
      o.body.cls false))

/-- What the operations do at their receiver (R418, R421, R489): a SEALED_PUT into a region of its job writes its
payload there and nothing else; one outside, or into a protected region under a key that may not reach it, is
refused with ACCESS; what a SEALED_GET has asked for lands in the ranges the requester named. A packet sealed under
a key opens under the same key to the same plaintext, and a receive stream takes each packet number once (R428,
R434). -/
def Obligations.SealedDataLands : Prop :=
  ((∀ (slot : Nat) (j : Job) (e : Early) (r : Range) (s : State), e.body.isDigest = false →
    s.sealedRange j.id e.body.region e.body.value e.body.payload.length = some r → s.trusts e [r] = true →
    s.sealedPutIn slot j e = (s.store r.lo e.body.payload, .placed)) ∧
  (∀ (slot : Nat) (j : Job) (e : Early) (s : State), e.body.isDigest = false →
    (s.sealedRange j.id e.body.region e.body.value e.body.payload.length = none ∨
      ∃ r, s.sealedRange j.id e.body.region e.body.value e.body.payload.length = some r ∧ s.trusts e [r] = false) →
    s.sealedPutIn slot j e = (s, .nak .access e.body.region)) ∧
  (∀ (job : Word) (region off n : Nat) (r : Range) (s : State), s.sealedRange job region off n = some r →
    ∃ x, Tab.look s.memory.regions region = some x ∧ x.owner = job ∧ r.inside x.range = true ∧ r.len = n) ∧
  (∀ (l : List (Nat × Nat)) (data : List Byte) (s : State), (l.foldl (fun k r => k + r.2) 0) = data.length →
    (∀ a n, (∀ r, r ∈ l → apart a n r.1 r.2 = true) → (s.scatterTo l data).load a n = s.load a n) ∧
    (∀ r rest, l = r :: rest → (∀ x, x ∈ rest → apart r.1 r.2 x.1 x.2 = true) →
      (s.scatterTo l data).load r.1 r.2 = data.take r.2))) ∧
  ((∀ (key iv aad plain : List Byte), gcmOpen key iv aad (gcmSeal key iv aad plain).1 (gcmSeal key iv aad plain).2 = some plain) ∧
  (∀ (r : RecvStream) (n : Nat), r.holds n = false → (r.take n).holds n = true ∧ (r.take n).unacked = r.unacked + 1 ∧
    r.cum ≤ (r.take n).cum ∧ (∀ m, m ≠ n → (r.take n).holds m = r.holds m)))

/-- RETRANSMISSION_TIMEOUT, NOT_READY_RESEND, PLANE_PROBE and LINK_STATE_CHANGE (R429, R430): what is resent is the
packet's stored frame, counted under RLY_RETRANSMIT; the second expiry in a row makes the plane unusable toward the
peer; a probe makes it usable again; a port's link is up or down as the change says. CNP_RECEIVED, RATE_LEVEL_DECAY,
ACK_TIMER_EXPIRY, DISCARDED_FRAME and ARP_REQUEST (R406, R428, R433): a CNP raises the rate level of its peer and
plane by one, to 15 at most and once per 50 µs; 200 µs without one lowers it by one; a stream with packets not
acknowledged sends its ACK; a discarded frame is counted; an address of the module is answered for. -/
def Obligations.RelayTimersAndRates : Prop :=
  ((∀ (peer serial cls seq p : Nat) (f : Flight) (s : State), s.flightOf peer serial cls seq = some f →
    let n := Tab.get 0 s.relay.planeExpiries (8 * peer + f.plane) + 1
    let u := if 2 ≤ n ∧ !s.relay.unusable.contains (8 * peer + f.plane) then s.relay.unusable ++ [8 * peer + f.plane] else s.relay.unusable
    ({ s with relay := { s.relay with unusable := u } } : State).nextPlane f.peer f.plane = some p →
    ∃ t, exec (.retransmissionTimeout peer serial cls seq) s = .next t ∧ t.relay.unusable = u ∧
      t.sent = s.sent ++ [.relay peer cls seq f.frame] ∧ t.reg Reg.rlyRetransmit = satAdd (s.reg Reg.rlyRetransmit) 1 ∧
      (t.flightOf peer serial cls seq).map (fun g => (g.frame, g.expiries, g.plane)) = some (f.frame, f.expiries + 1, p) ∧
      t.mem = s.mem ∧ t.host = s.host ∧ t.rings = s.rings ∧ t.job = s.job ∧ t.sec = s.sec ∧ t.running = s.running) ∧
  (∀ (peer serial cls seq p : Nat) (f : Flight) (s : State), s.relay.notReady = [(peer, serial, cls, seq)] →
    s.flightOf peer serial cls seq = some f → s.nextPlane f.peer f.plane = some p →
    ∃ t, exec (.notReadyResend peer serial cls seq) s = .next t ∧ t.relay.notReady = [] ∧
      t.sent = s.sent ++ [.relay peer cls seq f.frame] ∧ t.reg Reg.rlyRetransmit = satAdd (s.reg Reg.rlyRetransmit) 1 ∧
      t.mem = s.mem ∧ t.host = s.host ∧ t.rings = s.rings ∧ t.job = s.job ∧ t.sec = s.sec ∧ t.running = s.running) ∧
  (∀ (peer plane : Nat) (s : State), 8 * peer + plane ∈ s.relay.unusable →
    ∃ t, exec (.planeProbe peer plane) s = .next t ∧ ¬ 8 * peer + plane ∈ t.relay.unusable ∧
      t.mem = s.mem ∧ t.host = s.host ∧ t.rings = s.rings ∧ t.job = s.job ∧ t.running = s.running) ∧
  (∀ (port : Nat) (up : Bool) (s : State), port < 8 →
    ∃ t, exec (.linkStateChange port up) s = .next t ∧ (port ∈ t.relay.links ↔ up = true) ∧
      (∀ n, n ≠ port → (n ∈ t.relay.links ↔ n ∈ s.relay.links)) ∧
      t.mem = s.mem ∧ t.host = s.host ∧ t.rings = s.rings ∧ t.job = s.job ∧ t.running = s.running)) ∧
  ((∀ (peer plane : Nat) (s : State), plane < 8 → (Tab.look s.relay.peers peer).isSome = true →
    ∃ t, exec (.cnpReceived peer plane) s = .next t ∧ t.reg Reg.rlyCnpRx = satAdd (s.reg Reg.rlyCnpRx) 1 ∧
      Tab.get 0 t.relay.rates (8 * peer + plane) =
        (if (Tab.look s.relay.raised (8 * peer + plane)).all fun t => decide (t + microseconds 50 ≤ s.clk) then
          min 15 (Tab.get 0 s.relay.rates (8 * peer + plane) + 1) else Tab.get 0 s.relay.rates (8 * peer + plane)) ∧
      (∀ k, k ≠ 8 * peer + plane → Tab.get 0 t.relay.rates k = Tab.get 0 s.relay.rates k) ∧ t.sent = s.sent ∧ t.mem = s.mem) ∧
  (∀ (peer plane : Nat) (s : State), 0 < Tab.get 0 s.relay.rates (8 * peer + plane) →
    Tab.get 0 s.relay.cnpSeen (8 * peer + plane) + microseconds 200 ≤ s.clk →
    ∃ t, exec (.rateLevelDecay peer plane) s = .next t ∧
      Tab.get 0 t.relay.rates (8 * peer + plane) + 1 = Tab.get 0 s.relay.rates (8 * peer + plane) ∧
      (∀ k, k ≠ 8 * peer + plane → Tab.get 0 t.relay.rates k = Tab.get 0 s.relay.rates k) ∧
      t = { s with relay := t.relay }) ∧
  (∀ (peer serial cls : Nat) (s : State), 0 < (s.recvStream peer serial cls).unacked →
    exec (.ackTimerExpiry peer serial cls) s = .next (s.sendAck peer serial cls .none 0 0)) ∧
  (∀ s : State, exec .discardedFrame s = .next (s.bump Reg.rlyDiscarded 1)) ∧
  (∀ (port : Nat) (ipv6 : Bool) (asker : List Byte) (r : LocalRecord) (s : State), port < 8 → s.relay.local_ = some r → r.ipv6 = ipv6 →
    exec (.arpRequest port ipv6 (slice r.address (16 * port) (if ipv6 then 16 else 4)) asker) s =
      .next { s with sent := s.sent ++ [.arp port (slice r.address (16 * port) (if ipv6 then 16 else 4) ++ asker)] }))

/-- ROCE_PACKET_RECEIVED, LOCAL_ACK_TIMEOUT and RELAY_POST_TIMEOUT (R413, R438): a fetch-and-add from the queue pair's
peer adds to the 8-byte word it names in a region it may reach and changes no other byte; an operation whose retries
are spent ends with QP_ERROR in an error state; a RELAY_POST past its timeout ends with PEER_UNREACHABLE. -/
def Obligations.ForeignRequests : Prop :=
  (∀ (f : Frame) (n : Nat) (q : QueuePair) (s : State), f.bytes.length = 40 → beNat (slice f.bytes 5 3) = 0x1000 + n → n < 4096 →
    leField f.bytes 0 1 = 0x14 → leField f.bytes 1 1 / 16 % 4 = 0 → s.qp n = some q → q.failed = false → q.writing = false →
    f.port = q.plane → f.ce = false → q.allows 0 = true → f.src = slice q.params 16 16 → beNat (slice f.bytes 9 3) = q.expectPsn →
    let va := beNat (slice f.bytes 12 8)
    va % 8 = 0 → (s.foreignRange q 3 (beNat (slice f.bytes 20 4)) va 8).isSome = true →
    ∃ t, exec (.rocePacketReceived f) s = .next t ∧
      t.loadNat va 8 = (s.loadNat va 8 + beNat (slice f.bytes 24 8)) % 2 ^ 64 ∧
      (∀ a k, apart a k va 8 = true → t.load a k = s.load a k) ∧
      (t.qp n).map (fun q => (q.expectPsn, q.failed)) = some ((q.expectPsn + 1) % 2 ^ 24, false) ∧
      t.rings = s.rings ∧ t.job = s.job ∧ t.sec = s.sec) ∧
  (∀ (n : Nat) (q : QueuePair) (w : QpWork) (o : RunOp) (s : State), s.qp n = some q → q.work = [w] → w.first.isSome = true →
    q.rnrWait = false → q.timeout ≠ 0 → q.retryCnt ≤ w.retries → s.running = [o] → s.postCommand w.ring w.seq = some o →
    ∃ t, exec (.localAckTimeout n) s = .next t ∧ (t.qp n).map (fun q => (q.failed, q.work)) = some (true, []) ∧
      t.owes s o.pkt Status.qpError Config.silentSyndrome = true ∧ t.running = [] ∧ (∀ m, m ≠ n → t.qp m = s.qp m) ∧
      t.mem = s.mem ∧ t.host = s.host ∧ t.job = s.job) ∧
  (∀ (ring : Nat) (seq : Word) (o : RunOp) (s : State), s.running = [o] → s.postCommand ring seq = some o → postPeer o.pkt < 65536 →
    s.job.jobs = [] → s.relay.early = [] →
    ∃ t, exec (.relayPostTimeout ring seq) s = .next t ∧ t.owes s o.pkt Status.peerUnreachable 0 = true ∧ t.running = [])

/-- INT_TEST_UNIT, INT_UNFENCE and INT_TEST_ALL (R469): a test joins the requests that wait for the module's test-fence,
an INT_UNFENCE as one that returns the unit; a pass starts with the first unit named that is under no fault fence,
and while no job is open with the first of each type on each die; a period is set at once; a type_mask of 0
completes at once with detail 0. TEST_FENCE_START, STRUCTURAL_TEST_COMPLETE and ROTATION_TEST_DUE (R30, R466, R467,
R469): the first waiting request gets the test-fence once its turn has come and the units it covers run nothing, and
never beside another test while a job is open; a test that ends frees it and is counted; a passing INT_UNFENCE that
no strike met clears the unit's strikes and its fence, and a unit that fails is under a fault fence; the rotation
requests a test of a unit under no fault fence. -/
def Obligations.UnitTests : Prop :=
  ((∀ (p : Packet) (s : State), s.accepts intTestUnitCommand p = true →
    ∃ t o, exec (.intTestUnit p) s = .next t ∧ t.running = s.running ++ [o] ∧ o.pkt = p ∧ o.kind = .test p.unitParam ∧
      t.integrity = { s.integrity with waiting := s.integrity.waiting ++ [⟨p.unitParam, p.testFor, false, false, []⟩] } ∧
      t = { s.bookkept t with running := t.running, integrity := t.integrity }) ∧
  (∀ (p : Packet) (s : State), s.accepts intUnfenceCommand p = true →
    ∃ t o, exec (.intUnfence p) s = .next t ∧ t.running = s.running ++ [o] ∧ o.pkt = p ∧ o.kind = .test p.unitParam ∧
      t.integrity = { s.integrity with waiting := s.integrity.waiting ++ [⟨p.unitParam, p.testFor, true, false, []⟩] } ∧
      t = { s.bookkept t with running := t.running, integrity := t.integrity }) ∧
  (∀ (p : Packet) (u : Nat) (s : State), s.accepts intTestAllCommand p = true → p.param 2 2 = 0 → s.job.jobs ≠ [] →
    s.openTests p.testFor = [] → (maskUnits (p.param 0 2)).find? (fun u => !s.faultFenced u) = some u →
    ∃ t, exec (.intTestAll p) s = .next t ∧
      t.integrity = { s.integrity with waiting := s.integrity.waiting ++ [⟨u, p.testFor, false, false, []⟩] } ∧
      t = { s.bookkept t with running := t.running, integrity := t.integrity }) ∧
  (∀ (p : Packet) (s : State), s.accepts intTestAllCommand p = true → p.param 2 2 = 0 → s.job.jobs = [] → s.openTests p.testFor = [] →
    (∃ u, u ∈ maskUnits (p.param 0 2) ∧ s.faultFenced u = false) →
    ∃ t, exec (.intTestAll p) s = .next t ∧
      (∀ u, ⟨u, p.testFor, false, false, []⟩ ∈ t.integrity.waiting ↔ (maskUnits (p.param 0 2)).find? (fun v =>
        !s.faultFenced v && unitType v == unitType u && unitDie v == unitDie u) = some u) ∧
      (∀ q, q.why ≠ p.testFor → (q ∈ t.integrity.waiting ↔ q ∈ s.integrity.waiting)) ∧
      t = { s.bookkept t with running := t.running, integrity := { s.integrity with waiting := t.integrity.waiting } }) ∧
  (∀ (p : Packet) (s : State), s.accepts intTestAllCommand p = true → p.param 2 2 = 0 → p.param 0 2 = 0 → s.openTests p.testFor = [] →
    ∃ t, exec (.intTestAll p) s = .next t ∧ t.owes s p Status.ok 0 = true ∧ t.integrity = s.integrity ∧ t.mem = s.mem) ∧
  (∀ (p : Packet) (s : State), s.accepts intTestAllCommand p = true → p.param 2 2 ≠ 0 →
    ∃ t, exec (.intTestAll p) s = .next t ∧ t.owes s p Status.ok 0 = true ∧
      t = { s.bookkept t with integrity := { s.integrity with periodHours := p.param 2 2 } })) ∧
  ((∀ (q : TestReq) (rest : List TestReq) (s : State), s.integrity.waiting = q :: rest → unitKnown q.unit = true →
    (∀ r, r ∈ s.integrity.testing →
      s.takeTurns r.unit q.unit = false ∧ ∀ u, u ∈ testedUnits r.unit → testCovers q.unit u = false) →
    s.faultFenced q.unit = false → s.bankStuck q.unit = false → (∀ u, u ∈ testedUnits q.unit → s.busy u = false) →
    ∃ t, exec .testFenceStart s = .next t ∧ t.integrity.waiting = rest ∧
      t.integrity.testing = s.integrity.testing ++ [{ q with moved := s.servedBy q.unit }] ∧
      (∀ u, u ∈ testedUnits q.unit → t.fenced u = true) ∧ t.integrity.fences = s.integrity.fences ∧
      (s.confidential = false → t.mem = s.mem) ∧ t.host = s.host ∧ t.rings = s.rings ∧ t.held = s.held ∧ t.running = s.running) ∧
  (∀ s : State, s.job.jobs ≠ [] → s.integrity.testing ≠ [] → exec .testFenceStart s = .next s) ∧
  (∀ (q : TestReq) (s : State), s.integrity.testing.find? (fun r => r.unit == q.unit) = some q → q.unfence = true → q.struck = false → unitType q.unit ≠ 8 →
    ∃ t, exec (.structuralTestComplete q.unit none) s = .next t ∧ t.integrity.testing = s.integrity.testing.erase q ∧
      t.reg Reg.intTestsRun = satAdd (s.reg Reg.intTestsRun) 1 ∧ t.reg Reg.intTestsFailed = s.reg Reg.intTestsFailed ∧
      (∀ k, k ∈ t.integrity.strikes ↔ k ∈ s.integrity.strikes ∧ k.on ≠ .unit q.unit) ∧
      (∀ f, f ∈ t.integrity.fences ↔ f ∈ s.integrity.fences ∧ f ≠ .unit q.unit)) ∧
  (∀ (q : TestReq) (n : Nat) (s : State), s.integrity.testing.find? (fun r => r.unit == q.unit) = some q → unitKnown q.unit = true →
    ∃ t, exec (.structuralTestComplete q.unit (some n)) s = .next t ∧ t.integrity.testing = s.integrity.testing.erase q ∧
      t.reg Reg.intTestsRun = satAdd (s.reg Reg.intTestsRun) 1 ∧ t.reg Reg.intTestsFailed = satAdd (s.reg Reg.intTestsFailed) 1 ∧
      t.faultFenced q.unit = true ∧ t.integrity.strikes = s.integrity.strikes) ∧
  (∀ (u : Nat) (s : State), unitValid u = true → s.observed u = true → s.faultFenced u = false →
    ∃ t, exec (.rotationTestDue (some u)) s = .next t ∧
      t = { s with integrity := { s.integrity with waiting := s.integrity.waiting ++ [⟨u, .rotation, false, false, []⟩] } }) ∧
  (∀ (u : Nat) (s : State), s.rotationUnits.find? (fun u => decide (s.integrity.rotationNext ≤ u)) = some u →
    ∃ t, exec (.rotationTestDue none) s = .next t ∧ t.integrity.rotationNext = u + 1 ∧
      t.integrity.waiting = (if s.faultFenced u then s.integrity.waiting
        else s.integrity.waiting ++ [⟨u, .rotation, false, false, []⟩]) ∧ t = { s with integrity := t.integrity }))

/-- INT_FENCE, INT_STRIKES_QUERY and PATTERN_SET_STAGE (R468, R469): the unit named is under a fault fence; the strike
clock and a record for each unit with a live strike stand at dest, and no byte outside them changes; the verified
set is the active one. PAGE_RETIREMENT and STRIKE_EXPIRY (R130, R451, R454): a page or granule with its third live
strike joins its die's pool while there is room; strikes that are no longer live go, and the live ones stay. -/
def Obligations.FencesStrikesAndRetirement : Prop :=
  ((∀ (p : Packet) (s : State), s.accepts intFenceCommand p = true → s.running = [] → s.graph.units = [] →
    ∃ t, exec (.intFence p) s = .next t ∧ t.owes s p Status.ok 0 = true ∧ t.faultFenced p.unitParam = true ∧
      (∀ u, s.faultFenced u = true → t.faultFenced u = true) ∧ (s.confidential = false → t.mem = s.mem) ∧ t.host = s.host ∧
      t.job = s.job ∧ t.running = s.running) ∧
  (∀ (p : Packet) (s : State), s.accepts intStrikesQueryCommand p = true →
    let r := s.strikeReport (p.param 8 4)
    ∃ t, exec (.intStrikesQuery p) s = .next t ∧ t.owes s p Status.ok (min (p.param 8 4) s.struckUnits.length) = true ∧
      t.load (p.param 0 8) r.length = r ∧ r.length = 64 + 16 * min (p.param 8 4) s.struckUnits.length ∧
      leField r 0 8 = s.integrity.clock % 2 ^ 64 ∧ leField r 8 4 = s.struckUnits.length % 2 ^ 32 ∧
      (∀ a n, apart a n (p.param 0 8) r.length = true → t.load a n = s.load a n) ∧
      t.integrity = s.integrity ∧ t.regs = s.regs ∧ t.running = s.running ∧ t.job = s.job) ∧
  (∀ (p : Packet) (s : State), s.accepts patternSetStageCommand p = true → s.poisonedIn [p.patternRange] = none →
    ∃ t, exec (.patternSetStage p) s = .next t ∧ t.owes s p Status.ok 0 = true ∧ t.patterns = s.patternImage p ∧
      t.integrity.patternVersion = BitVec.ofNat 32 (leField (s.patternImage p) 8 4) ∧
      t.integrity.testing = s.integrity.testing ∧ t.integrity.strikes = s.integrity.strikes ∧ t.mem = s.mem ∧ t.host = s.host ∧
      t.running = s.running ∧ t.job = s.job)) ∧
  ((∀ (addr : Nat) (poison : List Nat) (s : State), 3 ≤ s.liveOn (.page addr) → s.memory.pool0.pages.length < 32768 →
    addr < 0x006000000000 →
    (s.memory.pool0.pages ++ s.memory.pool1.pages ++ s.memory.pool0.granules ++ s.memory.pool1.granules).contains addr = false →
    ∃ t, exec (.pageRetirement false addr poison) s = .next t ∧ t.memory.pool0.pages = s.memory.pool0.pages ++ [addr] ∧
      t.memory.pool1 = s.memory.pool1 ∧ t.integrity = s.integrity ∧ t.mem = s.mem ∧ t.running = s.running) ∧
  (∀ (addr : Nat) (poison : List Nat) (s : State), 3 ≤ s.liveOn (.granule addr) → s.memory.pool1.granules.length < 32 →
    0x010008000000 ≤ addr →
    (s.memory.pool0.pages ++ s.memory.pool1.pages ++ s.memory.pool0.granules ++ s.memory.pool1.granules).contains addr = false →
    ∃ t, exec (.pageRetirement true addr poison) s = .next t ∧ t.memory.pool1.granules = s.memory.pool1.granules ++ [addr] ∧
      t.memory.pool0 = s.memory.pool0 ∧ t.integrity = s.integrity ∧ t.mem = s.mem ∧ t.running = s.running) ∧
  (∀ s : State, ∃ t, exec .strikeExpiry s = .next t ∧
    (∀ k, k ∈ t.integrity.strikes ↔ k ∈ s.integrity.strikes ∧ s.strikeLive k = true) ∧
    t.integrity.fences = s.integrity.fences ∧ t.mem = s.mem ∧ t.rings = s.rings ∧ t.job = s.job))

/-- SEC_SESSION_OPEN ops NEW and CERTIFY (R495, R501): a new session has the next number, a new key pair and no pairwise
or job key, in OPEN; CERTIFY writes the session certificate and the chain at out and reports their length.
SEC_SESSION_OPEN ops PAIR_OFFER and JOB_KEY_ISSUE (R495 to R497, R501): the lower-numbered module of a pair writes
its offer and holds the pairwise key; the module of rank 0 writes one grant for each member and holds the job key
under its generation. The premises on the relay leave it nothing to place or end when the key comes into use. -/
def Obligations.SessionsAndKeyOffers : Prop :=
  ((∀ (p : Packet) (s : State), sessionOp p = 1 → s.accepts secSessionOpenNewCommand p = true → s.sec.entropyFault = false →
    ∃ t, exec (.secSessionOpenNew p) s = .next t ∧ t.owes s p Status.ok 0 = true ∧
      t.sec = { s.sec with session := s.sec.session + 1, kem := s.sec.kem + 1, pairs := [], jobKeys := [], mode := .opened } ∧
      t.mem = s.mem ∧ t.host = s.host ∧ t.running = s.running ∧ t.job = s.job ∧ t.memory = s.memory) ∧
  (∀ (p : Packet) (s : State), sessionOp p = 2 → s.accepts secSessionOpenCertifyCommand p = true →
    let out := s.certificate ++ s.chain
    ∃ t, exec (.secSessionOpenCertify p) s = .next t ∧ t.owes s p Status.ok out.length = true ∧
      t.load (sessionOut p) out.length = out ∧ (s.certificate).length = 6323 ∧
      (∀ a n, apart a n (sessionOut p) out.length = true → t.load a n = s.load a n) ∧
      t.sec = s.sec ∧ t.regs = s.regs ∧ t.running = s.running ∧ t.job = s.job) ∧
  (∀ (p : Packet) (s : State), sessionOp p ≠ 2 → sessionOp p ≠ 3 → sessionOp p ≠ 4 → s.accepts secSessionOpenNewCommand p = true →
    s.sec.entropyFault = true →
    ∃ t, exec (.secSessionOpenNew p) s = .next t ∧ t.owes s p Status.entropyFailed 0 = true ∧ t.sec = s.sec ∧ t = s.bookkept t)) ∧
  ((∀ (p : Packet) (a : Nat) (s : State), sessionOp p = 3 → s.accepts secSessionOpenPairOfferCommand p = true →
    s.sec.entropyFault = false → s.certReason (sessionIn p) = none → s.moduleId = some a →
    a < certModule (s.memberCert (sessionIn p)) → certModule (s.memberCert (sessionIn p)) ≠ 0xFFFF →
    s.running = [] → s.relay.early = [] → s.relay.ops = [] →
    let cert := s.memberCert (sessionIn p)
    let e := kemSeal (certKem cert) s.free
    let offer := s.signed (offerBody a (certModule cert) s.sec.session (certSession cert) e.1)
    ∃ t, exec (.secSessionOpenPairOffer p) s = .next t ∧ t.owes s p Status.ok 6259 = true ∧
      t.load (sessionOut p) 6259 = offer ∧ (∀ b n, apart b n (sessionOut p) 6259 = true → t.load b n = s.load b n) ∧
      (t.sec.pairs.getLast?.map fun k => (k.peer, k.key)) =
        some (certModule cert, pairKey e.2 a (certModule cert) s.sec.session (certSession cert)) ∧
      t.sec.session = s.sec.session ∧ t.job = s.job) ∧
  (∀ (p : Packet) (slot : Nat) (j : Job) (s : State), sessionOp p = 4 → s.accepts secSessionOpenJobKeyIssueCommand p = true →
    s.sec.entropyFault = false → s.findJob p.job = some (slot, j) → s.freshGeneration slot (p.param 1 1) = true →
    (∀ a, a ∈ (s.memberAts (sessionCount p) (sessionIn p)).1 → s.memberReason j.confidential a = none) →
    s.running = [] → s.relay.early = [] → s.relay.ops = [] →
    ∃ t, exec (.secSessionOpenJobKeyIssue p) s = .next t ∧ t.owes s p Status.ok (6307 * sessionCount p) = true ∧
      (⟨slot, p.param 1 1, drawBytes s.free 32⟩ : JobKey) ∈ t.sec.jobKeys ∧
      t.freshGeneration slot (p.param 1 1) = false ∧
      (∀ b n, apart b n (sessionOut p) (6307 * sessionCount p) = true → t.load b n = s.load b n) ∧
      t.sec.pairs = s.sec.pairs ∧ t.job = s.job))

/-- SEC_KEY_IMPORT (R491, R495, R496, R502): a blob that opens puts its key into the slot, an offer its pairwise key, a
grant its job key; one that does not is refused with KEY_REFUSED and the reason in detail, and no key is held for
it. -/
def Obligations.KeysImported : Prop :=
  (∀ (p : Packet) (s : State), importKind p = 1 → s.accepts secKeyImportModelKeyCommand p = true →
    (∀ k, s.openBlob (importSlot p) (s.blob p) = .ok k →
      ∃ t, exec (.secKeyImportModelKey p) s = .next t ∧ t.owes s p Status.ok 0 = true ∧
        Tab.look t.sec.keys (importSlot p) = some k ∧
        (∀ n, n ≠ importSlot p → Tab.look t.sec.keys n = Tab.look s.sec.keys n) ∧ t.sec.mode ≠ .opened ∧
        t.mem = s.mem ∧ t.host = s.host ∧ t.running = s.running ∧ t.job = s.job) ∧
    (∀ r, s.openBlob (importSlot p) (s.blob p) = .error r →
      ∃ t, exec (.secKeyImportModelKey p) s = .next t ∧ t.owes s p Status.keyRefused r = true ∧ t.sec = s.sec ∧
        t.reg Reg.secKeyRefused = satAdd (s.reg Reg.secKeyRefused) 1 ∧ t.mem = s.mem ∧ t.host = s.host ∧ t.job = s.job)) ∧
  (∀ (p : Packet) (s : State), importKind p = 2 → s.accepts secKeyImportPairCommand p = true →
    s.running = [] → s.relay.early = [] → s.relay.ops = [] →
    (s.offerReason (s.blob p) (s.blobChain p) = none →
      ∃ t, exec (.secKeyImportPair p) s = .next t ∧ t.owes s p Status.ok 0 = true ∧
        (t.sec.pairs.getLast?.map fun k => (k.peer, k.key)) = some (leField (s.blob p) 8 2,
          pairKey (kemOpen s.sec.kem (slice (s.blob p) 64 1568)) (leField (s.blob p) 8 2) (leField (s.blob p) 10 2)
            (leField (s.blob p) 16 8) (leField (s.blob p) 24 8)) ∧ t.sec.keys = s.sec.keys ∧ t.mem = s.mem ∧ t.job = s.job) ∧
    (∀ r, s.offerReason (s.blob p) (s.blobChain p) = some r →
      ∃ t, exec (.secKeyImportPair p) s = .next t ∧ t.owes s p Status.keyRefused r = true ∧ t.sec = s.sec ∧ t.mem = s.mem)) ∧
  (∀ (p : Packet) (s : State), importKind p = 3 → s.accepts secKeyImportJobKeyCommand p = true →
    s.running = [] → s.relay.early = [] → s.relay.ops = [] →
    (∀ slot key, s.openGrant (s.blob p) (s.blobChain p) = .ok (slot, key) →
      ∃ t, exec (.secKeyImportJobKey p) s = .next t ∧ t.owes s p Status.ok 0 = true ∧
        (⟨slot, leField (s.blob p) 8 1, key⟩ : JobKey) ∈ t.sec.jobKeys ∧ t.sec.keys = s.sec.keys ∧ t.mem = s.mem ∧ t.job = s.job) ∧
    (∀ r, s.openGrant (s.blob p) (s.blobChain p) = .error r →
      ∃ t, exec (.secKeyImportJobKey p) s = .next t ∧ t.owes s p Status.keyRefused r = true ∧ t.sec = s.sec ∧ t.mem = s.mem))

/-- SEC_WEIGHTS_IMPORT, SEC_WEIGHTS_EXPORT and SEC_REGION_PROTECT (R492 to R494, R503, R504): an import writes the
plaintext of a package that opens and zeros the destination of one that does not; an export writes a package that
opens to the source's bytes; a region protected is zeroed and bound to its slot. -/
def Obligations.WeightsSealedOpened : Prop :=
  (∀ (p : Packet) (k : ModelKey) (s : State), s.accepts secWeightsImportCommand p = true → s.poisonedIn [weightsSrc p] = none →
    Tab.look s.sec.keys (weightsSlot p) = some k →
    (∀ plain, openPackage k (s.load (weightsSrc p).lo (weightsSrc p).len) = .ok plain →
      ∃ t, exec (.secWeightsImport p) s = .next t ∧ t.owes s p Status.ok 0 = true ∧
        t.load (weightsDst p).lo plain.length = plain ∧
        (∀ a n, apart a n (weightsDst p).lo plain.length = true → t.load a n = s.load a n) ∧
        t.reg Reg.secImports = satAdd (s.reg Reg.secImports) 1 ∧ t.sec = s.sec ∧ t.running = s.running ∧ t.job = s.job) ∧
    (∀ i, openPackage k (s.load (weightsSrc p).lo (weightsSrc p).len) = .error i →
      ∃ t, exec (.secWeightsImport p) s = .next t ∧ t.owes s p Status.packageInvalid i = true ∧
        t.load (weightsDst p).lo (weightsDst p).len = List.replicate (weightsDst p).len 0 ∧
        t.sec = s.sec ∧ t.running = s.running ∧ t.job = s.job)) ∧
  (∀ (p : Packet) (k : ModelKey) (s : State), s.accepts secWeightsExportCommand p = true → s.poisonedIn [weightsSrc p] = none →
    Tab.look s.sec.keys (weightsSlot p) = some k → k.keyId.length = 16 →
    let n := packageBytes (p.param 16 8) (p.param 5 1)
    ∃ t, exec (.secWeightsExport p) s = .next t ∧ t.owes s p Status.ok 0 = true ∧
      openPackage k (t.load (weightsDst p).lo n) = .ok (s.load (weightsSrc p).lo (p.param 16 8)) ∧
      (∀ a m, apart a m (weightsDst p).lo n = true → t.load a m = s.load a m) ∧
      t.reg Reg.secExports = satAdd (s.reg Reg.secExports) 1 ∧ t.sec = s.sec ∧ t.running = s.running ∧ t.job = s.job) ∧
  (∀ (p : Packet) (r : Region) (s : State), s.accepts secRegionProtectCommand p = true → s.protectRegion p = some r →
    ∃ t, exec (.secRegionProtect p) s = .next t ∧ t.owes s p Status.ok 0 = true ∧
      t.protectRegion p = some { r with key := some (p.param 4 1) } ∧ t.load r.base r.size = List.replicate r.size 0 ∧
      (∀ a n, apart a n r.base r.size = true → t.load a n = s.load a n) ∧ t.sec.mode ≠ .opened ∧ t.sec.keys = s.sec.keys ∧
      t.running = s.running ∧ t.job = s.job)

/-- GET_VERSION, GET_CAPABILITIES, NEGOTIATE_ALGORITHMS, GET_DIGESTS, GET_CERTIFICATE, CHALLENGE and GET_MEASUREMENTS
(R482, R483): each is answered once the responder runs, in the order of the negotiation, and changes nothing but the
connection; the certificate chain, the measurement digest and the blocks asked for are what the answers carry.
ENTROPY_HEALTH_FAILURE, KEY_EXCHANGE, FINISH, END_SESSION and VENDOR_DEFINED_REQUEST (R478, R482, R484): without
healthy entropy no key exchange takes place; a verified FINISH establishes the session, END_SESSION ends it, and a
message outside one is answered with an error. -/
def Obligations.AttestationAnswers : Prop :=
  ((∀ s : State, 3 ≤ s.glb.stage → s.glb.linkUp = true → exec .getVersion s =
    .next { s with sec := { s.sec with spdm := .version, secured := 0 }, sent := s.sent ++ [.spdm 0x04 (leBytes 1 0x14)] }) ∧
  (∀ s : State, 3 ≤ s.glb.stage → s.glb.linkUp = true → s.sec.spdm = .version → exec .getCapabilities s =
    .next { s with sec := { s.sec with spdm := .capabilities }, sent := s.sent ++ [.spdm 0x61 []] }) ∧
  (∀ s : State, 3 ≤ s.glb.stage → s.glb.linkUp = true → s.sec.spdm = .capabilities → exec (.negotiateAlgorithms true) s =
    .next { s with sec := { s.sec with spdm := .negotiated }, sent := s.sent ++ [.spdm 0x63 []] }) ∧
  (∀ s : State, 3 ≤ s.glb.stage → s.glb.linkUp = true → s.sec.spdm = .negotiated →
    exec .getDigests s = .next { s with sent := s.sent ++ [.spdm 0x01 (sha3 s.chain)] } ∧
    (∀ off len, off < s.chain.length → ∃ n, n = min len (s.chain.length - off) ∧ exec (.getCertificate 0 off len) s =
      .next { s with sent := s.sent ++
        [.spdm 0x02 (leBytes 4 n ++ leBytes 4 (s.chain.length - off - n) ++ (s.chain.drop off).take n)] }) ∧
    (∀ nonce, ∃ sig, exec (.challenge 0 nonce) s = .next { s with free := s.free + 1, sent := s.sent ++
      [.spdm 0x03 (sha3 s.chain ++ drawBytes s.free 32 ++ s.measurementDigest ++ sig)] } ∧
      sig = aliasSignature s.sec.measured (nonce ++ (sha3 s.chain ++ drawBytes s.free 32 ++ s.measurementDigest))) ∧
    exec (.getMeasurements 255 none) s = .next { s with sent := s.sent ++
      [.spdm 0x60 (leBytes 1 11 ++ blockIndices.flatMap s.blockEntry)] } ∧
    (∀ n, 1 ≤ n → n ≤ 11 → exec (.getMeasurements n none) s = .next { s with sent := s.sent ++
      [.spdm 0x60 (leBytes 1 1 ++ s.blockEntry n)] }))) ∧
  ((∀ s : State, exec .entropyHealthFailure s = .next { s with sec := { s.sec with entropyFault := true } }) ∧
  (∀ s : State, 3 ≤ s.glb.stage → s.glb.linkUp = true → s.sec.spdm = .negotiated →
    (∀ key, s.sec.entropyFault = false → s.sec.secured = 0 → ∃ c, c.length = 1568 ∧ exec (.keyExchange key) s =
      .next { s with free := s.free + 1, sec := { s.sec with secured := 1 },
                     sent := s.sent ++ [.spdm 0x64 (c ++ aliasSignature s.sec.measured c)] }) ∧
    (∀ key, s.sec.entropyFault = true → exec (.keyExchange key) s = .next { s with sent := s.sent ++ [.spdm 0x7F (leBytes 1 5)] }) ∧
    (s.sec.secured = 1 → exec (.finish true) s =
      .next { s with sec := { s.sec with secured := 2 }, sent := s.sent ++ [.spdm 0x65 []] }) ∧
    (s.sec.secured = 1 → exec (.finish false) s =
      .next { s with sec := { s.sec with secured := 0 }, sent := s.sent ++ [.spdm 0x7F (leBytes 1 6)] }) ∧
    (s.sec.secured = 2 → exec .endSession s =
      .next { s with sec := { s.sec with secured := 0 }, sent := s.sent ++ [.spdm 0x6C []] }) ∧
    (s.sec.secured = 2 → exec (.vendorDefinedRequest .tdispState) s =
      .next { s with sent := s.sent ++ [.spdm 0x7E (leBytes 1 0x05 ++ leBytes 1 s.sec.tdi.code)] }) ∧
    (∀ m, s.sec.secured ≠ 2 → exec (.vendorDefinedRequest m) s = .next { s with sent := s.sent ++ [.spdm 0x7F (leBytes 1 0x0B)] })))

/-- IDE_KM_KEY_PROGRAM, IDE_STREAM_LOSS, LOCK_INTERFACE_REQUEST, START_INTERFACE_REQUEST and STOP_INTERFACE_REQUEST
(R479, R481, R484, R485): locking the interface locks the module; it starts only while a stream is keyed and
enabled, and the module is then ATTESTED; stopping it, or losing the last stream while it runs, leaves ATTESTED. No
ledger entry, alert or answer changes memory or jobs. -/
def Obligations.InterfaceLocksModule : Prop :=
  (∀ s : State, 3 ≤ s.glb.stage → s.glb.linkUp = true → s.sec.spdm = .negotiated → s.sec.secured = 2 →
    (∀ stream, stream < 2 → ∃ t, exec (.ideKmKeyProgram stream false) s = .next t ∧
      t.sec.stream stream = ⟨true, (s.sec.stream stream).enabled⟩ ∧ t.sec.stream (1 - stream) = s.sec.stream (1 - stream) ∧
      t.mem = s.mem ∧ t.job = s.job) ∧
    (∀ stream, stream < 2 → (s.sec.stream stream).keyed = true → ∃ t, exec (.ideKmKeyProgram stream true) s = .next t ∧
      t.sec.stream stream = ⟨true, true⟩ ∧ t.sec.stream (1 - stream) = s.sec.stream (1 - stream) ∧ t.mem = s.mem ∧ t.job = s.job) ∧
    (s.sec.tdi = .unlocked → ∃ t, exec .lockInterfaceRequest s = .next t ∧ t.sec.tdi = .locked ∧
      (t.sec.mode = if s.sec.mode = .opened then .locked else s.sec.mode) ∧ t.sec.keys = s.sec.keys ∧ t.mem = s.mem ∧ t.job = s.job) ∧
    (s.sec.tdi = .locked → s.sec.liveStreams ≠ 0 → ∃ t, exec .startInterfaceRequest s = .next t ∧ t.sec.tdi = .run ∧
      t.sec.mode = .attested ∧ t.sec.keys = s.sec.keys ∧ t.mem = s.mem ∧ t.job = s.job) ∧
    (s.sec.tdi = .locked → s.sec.liveStreams = 0 → ∃ t, exec .startInterfaceRequest s = .next t ∧ t.sec = s.sec ∧ t.mem = s.mem) ∧
    (∃ t, exec .stopInterfaceRequest s = .next t ∧ t.sec.tdi = .unlocked ∧ t.sec.mode ≠ .attested ∧ t.mem = s.mem ∧ t.job = s.job)) ∧
  (∀ (stream : Nat) (s : State), stream < 2 → s.sec.tdi = .run → (s.sec.setStream stream ⟨false, false⟩).liveStreams = 0 →
    ∃ t, exec (.ideStreamLoss stream) s = .next t ∧ t.sec.tdi = .error ∧ t.sec.stream stream = ⟨false, false⟩ ∧
      (s.sec.mode = .attested → t.sec.mode = .locked) ∧ t.sec.keys = s.sec.keys ∧ t.mem = s.mem ∧ t.job = s.job) ∧
  (∀ (stream : Nat) (s : State), stream < 2 → s.sec.tdi ≠ .run →
    ∃ t, exec (.ideStreamLoss stream) s = .next t ∧ t.sec.stream stream = ⟨false, false⟩ ∧ t.sec.tdi = s.sec.tdi ∧
      t.sec.mode = s.sec.mode ∧ t.mem = s.mem ∧ t.job = s.job)

/-- POWER_CAP_SET and LEDGER_READ (R522, R523, R557): the host cap is the one written, and the command runs until the
cap loop has used it; the ledger's entries from first_seq on, and the seal where it is asked for, stand at dest.
ABORT (R95): an ABORT that names no packet started or waiting completes with NO_TARGET and changes nothing else; one
that names a single packet that waits takes it from its ring, completes it with ABORTED and position 0, and
completes with OK and a count of 1. -/
def Obligations.ManagementAndAbort : Prop :=
  ((∀ (p : Packet) (s : State), s.accepts powerCapSetCommand p = true →
    ∃ t o, exec (.powerCapSet p) s = .next t ∧ t.running = s.running ++ [o] ∧ o.pkt = p ∧ o.kind = .capSet s.pwr.hostCap ∧
      t.pwr = { s.pwr with
        hostCap := p.param 0 2, keptCap := if bitOf (p.param 2 1) 0 then some (p.param 0 2) else s.pwr.keptCap } ∧
      t.mem = s.mem ∧ t.host = s.host ∧ t.job = s.job ∧ t.glb = s.glb ∧ t.held = s.held) ∧
  (∀ (p : Packet) (s : State), s.accepts ledgerReadCommand p = true →
    let l := s.ledgerShown p
    let out := l.flatMap s.mgt.ledger.entryBytes ++ if ledgerSeal p then s.ledgerSealBytes p l else []
    ∃ t, exec (.ledgerRead p) s = .next t ∧ t.owes s p Status.ok l.length = true ∧ t.load (p.param 16 8) out.length = out ∧
      (∀ a n, apart a n (p.param 16 8) out.length = true → t.load a n = s.load a n) ∧
      t.mgt = s.mgt ∧ t.regs = s.regs ∧ t.running = s.running ∧ t.job = s.job)) ∧
  ((∀ (p : Packet) (s : State), p.opcode = abortCommand.code → s.abortReady p = true → s.glb.stage = 10 →
    abortCommand.fail s p = none → s.headsKnown = true →
    (∀ o, o ∈ s.running → ¬ (o.pkt.handle = abortHandle p ∧ abortNames p o.pkt.ring = true)) →
    (∀ n q, n < 16 → q ∈ (s.ring n).staged → q ≠ p → ¬ (q.handle = abortHandle p ∧ abortNames p q.ring = true)) →
    (∀ n, n < 16 → n ≠ p.ring → ¬ p ∈ (s.ring n).staged) →
    ∃ t, exec (.abort p) s = .next t ∧ t.owes s p Status.noTarget 0 = true ∧ t = s.bookkept t) ∧
  (∀ (p q : Packet) (s : State), p.opcode = abortCommand.code → s.abortReady p = true → s.glb.stage = 10 →
    abortCommand.fail s p = none → s.headsKnown = true → q ≠ p → q.ring < 16 → p.ring < 16 →
    (∀ o, o ∈ s.running → ¬ (o.pkt.handle = abortHandle p ∧ abortNames p o.pkt.ring = true)) →
    q.handle = abortHandle p → abortNames p q.ring = true → p.handle ≠ abortHandle p →
    ((s.ring q.ring).staged.filter fun x => x.handle == abortHandle p) = [q] →
    (∀ n x, n < 16 → n ≠ q.ring → x ∈ (s.ring n).staged → ¬ (x.handle = abortHandle p ∧ abortNames p x.ring = true)) →
    (∀ x, x ∈ (s.ring q.ring).staged → x.ring = q.ring) →
    ∃ t, exec (.abort p) s = .next t ∧ t.owes s p Status.ok 1 = true ∧ t.owes s q Status.aborted 0 = true ∧
      ¬ q ∈ (t.ring q.ring).staged ∧ t = s.bookkept t))

/-- FW_STAGE and FW_ACTIVATE (R526, R527): a staged image stands in the inactive bank, which is bootable, unless the
read-back fails (a free value), which leaves the bank EMPTY with FLASH_FAULT; the active bank is untouched; an
activation begins with stage 1 and the command runs on. ACTIVATION_STAGE_START, PROCESSOR_READY_TIMEOUT and
WAIT_MS_EXPIRY (R527 to R529): the next stage follows the one that runs; the end of stage 6 makes the inactive bank
the active one; a processor not ready in time leaves the active bank as it was; wait_ms that passes while stage 1
waits ends the activation. The update agent, REQUEST_UPDATE to CANCEL_UPDATE (R517, R526, R531): each message is
taken in its place in the update and in no other; the device takes in blocks until it has the component; what does
not verify is not applied; a firmware component that verifies goes to the inactive bank. -/
def Obligations.FirmwareUpdates : Prop :=
  ((∀ (p : Packet) (s : State), s.accepts fwStageCommand p = true → s.poisonedIn [stageSource p] = none →
    (Config.flashFails s.free = false → (⟨s.mgt.inactiveBank.count, true, s.stageImage p⟩ : Bank).digestsOk = true →
      ∃ t, exec (.fwStage p) s = .next t ∧ t.owes s p Status.ok 0 = true ∧
        t.mgt.inactiveBank = ⟨s.mgt.inactiveBank.count, true, s.stageImage p⟩ ∧ t.mgt.activeBank = s.mgt.activeBank ∧
        t.mgt.active = s.mgt.active ∧ t.mgt.floor = s.mgt.floor ∧ t.mem = s.mem ∧ t.running = s.running ∧ t.job = s.job) ∧
    (Config.flashFails s.free = true →
      ∃ t, exec (.fwStage p) s = .next t ∧ t.owes s p Status.flashFault 0 = true ∧ t.mgt.inactiveBank.image = [] ∧
        t.mgt.inactiveBank.bootable = false ∧ t.mgt.activeBank = s.mgt.activeBank ∧ t.mgt.active = s.mgt.active ∧
        t.mem = s.mem ∧ t.running = s.running ∧ t.job = s.job)) ∧
  (∀ (p : Packet) (s : State), s.accepts fwActivateCommand p = true →
    ∃ t o, exec (.fwActivate p) s = .next t ∧ t.running = s.running ++ [o] ∧ o.pkt = p ∧ o.kind = .activate ∧ o.total = 6 ∧
      t.mgt = { s.mgt with activation := some ⟨1,
        if p.param 0 4 = 0 then none else some (s.clk + milliseconds (p.param 0 4)), s.clk, false⟩ } ∧
      t = { s.bookkept t with running := t.running, mgt := t.mgt })) ∧
  ((∀ (a : Activation) (s : State), s.mgt.activation = some a → 3 ≤ a.stage → a.stage < 6 → s.running = [] →
    ∃ t, exec .activationStageStart s = .next t ∧ t.mgt.activation = some { a with stage := a.stage + 1, startedAt := s.clk } ∧
      t.mgt.active = s.mgt.active ∧ t.mem = s.mem ∧ t.job = s.job) ∧
  (∀ (a : Activation) (o : RunOp) (s : State), s.mgt.activation = some a → a.stage = 6 → s.running = [o] → o.kind = .activate →
    ∃ t, exec .activationStageStart s = .next t ∧ t.mgt.activation = none ∧ t.mgt.active = 1 - s.mgt.active ∧
      t.mgt.activations = s.mgt.activations + 1 ∧ s.mgt.floor ≤ t.mgt.floor ∧
      (s.mgt.inactiveBank.raises = true → s.mgt.inactiveBank.security ≤ t.mgt.floor) ∧
      t.owes s o.pkt Status.ok 0 = true ∧ t.running = [] ∧ t.mem = s.mem ∧ t.job = s.job) ∧
  (∀ (a : Activation) (o : RunOp) (s : State), s.mgt.activation = some a → 4 ≤ a.stage → a.startedAt + milliseconds 10 ≤ s.clk →
    s.running = [o] → o.kind = .activate →
    ∃ t, exec .processorReadyTimeout s = .next t ∧ t.mgt.activation = none ∧ t.mgt.active = s.mgt.active ∧
      t.mgt.activeBank = s.mgt.activeBank ∧ t.owes s o.pkt Status.activationReverted a.stage = true ∧ t.running = [] ∧
      t.mem = s.mem ∧ t.job = s.job) ∧
  (∀ (a : Activation) (d v : Nat) (l : List Nat) (o : RunOp) (s : State), s.mgt.activation = some a → a.stage = 1 →
    a.deadline = some d → d ≤ s.clk → s.versionsLeft = v :: l → s.running = [o] → o.kind = .activate →
    ∃ t n, exec .waitMsExpiry s = .next t ∧ t.mgt.activation = none ∧ t.owes s o.pkt Status.semanticsUnavailable n = true ∧
      n ∈ s.versionsLeft ∧ (∀ m, m ∈ s.versionsLeft → n ≤ m) ∧ t.running = [] ∧ t.mem = s.mem ∧ t.job = s.job)) ∧
  ((∀ (smbus : Bool) (s : State), 3 ≤ s.glb.stage →
    let say := fun (c : Nat) (b : List Byte) => s.sent ++ [.mctp (if smbus then 1 else 0) 261 c 0 b]
    (s.updateBusy = false → exec (.requestUpdate smbus) s =
      .next { s with mgt := { s.mgt with pldm := .learn }, sent := say 0x10 [] }) ∧
    (s.mgt.pldm = .learn → exec (.passComponentTable smbus true) s =
      .next { s with mgt := { s.mgt with pldm := .readyXfer }, sent := say 0x13 [] }) ∧
    (s.mgt.pldm = .learn → exec (.passComponentTable smbus false) s = .next { s with sent := say 0x13 [] }) ∧
    (∀ size, s.mgt.pldm = .readyXfer → exec (.updateComponent smbus 1 size) s = .next { s with
      mgt := { s.mgt with component := 1, componentSize := size, received := [], pldm := .download }, sent := say 0x14 (leBytes 1 0) }) ∧
    (∀ data, s.mgt.pldm = .download → s.mgt.received.length < s.mgt.componentSize →
      data.length = min (if smbus then 256 else 1024) (s.mgt.componentSize - s.mgt.received.length) →
      exec (.requestFirmwareData smbus data) s = .next { s with
        mgt := { s.mgt with received := s.mgt.received ++ data },
        sent := say 0x15 (leBytes 4 s.mgt.received.length ++ leBytes 4 data.length) }) ∧
    (s.mgt.pldm = .download → s.mgt.componentSize ≤ s.mgt.received.length → exec (.transferComplete smbus) s =
      .next { s with mgt := { s.mgt with pldm := .verify }, sent := say 0x16 (leBytes 1 0) }) ∧
    (s.mgt.pldm = .verify → s.componentFault = none → exec (.verifyComplete smbus) s =
      .next { s with mgt := { s.mgt with pldm := .apply }, sent := say 0x17 (leBytes 1 0) }) ∧
    (∀ c, s.mgt.pldm = .verify → s.componentFault = some c → exec (.verifyComplete smbus) s =
      .next { s with mgt := { s.mgt with pldm := .readyXfer }, sent := say 0x17 (leBytes 2 c.toNat) }) ∧
    (s.mgt.pldm = .apply → s.mgt.component = 1 → Config.flashFails s.free = false →
      (⟨s.mgt.inactiveBank.count, true, s.mgt.received⟩ : Bank).digestsOk = true → ∃ t, exec (.applyComplete smbus) s = .next t ∧
        t.mgt.inactiveBank = ⟨s.mgt.inactiveBank.count, true, s.mgt.received⟩ ∧ t.mgt.activeBank = s.mgt.activeBank ∧
        t.mgt.pldm = .readyXfer ∧ t.mem = s.mem ∧ t.running = s.running) ∧
    (s.mgt.pldm = .readyXfer → s.mgt.inactiveBank.bootable = true → exec (.activateFirmware smbus) s = .next { s with
      mgt := { s.mgt with pldm := .activate, activation := some ⟨1, none, s.clk, true⟩ }, sent := say 0x1A [] }) ∧
    exec (.getStatus smbus) s = .next { s with sent := say 0x1B (leBytes 1 s.mgt.pldm.code) } ∧
    (s.mgt.pldm ≠ .idle → s.mgt.pldm ≠ .activate → exec (.cancelUpdate smbus) s =
      .next { s with mgt := { s.mgt with pldm := .idle, received := [] }, sent := say 0x1D [] })) ∧
  (∀ (smbus : Bool) (s : State), 3 ≤ s.glb.stage → s.mgt.pldm = .idle →
    exec (.passComponentTable smbus true) s = .next { s with sent := s.sent ++ [.mctp (if smbus then 1 else 0) 261 0x13 0x80 []] } ∧
    exec (.transferComplete smbus) s = .next s ∧ exec (.applyComplete smbus) s = .next s))

/-- LEDGER_FLUSH, JTAG_ACCESS, SET_ENDPOINT_ID and PLDM_SENSOR_REQUEST (R480, R511, R514, R516, R517, R520): buffered
entries go to flash in order; in confidential mode JTAG reaches nothing but EXTEST on the connector pins; an
endpoint ID is kept by its bus; a reading is the value shown for its sensor. -/
def Obligations.LedgerJtagSensors : Prop :=
  (∀ (e : LedgerEntry) (s : State), s.mgt.ledger.buffer = [e] → s.mgt.ledger.suppressed = 0 → s.mgt.ledger.flash.length < 65536 →
    Tab.look s.mgt.ledger.flash s.mgt.ledger.next = none →
    ∃ t, exec .ledgerFlush s = .next t ∧ t.mgt.ledger.buffer = [] ∧ Tab.look t.mgt.ledger.flash s.mgt.ledger.next = some e ∧
      t.mgt.ledger.next = s.mgt.ledger.next + 1 ∧ t.mgt.ledger.base = s.mgt.ledger.base ∧ t = { s with mgt := t.mgt }) ∧
  (∀ (extest connector : Bool) (s : State), s.sec.mode ≠ .opened → (extest && connector) = false →
    exec (.jtagAccess extest connector) s = .next s) ∧
  (∀ (extest connector : Bool) (s : State), (s.sec.mode = .opened ∨ (extest && connector) = true) →
    ∃ b, exec (.jtagAccess extest connector) s = .next { s with sent := s.sent ++ [.jtag [b]], free := s.free + 1 }) ∧
  (∀ (eid : Nat) (s : State), 3 ≤ s.glb.stage → 8 ≤ eid → eid ≤ 254 →
    exec (.setEndpointId true eid) s =
      .next { s with mgt := { s.mgt with eidSmbus := eid }, sent := s.sent ++ [.mctp 1 0 1 0 (leBytes 1 eid)] } ∧
    exec (.setEndpointId false eid) s =
      .next { s with mgt := { s.mgt with eidVdm := eid }, sent := s.sent ++ [.mctp 0 0 1 0 (leBytes 1 eid)] }) ∧
  (∀ (smbus : Bool) (i : Nat) (s : State), 3 ≤ s.glb.stage → i < 187 →
    exec (.pldmSensorRequest smbus (.reading i)) s = .next { s with sent := s.sent ++
      [.mctp (if smbus then 1 else 0) 258 0x11 0 (leBytes 4 (unsignedOf 32 (s.sensorShown i)))] })

/-- MANIFEST_LOAD, MANIFEST_STAGE and MANIFEST_QUERY (R65, R66, R68): the bytes loaded stand in their slot and no other
slot changes; the pair staged waits for its step in the job; the 256-byte record is written to host memory and
nothing else changes. JOB_OPEN, JOB_ATTACH, STEP_RUN and JOB_CLOSE (R54, R96, R111): the job opens IDLE in the
lowest free slot with its hold area as a region; its records move to the ring that attaches it; a STEP_RUN of an
idle job makes it RUNNING and joins its queue; an idle job that closes leaves its slot and its hold area. -/
def Obligations.ManifestsAndJobs : Prop :=
  ((∀ (p : Packet) (s : State), s.accepts manifestLoadCommand p = true →
    s.poisonedIn [⟨p.param 0 8, p.param 8 4⟩] = none →
    ∃ t, exec (.manifestLoad p) s = .next t ∧ t.owes s p Status.ok 0 = true ∧
      (p.param 12 1 = 1 → (∀ n, t.baseOf n = if n = p.param 13 1 then some (s.loadSourceBytes p) else s.baseOf n) ∧
        (∀ n, t.overlayOf n = s.overlayOf n)) ∧
      (p.param 12 1 = 2 → (∀ n, t.overlayOf n = if n = p.param 13 1 then some (s.loadSourceBytes p) else s.overlayOf n) ∧
        (∀ n, t.baseOf n = s.baseOf n)) ∧
      t.job.jobs = s.job.jobs ∧ t = { s.bookkept t with job := t.job }) ∧
  (∀ (p : Packet) (slot : Nat) (j : Job) (m o : List Byte) (s : State), s.accepts manifestStageCommand p = true →
    s.findJob p.job = some (slot, j) → s.baseOf (p.param 8 1) = some m → s.overlayOf (p.param 9 1) = some o →
    ∃ t, exec (.manifestStage p) s = .next t ∧ t.owes s p Status.ok 0 = true ∧
      t.jobAt slot = some { j with
        staged := some ⟨p.param 4 4, p.param 8 1, p.param 9 1, pairDigest m o, patched m o⟩ } ∧
      (∀ n, n ≠ slot → t.jobAt n = s.jobAt n) ∧ t = { s.bookkept t with job := t.job }) ∧
  (∀ (p : Packet) (slot : Nat) (j : Job) (s : State), s.accepts manifestQueryCommand p = true → s.findJob p.job = some (slot, j) →
    ∃ t, exec (.manifestQuery p) s = .next t ∧ t.owes s p Status.ok 0 = true ∧
      t.load (hostWindow + p.param 8 8) j.manifestRecord.length = j.manifestRecord ∧
      (j.digest.length = 64 → (∀ x, j.staged = some x → x.digest.length = 64) → j.manifestRecord.length = 256) ∧
      (∀ a n, apart a n (hostWindow + p.param 8 8) j.manifestRecord.length = true → t.load a n = s.load a n) ∧
      t.mem = s.mem ∧ t.regs = s.regs ∧ t.running = s.running ∧ t.job = s.job)) ∧
  ((∀ (p : Packet) (m o : List Byte) (s : State), s.accepts jobOpenCommand p = true → s.openPair p = some (m, o) →
    ∃ t, exec (.jobOpen p) s = .next t ∧ t.owes s p Status.ok 0 = true ∧ t.jobAt s.freeJobSlot = some (s.newJob p m o 0 0) ∧
      s.jobAt s.freeJobSlot = none ∧ (∀ n, n ≠ s.freeJobSlot → t.jobAt n = s.jobAt n) ∧
      Tab.look t.memory.regions (4096 + s.freeJobSlot) =
        some ⟨BitVec.ofNat 32 (p.param 0 4), p.param 16 8, p.param 24 8, s.openKey m o⟩ ∧
      t.mem = s.mem ∧ t.host = s.host ∧ t.running = s.running) ∧
  (∀ (p : Packet) (slot : Nat) (j : Job) (s : State), s.accepts jobAttachCommand p = true → s.findJob p.job = some (slot, j) →
    ∃ t, exec (.jobAttach p) s = .next t ∧ t.jobAt slot = some { j with attached := some p.ring } ∧
      0 < t.dues { s.recordOf p Status.ok 0 with ring := p.ring } ∧
      (∀ r, r ∈ t.held → r.job = j.id → r.ring = p.ring) ∧ (∀ n r, r ∈ (t.ring n).due → r.job = j.id → r.ring = p.ring) ∧
      t.mem = s.mem ∧ t.host = s.host ∧ t.running = s.running) ∧
  (∀ (p : Packet) (slot : Nat) (j : Job) (s : State), s.accepts stepRunCommand p = true → s.findJob p.job = some (slot, j) →
    j.state = .idle →
    ∃ t o, exec (.stepRun p) s = .next t ∧ t.running = s.running ++ [o] ∧ o.pkt = p ∧ o.kind = .stepRun slot ∧
      o.total = p.param 4 4 ∧ t.jobAt slot = some { j with
        runs := j.runs ++ [⟨p, p.param 0 4, p.param 4 4, p.param 8 8, 0, false⟩], state := .running, attempt := 0, heldFor := none,
        faults := [], votes := [], decision := none } ∧
      (∀ n, n ≠ slot → t.jobAt n = s.jobAt n) ∧ t = { s.bookkept t with running := t.running, job := t.job }) ∧
  (∀ (p : Packet) (slot : Nat) (j : Job) (s : State), s.accepts jobCloseCommand p = true → s.findJob p.job = some (slot, j) →
    j.state = .idle → j.runs = [] → j.attached = none → s.running = [] → s.job.jobs = [(slot, j)] →
    ∃ t, exec (.jobClose p) s = .next t ∧ t.owes s p Status.ok 0 = true ∧ t.job.jobs = [] ∧
      Tab.look t.memory.regions (4096 + slot) = none ∧ t.running = [] ∧
      ((s.memory.regions.all fun e => e.2.owner != j.id || e.2.key.isNone) = true → t.mem = s.mem ∧ t.host = s.host)))

/-- JOB_SNAPSHOT and JOB_RESTORE (R55, R56, R494): the snapshot's header stands at dest, with the data of every entry at
its offset, and no byte outside dest changes; a job restored opens IDLE after its snapshot's committed step with its
regions' bytes. -/
def Obligations.SnapshotsTakenRestored : Prop :=
  (∀ (p : Packet) (slot : Nat) (j : Job) (s : State), s.accepts jobSnapshotCommand p = true → s.findJob p.job = some (slot, j) →
    s.poisonedIn ((s.snapSources p).map fun u => u.range) = none → j.digest.length = 64 →
    (∀ k, s.sealKey j = some k → k.keyId.length = 16) →
    let l := s.snapEntries slot j
    let key := if j.confidential then s.sealKey j else none
    let place := snapLayout (up64 (256 + 64 * l.length)) (l.map (snapLength key.isSome))
    let total := if l.isEmpty then 256 else place.2
    let d := snapDest p
    (total ≤ d.len → ∃ t, exec (.jobSnapshot p) s = .next t ∧ t.owes s p Status.ok total = true ∧
      t.load d.lo 256 = snapHead j key.isSome l.length total ∧
      (∀ x, x ∈ place.1.zip (s.snapData key l) → t.load (d.lo + x.1) x.2.length = x.2) ∧
      (∀ a n, apart a n d.lo d.len = true → t.load a n = s.load a n) ∧ t.running = s.running ∧ t.job = s.job) ∧
    (d.len < total → ∃ t, exec (.jobSnapshot p) s = .next t ∧ t.owes s p Status.tableFull total = true ∧
      (∀ a n, apart a n d.lo d.len = true → t.load a n = s.load a n) ∧ t.running = s.running ∧ t.job = s.job)) ∧
  (∀ (p : Packet) (l : List (SnapFound × List Byte)) (s : State), s.accepts jobRestoreCommand p = true →
    s.poisonedIn ((List.range (restoreCount p)).map (s.snapAt p)) = none →
    s.allPlain ((s.openPair p).bind fun mo => (s.openKey mo.1 mo.2).bind fun k => Tab.look s.sec.keys k) (s.restoreFound p) = .ok l →
    ∃ t j, exec (.jobRestore p) s = .next t ∧ t.owes s p Status.ok 0 = true ∧ t.jobAt s.freeJobSlot = some j ∧
      j.id = BitVec.ofNat 32 (p.param 0 4) ∧ j.state = .idle ∧ j.next = (snapStep (s.snapBytes (s.snapAt p 0)) + 1) % 2 ^ 32 ∧
      (∀ n, n ≠ s.freeJobSlot → t.jobAt n = s.jobAt n) ∧
      (∀ e plain r, l = [(e, plain)] → e.kind = 1 → Tab.look s.memory.regions e.id = some r →
        t.load r.base plain.length = plain ∧ (∀ a n, apart a n r.base plain.length = true → t.load a n = s.load a n)) ∧
      t.running = s.running)

/-- PREPARE_PHASE_START and RUN_PHASE_START (R39, R303, R320): a step that may be prepared is prepared; the Run phase of
the next step starts its first attempt, and a step whose graph is not loaded fails with GRAPH_UNAVAILABLE; a step
that may not stays as it is. CHECK_PHASE_END of a job of one rank (R45 to R48): with no failure it decides COMMIT; a
cause that allows a replay starts the next attempt; attempt 7 was the last, and the job is HELD with TEST_FAIL.
COMMIT_APPLY_COMPLETE (R41, R57, R451): the step commits: the committed step advances, the strike clock advances by
one, and the step's report stands at its place in the STEP_RUN's buffer. -/
def Obligations.StepsRunAndCommit : Prop :=
  ((∀ (slot step : Nat) (j : Job) (s : State), s.jobAt slot = some j → j.mayPrepare step = true →
    ∃ t, exec (.preparePhaseStart slot step) s = .next t ∧ t.jobAt slot = some { j with prepared := j.prepared ++ [step] } ∧
      (∀ n, n ≠ slot → t.jobAt n = s.jobAt n) ∧ t.running = s.running ∧ t.rings = s.rings) ∧
  (∀ (slot step : Nat) (j : Job) (s : State), s.jobAt slot = some j → j.mayPrepare step = false →
    exec (.preparePhaseStart slot step) s = .next s) ∧
  (∀ (slot : Nat) (j : Job) (s : State), s.jobAt slot = some j → j.mayRun = true → s.relay.early = [] → s.relay.ops = [] →
    (∀ n k g, s.nextGraph j = some (n, some (k, g)) → s.budgetRoom g.image = true) →
    ∃ t k, exec (.runPhaseStart slot) s = .next t ∧ t.jobAt slot = some k ∧ k.phase = .run ∧
      k.attempt = Tab.get 0 j.floors j.next ∧ k.next = j.next ∧ k.votes = [] ∧
      (∀ n, s.nextGraph j = some (n, none) → ∃ v, v ∈ k.faults ∧ v.cause = Status.graphUnavailable ∧ v.detail = n) ∧
      t.running = s.running)) ∧
  (∀ (slot : Nat) (j : Job) (s : State), s.jobAt slot = some j → j.phase = .run → j.ranks = [0] → j.rankCount = 1 →
    j.votes = [] → j.verdicts = [] → j.muster = none → s.ingest.ended = [] → s.stepRunOf slot = none →
    s.relay.early = [] → s.relay.ops = [] →
    (j.faults = [] → ∃ t k, exec (.checkPhaseEnd slot) s = .next t ∧ t.jobAt slot = some k ∧ k.phase = .commit ∧
      k.decision = some (j.next, j.attempt, true) ∧ k.next = j.next ∧ t.mem = s.mem ∧ t.host = s.host) ∧
    (∀ v, j.faults = [v] → v.rank = 0 → v.pass = false → noReplay.contains v.cause = false → v.cause ≠ Status.rankExpelled →
      j.attempt < 7 → j.state = .running →
      ∃ t k, exec (.checkPhaseEnd slot) s = .next t ∧ t.jobAt slot = some k ∧ k.phase = .run ∧ k.attempt = j.attempt + 1 ∧
        k.next = j.next ∧ k.faults = [] ∧ k.replays = satAdd j.replays 1 ∧ t.mem = s.mem ∧ t.host = s.host) ∧
    (∀ v, j.faults = [v] → v.rank = 0 → v.pass = false → noReplay.contains v.cause = false → v.cause ≠ Status.rankExpelled →
      j.attempt = 7 → s.running = [] →
      ∃ t k, exec (.checkPhaseEnd slot) s = .next t ∧ t.jobAt slot = some k ∧ k.state = .held ∧ k.next = j.next ∧
        k.heldFor = some (Status.testFail, 0) ∧ t.mem = s.mem ∧ t.host = s.host)) ∧
  (∀ (slot : Nat) (j : Job) (r : StepRun) (l : List StepRun) (o : RunOp) (s : State), s.jobAt slot = some j → j.phase = .commit →
    j.muster = none → j.staged = none → j.acting = none → j.spoiled = none → j.journalLost = false → j.runs = r :: l →
    r.aborted = false → j.next + 1 < r.first + r.count → Tab.look j.reports j.next = none → s.stepRunOf slot = none →
    Tab.get [] s.emb.scatter slot = [] → s.emb.staged = [] → s.running = [o] → s.stepCommand r = some o →
    s.relay.early = [] → s.relay.ops = [] →
    ∃ t k, exec (.commitApplyComplete slot) s = .next t ∧ t.jobAt slot = some k ∧ k.next = j.next + 1 ∧ k.phase = .idle ∧
      k.attempt = 0 ∧ t.integrity.clock = s.integrity.clock + 1 ∧
      (let a := hostWindow + r.reports + 64 * (j.next - r.first)
       t.load a (s.stepReport j).length = s.stepReport j ∧
       ((∀ die e, e ∈ s.hotEntries die → e.state ≠ 1) → ∀ b n, apart b n a (s.stepReport j).length = true →
         t.load b n = s.load b n)))

/-- MUSTER_DIGEST_FORMED and MUSTER_COMPARE (R457, R458): a muster's digests are those of the committed state and of the
manifest pair; a leader that holds every digest of its group gives its verdict: PASS where all agree, the differing
rank where more than half agree. VOTE_TIMEOUT, DECISION_TIMEOUT and QUERY_TIMEOUT (R49, R599): once the timer has
run out a child elsewhere whose vote has not come is missing, and the votes are counted again; a rank without a
decision asks rank 0's module; one that is not to act as root gives up with PEER_UNREACHABLE after a second timeout
(the model's choice, log entry 58). -/
def Obligations.MustersAndTimers : Prop :=
  ((∀ (slot : Nat) (j : Job) (m : Muster) (s : State), s.jobAt slot = some j → j.muster = some m → m.formed = false → m.only = false →
    j.ranks = [0] → j.rankCount = 1 → manShards j.image = 1 → j.phase = .run → s.relay.early = [] → s.relay.ops = [] →
    let d := s.stateDigest j m.step ++ j.digestAt m.step
    ∃ t, exec (.musterDigestFormed slot) s = .next t ∧ t.jobAt slot = some { j with
      digests := (j.digests.filter fun x => x.1 != 0) ++ [(0, slice d 0 64, slice d 64 64)],
      muster := some { m with formed := true }, verdicts := j.verdicts ++ [passVote 0] } ∧ t.mem = s.mem ∧ t.host = s.host) ∧
  (∀ (slot rank : Nat) (j : Job) (m : Muster) (s : State), s.jobAt slot = some j → j.muster = some m → m.formed = true →
    j.ranks.contains rank = true → j.leads rank = true → j.phase = .run →
    (∀ r, r ∈ j.groupOf rank → (j.digests.any fun x => x.1 == r) = true) → (j.verdicts.any fun v => v.rank == rank) = false →
    s.relay.early = [] → s.relay.ops = [] →
    ∃ t, exec (.musterCompare slot rank) s = .next t ∧ t.jobAt slot = some { j with verdicts := j.verdicts ++
      [musterVerdict rank ((j.groupOf rank).filterMap fun r => j.digests.find? fun x => x.1 == r)] } ∧
      t.mem = s.mem ∧ t.host = s.host) ∧
  (∀ (leader : Nat) (d : List Byte × List Byte) (l : List (Nat × List Byte × List Byte)), l ≠ [] → (∀ x, x ∈ l → x.2 = d) →
    musterVerdict leader l = passVote leader) ∧
  (∀ (leader : Nat) (d : List Byte × List Byte) (y : Nat × List Byte × List Byte) (l : List (Nat × List Byte × List Byte)),
    l.length < 2 * (l.filter fun x => x.2 == d).length → (l.find? fun x => x.2 != d) = some y →
    musterVerdict leader l = ⟨leader, false, Status.rankExpelled, 0, some y.1, false⟩)) ∧
  ((∀ (slot : Nat) (j : Job) (b : Ballot) (s : State), s.jobAt slot = some j → s.timedOut j j.voteTimer = true → j.ballot = some b →
    exec (.voteTimeout slot) s = .next (((s.setJob slot { j with voteTimer := none }).tally slot).settleRelay)) ∧
  (∀ (slot : Nat) (j : Job) (s : State), s.jobAt slot = some j → s.timedOut j j.voteTimer = false →
    exec (.voteTimeout slot) s = .next s) ∧
  (∀ (j : Job) (b : Ballot) (r c : Nat), j.voteTimer = none → c ∈ treeChildren j.rankCount r →
    (j.votes.any fun v => v.rank == c) = false → (∀ k, k ∈ treeChildren j.rankCount r → j.ranks.contains k = false) →
    (j.leads r = true → j.muster = none) →
    ∃ l, j.votesFor b r = some l ∧ (⟨c, false, Status.rankExpelled, 0, some c, true⟩ : Vote) ∈ l) ∧
  (∀ (slot : Nat) (j : Job) (s : State), s.jobAt slot = some j → s.timedOut j j.decisionTimer = true → j.phase = .voted →
    j.ranks.contains 0 = false → s.relay.early = [] → s.relay.ops = [] →
    ∃ t, exec (.decisionTimeout slot) s = .next t ∧
      t.jobAt slot = some { j with decisionTimer := none, queryTimer := some s.clk } ∧
      (∃ o, o ∈ t.relay.ops ∧ o.2.peer = s.rankModule j 0 ∧ o.2.job = j.id) ∧ t.mem = s.mem ∧ t.host = s.host) ∧
  (∀ (slot : Nat) (j : Job) (a : ActingRoot) (s : State), s.jobAt slot = some j → s.timedOut j j.queryTimer = true → j.phase = .voted →
    j.acting = some a → j.state ≠ .rehosting → s.running = [] → s.relay.early = [] → s.relay.ops = [] →
    ∃ t k, exec (.queryTimeout slot) s = .next t ∧ t.jobAt slot = some k ∧ k.state = .held ∧
      k.heldFor = some (Status.peerUnreachable, 0) ∧ k.next = j.next ∧ t.mem = s.mem ∧ t.host = s.host))
end

