-- ==== Sys2Proof/Laws/State.lean ====
section
/-! SUPPORT. What each shared operation leaves of the state: for each operation one lemma with every field it may change,
and one simp lemma for each field it does not. -/

namespace Sys2Proof.Machine

/-! ## State.setReg -/

/-- Only regs may change. -/
theorem State.setReg_frame (s : State) (off : Nat) (v : Word) :
    s.setReg off v = { s with regs := (s.setReg off v).regs } := rfl
@[simp] theorem State.setReg_clk (s : State) (off : Nat) (v : Word) : (s.setReg off v).clk = s.clk := rfl
@[simp] theorem State.setReg_free (s : State) (off : Nat) (v : Word) : (s.setReg off v).free = s.free := rfl
@[simp] theorem State.setReg_mem (s : State) (off : Nat) (v : Word) : (s.setReg off v).mem = s.mem := rfl
@[simp] theorem State.setReg_host (s : State) (off : Nat) (v : Word) : (s.setReg off v).host = s.host := rfl
@[simp] theorem State.setReg_bar2 (s : State) (off : Nat) (v : Word) : (s.setReg off v).bar2 = s.bar2 := rfl
@[simp] theorem State.setReg_wide (s : State) (off : Nat) (v : Word) : (s.setReg off v).wide = s.wide := rfl
@[simp] theorem State.setReg_published (s : State) (off : Nat) (v : Word) : (s.setReg off v).published = s.published := rfl
@[simp] theorem State.setReg_rings (s : State) (off : Nat) (v : Word) : (s.setReg off v).rings = s.rings := rfl
@[simp] theorem State.setReg_held (s : State) (off : Nat) (v : Word) : (s.setReg off v).held = s.held := rfl
@[simp] theorem State.setReg_progress (s : State) (off : Nat) (v : Word) : (s.setReg off v).progress = s.progress := rfl
@[simp] theorem State.setReg_shown (s : State) (off : Nat) (v : Word) : (s.setReg off v).shown = s.shown := rfl
@[simp] theorem State.setReg_msix (s : State) (off : Nat) (v : Word) : (s.setReg off v).msix = s.msix := rfl
@[simp] theorem State.setReg_pba (s : State) (off : Nat) (v : Word) : (s.setReg off v).pba = s.pba := rfl
@[simp] theorem State.setReg_running (s : State) (off : Nat) (v : Word) : (s.setReg off v).running = s.running := rfl
@[simp] theorem State.setReg_starts (s : State) (off : Nat) (v : Word) : (s.setReg off v).starts = s.starts := rfl
@[simp] theorem State.setReg_job (s : State) (off : Nat) (v : Word) : (s.setReg off v).job = s.job := rfl
@[simp] theorem State.setReg_memory (s : State) (off : Nat) (v : Word) : (s.setReg off v).memory = s.memory := rfl
@[simp] theorem State.setReg_ingest (s : State) (off : Nat) (v : Word) : (s.setReg off v).ingest = s.ingest := rfl
@[simp] theorem State.setReg_samples (s : State) (off : Nat) (v : Word) : (s.setReg off v).samples = s.samples := rfl
@[simp] theorem State.setReg_emb (s : State) (off : Nat) (v : Word) : (s.setReg off v).emb = s.emb := rfl
@[simp] theorem State.setReg_dir (s : State) (off : Nat) (v : Word) : (s.setReg off v).dir = s.dir := rfl
@[simp] theorem State.setReg_graph (s : State) (off : Nat) (v : Word) : (s.setReg off v).graph = s.graph := rfl
@[simp] theorem State.setReg_relay (s : State) (off : Nat) (v : Word) : (s.setReg off v).relay = s.relay := rfl
@[simp] theorem State.setReg_integrity (s : State) (off : Nat) (v : Word) : (s.setReg off v).integrity = s.integrity := rfl
@[simp] theorem State.setReg_sec (s : State) (off : Nat) (v : Word) : (s.setReg off v).sec = s.sec := rfl
@[simp] theorem State.setReg_mgt (s : State) (off : Nat) (v : Word) : (s.setReg off v).mgt = s.mgt := rfl
@[simp] theorem State.setReg_meter (s : State) (off : Nat) (v : Word) : (s.setReg off v).meter = s.meter := rfl
@[simp] theorem State.setReg_mirror (s : State) (off : Nat) (v : Word) : (s.setReg off v).mirror = s.mirror := rfl
@[simp] theorem State.setReg_pwr (s : State) (off : Nat) (v : Word) : (s.setReg off v).pwr = s.pwr := rfl
@[simp] theorem State.setReg_glb (s : State) (off : Nat) (v : Word) : (s.setReg off v).glb = s.glb := rfl
@[simp] theorem State.setReg_irqs (s : State) (off : Nat) (v : Word) : (s.setReg off v).irqs = s.irqs := rfl
@[simp] theorem State.setReg_sent (s : State) (off : Nat) (v : Word) : (s.setReg off v).sent = s.sent := rfl
@[simp] theorem State.setReg_hostRead (s : State) (off : Nat) (v : Word) : (s.setReg off v).hostRead = s.hostRead := rfl
@[simp] theorem State.setReg_pending (s : State) (off : Nat) (v : Word) : (s.setReg off v).pending = s.pending := rfl

/-! ## State.bump -/

/-- Only regs may change. -/
theorem State.bump_frame (s : State) (off n : Nat) :
    s.bump off n = { s with regs := (s.bump off n).regs } := by
  unfold State.bump
  split <;> rfl
@[simp] theorem State.bump_clk (s : State) (off n : Nat) : (s.bump off n).clk = s.clk := by rw [State.bump_frame]
@[simp] theorem State.bump_free (s : State) (off n : Nat) : (s.bump off n).free = s.free := by rw [State.bump_frame]
@[simp] theorem State.bump_mem (s : State) (off n : Nat) : (s.bump off n).mem = s.mem := by rw [State.bump_frame]
@[simp] theorem State.bump_host (s : State) (off n : Nat) : (s.bump off n).host = s.host := by rw [State.bump_frame]
@[simp] theorem State.bump_bar2 (s : State) (off n : Nat) : (s.bump off n).bar2 = s.bar2 := by rw [State.bump_frame]
@[simp] theorem State.bump_wide (s : State) (off n : Nat) : (s.bump off n).wide = s.wide := by rw [State.bump_frame]
@[simp] theorem State.bump_published (s : State) (off n : Nat) : (s.bump off n).published = s.published := by rw [State.bump_frame]
@[simp] theorem State.bump_rings (s : State) (off n : Nat) : (s.bump off n).rings = s.rings := by rw [State.bump_frame]
@[simp] theorem State.bump_held (s : State) (off n : Nat) : (s.bump off n).held = s.held := by rw [State.bump_frame]
@[simp] theorem State.bump_progress (s : State) (off n : Nat) : (s.bump off n).progress = s.progress := by rw [State.bump_frame]
@[simp] theorem State.bump_shown (s : State) (off n : Nat) : (s.bump off n).shown = s.shown := by rw [State.bump_frame]
@[simp] theorem State.bump_msix (s : State) (off n : Nat) : (s.bump off n).msix = s.msix := by rw [State.bump_frame]
@[simp] theorem State.bump_pba (s : State) (off n : Nat) : (s.bump off n).pba = s.pba := by rw [State.bump_frame]
@[simp] theorem State.bump_running (s : State) (off n : Nat) : (s.bump off n).running = s.running := by rw [State.bump_frame]
@[simp] theorem State.bump_starts (s : State) (off n : Nat) : (s.bump off n).starts = s.starts := by rw [State.bump_frame]
@[simp] theorem State.bump_job (s : State) (off n : Nat) : (s.bump off n).job = s.job := by rw [State.bump_frame]
@[simp] theorem State.bump_memory (s : State) (off n : Nat) : (s.bump off n).memory = s.memory := by rw [State.bump_frame]
@[simp] theorem State.bump_ingest (s : State) (off n : Nat) : (s.bump off n).ingest = s.ingest := by rw [State.bump_frame]
@[simp] theorem State.bump_samples (s : State) (off n : Nat) : (s.bump off n).samples = s.samples := by rw [State.bump_frame]
@[simp] theorem State.bump_emb (s : State) (off n : Nat) : (s.bump off n).emb = s.emb := by rw [State.bump_frame]
@[simp] theorem State.bump_dir (s : State) (off n : Nat) : (s.bump off n).dir = s.dir := by rw [State.bump_frame]
@[simp] theorem State.bump_graph (s : State) (off n : Nat) : (s.bump off n).graph = s.graph := by rw [State.bump_frame]
@[simp] theorem State.bump_relay (s : State) (off n : Nat) : (s.bump off n).relay = s.relay := by rw [State.bump_frame]
@[simp] theorem State.bump_integrity (s : State) (off n : Nat) : (s.bump off n).integrity = s.integrity := by rw [State.bump_frame]
@[simp] theorem State.bump_sec (s : State) (off n : Nat) : (s.bump off n).sec = s.sec := by rw [State.bump_frame]
@[simp] theorem State.bump_mgt (s : State) (off n : Nat) : (s.bump off n).mgt = s.mgt := by rw [State.bump_frame]
@[simp] theorem State.bump_meter (s : State) (off n : Nat) : (s.bump off n).meter = s.meter := by rw [State.bump_frame]
@[simp] theorem State.bump_mirror (s : State) (off n : Nat) : (s.bump off n).mirror = s.mirror := by rw [State.bump_frame]
@[simp] theorem State.bump_pwr (s : State) (off n : Nat) : (s.bump off n).pwr = s.pwr := by rw [State.bump_frame]
@[simp] theorem State.bump_glb (s : State) (off n : Nat) : (s.bump off n).glb = s.glb := by rw [State.bump_frame]
@[simp] theorem State.bump_irqs (s : State) (off n : Nat) : (s.bump off n).irqs = s.irqs := by rw [State.bump_frame]
@[simp] theorem State.bump_sent (s : State) (off n : Nat) : (s.bump off n).sent = s.sent := by rw [State.bump_frame]
@[simp] theorem State.bump_hostRead (s : State) (off n : Nat) : (s.bump off n).hostRead = s.hostRead := by rw [State.bump_frame]
@[simp] theorem State.bump_pending (s : State) (off n : Nat) : (s.bump off n).pending = s.pending := by rw [State.bump_frame]

/-! ## State.bumpWide -/

/-- Only wide may change. -/
theorem State.bumpWide_frame (s : State) (off n : Nat) :
    s.bumpWide off n = { s with wide := (s.bumpWide off n).wide } := by
  unfold State.bumpWide
  split <;> rfl
@[simp] theorem State.bumpWide_clk (s : State) (off n : Nat) : (s.bumpWide off n).clk = s.clk := by rw [State.bumpWide_frame]
@[simp] theorem State.bumpWide_free (s : State) (off n : Nat) : (s.bumpWide off n).free = s.free := by rw [State.bumpWide_frame]
@[simp] theorem State.bumpWide_mem (s : State) (off n : Nat) : (s.bumpWide off n).mem = s.mem := by rw [State.bumpWide_frame]
@[simp] theorem State.bumpWide_host (s : State) (off n : Nat) : (s.bumpWide off n).host = s.host := by rw [State.bumpWide_frame]
@[simp] theorem State.bumpWide_bar2 (s : State) (off n : Nat) : (s.bumpWide off n).bar2 = s.bar2 := by rw [State.bumpWide_frame]
@[simp] theorem State.bumpWide_regs (s : State) (off n : Nat) : (s.bumpWide off n).regs = s.regs := by rw [State.bumpWide_frame]
@[simp] theorem State.bumpWide_published (s : State) (off n : Nat) : (s.bumpWide off n).published = s.published := by rw [State.bumpWide_frame]
@[simp] theorem State.bumpWide_rings (s : State) (off n : Nat) : (s.bumpWide off n).rings = s.rings := by rw [State.bumpWide_frame]
@[simp] theorem State.bumpWide_held (s : State) (off n : Nat) : (s.bumpWide off n).held = s.held := by rw [State.bumpWide_frame]
@[simp] theorem State.bumpWide_progress (s : State) (off n : Nat) : (s.bumpWide off n).progress = s.progress := by rw [State.bumpWide_frame]
@[simp] theorem State.bumpWide_shown (s : State) (off n : Nat) : (s.bumpWide off n).shown = s.shown := by rw [State.bumpWide_frame]
@[simp] theorem State.bumpWide_msix (s : State) (off n : Nat) : (s.bumpWide off n).msix = s.msix := by rw [State.bumpWide_frame]
@[simp] theorem State.bumpWide_pba (s : State) (off n : Nat) : (s.bumpWide off n).pba = s.pba := by rw [State.bumpWide_frame]
@[simp] theorem State.bumpWide_running (s : State) (off n : Nat) : (s.bumpWide off n).running = s.running := by rw [State.bumpWide_frame]
@[simp] theorem State.bumpWide_starts (s : State) (off n : Nat) : (s.bumpWide off n).starts = s.starts := by rw [State.bumpWide_frame]
@[simp] theorem State.bumpWide_job (s : State) (off n : Nat) : (s.bumpWide off n).job = s.job := by rw [State.bumpWide_frame]
@[simp] theorem State.bumpWide_memory (s : State) (off n : Nat) : (s.bumpWide off n).memory = s.memory := by rw [State.bumpWide_frame]
@[simp] theorem State.bumpWide_ingest (s : State) (off n : Nat) : (s.bumpWide off n).ingest = s.ingest := by rw [State.bumpWide_frame]
@[simp] theorem State.bumpWide_samples (s : State) (off n : Nat) : (s.bumpWide off n).samples = s.samples := by rw [State.bumpWide_frame]
@[simp] theorem State.bumpWide_emb (s : State) (off n : Nat) : (s.bumpWide off n).emb = s.emb := by rw [State.bumpWide_frame]
@[simp] theorem State.bumpWide_dir (s : State) (off n : Nat) : (s.bumpWide off n).dir = s.dir := by rw [State.bumpWide_frame]
@[simp] theorem State.bumpWide_graph (s : State) (off n : Nat) : (s.bumpWide off n).graph = s.graph := by rw [State.bumpWide_frame]
@[simp] theorem State.bumpWide_relay (s : State) (off n : Nat) : (s.bumpWide off n).relay = s.relay := by rw [State.bumpWide_frame]
@[simp] theorem State.bumpWide_integrity (s : State) (off n : Nat) : (s.bumpWide off n).integrity = s.integrity := by rw [State.bumpWide_frame]
@[simp] theorem State.bumpWide_sec (s : State) (off n : Nat) : (s.bumpWide off n).sec = s.sec := by rw [State.bumpWide_frame]
@[simp] theorem State.bumpWide_mgt (s : State) (off n : Nat) : (s.bumpWide off n).mgt = s.mgt := by rw [State.bumpWide_frame]
@[simp] theorem State.bumpWide_meter (s : State) (off n : Nat) : (s.bumpWide off n).meter = s.meter := by rw [State.bumpWide_frame]
@[simp] theorem State.bumpWide_mirror (s : State) (off n : Nat) : (s.bumpWide off n).mirror = s.mirror := by rw [State.bumpWide_frame]
@[simp] theorem State.bumpWide_pwr (s : State) (off n : Nat) : (s.bumpWide off n).pwr = s.pwr := by rw [State.bumpWide_frame]
@[simp] theorem State.bumpWide_glb (s : State) (off n : Nat) : (s.bumpWide off n).glb = s.glb := by rw [State.bumpWide_frame]
@[simp] theorem State.bumpWide_irqs (s : State) (off n : Nat) : (s.bumpWide off n).irqs = s.irqs := by rw [State.bumpWide_frame]
@[simp] theorem State.bumpWide_sent (s : State) (off n : Nat) : (s.bumpWide off n).sent = s.sent := by rw [State.bumpWide_frame]
@[simp] theorem State.bumpWide_hostRead (s : State) (off n : Nat) : (s.bumpWide off n).hostRead = s.hostRead := by rw [State.bumpWide_frame]
@[simp] theorem State.bumpWide_pending (s : State) (off n : Nat) : (s.bumpWide off n).pending = s.pending := by rw [State.bumpWide_frame]

/-! ## State.raise -/

/-- Only pba, irqs may change. -/
theorem State.raise_frame (s : State) (v : Nat) :
    s.raise v = { s with pba := (s.raise v).pba, irqs := (s.raise v).irqs } := by
  unfold State.raise
  split <;> rfl
@[simp] theorem State.raise_clk (s : State) (v : Nat) : (s.raise v).clk = s.clk := by rw [State.raise_frame]
@[simp] theorem State.raise_free (s : State) (v : Nat) : (s.raise v).free = s.free := by rw [State.raise_frame]
@[simp] theorem State.raise_mem (s : State) (v : Nat) : (s.raise v).mem = s.mem := by rw [State.raise_frame]
@[simp] theorem State.raise_host (s : State) (v : Nat) : (s.raise v).host = s.host := by rw [State.raise_frame]
@[simp] theorem State.raise_bar2 (s : State) (v : Nat) : (s.raise v).bar2 = s.bar2 := by rw [State.raise_frame]
@[simp] theorem State.raise_regs (s : State) (v : Nat) : (s.raise v).regs = s.regs := by rw [State.raise_frame]
@[simp] theorem State.raise_wide (s : State) (v : Nat) : (s.raise v).wide = s.wide := by rw [State.raise_frame]
@[simp] theorem State.raise_published (s : State) (v : Nat) : (s.raise v).published = s.published := by rw [State.raise_frame]
@[simp] theorem State.raise_rings (s : State) (v : Nat) : (s.raise v).rings = s.rings := by rw [State.raise_frame]
@[simp] theorem State.raise_held (s : State) (v : Nat) : (s.raise v).held = s.held := by rw [State.raise_frame]
@[simp] theorem State.raise_progress (s : State) (v : Nat) : (s.raise v).progress = s.progress := by rw [State.raise_frame]
@[simp] theorem State.raise_shown (s : State) (v : Nat) : (s.raise v).shown = s.shown := by rw [State.raise_frame]
@[simp] theorem State.raise_msix (s : State) (v : Nat) : (s.raise v).msix = s.msix := by rw [State.raise_frame]
@[simp] theorem State.raise_running (s : State) (v : Nat) : (s.raise v).running = s.running := by rw [State.raise_frame]
@[simp] theorem State.raise_starts (s : State) (v : Nat) : (s.raise v).starts = s.starts := by rw [State.raise_frame]
@[simp] theorem State.raise_job (s : State) (v : Nat) : (s.raise v).job = s.job := by rw [State.raise_frame]
@[simp] theorem State.raise_memory (s : State) (v : Nat) : (s.raise v).memory = s.memory := by rw [State.raise_frame]
@[simp] theorem State.raise_ingest (s : State) (v : Nat) : (s.raise v).ingest = s.ingest := by rw [State.raise_frame]
@[simp] theorem State.raise_samples (s : State) (v : Nat) : (s.raise v).samples = s.samples := by rw [State.raise_frame]
@[simp] theorem State.raise_emb (s : State) (v : Nat) : (s.raise v).emb = s.emb := by rw [State.raise_frame]
@[simp] theorem State.raise_dir (s : State) (v : Nat) : (s.raise v).dir = s.dir := by rw [State.raise_frame]
@[simp] theorem State.raise_graph (s : State) (v : Nat) : (s.raise v).graph = s.graph := by rw [State.raise_frame]
@[simp] theorem State.raise_relay (s : State) (v : Nat) : (s.raise v).relay = s.relay := by rw [State.raise_frame]
@[simp] theorem State.raise_integrity (s : State) (v : Nat) : (s.raise v).integrity = s.integrity := by rw [State.raise_frame]
@[simp] theorem State.raise_sec (s : State) (v : Nat) : (s.raise v).sec = s.sec := by rw [State.raise_frame]
@[simp] theorem State.raise_mgt (s : State) (v : Nat) : (s.raise v).mgt = s.mgt := by rw [State.raise_frame]
@[simp] theorem State.raise_meter (s : State) (v : Nat) : (s.raise v).meter = s.meter := by rw [State.raise_frame]
@[simp] theorem State.raise_mirror (s : State) (v : Nat) : (s.raise v).mirror = s.mirror := by rw [State.raise_frame]
@[simp] theorem State.raise_pwr (s : State) (v : Nat) : (s.raise v).pwr = s.pwr := by rw [State.raise_frame]
@[simp] theorem State.raise_glb (s : State) (v : Nat) : (s.raise v).glb = s.glb := by rw [State.raise_frame]
@[simp] theorem State.raise_sent (s : State) (v : Nat) : (s.raise v).sent = s.sent := by rw [State.raise_frame]
@[simp] theorem State.raise_hostRead (s : State) (v : Nat) : (s.raise v).hostRead = s.hostRead := by rw [State.raise_frame]
@[simp] theorem State.raise_pending (s : State) (v : Nat) : (s.raise v).pending = s.pending := by rw [State.raise_frame]

/-! ## State.setRing -/

/-- Only rings may change. -/
theorem State.setRing_frame (s : State) (n : Nat) (r : Ring) :
    s.setRing n r = { s with rings := (s.setRing n r).rings } := rfl
@[simp] theorem State.setRing_clk (s : State) (n : Nat) (r : Ring) : (s.setRing n r).clk = s.clk := rfl
@[simp] theorem State.setRing_free (s : State) (n : Nat) (r : Ring) : (s.setRing n r).free = s.free := rfl
@[simp] theorem State.setRing_mem (s : State) (n : Nat) (r : Ring) : (s.setRing n r).mem = s.mem := rfl
@[simp] theorem State.setRing_host (s : State) (n : Nat) (r : Ring) : (s.setRing n r).host = s.host := rfl
@[simp] theorem State.setRing_bar2 (s : State) (n : Nat) (r : Ring) : (s.setRing n r).bar2 = s.bar2 := rfl
@[simp] theorem State.setRing_regs (s : State) (n : Nat) (r : Ring) : (s.setRing n r).regs = s.regs := rfl
@[simp] theorem State.setRing_wide (s : State) (n : Nat) (r : Ring) : (s.setRing n r).wide = s.wide := rfl
@[simp] theorem State.setRing_published (s : State) (n : Nat) (r : Ring) : (s.setRing n r).published = s.published := rfl
@[simp] theorem State.setRing_held (s : State) (n : Nat) (r : Ring) : (s.setRing n r).held = s.held := rfl
@[simp] theorem State.setRing_progress (s : State) (n : Nat) (r : Ring) : (s.setRing n r).progress = s.progress := rfl
@[simp] theorem State.setRing_shown (s : State) (n : Nat) (r : Ring) : (s.setRing n r).shown = s.shown := rfl
@[simp] theorem State.setRing_msix (s : State) (n : Nat) (r : Ring) : (s.setRing n r).msix = s.msix := rfl
@[simp] theorem State.setRing_pba (s : State) (n : Nat) (r : Ring) : (s.setRing n r).pba = s.pba := rfl
@[simp] theorem State.setRing_running (s : State) (n : Nat) (r : Ring) : (s.setRing n r).running = s.running := rfl
@[simp] theorem State.setRing_starts (s : State) (n : Nat) (r : Ring) : (s.setRing n r).starts = s.starts := rfl
@[simp] theorem State.setRing_job (s : State) (n : Nat) (r : Ring) : (s.setRing n r).job = s.job := rfl
@[simp] theorem State.setRing_memory (s : State) (n : Nat) (r : Ring) : (s.setRing n r).memory = s.memory := rfl
@[simp] theorem State.setRing_ingest (s : State) (n : Nat) (r : Ring) : (s.setRing n r).ingest = s.ingest := rfl
@[simp] theorem State.setRing_samples (s : State) (n : Nat) (r : Ring) : (s.setRing n r).samples = s.samples := rfl
@[simp] theorem State.setRing_emb (s : State) (n : Nat) (r : Ring) : (s.setRing n r).emb = s.emb := rfl
@[simp] theorem State.setRing_dir (s : State) (n : Nat) (r : Ring) : (s.setRing n r).dir = s.dir := rfl
@[simp] theorem State.setRing_graph (s : State) (n : Nat) (r : Ring) : (s.setRing n r).graph = s.graph := rfl
@[simp] theorem State.setRing_relay (s : State) (n : Nat) (r : Ring) : (s.setRing n r).relay = s.relay := rfl
@[simp] theorem State.setRing_integrity (s : State) (n : Nat) (r : Ring) : (s.setRing n r).integrity = s.integrity := rfl
@[simp] theorem State.setRing_sec (s : State) (n : Nat) (r : Ring) : (s.setRing n r).sec = s.sec := rfl
@[simp] theorem State.setRing_mgt (s : State) (n : Nat) (r : Ring) : (s.setRing n r).mgt = s.mgt := rfl
@[simp] theorem State.setRing_meter (s : State) (n : Nat) (r : Ring) : (s.setRing n r).meter = s.meter := rfl
@[simp] theorem State.setRing_mirror (s : State) (n : Nat) (r : Ring) : (s.setRing n r).mirror = s.mirror := rfl
@[simp] theorem State.setRing_pwr (s : State) (n : Nat) (r : Ring) : (s.setRing n r).pwr = s.pwr := rfl
@[simp] theorem State.setRing_glb (s : State) (n : Nat) (r : Ring) : (s.setRing n r).glb = s.glb := rfl
@[simp] theorem State.setRing_irqs (s : State) (n : Nat) (r : Ring) : (s.setRing n r).irqs = s.irqs := rfl
@[simp] theorem State.setRing_sent (s : State) (n : Nat) (r : Ring) : (s.setRing n r).sent = s.sent := rfl
@[simp] theorem State.setRing_hostRead (s : State) (n : Nat) (r : Ring) : (s.setRing n r).hostRead = s.hostRead := rfl
@[simp] theorem State.setRing_pending (s : State) (n : Nat) (r : Ring) : (s.setRing n r).pending = s.pending := rfl

/-! ## State.moderate -/

/-- Only rings, pba, irqs may change. -/
theorem State.moderate_frame (s : State) (n : Nat) (now : Bool) :
    s.moderate n now = { s with rings := (s.moderate n now).rings, pba := (s.moderate n now).pba, irqs := (s.moderate n now).irqs } := by
  unfold State.moderate
  extract_lets r due old
  split
  · rw [State.raise_frame]
    rfl
  · rfl
@[simp] theorem State.moderate_clk (s : State) (n : Nat) (now : Bool) : (s.moderate n now).clk = s.clk := by rw [State.moderate_frame]
@[simp] theorem State.moderate_free (s : State) (n : Nat) (now : Bool) : (s.moderate n now).free = s.free := by rw [State.moderate_frame]
@[simp] theorem State.moderate_mem (s : State) (n : Nat) (now : Bool) : (s.moderate n now).mem = s.mem := by rw [State.moderate_frame]
@[simp] theorem State.moderate_host (s : State) (n : Nat) (now : Bool) : (s.moderate n now).host = s.host := by rw [State.moderate_frame]
@[simp] theorem State.moderate_bar2 (s : State) (n : Nat) (now : Bool) : (s.moderate n now).bar2 = s.bar2 := by rw [State.moderate_frame]
@[simp] theorem State.moderate_regs (s : State) (n : Nat) (now : Bool) : (s.moderate n now).regs = s.regs := by rw [State.moderate_frame]
@[simp] theorem State.moderate_wide (s : State) (n : Nat) (now : Bool) : (s.moderate n now).wide = s.wide := by rw [State.moderate_frame]
@[simp] theorem State.moderate_published (s : State) (n : Nat) (now : Bool) : (s.moderate n now).published = s.published := by rw [State.moderate_frame]
@[simp] theorem State.moderate_held (s : State) (n : Nat) (now : Bool) : (s.moderate n now).held = s.held := by rw [State.moderate_frame]
@[simp] theorem State.moderate_progress (s : State) (n : Nat) (now : Bool) : (s.moderate n now).progress = s.progress := by rw [State.moderate_frame]
@[simp] theorem State.moderate_shown (s : State) (n : Nat) (now : Bool) : (s.moderate n now).shown = s.shown := by rw [State.moderate_frame]
@[simp] theorem State.moderate_msix (s : State) (n : Nat) (now : Bool) : (s.moderate n now).msix = s.msix := by rw [State.moderate_frame]
@[simp] theorem State.moderate_running (s : State) (n : Nat) (now : Bool) : (s.moderate n now).running = s.running := by rw [State.moderate_frame]
@[simp] theorem State.moderate_starts (s : State) (n : Nat) (now : Bool) : (s.moderate n now).starts = s.starts := by rw [State.moderate_frame]
@[simp] theorem State.moderate_job (s : State) (n : Nat) (now : Bool) : (s.moderate n now).job = s.job := by rw [State.moderate_frame]
@[simp] theorem State.moderate_memory (s : State) (n : Nat) (now : Bool) : (s.moderate n now).memory = s.memory := by rw [State.moderate_frame]
@[simp] theorem State.moderate_ingest (s : State) (n : Nat) (now : Bool) : (s.moderate n now).ingest = s.ingest := by rw [State.moderate_frame]
@[simp] theorem State.moderate_samples (s : State) (n : Nat) (now : Bool) : (s.moderate n now).samples = s.samples := by rw [State.moderate_frame]
@[simp] theorem State.moderate_emb (s : State) (n : Nat) (now : Bool) : (s.moderate n now).emb = s.emb := by rw [State.moderate_frame]
@[simp] theorem State.moderate_dir (s : State) (n : Nat) (now : Bool) : (s.moderate n now).dir = s.dir := by rw [State.moderate_frame]
@[simp] theorem State.moderate_graph (s : State) (n : Nat) (now : Bool) : (s.moderate n now).graph = s.graph := by rw [State.moderate_frame]
@[simp] theorem State.moderate_relay (s : State) (n : Nat) (now : Bool) : (s.moderate n now).relay = s.relay := by rw [State.moderate_frame]
@[simp] theorem State.moderate_integrity (s : State) (n : Nat) (now : Bool) : (s.moderate n now).integrity = s.integrity := by rw [State.moderate_frame]
@[simp] theorem State.moderate_sec (s : State) (n : Nat) (now : Bool) : (s.moderate n now).sec = s.sec := by rw [State.moderate_frame]
@[simp] theorem State.moderate_mgt (s : State) (n : Nat) (now : Bool) : (s.moderate n now).mgt = s.mgt := by rw [State.moderate_frame]
@[simp] theorem State.moderate_meter (s : State) (n : Nat) (now : Bool) : (s.moderate n now).meter = s.meter := by rw [State.moderate_frame]
@[simp] theorem State.moderate_mirror (s : State) (n : Nat) (now : Bool) : (s.moderate n now).mirror = s.mirror := by rw [State.moderate_frame]
@[simp] theorem State.moderate_pwr (s : State) (n : Nat) (now : Bool) : (s.moderate n now).pwr = s.pwr := by rw [State.moderate_frame]
@[simp] theorem State.moderate_glb (s : State) (n : Nat) (now : Bool) : (s.moderate n now).glb = s.glb := by rw [State.moderate_frame]
@[simp] theorem State.moderate_sent (s : State) (n : Nat) (now : Bool) : (s.moderate n now).sent = s.sent := by rw [State.moderate_frame]
@[simp] theorem State.moderate_hostRead (s : State) (n : Nat) (now : Bool) : (s.moderate n now).hostRead = s.hostRead := by rw [State.moderate_frame]
@[simp] theorem State.moderate_pending (s : State) (n : Nat) (now : Bool) : (s.moderate n now).pending = s.pending := by rw [State.moderate_frame]

/-! ## State.setEntry -/

/-- Only progress, shown may change. -/
theorem State.setEntry_frame (s : State) (n : Nat) (e : Progress) :
    s.setEntry n e = { s with progress := (s.setEntry n e).progress, shown := (s.setEntry n e).shown } := rfl
@[simp] theorem State.setEntry_clk (s : State) (n : Nat) (e : Progress) : (s.setEntry n e).clk = s.clk := rfl
@[simp] theorem State.setEntry_free (s : State) (n : Nat) (e : Progress) : (s.setEntry n e).free = s.free := rfl
@[simp] theorem State.setEntry_mem (s : State) (n : Nat) (e : Progress) : (s.setEntry n e).mem = s.mem := rfl
@[simp] theorem State.setEntry_host (s : State) (n : Nat) (e : Progress) : (s.setEntry n e).host = s.host := rfl
@[simp] theorem State.setEntry_bar2 (s : State) (n : Nat) (e : Progress) : (s.setEntry n e).bar2 = s.bar2 := rfl
@[simp] theorem State.setEntry_regs (s : State) (n : Nat) (e : Progress) : (s.setEntry n e).regs = s.regs := rfl
@[simp] theorem State.setEntry_wide (s : State) (n : Nat) (e : Progress) : (s.setEntry n e).wide = s.wide := rfl
@[simp] theorem State.setEntry_published (s : State) (n : Nat) (e : Progress) : (s.setEntry n e).published = s.published := rfl
@[simp] theorem State.setEntry_rings (s : State) (n : Nat) (e : Progress) : (s.setEntry n e).rings = s.rings := rfl
@[simp] theorem State.setEntry_held (s : State) (n : Nat) (e : Progress) : (s.setEntry n e).held = s.held := rfl
@[simp] theorem State.setEntry_msix (s : State) (n : Nat) (e : Progress) : (s.setEntry n e).msix = s.msix := rfl
@[simp] theorem State.setEntry_pba (s : State) (n : Nat) (e : Progress) : (s.setEntry n e).pba = s.pba := rfl
@[simp] theorem State.setEntry_running (s : State) (n : Nat) (e : Progress) : (s.setEntry n e).running = s.running := rfl
@[simp] theorem State.setEntry_starts (s : State) (n : Nat) (e : Progress) : (s.setEntry n e).starts = s.starts := rfl
@[simp] theorem State.setEntry_job (s : State) (n : Nat) (e : Progress) : (s.setEntry n e).job = s.job := rfl
@[simp] theorem State.setEntry_memory (s : State) (n : Nat) (e : Progress) : (s.setEntry n e).memory = s.memory := rfl
@[simp] theorem State.setEntry_ingest (s : State) (n : Nat) (e : Progress) : (s.setEntry n e).ingest = s.ingest := rfl
@[simp] theorem State.setEntry_samples (s : State) (n : Nat) (e : Progress) : (s.setEntry n e).samples = s.samples := rfl
@[simp] theorem State.setEntry_emb (s : State) (n : Nat) (e : Progress) : (s.setEntry n e).emb = s.emb := rfl
@[simp] theorem State.setEntry_dir (s : State) (n : Nat) (e : Progress) : (s.setEntry n e).dir = s.dir := rfl
@[simp] theorem State.setEntry_graph (s : State) (n : Nat) (e : Progress) : (s.setEntry n e).graph = s.graph := rfl
@[simp] theorem State.setEntry_relay (s : State) (n : Nat) (e : Progress) : (s.setEntry n e).relay = s.relay := rfl
@[simp] theorem State.setEntry_integrity (s : State) (n : Nat) (e : Progress) : (s.setEntry n e).integrity = s.integrity := rfl
@[simp] theorem State.setEntry_sec (s : State) (n : Nat) (e : Progress) : (s.setEntry n e).sec = s.sec := rfl
@[simp] theorem State.setEntry_mgt (s : State) (n : Nat) (e : Progress) : (s.setEntry n e).mgt = s.mgt := rfl
@[simp] theorem State.setEntry_meter (s : State) (n : Nat) (e : Progress) : (s.setEntry n e).meter = s.meter := rfl
@[simp] theorem State.setEntry_mirror (s : State) (n : Nat) (e : Progress) : (s.setEntry n e).mirror = s.mirror := rfl
@[simp] theorem State.setEntry_pwr (s : State) (n : Nat) (e : Progress) : (s.setEntry n e).pwr = s.pwr := rfl
@[simp] theorem State.setEntry_glb (s : State) (n : Nat) (e : Progress) : (s.setEntry n e).glb = s.glb := rfl
@[simp] theorem State.setEntry_irqs (s : State) (n : Nat) (e : Progress) : (s.setEntry n e).irqs = s.irqs := rfl
@[simp] theorem State.setEntry_sent (s : State) (n : Nat) (e : Progress) : (s.setEntry n e).sent = s.sent := rfl
@[simp] theorem State.setEntry_hostRead (s : State) (n : Nat) (e : Progress) : (s.setEntry n e).hostRead = s.hostRead := rfl
@[simp] theorem State.setEntry_pending (s : State) (n : Nat) (e : Progress) : (s.setEntry n e).pending = s.pending := rfl

/-! ## State.claim -/

/-- Only progress, shown may change. -/
theorem State.claim_frame (s : State) (p : Packet) (unit total : Nat) :
    s.claim p unit total = { s with progress := (s.claim p unit total).progress, shown := (s.claim p unit total).shown } := by
  unfold State.claim
  split <;> rfl
@[simp] theorem State.claim_clk (s : State) (p : Packet) (unit total : Nat) : (s.claim p unit total).clk = s.clk := by rw [State.claim_frame]
@[simp] theorem State.claim_free (s : State) (p : Packet) (unit total : Nat) : (s.claim p unit total).free = s.free := by rw [State.claim_frame]
@[simp] theorem State.claim_mem (s : State) (p : Packet) (unit total : Nat) : (s.claim p unit total).mem = s.mem := by rw [State.claim_frame]
@[simp] theorem State.claim_host (s : State) (p : Packet) (unit total : Nat) : (s.claim p unit total).host = s.host := by rw [State.claim_frame]
@[simp] theorem State.claim_bar2 (s : State) (p : Packet) (unit total : Nat) : (s.claim p unit total).bar2 = s.bar2 := by rw [State.claim_frame]
@[simp] theorem State.claim_regs (s : State) (p : Packet) (unit total : Nat) : (s.claim p unit total).regs = s.regs := by rw [State.claim_frame]
@[simp] theorem State.claim_wide (s : State) (p : Packet) (unit total : Nat) : (s.claim p unit total).wide = s.wide := by rw [State.claim_frame]
@[simp] theorem State.claim_published (s : State) (p : Packet) (unit total : Nat) : (s.claim p unit total).published = s.published := by rw [State.claim_frame]
@[simp] theorem State.claim_rings (s : State) (p : Packet) (unit total : Nat) : (s.claim p unit total).rings = s.rings := by rw [State.claim_frame]
@[simp] theorem State.claim_held (s : State) (p : Packet) (unit total : Nat) : (s.claim p unit total).held = s.held := by rw [State.claim_frame]
@[simp] theorem State.claim_msix (s : State) (p : Packet) (unit total : Nat) : (s.claim p unit total).msix = s.msix := by rw [State.claim_frame]
@[simp] theorem State.claim_pba (s : State) (p : Packet) (unit total : Nat) : (s.claim p unit total).pba = s.pba := by rw [State.claim_frame]
@[simp] theorem State.claim_running (s : State) (p : Packet) (unit total : Nat) : (s.claim p unit total).running = s.running := by rw [State.claim_frame]
@[simp] theorem State.claim_starts (s : State) (p : Packet) (unit total : Nat) : (s.claim p unit total).starts = s.starts := by rw [State.claim_frame]
@[simp] theorem State.claim_job (s : State) (p : Packet) (unit total : Nat) : (s.claim p unit total).job = s.job := by rw [State.claim_frame]
@[simp] theorem State.claim_memory (s : State) (p : Packet) (unit total : Nat) : (s.claim p unit total).memory = s.memory := by rw [State.claim_frame]
@[simp] theorem State.claim_ingest (s : State) (p : Packet) (unit total : Nat) : (s.claim p unit total).ingest = s.ingest := by rw [State.claim_frame]
@[simp] theorem State.claim_samples (s : State) (p : Packet) (unit total : Nat) : (s.claim p unit total).samples = s.samples := by rw [State.claim_frame]
@[simp] theorem State.claim_emb (s : State) (p : Packet) (unit total : Nat) : (s.claim p unit total).emb = s.emb := by rw [State.claim_frame]
@[simp] theorem State.claim_dir (s : State) (p : Packet) (unit total : Nat) : (s.claim p unit total).dir = s.dir := by rw [State.claim_frame]
@[simp] theorem State.claim_graph (s : State) (p : Packet) (unit total : Nat) : (s.claim p unit total).graph = s.graph := by rw [State.claim_frame]
@[simp] theorem State.claim_relay (s : State) (p : Packet) (unit total : Nat) : (s.claim p unit total).relay = s.relay := by rw [State.claim_frame]
@[simp] theorem State.claim_integrity (s : State) (p : Packet) (unit total : Nat) : (s.claim p unit total).integrity = s.integrity := by rw [State.claim_frame]
@[simp] theorem State.claim_sec (s : State) (p : Packet) (unit total : Nat) : (s.claim p unit total).sec = s.sec := by rw [State.claim_frame]
@[simp] theorem State.claim_mgt (s : State) (p : Packet) (unit total : Nat) : (s.claim p unit total).mgt = s.mgt := by rw [State.claim_frame]
@[simp] theorem State.claim_meter (s : State) (p : Packet) (unit total : Nat) : (s.claim p unit total).meter = s.meter := by rw [State.claim_frame]
@[simp] theorem State.claim_mirror (s : State) (p : Packet) (unit total : Nat) : (s.claim p unit total).mirror = s.mirror := by rw [State.claim_frame]
@[simp] theorem State.claim_pwr (s : State) (p : Packet) (unit total : Nat) : (s.claim p unit total).pwr = s.pwr := by rw [State.claim_frame]
@[simp] theorem State.claim_glb (s : State) (p : Packet) (unit total : Nat) : (s.claim p unit total).glb = s.glb := by rw [State.claim_frame]
@[simp] theorem State.claim_irqs (s : State) (p : Packet) (unit total : Nat) : (s.claim p unit total).irqs = s.irqs := by rw [State.claim_frame]
@[simp] theorem State.claim_sent (s : State) (p : Packet) (unit total : Nat) : (s.claim p unit total).sent = s.sent := by rw [State.claim_frame]
@[simp] theorem State.claim_hostRead (s : State) (p : Packet) (unit total : Nat) : (s.claim p unit total).hostRead = s.hostRead := by rw [State.claim_frame]
@[simp] theorem State.claim_pending (s : State) (p : Packet) (unit total : Nat) : (s.claim p unit total).pending = s.pending := by rw [State.claim_frame]

/-! ## State.advance -/

/-- Only progress, shown may change. -/
theorem State.advance_frame (s : State) (p : Packet) (position total : Nat) :
    s.advance p position total = { s with progress := (s.advance p position total).progress, shown := (s.advance p position total).shown } := by
  unfold State.advance
  split <;> rfl
@[simp] theorem State.advance_clk (s : State) (p : Packet) (position total : Nat) : (s.advance p position total).clk = s.clk := by rw [State.advance_frame]
@[simp] theorem State.advance_free (s : State) (p : Packet) (position total : Nat) : (s.advance p position total).free = s.free := by rw [State.advance_frame]
@[simp] theorem State.advance_mem (s : State) (p : Packet) (position total : Nat) : (s.advance p position total).mem = s.mem := by rw [State.advance_frame]
@[simp] theorem State.advance_host (s : State) (p : Packet) (position total : Nat) : (s.advance p position total).host = s.host := by rw [State.advance_frame]
@[simp] theorem State.advance_bar2 (s : State) (p : Packet) (position total : Nat) : (s.advance p position total).bar2 = s.bar2 := by rw [State.advance_frame]
@[simp] theorem State.advance_regs (s : State) (p : Packet) (position total : Nat) : (s.advance p position total).regs = s.regs := by rw [State.advance_frame]
@[simp] theorem State.advance_wide (s : State) (p : Packet) (position total : Nat) : (s.advance p position total).wide = s.wide := by rw [State.advance_frame]
@[simp] theorem State.advance_published (s : State) (p : Packet) (position total : Nat) : (s.advance p position total).published = s.published := by rw [State.advance_frame]
@[simp] theorem State.advance_rings (s : State) (p : Packet) (position total : Nat) : (s.advance p position total).rings = s.rings := by rw [State.advance_frame]
@[simp] theorem State.advance_held (s : State) (p : Packet) (position total : Nat) : (s.advance p position total).held = s.held := by rw [State.advance_frame]
@[simp] theorem State.advance_msix (s : State) (p : Packet) (position total : Nat) : (s.advance p position total).msix = s.msix := by rw [State.advance_frame]
@[simp] theorem State.advance_pba (s : State) (p : Packet) (position total : Nat) : (s.advance p position total).pba = s.pba := by rw [State.advance_frame]
@[simp] theorem State.advance_running (s : State) (p : Packet) (position total : Nat) : (s.advance p position total).running = s.running := by rw [State.advance_frame]
@[simp] theorem State.advance_starts (s : State) (p : Packet) (position total : Nat) : (s.advance p position total).starts = s.starts := by rw [State.advance_frame]
@[simp] theorem State.advance_job (s : State) (p : Packet) (position total : Nat) : (s.advance p position total).job = s.job := by rw [State.advance_frame]
@[simp] theorem State.advance_memory (s : State) (p : Packet) (position total : Nat) : (s.advance p position total).memory = s.memory := by rw [State.advance_frame]
@[simp] theorem State.advance_ingest (s : State) (p : Packet) (position total : Nat) : (s.advance p position total).ingest = s.ingest := by rw [State.advance_frame]
@[simp] theorem State.advance_samples (s : State) (p : Packet) (position total : Nat) : (s.advance p position total).samples = s.samples := by rw [State.advance_frame]
@[simp] theorem State.advance_emb (s : State) (p : Packet) (position total : Nat) : (s.advance p position total).emb = s.emb := by rw [State.advance_frame]
@[simp] theorem State.advance_dir (s : State) (p : Packet) (position total : Nat) : (s.advance p position total).dir = s.dir := by rw [State.advance_frame]
@[simp] theorem State.advance_graph (s : State) (p : Packet) (position total : Nat) : (s.advance p position total).graph = s.graph := by rw [State.advance_frame]
@[simp] theorem State.advance_relay (s : State) (p : Packet) (position total : Nat) : (s.advance p position total).relay = s.relay := by rw [State.advance_frame]
@[simp] theorem State.advance_integrity (s : State) (p : Packet) (position total : Nat) : (s.advance p position total).integrity = s.integrity := by rw [State.advance_frame]
@[simp] theorem State.advance_sec (s : State) (p : Packet) (position total : Nat) : (s.advance p position total).sec = s.sec := by rw [State.advance_frame]
@[simp] theorem State.advance_mgt (s : State) (p : Packet) (position total : Nat) : (s.advance p position total).mgt = s.mgt := by rw [State.advance_frame]
@[simp] theorem State.advance_meter (s : State) (p : Packet) (position total : Nat) : (s.advance p position total).meter = s.meter := by rw [State.advance_frame]
@[simp] theorem State.advance_mirror (s : State) (p : Packet) (position total : Nat) : (s.advance p position total).mirror = s.mirror := by rw [State.advance_frame]
@[simp] theorem State.advance_pwr (s : State) (p : Packet) (position total : Nat) : (s.advance p position total).pwr = s.pwr := by rw [State.advance_frame]
@[simp] theorem State.advance_glb (s : State) (p : Packet) (position total : Nat) : (s.advance p position total).glb = s.glb := by rw [State.advance_frame]
@[simp] theorem State.advance_irqs (s : State) (p : Packet) (position total : Nat) : (s.advance p position total).irqs = s.irqs := by rw [State.advance_frame]
@[simp] theorem State.advance_sent (s : State) (p : Packet) (position total : Nat) : (s.advance p position total).sent = s.sent := by rw [State.advance_frame]
@[simp] theorem State.advance_hostRead (s : State) (p : Packet) (position total : Nat) : (s.advance p position total).hostRead = s.hostRead := by rw [State.advance_frame]
@[simp] theorem State.advance_pending (s : State) (p : Packet) (position total : Nat) : (s.advance p position total).pending = s.pending := by rw [State.advance_frame]

/-! ## State.closeEntry -/

/-- Only progress, shown may change. -/
theorem State.closeEntry_frame (s : State) (p : Packet) (st : Status) (position total : Nat) :
    s.closeEntry p st position total = { s with progress := (s.closeEntry p st position total).progress, shown := (s.closeEntry p st position total).shown } := by
  unfold State.closeEntry
  split <;> rfl
@[simp] theorem State.closeEntry_clk (s : State) (p : Packet) (st : Status) (position total : Nat) : (s.closeEntry p st position total).clk = s.clk := by rw [State.closeEntry_frame]
@[simp] theorem State.closeEntry_free (s : State) (p : Packet) (st : Status) (position total : Nat) : (s.closeEntry p st position total).free = s.free := by rw [State.closeEntry_frame]
@[simp] theorem State.closeEntry_mem (s : State) (p : Packet) (st : Status) (position total : Nat) : (s.closeEntry p st position total).mem = s.mem := by rw [State.closeEntry_frame]
@[simp] theorem State.closeEntry_host (s : State) (p : Packet) (st : Status) (position total : Nat) : (s.closeEntry p st position total).host = s.host := by rw [State.closeEntry_frame]
@[simp] theorem State.closeEntry_bar2 (s : State) (p : Packet) (st : Status) (position total : Nat) : (s.closeEntry p st position total).bar2 = s.bar2 := by rw [State.closeEntry_frame]
@[simp] theorem State.closeEntry_regs (s : State) (p : Packet) (st : Status) (position total : Nat) : (s.closeEntry p st position total).regs = s.regs := by rw [State.closeEntry_frame]
@[simp] theorem State.closeEntry_wide (s : State) (p : Packet) (st : Status) (position total : Nat) : (s.closeEntry p st position total).wide = s.wide := by rw [State.closeEntry_frame]
@[simp] theorem State.closeEntry_published (s : State) (p : Packet) (st : Status) (position total : Nat) : (s.closeEntry p st position total).published = s.published := by rw [State.closeEntry_frame]
@[simp] theorem State.closeEntry_rings (s : State) (p : Packet) (st : Status) (position total : Nat) : (s.closeEntry p st position total).rings = s.rings := by rw [State.closeEntry_frame]
@[simp] theorem State.closeEntry_held (s : State) (p : Packet) (st : Status) (position total : Nat) : (s.closeEntry p st position total).held = s.held := by rw [State.closeEntry_frame]
@[simp] theorem State.closeEntry_msix (s : State) (p : Packet) (st : Status) (position total : Nat) : (s.closeEntry p st position total).msix = s.msix := by rw [State.closeEntry_frame]
@[simp] theorem State.closeEntry_pba (s : State) (p : Packet) (st : Status) (position total : Nat) : (s.closeEntry p st position total).pba = s.pba := by rw [State.closeEntry_frame]
@[simp] theorem State.closeEntry_running (s : State) (p : Packet) (st : Status) (position total : Nat) : (s.closeEntry p st position total).running = s.running := by rw [State.closeEntry_frame]
@[simp] theorem State.closeEntry_starts (s : State) (p : Packet) (st : Status) (position total : Nat) : (s.closeEntry p st position total).starts = s.starts := by rw [State.closeEntry_frame]
@[simp] theorem State.closeEntry_job (s : State) (p : Packet) (st : Status) (position total : Nat) : (s.closeEntry p st position total).job = s.job := by rw [State.closeEntry_frame]
@[simp] theorem State.closeEntry_memory (s : State) (p : Packet) (st : Status) (position total : Nat) : (s.closeEntry p st position total).memory = s.memory := by rw [State.closeEntry_frame]
@[simp] theorem State.closeEntry_ingest (s : State) (p : Packet) (st : Status) (position total : Nat) : (s.closeEntry p st position total).ingest = s.ingest := by rw [State.closeEntry_frame]
@[simp] theorem State.closeEntry_samples (s : State) (p : Packet) (st : Status) (position total : Nat) : (s.closeEntry p st position total).samples = s.samples := by rw [State.closeEntry_frame]
@[simp] theorem State.closeEntry_emb (s : State) (p : Packet) (st : Status) (position total : Nat) : (s.closeEntry p st position total).emb = s.emb := by rw [State.closeEntry_frame]
@[simp] theorem State.closeEntry_dir (s : State) (p : Packet) (st : Status) (position total : Nat) : (s.closeEntry p st position total).dir = s.dir := by rw [State.closeEntry_frame]
@[simp] theorem State.closeEntry_graph (s : State) (p : Packet) (st : Status) (position total : Nat) : (s.closeEntry p st position total).graph = s.graph := by rw [State.closeEntry_frame]
@[simp] theorem State.closeEntry_relay (s : State) (p : Packet) (st : Status) (position total : Nat) : (s.closeEntry p st position total).relay = s.relay := by rw [State.closeEntry_frame]
@[simp] theorem State.closeEntry_integrity (s : State) (p : Packet) (st : Status) (position total : Nat) : (s.closeEntry p st position total).integrity = s.integrity := by rw [State.closeEntry_frame]
@[simp] theorem State.closeEntry_sec (s : State) (p : Packet) (st : Status) (position total : Nat) : (s.closeEntry p st position total).sec = s.sec := by rw [State.closeEntry_frame]
@[simp] theorem State.closeEntry_mgt (s : State) (p : Packet) (st : Status) (position total : Nat) : (s.closeEntry p st position total).mgt = s.mgt := by rw [State.closeEntry_frame]
@[simp] theorem State.closeEntry_meter (s : State) (p : Packet) (st : Status) (position total : Nat) : (s.closeEntry p st position total).meter = s.meter := by rw [State.closeEntry_frame]
@[simp] theorem State.closeEntry_mirror (s : State) (p : Packet) (st : Status) (position total : Nat) : (s.closeEntry p st position total).mirror = s.mirror := by rw [State.closeEntry_frame]
@[simp] theorem State.closeEntry_pwr (s : State) (p : Packet) (st : Status) (position total : Nat) : (s.closeEntry p st position total).pwr = s.pwr := by rw [State.closeEntry_frame]
@[simp] theorem State.closeEntry_glb (s : State) (p : Packet) (st : Status) (position total : Nat) : (s.closeEntry p st position total).glb = s.glb := by rw [State.closeEntry_frame]
@[simp] theorem State.closeEntry_irqs (s : State) (p : Packet) (st : Status) (position total : Nat) : (s.closeEntry p st position total).irqs = s.irqs := by rw [State.closeEntry_frame]
@[simp] theorem State.closeEntry_sent (s : State) (p : Packet) (st : Status) (position total : Nat) : (s.closeEntry p st position total).sent = s.sent := by rw [State.closeEntry_frame]
@[simp] theorem State.closeEntry_hostRead (s : State) (p : Packet) (st : Status) (position total : Nat) : (s.closeEntry p st position total).hostRead = s.hostRead := by rw [State.closeEntry_frame]
@[simp] theorem State.closeEntry_pending (s : State) (p : Packet) (st : Status) (position total : Nat) : (s.closeEntry p st position total).pending = s.pending := by rw [State.closeEntry_frame]

/-! ## State.fallDue -/

/-- Only rings, held may change. -/
theorem State.fallDue_frame (s : State) (r : Record) :
    s.fallDue r = { s with rings := (s.fallDue r).rings, held := (s.fallDue r).held } := by
  unfold State.fallDue
  simp only []
  split <;> rfl
@[simp] theorem State.fallDue_clk (s : State) (r : Record) : (s.fallDue r).clk = s.clk := by rw [State.fallDue_frame]
@[simp] theorem State.fallDue_free (s : State) (r : Record) : (s.fallDue r).free = s.free := by rw [State.fallDue_frame]
@[simp] theorem State.fallDue_mem (s : State) (r : Record) : (s.fallDue r).mem = s.mem := by rw [State.fallDue_frame]
@[simp] theorem State.fallDue_host (s : State) (r : Record) : (s.fallDue r).host = s.host := by rw [State.fallDue_frame]
@[simp] theorem State.fallDue_bar2 (s : State) (r : Record) : (s.fallDue r).bar2 = s.bar2 := by rw [State.fallDue_frame]
@[simp] theorem State.fallDue_regs (s : State) (r : Record) : (s.fallDue r).regs = s.regs := by rw [State.fallDue_frame]
@[simp] theorem State.fallDue_wide (s : State) (r : Record) : (s.fallDue r).wide = s.wide := by rw [State.fallDue_frame]
@[simp] theorem State.fallDue_published (s : State) (r : Record) : (s.fallDue r).published = s.published := by rw [State.fallDue_frame]
@[simp] theorem State.fallDue_progress (s : State) (r : Record) : (s.fallDue r).progress = s.progress := by rw [State.fallDue_frame]
@[simp] theorem State.fallDue_shown (s : State) (r : Record) : (s.fallDue r).shown = s.shown := by rw [State.fallDue_frame]
@[simp] theorem State.fallDue_msix (s : State) (r : Record) : (s.fallDue r).msix = s.msix := by rw [State.fallDue_frame]
@[simp] theorem State.fallDue_pba (s : State) (r : Record) : (s.fallDue r).pba = s.pba := by rw [State.fallDue_frame]
@[simp] theorem State.fallDue_running (s : State) (r : Record) : (s.fallDue r).running = s.running := by rw [State.fallDue_frame]
@[simp] theorem State.fallDue_starts (s : State) (r : Record) : (s.fallDue r).starts = s.starts := by rw [State.fallDue_frame]
@[simp] theorem State.fallDue_job (s : State) (r : Record) : (s.fallDue r).job = s.job := by rw [State.fallDue_frame]
@[simp] theorem State.fallDue_memory (s : State) (r : Record) : (s.fallDue r).memory = s.memory := by rw [State.fallDue_frame]
@[simp] theorem State.fallDue_ingest (s : State) (r : Record) : (s.fallDue r).ingest = s.ingest := by rw [State.fallDue_frame]
@[simp] theorem State.fallDue_samples (s : State) (r : Record) : (s.fallDue r).samples = s.samples := by rw [State.fallDue_frame]
@[simp] theorem State.fallDue_emb (s : State) (r : Record) : (s.fallDue r).emb = s.emb := by rw [State.fallDue_frame]
@[simp] theorem State.fallDue_dir (s : State) (r : Record) : (s.fallDue r).dir = s.dir := by rw [State.fallDue_frame]
@[simp] theorem State.fallDue_graph (s : State) (r : Record) : (s.fallDue r).graph = s.graph := by rw [State.fallDue_frame]
@[simp] theorem State.fallDue_relay (s : State) (r : Record) : (s.fallDue r).relay = s.relay := by rw [State.fallDue_frame]
@[simp] theorem State.fallDue_integrity (s : State) (r : Record) : (s.fallDue r).integrity = s.integrity := by rw [State.fallDue_frame]
@[simp] theorem State.fallDue_sec (s : State) (r : Record) : (s.fallDue r).sec = s.sec := by rw [State.fallDue_frame]
@[simp] theorem State.fallDue_mgt (s : State) (r : Record) : (s.fallDue r).mgt = s.mgt := by rw [State.fallDue_frame]
@[simp] theorem State.fallDue_meter (s : State) (r : Record) : (s.fallDue r).meter = s.meter := by rw [State.fallDue_frame]
@[simp] theorem State.fallDue_mirror (s : State) (r : Record) : (s.fallDue r).mirror = s.mirror := by rw [State.fallDue_frame]
@[simp] theorem State.fallDue_pwr (s : State) (r : Record) : (s.fallDue r).pwr = s.pwr := by rw [State.fallDue_frame]
@[simp] theorem State.fallDue_glb (s : State) (r : Record) : (s.fallDue r).glb = s.glb := by rw [State.fallDue_frame]
@[simp] theorem State.fallDue_irqs (s : State) (r : Record) : (s.fallDue r).irqs = s.irqs := by rw [State.fallDue_frame]
@[simp] theorem State.fallDue_sent (s : State) (r : Record) : (s.fallDue r).sent = s.sent := by rw [State.fallDue_frame]
@[simp] theorem State.fallDue_hostRead (s : State) (r : Record) : (s.fallDue r).hostRead = s.hostRead := by rw [State.fallDue_frame]
@[simp] theorem State.fallDue_pending (s : State) (r : Record) : (s.fallDue r).pending = s.pending := by rw [State.fallDue_frame]

/-! ## State.countStatus -/

/-- Only regs may change. -/
theorem State.countStatus_frame (s : State) (st : Status) :
    s.countStatus st = { s with regs := (s.countStatus st).regs } := by
  unfold State.countStatus State.bump
  repeat' split
  all_goals rfl
@[simp] theorem State.countStatus_clk (s : State) (st : Status) : (s.countStatus st).clk = s.clk := by rw [State.countStatus_frame]
@[simp] theorem State.countStatus_free (s : State) (st : Status) : (s.countStatus st).free = s.free := by rw [State.countStatus_frame]
@[simp] theorem State.countStatus_mem (s : State) (st : Status) : (s.countStatus st).mem = s.mem := by rw [State.countStatus_frame]
@[simp] theorem State.countStatus_host (s : State) (st : Status) : (s.countStatus st).host = s.host := by rw [State.countStatus_frame]
@[simp] theorem State.countStatus_bar2 (s : State) (st : Status) : (s.countStatus st).bar2 = s.bar2 := by rw [State.countStatus_frame]
@[simp] theorem State.countStatus_wide (s : State) (st : Status) : (s.countStatus st).wide = s.wide := by rw [State.countStatus_frame]
@[simp] theorem State.countStatus_published (s : State) (st : Status) : (s.countStatus st).published = s.published := by rw [State.countStatus_frame]
@[simp] theorem State.countStatus_rings (s : State) (st : Status) : (s.countStatus st).rings = s.rings := by rw [State.countStatus_frame]
@[simp] theorem State.countStatus_held (s : State) (st : Status) : (s.countStatus st).held = s.held := by rw [State.countStatus_frame]
@[simp] theorem State.countStatus_progress (s : State) (st : Status) : (s.countStatus st).progress = s.progress := by rw [State.countStatus_frame]
@[simp] theorem State.countStatus_shown (s : State) (st : Status) : (s.countStatus st).shown = s.shown := by rw [State.countStatus_frame]
@[simp] theorem State.countStatus_msix (s : State) (st : Status) : (s.countStatus st).msix = s.msix := by rw [State.countStatus_frame]
@[simp] theorem State.countStatus_pba (s : State) (st : Status) : (s.countStatus st).pba = s.pba := by rw [State.countStatus_frame]
@[simp] theorem State.countStatus_running (s : State) (st : Status) : (s.countStatus st).running = s.running := by rw [State.countStatus_frame]
@[simp] theorem State.countStatus_starts (s : State) (st : Status) : (s.countStatus st).starts = s.starts := by rw [State.countStatus_frame]
@[simp] theorem State.countStatus_job (s : State) (st : Status) : (s.countStatus st).job = s.job := by rw [State.countStatus_frame]
@[simp] theorem State.countStatus_memory (s : State) (st : Status) : (s.countStatus st).memory = s.memory := by rw [State.countStatus_frame]
@[simp] theorem State.countStatus_ingest (s : State) (st : Status) : (s.countStatus st).ingest = s.ingest := by rw [State.countStatus_frame]
@[simp] theorem State.countStatus_samples (s : State) (st : Status) : (s.countStatus st).samples = s.samples := by rw [State.countStatus_frame]
@[simp] theorem State.countStatus_emb (s : State) (st : Status) : (s.countStatus st).emb = s.emb := by rw [State.countStatus_frame]
@[simp] theorem State.countStatus_dir (s : State) (st : Status) : (s.countStatus st).dir = s.dir := by rw [State.countStatus_frame]
@[simp] theorem State.countStatus_graph (s : State) (st : Status) : (s.countStatus st).graph = s.graph := by rw [State.countStatus_frame]
@[simp] theorem State.countStatus_relay (s : State) (st : Status) : (s.countStatus st).relay = s.relay := by rw [State.countStatus_frame]
@[simp] theorem State.countStatus_integrity (s : State) (st : Status) : (s.countStatus st).integrity = s.integrity := by rw [State.countStatus_frame]
@[simp] theorem State.countStatus_sec (s : State) (st : Status) : (s.countStatus st).sec = s.sec := by rw [State.countStatus_frame]
@[simp] theorem State.countStatus_mgt (s : State) (st : Status) : (s.countStatus st).mgt = s.mgt := by rw [State.countStatus_frame]
@[simp] theorem State.countStatus_meter (s : State) (st : Status) : (s.countStatus st).meter = s.meter := by rw [State.countStatus_frame]
@[simp] theorem State.countStatus_mirror (s : State) (st : Status) : (s.countStatus st).mirror = s.mirror := by rw [State.countStatus_frame]
@[simp] theorem State.countStatus_pwr (s : State) (st : Status) : (s.countStatus st).pwr = s.pwr := by rw [State.countStatus_frame]
@[simp] theorem State.countStatus_glb (s : State) (st : Status) : (s.countStatus st).glb = s.glb := by rw [State.countStatus_frame]
@[simp] theorem State.countStatus_irqs (s : State) (st : Status) : (s.countStatus st).irqs = s.irqs := by rw [State.countStatus_frame]
@[simp] theorem State.countStatus_sent (s : State) (st : Status) : (s.countStatus st).sent = s.sent := by rw [State.countStatus_frame]
@[simp] theorem State.countStatus_hostRead (s : State) (st : Status) : (s.countStatus st).hostRead = s.hostRead := by rw [State.countStatus_frame]
@[simp] theorem State.countStatus_pending (s : State) (st : Status) : (s.countStatus st).pending = s.pending := by rw [State.countStatus_frame]

/-! ## State.complete -/

/-- Only regs, rings, held, progress, shown may change. -/
theorem State.complete_frame (s : State) (p : Packet) (st : Status) (detail position total : Nat) :
    s.complete p st detail position total = { s with regs := (s.complete p st detail position total).regs, rings := (s.complete p st detail position total).rings, held := (s.complete p st detail position total).held, progress := (s.complete p st detail position total).progress, shown := (s.complete p st detail position total).shown } := by
  unfold State.complete
  rw [State.fallDue_frame]
  simp
@[simp] theorem State.complete_clk (s : State) (p : Packet) (st : Status) (detail position total : Nat) : (s.complete p st detail position total).clk = s.clk := by rw [State.complete_frame]
@[simp] theorem State.complete_free (s : State) (p : Packet) (st : Status) (detail position total : Nat) : (s.complete p st detail position total).free = s.free := by rw [State.complete_frame]
@[simp] theorem State.complete_mem (s : State) (p : Packet) (st : Status) (detail position total : Nat) : (s.complete p st detail position total).mem = s.mem := by rw [State.complete_frame]
@[simp] theorem State.complete_host (s : State) (p : Packet) (st : Status) (detail position total : Nat) : (s.complete p st detail position total).host = s.host := by rw [State.complete_frame]
@[simp] theorem State.complete_bar2 (s : State) (p : Packet) (st : Status) (detail position total : Nat) : (s.complete p st detail position total).bar2 = s.bar2 := by rw [State.complete_frame]
@[simp] theorem State.complete_wide (s : State) (p : Packet) (st : Status) (detail position total : Nat) : (s.complete p st detail position total).wide = s.wide := by rw [State.complete_frame]
@[simp] theorem State.complete_published (s : State) (p : Packet) (st : Status) (detail position total : Nat) : (s.complete p st detail position total).published = s.published := by rw [State.complete_frame]
@[simp] theorem State.complete_msix (s : State) (p : Packet) (st : Status) (detail position total : Nat) : (s.complete p st detail position total).msix = s.msix := by rw [State.complete_frame]
@[simp] theorem State.complete_pba (s : State) (p : Packet) (st : Status) (detail position total : Nat) : (s.complete p st detail position total).pba = s.pba := by rw [State.complete_frame]
@[simp] theorem State.complete_running (s : State) (p : Packet) (st : Status) (detail position total : Nat) : (s.complete p st detail position total).running = s.running := by rw [State.complete_frame]
@[simp] theorem State.complete_starts (s : State) (p : Packet) (st : Status) (detail position total : Nat) : (s.complete p st detail position total).starts = s.starts := by rw [State.complete_frame]
@[simp] theorem State.complete_job (s : State) (p : Packet) (st : Status) (detail position total : Nat) : (s.complete p st detail position total).job = s.job := by rw [State.complete_frame]
@[simp] theorem State.complete_memory (s : State) (p : Packet) (st : Status) (detail position total : Nat) : (s.complete p st detail position total).memory = s.memory := by rw [State.complete_frame]
@[simp] theorem State.complete_ingest (s : State) (p : Packet) (st : Status) (detail position total : Nat) : (s.complete p st detail position total).ingest = s.ingest := by rw [State.complete_frame]
@[simp] theorem State.complete_samples (s : State) (p : Packet) (st : Status) (detail position total : Nat) : (s.complete p st detail position total).samples = s.samples := by rw [State.complete_frame]
@[simp] theorem State.complete_emb (s : State) (p : Packet) (st : Status) (detail position total : Nat) : (s.complete p st detail position total).emb = s.emb := by rw [State.complete_frame]
@[simp] theorem State.complete_dir (s : State) (p : Packet) (st : Status) (detail position total : Nat) : (s.complete p st detail position total).dir = s.dir := by rw [State.complete_frame]
@[simp] theorem State.complete_graph (s : State) (p : Packet) (st : Status) (detail position total : Nat) : (s.complete p st detail position total).graph = s.graph := by rw [State.complete_frame]
@[simp] theorem State.complete_relay (s : State) (p : Packet) (st : Status) (detail position total : Nat) : (s.complete p st detail position total).relay = s.relay := by rw [State.complete_frame]
@[simp] theorem State.complete_integrity (s : State) (p : Packet) (st : Status) (detail position total : Nat) : (s.complete p st detail position total).integrity = s.integrity := by rw [State.complete_frame]
@[simp] theorem State.complete_sec (s : State) (p : Packet) (st : Status) (detail position total : Nat) : (s.complete p st detail position total).sec = s.sec := by rw [State.complete_frame]
@[simp] theorem State.complete_mgt (s : State) (p : Packet) (st : Status) (detail position total : Nat) : (s.complete p st detail position total).mgt = s.mgt := by rw [State.complete_frame]
@[simp] theorem State.complete_meter (s : State) (p : Packet) (st : Status) (detail position total : Nat) : (s.complete p st detail position total).meter = s.meter := by rw [State.complete_frame]
@[simp] theorem State.complete_mirror (s : State) (p : Packet) (st : Status) (detail position total : Nat) : (s.complete p st detail position total).mirror = s.mirror := by rw [State.complete_frame]
@[simp] theorem State.complete_pwr (s : State) (p : Packet) (st : Status) (detail position total : Nat) : (s.complete p st detail position total).pwr = s.pwr := by rw [State.complete_frame]
@[simp] theorem State.complete_glb (s : State) (p : Packet) (st : Status) (detail position total : Nat) : (s.complete p st detail position total).glb = s.glb := by rw [State.complete_frame]
@[simp] theorem State.complete_irqs (s : State) (p : Packet) (st : Status) (detail position total : Nat) : (s.complete p st detail position total).irqs = s.irqs := by rw [State.complete_frame]
@[simp] theorem State.complete_sent (s : State) (p : Packet) (st : Status) (detail position total : Nat) : (s.complete p st detail position total).sent = s.sent := by rw [State.complete_frame]
@[simp] theorem State.complete_hostRead (s : State) (p : Packet) (st : Status) (detail position total : Nat) : (s.complete p st detail position total).hostRead = s.hostRead := by rw [State.complete_frame]
@[simp] theorem State.complete_pending (s : State) (p : Packet) (st : Status) (detail position total : Nat) : (s.complete p st detail position total).pending = s.pending := by rw [State.complete_frame]

/-! ## State.unstage -/

/-- Only rings may change. -/
theorem State.unstage_frame (s : State) (p : Packet) :
    s.unstage p = { s with rings := (s.unstage p).rings } := rfl
@[simp] theorem State.unstage_clk (s : State) (p : Packet) : (s.unstage p).clk = s.clk := rfl
@[simp] theorem State.unstage_free (s : State) (p : Packet) : (s.unstage p).free = s.free := rfl
@[simp] theorem State.unstage_mem (s : State) (p : Packet) : (s.unstage p).mem = s.mem := rfl
@[simp] theorem State.unstage_host (s : State) (p : Packet) : (s.unstage p).host = s.host := rfl
@[simp] theorem State.unstage_bar2 (s : State) (p : Packet) : (s.unstage p).bar2 = s.bar2 := rfl
@[simp] theorem State.unstage_regs (s : State) (p : Packet) : (s.unstage p).regs = s.regs := rfl
@[simp] theorem State.unstage_wide (s : State) (p : Packet) : (s.unstage p).wide = s.wide := rfl
@[simp] theorem State.unstage_published (s : State) (p : Packet) : (s.unstage p).published = s.published := rfl
@[simp] theorem State.unstage_held (s : State) (p : Packet) : (s.unstage p).held = s.held := rfl
@[simp] theorem State.unstage_progress (s : State) (p : Packet) : (s.unstage p).progress = s.progress := rfl
@[simp] theorem State.unstage_shown (s : State) (p : Packet) : (s.unstage p).shown = s.shown := rfl
@[simp] theorem State.unstage_msix (s : State) (p : Packet) : (s.unstage p).msix = s.msix := rfl
@[simp] theorem State.unstage_pba (s : State) (p : Packet) : (s.unstage p).pba = s.pba := rfl
@[simp] theorem State.unstage_running (s : State) (p : Packet) : (s.unstage p).running = s.running := rfl
@[simp] theorem State.unstage_starts (s : State) (p : Packet) : (s.unstage p).starts = s.starts := rfl
@[simp] theorem State.unstage_job (s : State) (p : Packet) : (s.unstage p).job = s.job := rfl
@[simp] theorem State.unstage_memory (s : State) (p : Packet) : (s.unstage p).memory = s.memory := rfl
@[simp] theorem State.unstage_ingest (s : State) (p : Packet) : (s.unstage p).ingest = s.ingest := rfl
@[simp] theorem State.unstage_samples (s : State) (p : Packet) : (s.unstage p).samples = s.samples := rfl
@[simp] theorem State.unstage_emb (s : State) (p : Packet) : (s.unstage p).emb = s.emb := rfl
@[simp] theorem State.unstage_dir (s : State) (p : Packet) : (s.unstage p).dir = s.dir := rfl
@[simp] theorem State.unstage_graph (s : State) (p : Packet) : (s.unstage p).graph = s.graph := rfl
@[simp] theorem State.unstage_relay (s : State) (p : Packet) : (s.unstage p).relay = s.relay := rfl
@[simp] theorem State.unstage_integrity (s : State) (p : Packet) : (s.unstage p).integrity = s.integrity := rfl
@[simp] theorem State.unstage_sec (s : State) (p : Packet) : (s.unstage p).sec = s.sec := rfl
@[simp] theorem State.unstage_mgt (s : State) (p : Packet) : (s.unstage p).mgt = s.mgt := rfl
@[simp] theorem State.unstage_meter (s : State) (p : Packet) : (s.unstage p).meter = s.meter := rfl
@[simp] theorem State.unstage_mirror (s : State) (p : Packet) : (s.unstage p).mirror = s.mirror := rfl
@[simp] theorem State.unstage_pwr (s : State) (p : Packet) : (s.unstage p).pwr = s.pwr := rfl
@[simp] theorem State.unstage_glb (s : State) (p : Packet) : (s.unstage p).glb = s.glb := rfl
@[simp] theorem State.unstage_irqs (s : State) (p : Packet) : (s.unstage p).irqs = s.irqs := rfl
@[simp] theorem State.unstage_sent (s : State) (p : Packet) : (s.unstage p).sent = s.sent := rfl
@[simp] theorem State.unstage_hostRead (s : State) (p : Packet) : (s.unstage p).hostRead = s.hostRead := rfl
@[simp] theorem State.unstage_pending (s : State) (p : Packet) : (s.unstage p).pending = s.pending := rfl

/-! ## State.refuse -/

/-- Only regs, rings, held may change. -/
theorem State.refuse_frame (s : State) (p : Packet) (f : Fail) :
    s.refuse p f = { s with regs := (s.refuse p f).regs, rings := (s.refuse p f).rings, held := (s.refuse p f).held } := by
  unfold State.refuse
  rw [State.fallDue_frame]
  simp
@[simp] theorem State.refuse_clk (s : State) (p : Packet) (f : Fail) : (s.refuse p f).clk = s.clk := by rw [State.refuse_frame]
@[simp] theorem State.refuse_free (s : State) (p : Packet) (f : Fail) : (s.refuse p f).free = s.free := by rw [State.refuse_frame]
@[simp] theorem State.refuse_mem (s : State) (p : Packet) (f : Fail) : (s.refuse p f).mem = s.mem := by rw [State.refuse_frame]
@[simp] theorem State.refuse_host (s : State) (p : Packet) (f : Fail) : (s.refuse p f).host = s.host := by rw [State.refuse_frame]
@[simp] theorem State.refuse_bar2 (s : State) (p : Packet) (f : Fail) : (s.refuse p f).bar2 = s.bar2 := by rw [State.refuse_frame]
@[simp] theorem State.refuse_wide (s : State) (p : Packet) (f : Fail) : (s.refuse p f).wide = s.wide := by rw [State.refuse_frame]
@[simp] theorem State.refuse_published (s : State) (p : Packet) (f : Fail) : (s.refuse p f).published = s.published := by rw [State.refuse_frame]
@[simp] theorem State.refuse_progress (s : State) (p : Packet) (f : Fail) : (s.refuse p f).progress = s.progress := by rw [State.refuse_frame]
@[simp] theorem State.refuse_shown (s : State) (p : Packet) (f : Fail) : (s.refuse p f).shown = s.shown := by rw [State.refuse_frame]
@[simp] theorem State.refuse_msix (s : State) (p : Packet) (f : Fail) : (s.refuse p f).msix = s.msix := by rw [State.refuse_frame]
@[simp] theorem State.refuse_pba (s : State) (p : Packet) (f : Fail) : (s.refuse p f).pba = s.pba := by rw [State.refuse_frame]
@[simp] theorem State.refuse_running (s : State) (p : Packet) (f : Fail) : (s.refuse p f).running = s.running := by rw [State.refuse_frame]
@[simp] theorem State.refuse_starts (s : State) (p : Packet) (f : Fail) : (s.refuse p f).starts = s.starts := by rw [State.refuse_frame]
@[simp] theorem State.refuse_job (s : State) (p : Packet) (f : Fail) : (s.refuse p f).job = s.job := by rw [State.refuse_frame]
@[simp] theorem State.refuse_memory (s : State) (p : Packet) (f : Fail) : (s.refuse p f).memory = s.memory := by rw [State.refuse_frame]
@[simp] theorem State.refuse_ingest (s : State) (p : Packet) (f : Fail) : (s.refuse p f).ingest = s.ingest := by rw [State.refuse_frame]
@[simp] theorem State.refuse_samples (s : State) (p : Packet) (f : Fail) : (s.refuse p f).samples = s.samples := by rw [State.refuse_frame]
@[simp] theorem State.refuse_emb (s : State) (p : Packet) (f : Fail) : (s.refuse p f).emb = s.emb := by rw [State.refuse_frame]
@[simp] theorem State.refuse_dir (s : State) (p : Packet) (f : Fail) : (s.refuse p f).dir = s.dir := by rw [State.refuse_frame]
@[simp] theorem State.refuse_graph (s : State) (p : Packet) (f : Fail) : (s.refuse p f).graph = s.graph := by rw [State.refuse_frame]
@[simp] theorem State.refuse_relay (s : State) (p : Packet) (f : Fail) : (s.refuse p f).relay = s.relay := by rw [State.refuse_frame]
@[simp] theorem State.refuse_integrity (s : State) (p : Packet) (f : Fail) : (s.refuse p f).integrity = s.integrity := by rw [State.refuse_frame]
@[simp] theorem State.refuse_sec (s : State) (p : Packet) (f : Fail) : (s.refuse p f).sec = s.sec := by rw [State.refuse_frame]
@[simp] theorem State.refuse_mgt (s : State) (p : Packet) (f : Fail) : (s.refuse p f).mgt = s.mgt := by rw [State.refuse_frame]
@[simp] theorem State.refuse_meter (s : State) (p : Packet) (f : Fail) : (s.refuse p f).meter = s.meter := by rw [State.refuse_frame]
@[simp] theorem State.refuse_mirror (s : State) (p : Packet) (f : Fail) : (s.refuse p f).mirror = s.mirror := by rw [State.refuse_frame]
@[simp] theorem State.refuse_pwr (s : State) (p : Packet) (f : Fail) : (s.refuse p f).pwr = s.pwr := by rw [State.refuse_frame]
@[simp] theorem State.refuse_glb (s : State) (p : Packet) (f : Fail) : (s.refuse p f).glb = s.glb := by rw [State.refuse_frame]
@[simp] theorem State.refuse_irqs (s : State) (p : Packet) (f : Fail) : (s.refuse p f).irqs = s.irqs := by rw [State.refuse_frame]
@[simp] theorem State.refuse_sent (s : State) (p : Packet) (f : Fail) : (s.refuse p f).sent = s.sent := by rw [State.refuse_frame]
@[simp] theorem State.refuse_hostRead (s : State) (p : Packet) (f : Fail) : (s.refuse p f).hostRead = s.hostRead := by rw [State.refuse_frame]
@[simp] theorem State.refuse_pending (s : State) (p : Packet) (f : Fail) : (s.refuse p f).pending = s.pending := by rw [State.refuse_frame]

/-! ## State.enroll -/

/-- Only running may change. -/
theorem State.enroll_frame (s : State) (p : Packet) (k : OpKind) (uses : List Use) (total : Nat) :
    s.enroll p k uses total = { s with running := (s.enroll p k uses total).running } := rfl
@[simp] theorem State.enroll_clk (s : State) (p : Packet) (k : OpKind) (uses : List Use) (total : Nat) : (s.enroll p k uses total).clk = s.clk := rfl
@[simp] theorem State.enroll_free (s : State) (p : Packet) (k : OpKind) (uses : List Use) (total : Nat) : (s.enroll p k uses total).free = s.free := rfl
@[simp] theorem State.enroll_mem (s : State) (p : Packet) (k : OpKind) (uses : List Use) (total : Nat) : (s.enroll p k uses total).mem = s.mem := rfl
@[simp] theorem State.enroll_host (s : State) (p : Packet) (k : OpKind) (uses : List Use) (total : Nat) : (s.enroll p k uses total).host = s.host := rfl
@[simp] theorem State.enroll_bar2 (s : State) (p : Packet) (k : OpKind) (uses : List Use) (total : Nat) : (s.enroll p k uses total).bar2 = s.bar2 := rfl
@[simp] theorem State.enroll_regs (s : State) (p : Packet) (k : OpKind) (uses : List Use) (total : Nat) : (s.enroll p k uses total).regs = s.regs := rfl
@[simp] theorem State.enroll_wide (s : State) (p : Packet) (k : OpKind) (uses : List Use) (total : Nat) : (s.enroll p k uses total).wide = s.wide := rfl
@[simp] theorem State.enroll_published (s : State) (p : Packet) (k : OpKind) (uses : List Use) (total : Nat) : (s.enroll p k uses total).published = s.published := rfl
@[simp] theorem State.enroll_rings (s : State) (p : Packet) (k : OpKind) (uses : List Use) (total : Nat) : (s.enroll p k uses total).rings = s.rings := rfl
@[simp] theorem State.enroll_held (s : State) (p : Packet) (k : OpKind) (uses : List Use) (total : Nat) : (s.enroll p k uses total).held = s.held := rfl
@[simp] theorem State.enroll_progress (s : State) (p : Packet) (k : OpKind) (uses : List Use) (total : Nat) : (s.enroll p k uses total).progress = s.progress := rfl
@[simp] theorem State.enroll_shown (s : State) (p : Packet) (k : OpKind) (uses : List Use) (total : Nat) : (s.enroll p k uses total).shown = s.shown := rfl
@[simp] theorem State.enroll_msix (s : State) (p : Packet) (k : OpKind) (uses : List Use) (total : Nat) : (s.enroll p k uses total).msix = s.msix := rfl
@[simp] theorem State.enroll_pba (s : State) (p : Packet) (k : OpKind) (uses : List Use) (total : Nat) : (s.enroll p k uses total).pba = s.pba := rfl
@[simp] theorem State.enroll_starts (s : State) (p : Packet) (k : OpKind) (uses : List Use) (total : Nat) : (s.enroll p k uses total).starts = s.starts := rfl
@[simp] theorem State.enroll_job (s : State) (p : Packet) (k : OpKind) (uses : List Use) (total : Nat) : (s.enroll p k uses total).job = s.job := rfl
@[simp] theorem State.enroll_memory (s : State) (p : Packet) (k : OpKind) (uses : List Use) (total : Nat) : (s.enroll p k uses total).memory = s.memory := rfl
@[simp] theorem State.enroll_ingest (s : State) (p : Packet) (k : OpKind) (uses : List Use) (total : Nat) : (s.enroll p k uses total).ingest = s.ingest := rfl
@[simp] theorem State.enroll_samples (s : State) (p : Packet) (k : OpKind) (uses : List Use) (total : Nat) : (s.enroll p k uses total).samples = s.samples := rfl
@[simp] theorem State.enroll_emb (s : State) (p : Packet) (k : OpKind) (uses : List Use) (total : Nat) : (s.enroll p k uses total).emb = s.emb := rfl
@[simp] theorem State.enroll_dir (s : State) (p : Packet) (k : OpKind) (uses : List Use) (total : Nat) : (s.enroll p k uses total).dir = s.dir := rfl
@[simp] theorem State.enroll_graph (s : State) (p : Packet) (k : OpKind) (uses : List Use) (total : Nat) : (s.enroll p k uses total).graph = s.graph := rfl
@[simp] theorem State.enroll_relay (s : State) (p : Packet) (k : OpKind) (uses : List Use) (total : Nat) : (s.enroll p k uses total).relay = s.relay := rfl
@[simp] theorem State.enroll_integrity (s : State) (p : Packet) (k : OpKind) (uses : List Use) (total : Nat) : (s.enroll p k uses total).integrity = s.integrity := rfl
@[simp] theorem State.enroll_sec (s : State) (p : Packet) (k : OpKind) (uses : List Use) (total : Nat) : (s.enroll p k uses total).sec = s.sec := rfl
@[simp] theorem State.enroll_mgt (s : State) (p : Packet) (k : OpKind) (uses : List Use) (total : Nat) : (s.enroll p k uses total).mgt = s.mgt := rfl
@[simp] theorem State.enroll_meter (s : State) (p : Packet) (k : OpKind) (uses : List Use) (total : Nat) : (s.enroll p k uses total).meter = s.meter := rfl
@[simp] theorem State.enroll_mirror (s : State) (p : Packet) (k : OpKind) (uses : List Use) (total : Nat) : (s.enroll p k uses total).mirror = s.mirror := rfl
@[simp] theorem State.enroll_pwr (s : State) (p : Packet) (k : OpKind) (uses : List Use) (total : Nat) : (s.enroll p k uses total).pwr = s.pwr := rfl
@[simp] theorem State.enroll_glb (s : State) (p : Packet) (k : OpKind) (uses : List Use) (total : Nat) : (s.enroll p k uses total).glb = s.glb := rfl
@[simp] theorem State.enroll_irqs (s : State) (p : Packet) (k : OpKind) (uses : List Use) (total : Nat) : (s.enroll p k uses total).irqs = s.irqs := rfl
@[simp] theorem State.enroll_sent (s : State) (p : Packet) (k : OpKind) (uses : List Use) (total : Nat) : (s.enroll p k uses total).sent = s.sent := rfl
@[simp] theorem State.enroll_hostRead (s : State) (p : Packet) (k : OpKind) (uses : List Use) (total : Nat) : (s.enroll p k uses total).hostRead = s.hostRead := rfl
@[simp] theorem State.enroll_pending (s : State) (p : Packet) (k : OpKind) (uses : List Use) (total : Nat) : (s.enroll p k uses total).pending = s.pending := rfl

/-! ## State.withdraw -/

/-- Only running may change. -/
theorem State.withdraw_frame (s : State) (o : RunOp) :
    s.withdraw o = { s with running := (s.withdraw o).running } := rfl
@[simp] theorem State.withdraw_clk (s : State) (o : RunOp) : (s.withdraw o).clk = s.clk := rfl
@[simp] theorem State.withdraw_free (s : State) (o : RunOp) : (s.withdraw o).free = s.free := rfl
@[simp] theorem State.withdraw_mem (s : State) (o : RunOp) : (s.withdraw o).mem = s.mem := rfl
@[simp] theorem State.withdraw_host (s : State) (o : RunOp) : (s.withdraw o).host = s.host := rfl
@[simp] theorem State.withdraw_bar2 (s : State) (o : RunOp) : (s.withdraw o).bar2 = s.bar2 := rfl
@[simp] theorem State.withdraw_regs (s : State) (o : RunOp) : (s.withdraw o).regs = s.regs := rfl
@[simp] theorem State.withdraw_wide (s : State) (o : RunOp) : (s.withdraw o).wide = s.wide := rfl
@[simp] theorem State.withdraw_published (s : State) (o : RunOp) : (s.withdraw o).published = s.published := rfl
@[simp] theorem State.withdraw_rings (s : State) (o : RunOp) : (s.withdraw o).rings = s.rings := rfl
@[simp] theorem State.withdraw_held (s : State) (o : RunOp) : (s.withdraw o).held = s.held := rfl
@[simp] theorem State.withdraw_progress (s : State) (o : RunOp) : (s.withdraw o).progress = s.progress := rfl
@[simp] theorem State.withdraw_shown (s : State) (o : RunOp) : (s.withdraw o).shown = s.shown := rfl
@[simp] theorem State.withdraw_msix (s : State) (o : RunOp) : (s.withdraw o).msix = s.msix := rfl
@[simp] theorem State.withdraw_pba (s : State) (o : RunOp) : (s.withdraw o).pba = s.pba := rfl
@[simp] theorem State.withdraw_starts (s : State) (o : RunOp) : (s.withdraw o).starts = s.starts := rfl
@[simp] theorem State.withdraw_job (s : State) (o : RunOp) : (s.withdraw o).job = s.job := rfl
@[simp] theorem State.withdraw_memory (s : State) (o : RunOp) : (s.withdraw o).memory = s.memory := rfl
@[simp] theorem State.withdraw_ingest (s : State) (o : RunOp) : (s.withdraw o).ingest = s.ingest := rfl
@[simp] theorem State.withdraw_samples (s : State) (o : RunOp) : (s.withdraw o).samples = s.samples := rfl
@[simp] theorem State.withdraw_emb (s : State) (o : RunOp) : (s.withdraw o).emb = s.emb := rfl
@[simp] theorem State.withdraw_dir (s : State) (o : RunOp) : (s.withdraw o).dir = s.dir := rfl
@[simp] theorem State.withdraw_graph (s : State) (o : RunOp) : (s.withdraw o).graph = s.graph := rfl
@[simp] theorem State.withdraw_relay (s : State) (o : RunOp) : (s.withdraw o).relay = s.relay := rfl
@[simp] theorem State.withdraw_integrity (s : State) (o : RunOp) : (s.withdraw o).integrity = s.integrity := rfl
@[simp] theorem State.withdraw_sec (s : State) (o : RunOp) : (s.withdraw o).sec = s.sec := rfl
@[simp] theorem State.withdraw_mgt (s : State) (o : RunOp) : (s.withdraw o).mgt = s.mgt := rfl
@[simp] theorem State.withdraw_meter (s : State) (o : RunOp) : (s.withdraw o).meter = s.meter := rfl
@[simp] theorem State.withdraw_mirror (s : State) (o : RunOp) : (s.withdraw o).mirror = s.mirror := rfl
@[simp] theorem State.withdraw_pwr (s : State) (o : RunOp) : (s.withdraw o).pwr = s.pwr := rfl
@[simp] theorem State.withdraw_glb (s : State) (o : RunOp) : (s.withdraw o).glb = s.glb := rfl
@[simp] theorem State.withdraw_irqs (s : State) (o : RunOp) : (s.withdraw o).irqs = s.irqs := rfl
@[simp] theorem State.withdraw_sent (s : State) (o : RunOp) : (s.withdraw o).sent = s.sent := rfl
@[simp] theorem State.withdraw_hostRead (s : State) (o : RunOp) : (s.withdraw o).hostRead = s.hostRead := rfl
@[simp] theorem State.withdraw_pending (s : State) (o : RunOp) : (s.withdraw o).pending = s.pending := rfl

/-! ## State.finish -/

/-- Only running, regs, rings, held, progress, shown may change. -/
theorem State.finish_frame (s : State) (o : RunOp) (st : Status) (detail : Nat) :
    s.finish o st detail = { s with running := (s.finish o st detail).running, regs := (s.finish o st detail).regs, rings := (s.finish o st detail).rings, held := (s.finish o st detail).held, progress := (s.finish o st detail).progress, shown := (s.finish o st detail).shown } := by
  unfold State.finish State.withdraw
  rw [State.complete_frame]
@[simp] theorem State.finish_clk (s : State) (o : RunOp) (st : Status) (detail : Nat) : (s.finish o st detail).clk = s.clk := by rw [State.finish_frame]
@[simp] theorem State.finish_free (s : State) (o : RunOp) (st : Status) (detail : Nat) : (s.finish o st detail).free = s.free := by rw [State.finish_frame]
@[simp] theorem State.finish_mem (s : State) (o : RunOp) (st : Status) (detail : Nat) : (s.finish o st detail).mem = s.mem := by rw [State.finish_frame]
@[simp] theorem State.finish_host (s : State) (o : RunOp) (st : Status) (detail : Nat) : (s.finish o st detail).host = s.host := by rw [State.finish_frame]
@[simp] theorem State.finish_bar2 (s : State) (o : RunOp) (st : Status) (detail : Nat) : (s.finish o st detail).bar2 = s.bar2 := by rw [State.finish_frame]
@[simp] theorem State.finish_wide (s : State) (o : RunOp) (st : Status) (detail : Nat) : (s.finish o st detail).wide = s.wide := by rw [State.finish_frame]
@[simp] theorem State.finish_published (s : State) (o : RunOp) (st : Status) (detail : Nat) : (s.finish o st detail).published = s.published := by rw [State.finish_frame]
@[simp] theorem State.finish_msix (s : State) (o : RunOp) (st : Status) (detail : Nat) : (s.finish o st detail).msix = s.msix := by rw [State.finish_frame]
@[simp] theorem State.finish_pba (s : State) (o : RunOp) (st : Status) (detail : Nat) : (s.finish o st detail).pba = s.pba := by rw [State.finish_frame]
@[simp] theorem State.finish_starts (s : State) (o : RunOp) (st : Status) (detail : Nat) : (s.finish o st detail).starts = s.starts := by rw [State.finish_frame]
@[simp] theorem State.finish_job (s : State) (o : RunOp) (st : Status) (detail : Nat) : (s.finish o st detail).job = s.job := by rw [State.finish_frame]
@[simp] theorem State.finish_memory (s : State) (o : RunOp) (st : Status) (detail : Nat) : (s.finish o st detail).memory = s.memory := by rw [State.finish_frame]
@[simp] theorem State.finish_ingest (s : State) (o : RunOp) (st : Status) (detail : Nat) : (s.finish o st detail).ingest = s.ingest := by rw [State.finish_frame]
@[simp] theorem State.finish_samples (s : State) (o : RunOp) (st : Status) (detail : Nat) : (s.finish o st detail).samples = s.samples := by rw [State.finish_frame]
@[simp] theorem State.finish_emb (s : State) (o : RunOp) (st : Status) (detail : Nat) : (s.finish o st detail).emb = s.emb := by rw [State.finish_frame]
@[simp] theorem State.finish_dir (s : State) (o : RunOp) (st : Status) (detail : Nat) : (s.finish o st detail).dir = s.dir := by rw [State.finish_frame]
@[simp] theorem State.finish_graph (s : State) (o : RunOp) (st : Status) (detail : Nat) : (s.finish o st detail).graph = s.graph := by rw [State.finish_frame]
@[simp] theorem State.finish_relay (s : State) (o : RunOp) (st : Status) (detail : Nat) : (s.finish o st detail).relay = s.relay := by rw [State.finish_frame]
@[simp] theorem State.finish_integrity (s : State) (o : RunOp) (st : Status) (detail : Nat) : (s.finish o st detail).integrity = s.integrity := by rw [State.finish_frame]
@[simp] theorem State.finish_sec (s : State) (o : RunOp) (st : Status) (detail : Nat) : (s.finish o st detail).sec = s.sec := by rw [State.finish_frame]
@[simp] theorem State.finish_mgt (s : State) (o : RunOp) (st : Status) (detail : Nat) : (s.finish o st detail).mgt = s.mgt := by rw [State.finish_frame]
@[simp] theorem State.finish_meter (s : State) (o : RunOp) (st : Status) (detail : Nat) : (s.finish o st detail).meter = s.meter := by rw [State.finish_frame]
@[simp] theorem State.finish_mirror (s : State) (o : RunOp) (st : Status) (detail : Nat) : (s.finish o st detail).mirror = s.mirror := by rw [State.finish_frame]
@[simp] theorem State.finish_pwr (s : State) (o : RunOp) (st : Status) (detail : Nat) : (s.finish o st detail).pwr = s.pwr := by rw [State.finish_frame]
@[simp] theorem State.finish_glb (s : State) (o : RunOp) (st : Status) (detail : Nat) : (s.finish o st detail).glb = s.glb := by rw [State.finish_frame]
@[simp] theorem State.finish_irqs (s : State) (o : RunOp) (st : Status) (detail : Nat) : (s.finish o st detail).irqs = s.irqs := by rw [State.finish_frame]
@[simp] theorem State.finish_sent (s : State) (o : RunOp) (st : Status) (detail : Nat) : (s.finish o st detail).sent = s.sent := by rw [State.finish_frame]
@[simp] theorem State.finish_hostRead (s : State) (o : RunOp) (st : Status) (detail : Nat) : (s.finish o st detail).hostRead = s.hostRead := by rw [State.finish_frame]
@[simp] theorem State.finish_pending (s : State) (o : RunOp) (st : Status) (detail : Nat) : (s.finish o st detail).pending = s.pending := by rw [State.finish_frame]

/-! ## State.alert -/

/-- Only regs, pba, irqs may change. -/
theorem State.alert_frame (s : State) (bit : Nat) :
    s.alert bit = { s with regs := (s.alert bit).regs, pba := (s.alert bit).pba, irqs := (s.alert bit).irqs } := by
  unfold State.alert State.raise
  split <;> rfl
@[simp] theorem State.alert_clk (s : State) (bit : Nat) : (s.alert bit).clk = s.clk := by rw [State.alert_frame]
@[simp] theorem State.alert_free (s : State) (bit : Nat) : (s.alert bit).free = s.free := by rw [State.alert_frame]
@[simp] theorem State.alert_mem (s : State) (bit : Nat) : (s.alert bit).mem = s.mem := by rw [State.alert_frame]
@[simp] theorem State.alert_host (s : State) (bit : Nat) : (s.alert bit).host = s.host := by rw [State.alert_frame]
@[simp] theorem State.alert_bar2 (s : State) (bit : Nat) : (s.alert bit).bar2 = s.bar2 := by rw [State.alert_frame]
@[simp] theorem State.alert_wide (s : State) (bit : Nat) : (s.alert bit).wide = s.wide := by rw [State.alert_frame]
@[simp] theorem State.alert_published (s : State) (bit : Nat) : (s.alert bit).published = s.published := by rw [State.alert_frame]
@[simp] theorem State.alert_rings (s : State) (bit : Nat) : (s.alert bit).rings = s.rings := by rw [State.alert_frame]
@[simp] theorem State.alert_held (s : State) (bit : Nat) : (s.alert bit).held = s.held := by rw [State.alert_frame]
@[simp] theorem State.alert_progress (s : State) (bit : Nat) : (s.alert bit).progress = s.progress := by rw [State.alert_frame]
@[simp] theorem State.alert_shown (s : State) (bit : Nat) : (s.alert bit).shown = s.shown := by rw [State.alert_frame]
@[simp] theorem State.alert_msix (s : State) (bit : Nat) : (s.alert bit).msix = s.msix := by rw [State.alert_frame]
@[simp] theorem State.alert_running (s : State) (bit : Nat) : (s.alert bit).running = s.running := by rw [State.alert_frame]
@[simp] theorem State.alert_starts (s : State) (bit : Nat) : (s.alert bit).starts = s.starts := by rw [State.alert_frame]
@[simp] theorem State.alert_job (s : State) (bit : Nat) : (s.alert bit).job = s.job := by rw [State.alert_frame]
@[simp] theorem State.alert_memory (s : State) (bit : Nat) : (s.alert bit).memory = s.memory := by rw [State.alert_frame]
@[simp] theorem State.alert_ingest (s : State) (bit : Nat) : (s.alert bit).ingest = s.ingest := by rw [State.alert_frame]
@[simp] theorem State.alert_samples (s : State) (bit : Nat) : (s.alert bit).samples = s.samples := by rw [State.alert_frame]
@[simp] theorem State.alert_emb (s : State) (bit : Nat) : (s.alert bit).emb = s.emb := by rw [State.alert_frame]
@[simp] theorem State.alert_dir (s : State) (bit : Nat) : (s.alert bit).dir = s.dir := by rw [State.alert_frame]
@[simp] theorem State.alert_graph (s : State) (bit : Nat) : (s.alert bit).graph = s.graph := by rw [State.alert_frame]
@[simp] theorem State.alert_relay (s : State) (bit : Nat) : (s.alert bit).relay = s.relay := by rw [State.alert_frame]
@[simp] theorem State.alert_integrity (s : State) (bit : Nat) : (s.alert bit).integrity = s.integrity := by rw [State.alert_frame]
@[simp] theorem State.alert_sec (s : State) (bit : Nat) : (s.alert bit).sec = s.sec := by rw [State.alert_frame]
@[simp] theorem State.alert_mgt (s : State) (bit : Nat) : (s.alert bit).mgt = s.mgt := by rw [State.alert_frame]
@[simp] theorem State.alert_meter (s : State) (bit : Nat) : (s.alert bit).meter = s.meter := by rw [State.alert_frame]
@[simp] theorem State.alert_mirror (s : State) (bit : Nat) : (s.alert bit).mirror = s.mirror := by rw [State.alert_frame]
@[simp] theorem State.alert_pwr (s : State) (bit : Nat) : (s.alert bit).pwr = s.pwr := by rw [State.alert_frame]
@[simp] theorem State.alert_glb (s : State) (bit : Nat) : (s.alert bit).glb = s.glb := by rw [State.alert_frame]
@[simp] theorem State.alert_sent (s : State) (bit : Nat) : (s.alert bit).sent = s.sent := by rw [State.alert_frame]
@[simp] theorem State.alert_hostRead (s : State) (bit : Nat) : (s.alert bit).hostRead = s.hostRead := by rw [State.alert_frame]
@[simp] theorem State.alert_pending (s : State) (bit : Nat) : (s.alert bit).pending = s.pending := by rw [State.alert_frame]

/-! ## State.error -/

/-- Only regs, pba, irqs may change. -/
theorem State.error_frame (s : State) (bit : Nat) :
    s.error bit = { s with regs := (s.error bit).regs, pba := (s.error bit).pba, irqs := (s.error bit).irqs } := by
  unfold State.error State.raise
  split <;> rfl
@[simp] theorem State.error_clk (s : State) (bit : Nat) : (s.error bit).clk = s.clk := by rw [State.error_frame]
@[simp] theorem State.error_free (s : State) (bit : Nat) : (s.error bit).free = s.free := by rw [State.error_frame]
@[simp] theorem State.error_mem (s : State) (bit : Nat) : (s.error bit).mem = s.mem := by rw [State.error_frame]
@[simp] theorem State.error_host (s : State) (bit : Nat) : (s.error bit).host = s.host := by rw [State.error_frame]
@[simp] theorem State.error_bar2 (s : State) (bit : Nat) : (s.error bit).bar2 = s.bar2 := by rw [State.error_frame]
@[simp] theorem State.error_wide (s : State) (bit : Nat) : (s.error bit).wide = s.wide := by rw [State.error_frame]
@[simp] theorem State.error_published (s : State) (bit : Nat) : (s.error bit).published = s.published := by rw [State.error_frame]
@[simp] theorem State.error_rings (s : State) (bit : Nat) : (s.error bit).rings = s.rings := by rw [State.error_frame]
@[simp] theorem State.error_held (s : State) (bit : Nat) : (s.error bit).held = s.held := by rw [State.error_frame]
@[simp] theorem State.error_progress (s : State) (bit : Nat) : (s.error bit).progress = s.progress := by rw [State.error_frame]
@[simp] theorem State.error_shown (s : State) (bit : Nat) : (s.error bit).shown = s.shown := by rw [State.error_frame]
@[simp] theorem State.error_msix (s : State) (bit : Nat) : (s.error bit).msix = s.msix := by rw [State.error_frame]
@[simp] theorem State.error_running (s : State) (bit : Nat) : (s.error bit).running = s.running := by rw [State.error_frame]
@[simp] theorem State.error_starts (s : State) (bit : Nat) : (s.error bit).starts = s.starts := by rw [State.error_frame]
@[simp] theorem State.error_job (s : State) (bit : Nat) : (s.error bit).job = s.job := by rw [State.error_frame]
@[simp] theorem State.error_memory (s : State) (bit : Nat) : (s.error bit).memory = s.memory := by rw [State.error_frame]
@[simp] theorem State.error_ingest (s : State) (bit : Nat) : (s.error bit).ingest = s.ingest := by rw [State.error_frame]
@[simp] theorem State.error_samples (s : State) (bit : Nat) : (s.error bit).samples = s.samples := by rw [State.error_frame]
@[simp] theorem State.error_emb (s : State) (bit : Nat) : (s.error bit).emb = s.emb := by rw [State.error_frame]
@[simp] theorem State.error_dir (s : State) (bit : Nat) : (s.error bit).dir = s.dir := by rw [State.error_frame]
@[simp] theorem State.error_graph (s : State) (bit : Nat) : (s.error bit).graph = s.graph := by rw [State.error_frame]
@[simp] theorem State.error_relay (s : State) (bit : Nat) : (s.error bit).relay = s.relay := by rw [State.error_frame]
@[simp] theorem State.error_integrity (s : State) (bit : Nat) : (s.error bit).integrity = s.integrity := by rw [State.error_frame]
@[simp] theorem State.error_sec (s : State) (bit : Nat) : (s.error bit).sec = s.sec := by rw [State.error_frame]
@[simp] theorem State.error_mgt (s : State) (bit : Nat) : (s.error bit).mgt = s.mgt := by rw [State.error_frame]
@[simp] theorem State.error_meter (s : State) (bit : Nat) : (s.error bit).meter = s.meter := by rw [State.error_frame]
@[simp] theorem State.error_mirror (s : State) (bit : Nat) : (s.error bit).mirror = s.mirror := by rw [State.error_frame]
@[simp] theorem State.error_pwr (s : State) (bit : Nat) : (s.error bit).pwr = s.pwr := by rw [State.error_frame]
@[simp] theorem State.error_glb (s : State) (bit : Nat) : (s.error bit).glb = s.glb := by rw [State.error_frame]
@[simp] theorem State.error_sent (s : State) (bit : Nat) : (s.error bit).sent = s.sent := by rw [State.error_frame]
@[simp] theorem State.error_hostRead (s : State) (bit : Nat) : (s.error bit).hostRead = s.hostRead := by rw [State.error_frame]
@[simp] theorem State.error_pending (s : State) (bit : Nat) : (s.error bit).pending = s.pending := by rw [State.error_frame]

/-! ## State.log -/

/-- Only mgt, regs, pba, irqs may change. -/
theorem State.log_frame (s : State) (cls severity code unit : Nat) (job step : Word) (data : List Byte) :
    s.log cls severity code unit job step data = { s with mgt := (s.log cls severity code unit job step data).mgt, regs := (s.log cls severity code unit job step data).regs, pba := (s.log cls severity code unit job step data).pba, irqs := (s.log cls severity code unit job step data).irqs } := by
  unfold State.log
  simp only []
  repeat' split
  all_goals first
    | rfl
    | (rw [State.bump_frame])
    | (rw [State.alert_frame])
@[simp] theorem State.log_clk (s : State) (cls severity code unit : Nat) (job step : Word) (data : List Byte) : (s.log cls severity code unit job step data).clk = s.clk := by rw [State.log_frame]
@[simp] theorem State.log_free (s : State) (cls severity code unit : Nat) (job step : Word) (data : List Byte) : (s.log cls severity code unit job step data).free = s.free := by rw [State.log_frame]
@[simp] theorem State.log_mem (s : State) (cls severity code unit : Nat) (job step : Word) (data : List Byte) : (s.log cls severity code unit job step data).mem = s.mem := by rw [State.log_frame]
@[simp] theorem State.log_host (s : State) (cls severity code unit : Nat) (job step : Word) (data : List Byte) : (s.log cls severity code unit job step data).host = s.host := by rw [State.log_frame]
@[simp] theorem State.log_bar2 (s : State) (cls severity code unit : Nat) (job step : Word) (data : List Byte) : (s.log cls severity code unit job step data).bar2 = s.bar2 := by rw [State.log_frame]
@[simp] theorem State.log_wide (s : State) (cls severity code unit : Nat) (job step : Word) (data : List Byte) : (s.log cls severity code unit job step data).wide = s.wide := by rw [State.log_frame]
@[simp] theorem State.log_published (s : State) (cls severity code unit : Nat) (job step : Word) (data : List Byte) : (s.log cls severity code unit job step data).published = s.published := by rw [State.log_frame]
@[simp] theorem State.log_rings (s : State) (cls severity code unit : Nat) (job step : Word) (data : List Byte) : (s.log cls severity code unit job step data).rings = s.rings := by rw [State.log_frame]
@[simp] theorem State.log_held (s : State) (cls severity code unit : Nat) (job step : Word) (data : List Byte) : (s.log cls severity code unit job step data).held = s.held := by rw [State.log_frame]
@[simp] theorem State.log_progress (s : State) (cls severity code unit : Nat) (job step : Word) (data : List Byte) : (s.log cls severity code unit job step data).progress = s.progress := by rw [State.log_frame]
@[simp] theorem State.log_shown (s : State) (cls severity code unit : Nat) (job step : Word) (data : List Byte) : (s.log cls severity code unit job step data).shown = s.shown := by rw [State.log_frame]
@[simp] theorem State.log_msix (s : State) (cls severity code unit : Nat) (job step : Word) (data : List Byte) : (s.log cls severity code unit job step data).msix = s.msix := by rw [State.log_frame]
@[simp] theorem State.log_running (s : State) (cls severity code unit : Nat) (job step : Word) (data : List Byte) : (s.log cls severity code unit job step data).running = s.running := by rw [State.log_frame]
@[simp] theorem State.log_starts (s : State) (cls severity code unit : Nat) (job step : Word) (data : List Byte) : (s.log cls severity code unit job step data).starts = s.starts := by rw [State.log_frame]
@[simp] theorem State.log_job (s : State) (cls severity code unit : Nat) (job step : Word) (data : List Byte) : (s.log cls severity code unit job step data).job = s.job := by rw [State.log_frame]
@[simp] theorem State.log_memory (s : State) (cls severity code unit : Nat) (job step : Word) (data : List Byte) : (s.log cls severity code unit job step data).memory = s.memory := by rw [State.log_frame]
@[simp] theorem State.log_ingest (s : State) (cls severity code unit : Nat) (job step : Word) (data : List Byte) : (s.log cls severity code unit job step data).ingest = s.ingest := by rw [State.log_frame]
@[simp] theorem State.log_samples (s : State) (cls severity code unit : Nat) (job step : Word) (data : List Byte) : (s.log cls severity code unit job step data).samples = s.samples := by rw [State.log_frame]
@[simp] theorem State.log_emb (s : State) (cls severity code unit : Nat) (job step : Word) (data : List Byte) : (s.log cls severity code unit job step data).emb = s.emb := by rw [State.log_frame]
@[simp] theorem State.log_dir (s : State) (cls severity code unit : Nat) (job step : Word) (data : List Byte) : (s.log cls severity code unit job step data).dir = s.dir := by rw [State.log_frame]
@[simp] theorem State.log_graph (s : State) (cls severity code unit : Nat) (job step : Word) (data : List Byte) : (s.log cls severity code unit job step data).graph = s.graph := by rw [State.log_frame]
@[simp] theorem State.log_relay (s : State) (cls severity code unit : Nat) (job step : Word) (data : List Byte) : (s.log cls severity code unit job step data).relay = s.relay := by rw [State.log_frame]
@[simp] theorem State.log_integrity (s : State) (cls severity code unit : Nat) (job step : Word) (data : List Byte) : (s.log cls severity code unit job step data).integrity = s.integrity := by rw [State.log_frame]
@[simp] theorem State.log_sec (s : State) (cls severity code unit : Nat) (job step : Word) (data : List Byte) : (s.log cls severity code unit job step data).sec = s.sec := by rw [State.log_frame]
@[simp] theorem State.log_meter (s : State) (cls severity code unit : Nat) (job step : Word) (data : List Byte) : (s.log cls severity code unit job step data).meter = s.meter := by rw [State.log_frame]
@[simp] theorem State.log_mirror (s : State) (cls severity code unit : Nat) (job step : Word) (data : List Byte) : (s.log cls severity code unit job step data).mirror = s.mirror := by rw [State.log_frame]
@[simp] theorem State.log_pwr (s : State) (cls severity code unit : Nat) (job step : Word) (data : List Byte) : (s.log cls severity code unit job step data).pwr = s.pwr := by rw [State.log_frame]
@[simp] theorem State.log_glb (s : State) (cls severity code unit : Nat) (job step : Word) (data : List Byte) : (s.log cls severity code unit job step data).glb = s.glb := by rw [State.log_frame]
@[simp] theorem State.log_sent (s : State) (cls severity code unit : Nat) (job step : Word) (data : List Byte) : (s.log cls severity code unit job step data).sent = s.sent := by rw [State.log_frame]
@[simp] theorem State.log_hostRead (s : State) (cls severity code unit : Nat) (job step : Word) (data : List Byte) : (s.log cls severity code unit job step data).hostRead = s.hostRead := by rw [State.log_frame]
@[simp] theorem State.log_pending (s : State) (cls severity code unit : Nat) (job step : Word) (data : List Byte) : (s.log cls severity code unit job step data).pending = s.pending := by rw [State.log_frame]

/-! ## State.logPlain -/

/-- Only mgt, regs, pba, irqs may change. -/
theorem State.logPlain_frame (s : State) (cls severity code : Nat) (data : List Byte) :
    s.logPlain cls severity code data = { s with mgt := (s.logPlain cls severity code data).mgt, regs := (s.logPlain cls severity code data).regs, pba := (s.logPlain cls severity code data).pba, irqs := (s.logPlain cls severity code data).irqs } := State.log_frame s cls severity code 0xFFFF noJob noJob data
@[simp] theorem State.logPlain_clk (s : State) (cls severity code : Nat) (data : List Byte) : (s.logPlain cls severity code data).clk = s.clk := by rw [State.logPlain_frame]
@[simp] theorem State.logPlain_free (s : State) (cls severity code : Nat) (data : List Byte) : (s.logPlain cls severity code data).free = s.free := by rw [State.logPlain_frame]
@[simp] theorem State.logPlain_mem (s : State) (cls severity code : Nat) (data : List Byte) : (s.logPlain cls severity code data).mem = s.mem := by rw [State.logPlain_frame]
@[simp] theorem State.logPlain_host (s : State) (cls severity code : Nat) (data : List Byte) : (s.logPlain cls severity code data).host = s.host := by rw [State.logPlain_frame]
@[simp] theorem State.logPlain_bar2 (s : State) (cls severity code : Nat) (data : List Byte) : (s.logPlain cls severity code data).bar2 = s.bar2 := by rw [State.logPlain_frame]
@[simp] theorem State.logPlain_wide (s : State) (cls severity code : Nat) (data : List Byte) : (s.logPlain cls severity code data).wide = s.wide := by rw [State.logPlain_frame]
@[simp] theorem State.logPlain_published (s : State) (cls severity code : Nat) (data : List Byte) : (s.logPlain cls severity code data).published = s.published := by rw [State.logPlain_frame]
@[simp] theorem State.logPlain_rings (s : State) (cls severity code : Nat) (data : List Byte) : (s.logPlain cls severity code data).rings = s.rings := by rw [State.logPlain_frame]
@[simp] theorem State.logPlain_held (s : State) (cls severity code : Nat) (data : List Byte) : (s.logPlain cls severity code data).held = s.held := by rw [State.logPlain_frame]
@[simp] theorem State.logPlain_progress (s : State) (cls severity code : Nat) (data : List Byte) : (s.logPlain cls severity code data).progress = s.progress := by rw [State.logPlain_frame]
@[simp] theorem State.logPlain_shown (s : State) (cls severity code : Nat) (data : List Byte) : (s.logPlain cls severity code data).shown = s.shown := by rw [State.logPlain_frame]
@[simp] theorem State.logPlain_msix (s : State) (cls severity code : Nat) (data : List Byte) : (s.logPlain cls severity code data).msix = s.msix := by rw [State.logPlain_frame]
@[simp] theorem State.logPlain_running (s : State) (cls severity code : Nat) (data : List Byte) : (s.logPlain cls severity code data).running = s.running := by rw [State.logPlain_frame]
@[simp] theorem State.logPlain_starts (s : State) (cls severity code : Nat) (data : List Byte) : (s.logPlain cls severity code data).starts = s.starts := by rw [State.logPlain_frame]
@[simp] theorem State.logPlain_job (s : State) (cls severity code : Nat) (data : List Byte) : (s.logPlain cls severity code data).job = s.job := by rw [State.logPlain_frame]
@[simp] theorem State.logPlain_memory (s : State) (cls severity code : Nat) (data : List Byte) : (s.logPlain cls severity code data).memory = s.memory := by rw [State.logPlain_frame]
@[simp] theorem State.logPlain_ingest (s : State) (cls severity code : Nat) (data : List Byte) : (s.logPlain cls severity code data).ingest = s.ingest := by rw [State.logPlain_frame]
@[simp] theorem State.logPlain_samples (s : State) (cls severity code : Nat) (data : List Byte) : (s.logPlain cls severity code data).samples = s.samples := by rw [State.logPlain_frame]
@[simp] theorem State.logPlain_emb (s : State) (cls severity code : Nat) (data : List Byte) : (s.logPlain cls severity code data).emb = s.emb := by rw [State.logPlain_frame]
@[simp] theorem State.logPlain_dir (s : State) (cls severity code : Nat) (data : List Byte) : (s.logPlain cls severity code data).dir = s.dir := by rw [State.logPlain_frame]
@[simp] theorem State.logPlain_graph (s : State) (cls severity code : Nat) (data : List Byte) : (s.logPlain cls severity code data).graph = s.graph := by rw [State.logPlain_frame]
@[simp] theorem State.logPlain_relay (s : State) (cls severity code : Nat) (data : List Byte) : (s.logPlain cls severity code data).relay = s.relay := by rw [State.logPlain_frame]
@[simp] theorem State.logPlain_integrity (s : State) (cls severity code : Nat) (data : List Byte) : (s.logPlain cls severity code data).integrity = s.integrity := by rw [State.logPlain_frame]
@[simp] theorem State.logPlain_sec (s : State) (cls severity code : Nat) (data : List Byte) : (s.logPlain cls severity code data).sec = s.sec := by rw [State.logPlain_frame]
@[simp] theorem State.logPlain_meter (s : State) (cls severity code : Nat) (data : List Byte) : (s.logPlain cls severity code data).meter = s.meter := by rw [State.logPlain_frame]
@[simp] theorem State.logPlain_mirror (s : State) (cls severity code : Nat) (data : List Byte) : (s.logPlain cls severity code data).mirror = s.mirror := by rw [State.logPlain_frame]
@[simp] theorem State.logPlain_pwr (s : State) (cls severity code : Nat) (data : List Byte) : (s.logPlain cls severity code data).pwr = s.pwr := by rw [State.logPlain_frame]
@[simp] theorem State.logPlain_glb (s : State) (cls severity code : Nat) (data : List Byte) : (s.logPlain cls severity code data).glb = s.glb := by rw [State.logPlain_frame]
@[simp] theorem State.logPlain_sent (s : State) (cls severity code : Nat) (data : List Byte) : (s.logPlain cls severity code data).sent = s.sent := by rw [State.logPlain_frame]
@[simp] theorem State.logPlain_hostRead (s : State) (cls severity code : Nat) (data : List Byte) : (s.logPlain cls severity code data).hostRead = s.hostRead := by rw [State.logPlain_frame]
@[simp] theorem State.logPlain_pending (s : State) (cls severity code : Nat) (data : List Byte) : (s.logPlain cls severity code data).pending = s.pending := by rw [State.logPlain_frame]

/-! ## State.store -/

/-- Only mem, host, memory may change. -/
theorem State.store_frame (s : State) (a : Nat) (b : List Byte) :
    s.store a b = { s with mem := (s.store a b).mem, host := (s.store a b).host, memory := (s.store a b).memory } := by
  unfold State.store
  split <;> rfl
@[simp] theorem State.store_clk (s : State) (a : Nat) (b : List Byte) : (s.store a b).clk = s.clk := by rw [State.store_frame]
@[simp] theorem State.store_free (s : State) (a : Nat) (b : List Byte) : (s.store a b).free = s.free := by rw [State.store_frame]
@[simp] theorem State.store_bar2 (s : State) (a : Nat) (b : List Byte) : (s.store a b).bar2 = s.bar2 := by rw [State.store_frame]
@[simp] theorem State.store_regs (s : State) (a : Nat) (b : List Byte) : (s.store a b).regs = s.regs := by rw [State.store_frame]
@[simp] theorem State.store_wide (s : State) (a : Nat) (b : List Byte) : (s.store a b).wide = s.wide := by rw [State.store_frame]
@[simp] theorem State.store_published (s : State) (a : Nat) (b : List Byte) : (s.store a b).published = s.published := by rw [State.store_frame]
@[simp] theorem State.store_rings (s : State) (a : Nat) (b : List Byte) : (s.store a b).rings = s.rings := by rw [State.store_frame]
@[simp] theorem State.store_held (s : State) (a : Nat) (b : List Byte) : (s.store a b).held = s.held := by rw [State.store_frame]
@[simp] theorem State.store_progress (s : State) (a : Nat) (b : List Byte) : (s.store a b).progress = s.progress := by rw [State.store_frame]
@[simp] theorem State.store_shown (s : State) (a : Nat) (b : List Byte) : (s.store a b).shown = s.shown := by rw [State.store_frame]
@[simp] theorem State.store_msix (s : State) (a : Nat) (b : List Byte) : (s.store a b).msix = s.msix := by rw [State.store_frame]
@[simp] theorem State.store_pba (s : State) (a : Nat) (b : List Byte) : (s.store a b).pba = s.pba := by rw [State.store_frame]
@[simp] theorem State.store_running (s : State) (a : Nat) (b : List Byte) : (s.store a b).running = s.running := by rw [State.store_frame]
@[simp] theorem State.store_starts (s : State) (a : Nat) (b : List Byte) : (s.store a b).starts = s.starts := by rw [State.store_frame]
@[simp] theorem State.store_job (s : State) (a : Nat) (b : List Byte) : (s.store a b).job = s.job := by rw [State.store_frame]
@[simp] theorem State.store_ingest (s : State) (a : Nat) (b : List Byte) : (s.store a b).ingest = s.ingest := by rw [State.store_frame]
@[simp] theorem State.store_samples (s : State) (a : Nat) (b : List Byte) : (s.store a b).samples = s.samples := by rw [State.store_frame]
@[simp] theorem State.store_emb (s : State) (a : Nat) (b : List Byte) : (s.store a b).emb = s.emb := by rw [State.store_frame]
@[simp] theorem State.store_dir (s : State) (a : Nat) (b : List Byte) : (s.store a b).dir = s.dir := by rw [State.store_frame]
@[simp] theorem State.store_graph (s : State) (a : Nat) (b : List Byte) : (s.store a b).graph = s.graph := by rw [State.store_frame]
@[simp] theorem State.store_relay (s : State) (a : Nat) (b : List Byte) : (s.store a b).relay = s.relay := by rw [State.store_frame]
@[simp] theorem State.store_integrity (s : State) (a : Nat) (b : List Byte) : (s.store a b).integrity = s.integrity := by rw [State.store_frame]
@[simp] theorem State.store_sec (s : State) (a : Nat) (b : List Byte) : (s.store a b).sec = s.sec := by rw [State.store_frame]
@[simp] theorem State.store_mgt (s : State) (a : Nat) (b : List Byte) : (s.store a b).mgt = s.mgt := by rw [State.store_frame]
@[simp] theorem State.store_meter (s : State) (a : Nat) (b : List Byte) : (s.store a b).meter = s.meter := by rw [State.store_frame]
@[simp] theorem State.store_mirror (s : State) (a : Nat) (b : List Byte) : (s.store a b).mirror = s.mirror := by rw [State.store_frame]
@[simp] theorem State.store_pwr (s : State) (a : Nat) (b : List Byte) : (s.store a b).pwr = s.pwr := by rw [State.store_frame]
@[simp] theorem State.store_glb (s : State) (a : Nat) (b : List Byte) : (s.store a b).glb = s.glb := by rw [State.store_frame]
@[simp] theorem State.store_irqs (s : State) (a : Nat) (b : List Byte) : (s.store a b).irqs = s.irqs := by rw [State.store_frame]
@[simp] theorem State.store_sent (s : State) (a : Nat) (b : List Byte) : (s.store a b).sent = s.sent := by rw [State.store_frame]
@[simp] theorem State.store_hostRead (s : State) (a : Nat) (b : List Byte) : (s.store a b).hostRead = s.hostRead := by rw [State.store_frame]
@[simp] theorem State.store_pending (s : State) (a : Nat) (b : List Byte) : (s.store a b).pending = s.pending := by rw [State.store_frame]

/-! ## State.scramble -/

/-- Only mem, host, memory, free may change. -/
theorem State.scramble_frame (s : State) (a n : Nat) :
    s.scramble a n = { s with mem := (s.scramble a n).mem, host := (s.scramble a n).host, memory := (s.scramble a n).memory, free := (s.scramble a n).free } := by
  unfold State.scramble
  simp only []
  rw [State.store_frame]
@[simp] theorem State.scramble_clk (s : State) (a n : Nat) : (s.scramble a n).clk = s.clk := by rw [State.scramble_frame]
@[simp] theorem State.scramble_bar2 (s : State) (a n : Nat) : (s.scramble a n).bar2 = s.bar2 := by rw [State.scramble_frame]
@[simp] theorem State.scramble_regs (s : State) (a n : Nat) : (s.scramble a n).regs = s.regs := by rw [State.scramble_frame]
@[simp] theorem State.scramble_wide (s : State) (a n : Nat) : (s.scramble a n).wide = s.wide := by rw [State.scramble_frame]
@[simp] theorem State.scramble_published (s : State) (a n : Nat) : (s.scramble a n).published = s.published := by rw [State.scramble_frame]
@[simp] theorem State.scramble_rings (s : State) (a n : Nat) : (s.scramble a n).rings = s.rings := by rw [State.scramble_frame]
@[simp] theorem State.scramble_held (s : State) (a n : Nat) : (s.scramble a n).held = s.held := by rw [State.scramble_frame]
@[simp] theorem State.scramble_progress (s : State) (a n : Nat) : (s.scramble a n).progress = s.progress := by rw [State.scramble_frame]
@[simp] theorem State.scramble_shown (s : State) (a n : Nat) : (s.scramble a n).shown = s.shown := by rw [State.scramble_frame]
@[simp] theorem State.scramble_msix (s : State) (a n : Nat) : (s.scramble a n).msix = s.msix := by rw [State.scramble_frame]
@[simp] theorem State.scramble_pba (s : State) (a n : Nat) : (s.scramble a n).pba = s.pba := by rw [State.scramble_frame]
@[simp] theorem State.scramble_running (s : State) (a n : Nat) : (s.scramble a n).running = s.running := by rw [State.scramble_frame]
@[simp] theorem State.scramble_starts (s : State) (a n : Nat) : (s.scramble a n).starts = s.starts := by rw [State.scramble_frame]
@[simp] theorem State.scramble_job (s : State) (a n : Nat) : (s.scramble a n).job = s.job := by rw [State.scramble_frame]
@[simp] theorem State.scramble_ingest (s : State) (a n : Nat) : (s.scramble a n).ingest = s.ingest := by rw [State.scramble_frame]
@[simp] theorem State.scramble_samples (s : State) (a n : Nat) : (s.scramble a n).samples = s.samples := by rw [State.scramble_frame]
@[simp] theorem State.scramble_emb (s : State) (a n : Nat) : (s.scramble a n).emb = s.emb := by rw [State.scramble_frame]
@[simp] theorem State.scramble_dir (s : State) (a n : Nat) : (s.scramble a n).dir = s.dir := by rw [State.scramble_frame]
@[simp] theorem State.scramble_graph (s : State) (a n : Nat) : (s.scramble a n).graph = s.graph := by rw [State.scramble_frame]
@[simp] theorem State.scramble_relay (s : State) (a n : Nat) : (s.scramble a n).relay = s.relay := by rw [State.scramble_frame]
@[simp] theorem State.scramble_integrity (s : State) (a n : Nat) : (s.scramble a n).integrity = s.integrity := by rw [State.scramble_frame]
@[simp] theorem State.scramble_sec (s : State) (a n : Nat) : (s.scramble a n).sec = s.sec := by rw [State.scramble_frame]
@[simp] theorem State.scramble_mgt (s : State) (a n : Nat) : (s.scramble a n).mgt = s.mgt := by rw [State.scramble_frame]
@[simp] theorem State.scramble_meter (s : State) (a n : Nat) : (s.scramble a n).meter = s.meter := by rw [State.scramble_frame]
@[simp] theorem State.scramble_mirror (s : State) (a n : Nat) : (s.scramble a n).mirror = s.mirror := by rw [State.scramble_frame]
@[simp] theorem State.scramble_pwr (s : State) (a n : Nat) : (s.scramble a n).pwr = s.pwr := by rw [State.scramble_frame]
@[simp] theorem State.scramble_glb (s : State) (a n : Nat) : (s.scramble a n).glb = s.glb := by rw [State.scramble_frame]
@[simp] theorem State.scramble_irqs (s : State) (a n : Nat) : (s.scramble a n).irqs = s.irqs := by rw [State.scramble_frame]
@[simp] theorem State.scramble_sent (s : State) (a n : Nat) : (s.scramble a n).sent = s.sent := by rw [State.scramble_frame]
@[simp] theorem State.scramble_hostRead (s : State) (a n : Nat) : (s.scramble a n).hostRead = s.hostRead := by rw [State.scramble_frame]
@[simp] theorem State.scramble_pending (s : State) (a n : Nat) : (s.scramble a n).pending = s.pending := by rw [State.scramble_frame]

/-! ## State.zero -/

/-- Only mem, host may change. -/
theorem State.zero_frame (s : State) (a n : Nat) :
    s.zero a n = { s with mem := (s.zero a n).mem, host := (s.zero a n).host } := by
  unfold State.zero
  split <;> rfl
@[simp] theorem State.zero_clk (s : State) (a n : Nat) : (s.zero a n).clk = s.clk := by rw [State.zero_frame]
@[simp] theorem State.zero_free (s : State) (a n : Nat) : (s.zero a n).free = s.free := by rw [State.zero_frame]
@[simp] theorem State.zero_bar2 (s : State) (a n : Nat) : (s.zero a n).bar2 = s.bar2 := by rw [State.zero_frame]
@[simp] theorem State.zero_regs (s : State) (a n : Nat) : (s.zero a n).regs = s.regs := by rw [State.zero_frame]
@[simp] theorem State.zero_wide (s : State) (a n : Nat) : (s.zero a n).wide = s.wide := by rw [State.zero_frame]
@[simp] theorem State.zero_published (s : State) (a n : Nat) : (s.zero a n).published = s.published := by rw [State.zero_frame]
@[simp] theorem State.zero_rings (s : State) (a n : Nat) : (s.zero a n).rings = s.rings := by rw [State.zero_frame]
@[simp] theorem State.zero_held (s : State) (a n : Nat) : (s.zero a n).held = s.held := by rw [State.zero_frame]
@[simp] theorem State.zero_progress (s : State) (a n : Nat) : (s.zero a n).progress = s.progress := by rw [State.zero_frame]
@[simp] theorem State.zero_shown (s : State) (a n : Nat) : (s.zero a n).shown = s.shown := by rw [State.zero_frame]
@[simp] theorem State.zero_msix (s : State) (a n : Nat) : (s.zero a n).msix = s.msix := by rw [State.zero_frame]
@[simp] theorem State.zero_pba (s : State) (a n : Nat) : (s.zero a n).pba = s.pba := by rw [State.zero_frame]
@[simp] theorem State.zero_running (s : State) (a n : Nat) : (s.zero a n).running = s.running := by rw [State.zero_frame]
@[simp] theorem State.zero_starts (s : State) (a n : Nat) : (s.zero a n).starts = s.starts := by rw [State.zero_frame]
@[simp] theorem State.zero_job (s : State) (a n : Nat) : (s.zero a n).job = s.job := by rw [State.zero_frame]
@[simp] theorem State.zero_memory (s : State) (a n : Nat) : (s.zero a n).memory = s.memory := by rw [State.zero_frame]
@[simp] theorem State.zero_ingest (s : State) (a n : Nat) : (s.zero a n).ingest = s.ingest := by rw [State.zero_frame]
@[simp] theorem State.zero_samples (s : State) (a n : Nat) : (s.zero a n).samples = s.samples := by rw [State.zero_frame]
@[simp] theorem State.zero_emb (s : State) (a n : Nat) : (s.zero a n).emb = s.emb := by rw [State.zero_frame]
@[simp] theorem State.zero_dir (s : State) (a n : Nat) : (s.zero a n).dir = s.dir := by rw [State.zero_frame]
@[simp] theorem State.zero_graph (s : State) (a n : Nat) : (s.zero a n).graph = s.graph := by rw [State.zero_frame]
@[simp] theorem State.zero_relay (s : State) (a n : Nat) : (s.zero a n).relay = s.relay := by rw [State.zero_frame]
@[simp] theorem State.zero_integrity (s : State) (a n : Nat) : (s.zero a n).integrity = s.integrity := by rw [State.zero_frame]
@[simp] theorem State.zero_sec (s : State) (a n : Nat) : (s.zero a n).sec = s.sec := by rw [State.zero_frame]
@[simp] theorem State.zero_mgt (s : State) (a n : Nat) : (s.zero a n).mgt = s.mgt := by rw [State.zero_frame]
@[simp] theorem State.zero_meter (s : State) (a n : Nat) : (s.zero a n).meter = s.meter := by rw [State.zero_frame]
@[simp] theorem State.zero_mirror (s : State) (a n : Nat) : (s.zero a n).mirror = s.mirror := by rw [State.zero_frame]
@[simp] theorem State.zero_pwr (s : State) (a n : Nat) : (s.zero a n).pwr = s.pwr := by rw [State.zero_frame]
@[simp] theorem State.zero_glb (s : State) (a n : Nat) : (s.zero a n).glb = s.glb := by rw [State.zero_frame]
@[simp] theorem State.zero_irqs (s : State) (a n : Nat) : (s.zero a n).irqs = s.irqs := by rw [State.zero_frame]
@[simp] theorem State.zero_sent (s : State) (a n : Nat) : (s.zero a n).sent = s.sent := by rw [State.zero_frame]
@[simp] theorem State.zero_hostRead (s : State) (a n : Nat) : (s.zero a n).hostRead = s.hostRead := by rw [State.zero_frame]
@[simp] theorem State.zero_pending (s : State) (a n : Nat) : (s.zero a n).pending = s.pending := by rw [State.zero_frame]

/-! ## State.guard -/

/-- Only memory may change. -/
theorem State.guard_frame (s : State) (k : GuardKind) (id : Nat) (r : Range) (hidden : Bool) :
    s.guard k id r hidden = { s with memory := (s.guard k id r hidden).memory } := rfl
@[simp] theorem State.guard_clk (s : State) (k : GuardKind) (id : Nat) (r : Range) (hidden : Bool) : (s.guard k id r hidden).clk = s.clk := rfl
@[simp] theorem State.guard_free (s : State) (k : GuardKind) (id : Nat) (r : Range) (hidden : Bool) : (s.guard k id r hidden).free = s.free := rfl
@[simp] theorem State.guard_mem (s : State) (k : GuardKind) (id : Nat) (r : Range) (hidden : Bool) : (s.guard k id r hidden).mem = s.mem := rfl
@[simp] theorem State.guard_host (s : State) (k : GuardKind) (id : Nat) (r : Range) (hidden : Bool) : (s.guard k id r hidden).host = s.host := rfl
@[simp] theorem State.guard_bar2 (s : State) (k : GuardKind) (id : Nat) (r : Range) (hidden : Bool) : (s.guard k id r hidden).bar2 = s.bar2 := rfl
@[simp] theorem State.guard_regs (s : State) (k : GuardKind) (id : Nat) (r : Range) (hidden : Bool) : (s.guard k id r hidden).regs = s.regs := rfl
@[simp] theorem State.guard_wide (s : State) (k : GuardKind) (id : Nat) (r : Range) (hidden : Bool) : (s.guard k id r hidden).wide = s.wide := rfl
@[simp] theorem State.guard_published (s : State) (k : GuardKind) (id : Nat) (r : Range) (hidden : Bool) : (s.guard k id r hidden).published = s.published := rfl
@[simp] theorem State.guard_rings (s : State) (k : GuardKind) (id : Nat) (r : Range) (hidden : Bool) : (s.guard k id r hidden).rings = s.rings := rfl
@[simp] theorem State.guard_held (s : State) (k : GuardKind) (id : Nat) (r : Range) (hidden : Bool) : (s.guard k id r hidden).held = s.held := rfl
@[simp] theorem State.guard_progress (s : State) (k : GuardKind) (id : Nat) (r : Range) (hidden : Bool) : (s.guard k id r hidden).progress = s.progress := rfl
@[simp] theorem State.guard_shown (s : State) (k : GuardKind) (id : Nat) (r : Range) (hidden : Bool) : (s.guard k id r hidden).shown = s.shown := rfl
@[simp] theorem State.guard_msix (s : State) (k : GuardKind) (id : Nat) (r : Range) (hidden : Bool) : (s.guard k id r hidden).msix = s.msix := rfl
@[simp] theorem State.guard_pba (s : State) (k : GuardKind) (id : Nat) (r : Range) (hidden : Bool) : (s.guard k id r hidden).pba = s.pba := rfl
@[simp] theorem State.guard_running (s : State) (k : GuardKind) (id : Nat) (r : Range) (hidden : Bool) : (s.guard k id r hidden).running = s.running := rfl
@[simp] theorem State.guard_starts (s : State) (k : GuardKind) (id : Nat) (r : Range) (hidden : Bool) : (s.guard k id r hidden).starts = s.starts := rfl
@[simp] theorem State.guard_job (s : State) (k : GuardKind) (id : Nat) (r : Range) (hidden : Bool) : (s.guard k id r hidden).job = s.job := rfl
@[simp] theorem State.guard_ingest (s : State) (k : GuardKind) (id : Nat) (r : Range) (hidden : Bool) : (s.guard k id r hidden).ingest = s.ingest := rfl
@[simp] theorem State.guard_samples (s : State) (k : GuardKind) (id : Nat) (r : Range) (hidden : Bool) : (s.guard k id r hidden).samples = s.samples := rfl
@[simp] theorem State.guard_emb (s : State) (k : GuardKind) (id : Nat) (r : Range) (hidden : Bool) : (s.guard k id r hidden).emb = s.emb := rfl
@[simp] theorem State.guard_dir (s : State) (k : GuardKind) (id : Nat) (r : Range) (hidden : Bool) : (s.guard k id r hidden).dir = s.dir := rfl
@[simp] theorem State.guard_graph (s : State) (k : GuardKind) (id : Nat) (r : Range) (hidden : Bool) : (s.guard k id r hidden).graph = s.graph := rfl
@[simp] theorem State.guard_relay (s : State) (k : GuardKind) (id : Nat) (r : Range) (hidden : Bool) : (s.guard k id r hidden).relay = s.relay := rfl
@[simp] theorem State.guard_integrity (s : State) (k : GuardKind) (id : Nat) (r : Range) (hidden : Bool) : (s.guard k id r hidden).integrity = s.integrity := rfl
@[simp] theorem State.guard_sec (s : State) (k : GuardKind) (id : Nat) (r : Range) (hidden : Bool) : (s.guard k id r hidden).sec = s.sec := rfl
@[simp] theorem State.guard_mgt (s : State) (k : GuardKind) (id : Nat) (r : Range) (hidden : Bool) : (s.guard k id r hidden).mgt = s.mgt := rfl
@[simp] theorem State.guard_meter (s : State) (k : GuardKind) (id : Nat) (r : Range) (hidden : Bool) : (s.guard k id r hidden).meter = s.meter := rfl
@[simp] theorem State.guard_mirror (s : State) (k : GuardKind) (id : Nat) (r : Range) (hidden : Bool) : (s.guard k id r hidden).mirror = s.mirror := rfl
@[simp] theorem State.guard_pwr (s : State) (k : GuardKind) (id : Nat) (r : Range) (hidden : Bool) : (s.guard k id r hidden).pwr = s.pwr := rfl
@[simp] theorem State.guard_glb (s : State) (k : GuardKind) (id : Nat) (r : Range) (hidden : Bool) : (s.guard k id r hidden).glb = s.glb := rfl
@[simp] theorem State.guard_irqs (s : State) (k : GuardKind) (id : Nat) (r : Range) (hidden : Bool) : (s.guard k id r hidden).irqs = s.irqs := rfl
@[simp] theorem State.guard_sent (s : State) (k : GuardKind) (id : Nat) (r : Range) (hidden : Bool) : (s.guard k id r hidden).sent = s.sent := rfl
@[simp] theorem State.guard_hostRead (s : State) (k : GuardKind) (id : Nat) (r : Range) (hidden : Bool) : (s.guard k id r hidden).hostRead = s.hostRead := rfl
@[simp] theorem State.guard_pending (s : State) (k : GuardKind) (id : Nat) (r : Range) (hidden : Bool) : (s.guard k id r hidden).pending = s.pending := rfl

/-! ## State.unguard -/

/-- Only memory may change. -/
theorem State.unguard_frame (s : State) (k : GuardKind) (id : Nat) :
    s.unguard k id = { s with memory := (s.unguard k id).memory } := rfl
@[simp] theorem State.unguard_clk (s : State) (k : GuardKind) (id : Nat) : (s.unguard k id).clk = s.clk := rfl
@[simp] theorem State.unguard_free (s : State) (k : GuardKind) (id : Nat) : (s.unguard k id).free = s.free := rfl
@[simp] theorem State.unguard_mem (s : State) (k : GuardKind) (id : Nat) : (s.unguard k id).mem = s.mem := rfl
@[simp] theorem State.unguard_host (s : State) (k : GuardKind) (id : Nat) : (s.unguard k id).host = s.host := rfl
@[simp] theorem State.unguard_bar2 (s : State) (k : GuardKind) (id : Nat) : (s.unguard k id).bar2 = s.bar2 := rfl
@[simp] theorem State.unguard_regs (s : State) (k : GuardKind) (id : Nat) : (s.unguard k id).regs = s.regs := rfl
@[simp] theorem State.unguard_wide (s : State) (k : GuardKind) (id : Nat) : (s.unguard k id).wide = s.wide := rfl
@[simp] theorem State.unguard_published (s : State) (k : GuardKind) (id : Nat) : (s.unguard k id).published = s.published := rfl
@[simp] theorem State.unguard_rings (s : State) (k : GuardKind) (id : Nat) : (s.unguard k id).rings = s.rings := rfl
@[simp] theorem State.unguard_held (s : State) (k : GuardKind) (id : Nat) : (s.unguard k id).held = s.held := rfl
@[simp] theorem State.unguard_progress (s : State) (k : GuardKind) (id : Nat) : (s.unguard k id).progress = s.progress := rfl
@[simp] theorem State.unguard_shown (s : State) (k : GuardKind) (id : Nat) : (s.unguard k id).shown = s.shown := rfl
@[simp] theorem State.unguard_msix (s : State) (k : GuardKind) (id : Nat) : (s.unguard k id).msix = s.msix := rfl
@[simp] theorem State.unguard_pba (s : State) (k : GuardKind) (id : Nat) : (s.unguard k id).pba = s.pba := rfl
@[simp] theorem State.unguard_running (s : State) (k : GuardKind) (id : Nat) : (s.unguard k id).running = s.running := rfl
@[simp] theorem State.unguard_starts (s : State) (k : GuardKind) (id : Nat) : (s.unguard k id).starts = s.starts := rfl
@[simp] theorem State.unguard_job (s : State) (k : GuardKind) (id : Nat) : (s.unguard k id).job = s.job := rfl
@[simp] theorem State.unguard_ingest (s : State) (k : GuardKind) (id : Nat) : (s.unguard k id).ingest = s.ingest := rfl
@[simp] theorem State.unguard_samples (s : State) (k : GuardKind) (id : Nat) : (s.unguard k id).samples = s.samples := rfl
@[simp] theorem State.unguard_emb (s : State) (k : GuardKind) (id : Nat) : (s.unguard k id).emb = s.emb := rfl
@[simp] theorem State.unguard_dir (s : State) (k : GuardKind) (id : Nat) : (s.unguard k id).dir = s.dir := rfl
@[simp] theorem State.unguard_graph (s : State) (k : GuardKind) (id : Nat) : (s.unguard k id).graph = s.graph := rfl
@[simp] theorem State.unguard_relay (s : State) (k : GuardKind) (id : Nat) : (s.unguard k id).relay = s.relay := rfl
@[simp] theorem State.unguard_integrity (s : State) (k : GuardKind) (id : Nat) : (s.unguard k id).integrity = s.integrity := rfl
@[simp] theorem State.unguard_sec (s : State) (k : GuardKind) (id : Nat) : (s.unguard k id).sec = s.sec := rfl
@[simp] theorem State.unguard_mgt (s : State) (k : GuardKind) (id : Nat) : (s.unguard k id).mgt = s.mgt := rfl
@[simp] theorem State.unguard_meter (s : State) (k : GuardKind) (id : Nat) : (s.unguard k id).meter = s.meter := rfl
@[simp] theorem State.unguard_mirror (s : State) (k : GuardKind) (id : Nat) : (s.unguard k id).mirror = s.mirror := rfl
@[simp] theorem State.unguard_pwr (s : State) (k : GuardKind) (id : Nat) : (s.unguard k id).pwr = s.pwr := rfl
@[simp] theorem State.unguard_glb (s : State) (k : GuardKind) (id : Nat) : (s.unguard k id).glb = s.glb := rfl
@[simp] theorem State.unguard_irqs (s : State) (k : GuardKind) (id : Nat) : (s.unguard k id).irqs = s.irqs := rfl
@[simp] theorem State.unguard_sent (s : State) (k : GuardKind) (id : Nat) : (s.unguard k id).sent = s.sent := rfl
@[simp] theorem State.unguard_hostRead (s : State) (k : GuardKind) (id : Nat) : (s.unguard k id).hostRead = s.hostRead := rfl
@[simp] theorem State.unguard_pending (s : State) (k : GuardKind) (id : Nat) : (s.unguard k id).pending = s.pending := rfl

/-! ## State.setJob -/

/-- Only job may change. -/
theorem State.setJob_frame (s : State) (slot : Nat) (j : Job) :
    s.setJob slot j = { s with job := (s.setJob slot j).job } := rfl
@[simp] theorem State.setJob_clk (s : State) (slot : Nat) (j : Job) : (s.setJob slot j).clk = s.clk := rfl
@[simp] theorem State.setJob_free (s : State) (slot : Nat) (j : Job) : (s.setJob slot j).free = s.free := rfl
@[simp] theorem State.setJob_mem (s : State) (slot : Nat) (j : Job) : (s.setJob slot j).mem = s.mem := rfl
@[simp] theorem State.setJob_host (s : State) (slot : Nat) (j : Job) : (s.setJob slot j).host = s.host := rfl
@[simp] theorem State.setJob_bar2 (s : State) (slot : Nat) (j : Job) : (s.setJob slot j).bar2 = s.bar2 := rfl
@[simp] theorem State.setJob_regs (s : State) (slot : Nat) (j : Job) : (s.setJob slot j).regs = s.regs := rfl
@[simp] theorem State.setJob_wide (s : State) (slot : Nat) (j : Job) : (s.setJob slot j).wide = s.wide := rfl
@[simp] theorem State.setJob_published (s : State) (slot : Nat) (j : Job) : (s.setJob slot j).published = s.published := rfl
@[simp] theorem State.setJob_rings (s : State) (slot : Nat) (j : Job) : (s.setJob slot j).rings = s.rings := rfl
@[simp] theorem State.setJob_held (s : State) (slot : Nat) (j : Job) : (s.setJob slot j).held = s.held := rfl
@[simp] theorem State.setJob_progress (s : State) (slot : Nat) (j : Job) : (s.setJob slot j).progress = s.progress := rfl
@[simp] theorem State.setJob_shown (s : State) (slot : Nat) (j : Job) : (s.setJob slot j).shown = s.shown := rfl
@[simp] theorem State.setJob_msix (s : State) (slot : Nat) (j : Job) : (s.setJob slot j).msix = s.msix := rfl
@[simp] theorem State.setJob_pba (s : State) (slot : Nat) (j : Job) : (s.setJob slot j).pba = s.pba := rfl
@[simp] theorem State.setJob_running (s : State) (slot : Nat) (j : Job) : (s.setJob slot j).running = s.running := rfl
@[simp] theorem State.setJob_starts (s : State) (slot : Nat) (j : Job) : (s.setJob slot j).starts = s.starts := rfl
@[simp] theorem State.setJob_memory (s : State) (slot : Nat) (j : Job) : (s.setJob slot j).memory = s.memory := rfl
@[simp] theorem State.setJob_ingest (s : State) (slot : Nat) (j : Job) : (s.setJob slot j).ingest = s.ingest := rfl
@[simp] theorem State.setJob_samples (s : State) (slot : Nat) (j : Job) : (s.setJob slot j).samples = s.samples := rfl
@[simp] theorem State.setJob_emb (s : State) (slot : Nat) (j : Job) : (s.setJob slot j).emb = s.emb := rfl
@[simp] theorem State.setJob_dir (s : State) (slot : Nat) (j : Job) : (s.setJob slot j).dir = s.dir := rfl
@[simp] theorem State.setJob_graph (s : State) (slot : Nat) (j : Job) : (s.setJob slot j).graph = s.graph := rfl
@[simp] theorem State.setJob_relay (s : State) (slot : Nat) (j : Job) : (s.setJob slot j).relay = s.relay := rfl
@[simp] theorem State.setJob_integrity (s : State) (slot : Nat) (j : Job) : (s.setJob slot j).integrity = s.integrity := rfl
@[simp] theorem State.setJob_sec (s : State) (slot : Nat) (j : Job) : (s.setJob slot j).sec = s.sec := rfl
@[simp] theorem State.setJob_mgt (s : State) (slot : Nat) (j : Job) : (s.setJob slot j).mgt = s.mgt := rfl
@[simp] theorem State.setJob_meter (s : State) (slot : Nat) (j : Job) : (s.setJob slot j).meter = s.meter := rfl
@[simp] theorem State.setJob_mirror (s : State) (slot : Nat) (j : Job) : (s.setJob slot j).mirror = s.mirror := rfl
@[simp] theorem State.setJob_pwr (s : State) (slot : Nat) (j : Job) : (s.setJob slot j).pwr = s.pwr := rfl
@[simp] theorem State.setJob_glb (s : State) (slot : Nat) (j : Job) : (s.setJob slot j).glb = s.glb := rfl
@[simp] theorem State.setJob_irqs (s : State) (slot : Nat) (j : Job) : (s.setJob slot j).irqs = s.irqs := rfl
@[simp] theorem State.setJob_sent (s : State) (slot : Nat) (j : Job) : (s.setJob slot j).sent = s.sent := rfl
@[simp] theorem State.setJob_hostRead (s : State) (slot : Nat) (j : Job) : (s.setJob slot j).hostRead = s.hostRead := rfl
@[simp] theorem State.setJob_pending (s : State) (slot : Nat) (j : Job) : (s.setJob slot j).pending = s.pending := rfl

/-! ## State.onJob -/

/-- Only job may change. -/
theorem State.onJob_frame (s : State) (slot : Nat) (f : Job → Job) :
    s.onJob slot f = { s with job := (s.onJob slot f).job } := by
  unfold State.onJob
  split <;> rfl
@[simp] theorem State.onJob_clk (s : State) (slot : Nat) (f : Job → Job) : (s.onJob slot f).clk = s.clk := by rw [State.onJob_frame]
@[simp] theorem State.onJob_free (s : State) (slot : Nat) (f : Job → Job) : (s.onJob slot f).free = s.free := by rw [State.onJob_frame]
@[simp] theorem State.onJob_mem (s : State) (slot : Nat) (f : Job → Job) : (s.onJob slot f).mem = s.mem := by rw [State.onJob_frame]
@[simp] theorem State.onJob_host (s : State) (slot : Nat) (f : Job → Job) : (s.onJob slot f).host = s.host := by rw [State.onJob_frame]
@[simp] theorem State.onJob_bar2 (s : State) (slot : Nat) (f : Job → Job) : (s.onJob slot f).bar2 = s.bar2 := by rw [State.onJob_frame]
@[simp] theorem State.onJob_regs (s : State) (slot : Nat) (f : Job → Job) : (s.onJob slot f).regs = s.regs := by rw [State.onJob_frame]
@[simp] theorem State.onJob_wide (s : State) (slot : Nat) (f : Job → Job) : (s.onJob slot f).wide = s.wide := by rw [State.onJob_frame]
@[simp] theorem State.onJob_published (s : State) (slot : Nat) (f : Job → Job) : (s.onJob slot f).published = s.published := by rw [State.onJob_frame]
@[simp] theorem State.onJob_rings (s : State) (slot : Nat) (f : Job → Job) : (s.onJob slot f).rings = s.rings := by rw [State.onJob_frame]
@[simp] theorem State.onJob_held (s : State) (slot : Nat) (f : Job → Job) : (s.onJob slot f).held = s.held := by rw [State.onJob_frame]
@[simp] theorem State.onJob_progress (s : State) (slot : Nat) (f : Job → Job) : (s.onJob slot f).progress = s.progress := by rw [State.onJob_frame]
@[simp] theorem State.onJob_shown (s : State) (slot : Nat) (f : Job → Job) : (s.onJob slot f).shown = s.shown := by rw [State.onJob_frame]
@[simp] theorem State.onJob_msix (s : State) (slot : Nat) (f : Job → Job) : (s.onJob slot f).msix = s.msix := by rw [State.onJob_frame]
@[simp] theorem State.onJob_pba (s : State) (slot : Nat) (f : Job → Job) : (s.onJob slot f).pba = s.pba := by rw [State.onJob_frame]
@[simp] theorem State.onJob_running (s : State) (slot : Nat) (f : Job → Job) : (s.onJob slot f).running = s.running := by rw [State.onJob_frame]
@[simp] theorem State.onJob_starts (s : State) (slot : Nat) (f : Job → Job) : (s.onJob slot f).starts = s.starts := by rw [State.onJob_frame]
@[simp] theorem State.onJob_memory (s : State) (slot : Nat) (f : Job → Job) : (s.onJob slot f).memory = s.memory := by rw [State.onJob_frame]
@[simp] theorem State.onJob_ingest (s : State) (slot : Nat) (f : Job → Job) : (s.onJob slot f).ingest = s.ingest := by rw [State.onJob_frame]
@[simp] theorem State.onJob_samples (s : State) (slot : Nat) (f : Job → Job) : (s.onJob slot f).samples = s.samples := by rw [State.onJob_frame]
@[simp] theorem State.onJob_emb (s : State) (slot : Nat) (f : Job → Job) : (s.onJob slot f).emb = s.emb := by rw [State.onJob_frame]
@[simp] theorem State.onJob_dir (s : State) (slot : Nat) (f : Job → Job) : (s.onJob slot f).dir = s.dir := by rw [State.onJob_frame]
@[simp] theorem State.onJob_graph (s : State) (slot : Nat) (f : Job → Job) : (s.onJob slot f).graph = s.graph := by rw [State.onJob_frame]
@[simp] theorem State.onJob_relay (s : State) (slot : Nat) (f : Job → Job) : (s.onJob slot f).relay = s.relay := by rw [State.onJob_frame]
@[simp] theorem State.onJob_integrity (s : State) (slot : Nat) (f : Job → Job) : (s.onJob slot f).integrity = s.integrity := by rw [State.onJob_frame]
@[simp] theorem State.onJob_sec (s : State) (slot : Nat) (f : Job → Job) : (s.onJob slot f).sec = s.sec := by rw [State.onJob_frame]
@[simp] theorem State.onJob_mgt (s : State) (slot : Nat) (f : Job → Job) : (s.onJob slot f).mgt = s.mgt := by rw [State.onJob_frame]
@[simp] theorem State.onJob_meter (s : State) (slot : Nat) (f : Job → Job) : (s.onJob slot f).meter = s.meter := by rw [State.onJob_frame]
@[simp] theorem State.onJob_mirror (s : State) (slot : Nat) (f : Job → Job) : (s.onJob slot f).mirror = s.mirror := by rw [State.onJob_frame]
@[simp] theorem State.onJob_pwr (s : State) (slot : Nat) (f : Job → Job) : (s.onJob slot f).pwr = s.pwr := by rw [State.onJob_frame]
@[simp] theorem State.onJob_glb (s : State) (slot : Nat) (f : Job → Job) : (s.onJob slot f).glb = s.glb := by rw [State.onJob_frame]
@[simp] theorem State.onJob_irqs (s : State) (slot : Nat) (f : Job → Job) : (s.onJob slot f).irqs = s.irqs := by rw [State.onJob_frame]
@[simp] theorem State.onJob_sent (s : State) (slot : Nat) (f : Job → Job) : (s.onJob slot f).sent = s.sent := by rw [State.onJob_frame]
@[simp] theorem State.onJob_hostRead (s : State) (slot : Nat) (f : Job → Job) : (s.onJob slot f).hostRead = s.hostRead := by rw [State.onJob_frame]
@[simp] theorem State.onJob_pending (s : State) (slot : Nat) (f : Job → Job) : (s.onJob slot f).pending = s.pending := by rw [State.onJob_frame]

end Sys2Proof.Machine
end

