-- ==== Sys2Proof/Laws/Memory.lean ====
section
/-! SUPPORT. Sparse tables and memories: a read after a write, writes that leave other places alone, and the canonical form
that every memory operation keeps. -/

namespace Sys2Proof.Machine

/-! ## Tables: what a key names after an update -/

@[simp] theorem Tab.look_put_same {α : Type} (t : Tab α) (x : Nat) (w : α) : Tab.look (Tab.put t x w) x = some w := by
  induction t with
  | nil => simp [Tab.put, Tab.look]
  | cons e t ih =>
    obtain ⟨k, v⟩ := e
    unfold Tab.put
    split
    · simp [Tab.look]
    · split
      · simp [Tab.look]
      · rename_i h
        simp [Tab.look, h, ih]

theorem Tab.look_put_ne {α : Type} (t : Tab α) {x y : Nat} (w : α) (h : y ≠ x) :
    Tab.look (Tab.put t x w) y = Tab.look t y := by
  induction t with
  | nil => simp [Tab.put, Tab.look, h]
  | cons e t ih =>
    obtain ⟨k, v⟩ := e
    unfold Tab.put
    split
    · simp [Tab.look, h]
    · split
      · rename_i hx
        subst hx
        simp [Tab.look, h]
      · simp only [Tab.look, ih]

@[simp] theorem Tab.get_put_same {α : Type} (d : α) (t : Tab α) (x : Nat) (w : α) : Tab.get d (Tab.put t x w) x = w := by
  simp [Tab.get]

theorem Tab.get_put_ne {α : Type} (d : α) (t : Tab α) {x y : Nat} (w : α) (h : y ≠ x) :
    Tab.get d (Tab.put t x w) y = Tab.get d t y := by
  simp [Tab.get, Tab.look_put_ne t w h]

theorem Tab.look_del_ne {α : Type} (t : Tab α) {x y : Nat} (h : y ≠ x) : Tab.look (Tab.del t x) y = Tab.look t y := by
  induction t with
  | nil => rfl
  | cons e t ih =>
    obtain ⟨k, v⟩ := e
    simp only [Tab.del, List.filter_cons] at ih ⊢
    by_cases hk : k = x
    · subst hk
      simp [Tab.look, h, ih]
    · simp [hk, Tab.look, ih]

@[simp] theorem Tab.look_del_same {α : Type} (t : Tab α) (x : Nat) : Tab.look (Tab.del t x) x = none := by
  induction t with
  | nil => rfl
  | cons e t ih =>
    obtain ⟨k, v⟩ := e
    simp only [Tab.del, List.filter_cons] at ih ⊢
    by_cases hk : k = x
    · simp [hk, ih]
    · simp [hk, Tab.look, ih, Ne.symm hk]

@[simp] theorem Tab.get_del_same {α : Type} (d : α) (t : Tab α) (x : Nat) : Tab.get d (Tab.del t x) x = d := by
  simp [Tab.get]

theorem Tab.get_del_ne {α : Type} (d : α) (t : Tab α) {x y : Nat} (h : y ≠ x) :
    Tab.get d (Tab.del t x) y = Tab.get d t y := by
  simp [Tab.get, Tab.look_del_ne t h]

/-! ## Tables: the canonical form -/

theorem Tab.above_mono {α : Type} {lo hi : Nat} (t : Tab α) (hle : lo ≤ hi) (h : Tab.above hi t = true) :
    Tab.above lo t = true := by
  cases t with
  | nil => rfl
  | cons e t =>
    simp only [Tab.above, Bool.and_eq_true, decide_eq_true_eq] at h ⊢
    exact ⟨by omega, h.2⟩

theorem Tab.above_wf {α : Type} {lo : Nat} (t : Tab α) (h : Tab.above lo t = true) : Tab.wf t = true := by
  cases t with
  | nil => rfl
  | cons e t =>
    simp only [Tab.above, Bool.and_eq_true] at h
    exact h.2

theorem Tab.look_above {α : Type} {lo x : Nat} (t : Tab α) (h : Tab.above lo t = true) (hx : x ≤ lo) :
    Tab.look t x = none := by
  induction t generalizing lo with
  | nil => rfl
  | cons e t ih =>
    simp only [Tab.above, Bool.and_eq_true, decide_eq_true_eq] at h
    have hne : x ≠ e.1 := by omega
    simp only [Tab.look, hne, if_false]
    exact ih h.2 (by omega)

theorem Tab.above_put {α : Type} {lo x : Nat} (t : Tab α) (w : α) (h : Tab.above lo t = true) (hx : lo < x) :
    Tab.above lo (Tab.put t x w) = true := by
  induction t generalizing lo with
  | nil => simp [Tab.put, Tab.above, hx]
  | cons e t ih =>
    obtain ⟨k, v⟩ := e
    simp only [Tab.above, Bool.and_eq_true, decide_eq_true_eq] at h
    unfold Tab.put
    split
    · simp only [Tab.above, Bool.and_eq_true, decide_eq_true_eq]
      exact ⟨hx, by assumption, h.2⟩
    · split
      · rename_i hk
        subst hk
        simp only [Tab.above, Bool.and_eq_true, decide_eq_true_eq]
        exact h
      · simp only [Tab.above, Bool.and_eq_true, decide_eq_true_eq]
        exact ⟨h.1, ih h.2 (by omega)⟩

theorem Tab.wf_put {α : Type} (t : Tab α) (x : Nat) (w : α) (h : Tab.wf t = true) : Tab.wf (Tab.put t x w) = true := by
  cases t with
  | nil => rfl
  | cons e t =>
    obtain ⟨k, v⟩ := e
    unfold Tab.put
    split
    · simp only [Tab.wf, Tab.above, Bool.and_eq_true, decide_eq_true_eq]
      exact ⟨by assumption, h⟩
    · split
      · rename_i hk
        subst hk
        exact h
      · exact Tab.above_put t w h (by omega)

theorem Tab.above_keep {α : Type} {lo : Nat} (f : Nat → α → Bool) (t : Tab α) (h : Tab.above lo t = true) :
    Tab.above lo (Tab.keep f t) = true := by
  induction t generalizing lo with
  | nil => rfl
  | cons e t ih =>
    simp only [Tab.above, Bool.and_eq_true, decide_eq_true_eq] at h
    simp only [Tab.keep, List.filter_cons]
    split
    · simp only [Tab.above, Bool.and_eq_true, decide_eq_true_eq]
      exact ⟨h.1, ih h.2⟩
    · exact Tab.above_mono _ (Nat.le_of_lt h.1) (ih h.2)

theorem Tab.wf_keep {α : Type} (f : Nat → α → Bool) (t : Tab α) (h : Tab.wf t = true) : Tab.wf (Tab.keep f t) = true := by
  cases t with
  | nil => rfl
  | cons e t =>
    simp only [Tab.keep, List.filter_cons]
    split
    · exact Tab.above_keep f t h
    · exact Tab.above_wf _ (Tab.above_keep f t h)

theorem Tab.wf_del {α : Type} (t : Tab α) (x : Nat) (h : Tab.wf t = true) : Tab.wf (Tab.del t x) = true :=
  Tab.wf_keep (fun k _ => k != x) t h

theorem Tab.look_keep {α : Type} (f : Nat → α → Bool) (t : Tab α) (x : Nat) (h : Tab.wf t = true) :
    Tab.look (Tab.keep f t) x = (Tab.look t x).filter (f x) := by
  induction t with
  | nil => rfl
  | cons e t ih =>
    obtain ⟨k, v⟩ := e
    have ih' := ih (Tab.above_wf t h)
    simp only [Tab.keep, List.filter_cons] at ih' ⊢
    by_cases hx : x = k
    · subst hx
      by_cases hf : f x v = true
      · simp [hf, Tab.look, Option.filter]
      · have hl : Tab.look t x = none := Tab.look_above t h (Nat.le_refl x)
        simp [hf, Tab.look, ih', hl, Option.filter]
    · by_cases hf : f k v = true
      · simp [hf, Tab.look, hx, ih']
      · simp [hf, Tab.look, hx, ih']

/-! ## Byte memories -/

@[simp] theorem Memory.wf_nil : Memory.wf [] = true := rfl

theorem Memory.wf_tab {m : Tab Byte} (h : Memory.wf m = true) : Tab.wf m = true := by
  simp only [Memory.wf, Bool.and_eq_true] at h
  exact h.1

theorem Memory.all_put (m : Tab Byte) (a : Nat) {b : Byte} (hb : b ≠ blankByte)
    (h : (m.all fun e => e.2 != blankByte) = true) : ((Tab.put m a b).all fun e => e.2 != blankByte) = true := by
  induction m with
  | nil => simp [Tab.put, hb]
  | cons e t ih =>
    obtain ⟨k, v⟩ := e
    simp only [List.all_cons, Bool.and_eq_true] at h
    unfold Tab.put
    split
    · simp only [List.all_cons, Bool.and_eq_true]
      exact ⟨by simpa using hb, h⟩
    · split
      · simp only [List.all_cons, Bool.and_eq_true]
        exact ⟨by simpa using hb, h.2⟩
      · simp only [List.all_cons, Bool.and_eq_true]
        exact ⟨h.1, ih h.2⟩

theorem Memory.all_del (m : Tab Byte) (a : Nat)
    (h : (m.all fun e => e.2 != blankByte) = true) : ((Tab.del m a).all fun e => e.2 != blankByte) = true := by
  simp only [Tab.del, List.all_filter]
  simp only [List.all_eq_true] at h ⊢
  intro e he
  simp [h e he]

/-- A write keeps the canonical form. -/
theorem Memory.wf_write (m : Tab Byte) (a : Nat) (b : Byte) (h : Memory.wf m = true) :
    Memory.wf (Memory.write m a b) = true := by
  simp only [Memory.wf, Bool.and_eq_true] at h ⊢
  unfold Memory.write
  split
  · exact ⟨Tab.wf_del m a h.1, Memory.all_del m a h.2⟩
  · exact ⟨Tab.wf_put m a b h.1, Memory.all_put m a (by assumption) h.2⟩

/-- A read after a write to the same address gives the byte written. -/
theorem Memory.read_write_same (m : Tab Byte) (a : Nat) (b : Byte) :
    Memory.read (Memory.write m a b) a = b := by
  unfold Memory.write Memory.read
  split
  · rw [Tab.look_del_same m a]
    simp_all
  · simp

/-- A write leaves every other address alone. -/
theorem Memory.read_write_ne (m : Tab Byte) {a x : Nat} (b : Byte) (h : x ≠ a) :
    Memory.read (Memory.write m a b) x = Memory.read m x := by
  unfold Memory.write Memory.read
  split
  · rw [Tab.look_del_ne m h]
  · rw [Tab.look_put_ne m b h]

theorem Memory.wf_writeN (m : Tab Byte) (a : Nat) (l : List Byte) (h : Memory.wf m = true) :
    Memory.wf (Memory.writeN m a l) = true := by
  induction l generalizing m a with
  | nil => exact h
  | cons b t ih => exact ih _ _ (Memory.wf_write m a b h)

/-- A write of several bytes leaves every address outside them alone. -/
theorem Memory.read_writeN_outside (m : Tab Byte) (a : Nat) (l : List Byte) {x : Nat} (h : x < a ∨ a + l.length ≤ x) :
    Memory.read (Memory.writeN m a l) x = Memory.read m x := by
  induction l generalizing m a with
  | nil => rfl
  | cons b t ih =>
    simp only [List.length_cons] at h
    rw [Memory.writeN, ih _ _ (by omega), Memory.read_write_ne m b (by omega)]

/-- A read inside a write of several bytes gives the byte written there. -/
theorem Memory.read_writeN_inside (m : Tab Byte) (a : Nat) (l : List Byte) {i : Nat}
    (hi : i < l.length) : Memory.read (Memory.writeN m a l) (a + i) = l[i] := by
  induction l generalizing m a i with
  | nil => simp at hi
  | cons b t ih =>
    cases i with
    | zero =>
      rw [Memory.writeN, Memory.read_writeN_outside _ _ _ (by omega)]
      simpa using Memory.read_write_same m a b
    | succ i =>
      simp only [List.length_cons] at hi
      have := ih (Memory.write m a b) (a + 1) (i := i) (by omega)
      rw [Memory.writeN, show a + (i + 1) = a + 1 + i by omega, this]
      rfl

@[simp] theorem Memory.readN_length (m : Tab Byte) (a n : Nat) : (Memory.readN m a n).length = n := by
  induction n generalizing a with
  | zero => rfl
  | succ n ih => simp [Memory.readN, ih]

theorem Memory.readN_writeN_outside (m : Tab Byte) (a : Nat) (l : List Byte) {x n : Nat}
    (h : x + n ≤ a ∨ a + l.length ≤ x) : Memory.readN (Memory.writeN m a l) x n = Memory.readN m x n := by
  induction n generalizing x with
  | zero => rfl
  | succ n ih =>
    rw [Memory.readN, Memory.readN, Memory.read_writeN_outside m a l (by omega), ih (by omega)]

/-- Reading back all that was written gives it. -/
theorem Memory.readN_writeN_same (m : Tab Byte) (a : Nat) (l : List Byte) :
    Memory.readN (Memory.writeN m a l) a l.length = l := by
  induction l generalizing m a with
  | nil => rfl
  | cons b t ih =>
    rw [List.length_cons, Memory.readN, Memory.writeN, ih,
      Memory.read_writeN_outside _ _ _ (by omega), Memory.read_write_same m a b]

theorem Memory.wf_keep (f : Nat → Byte → Bool) (m : Tab Byte) (h : Memory.wf m = true) :
    Memory.wf (Tab.keep f m) = true := by
  simp only [Memory.wf, Bool.and_eq_true] at h ⊢
  refine ⟨Tab.wf_keep f m h.1, ?_⟩
  simp only [Tab.keep, List.all_filter]
  have := h.2
  simp only [List.all_eq_true] at this ⊢
  intro e he
  simp [this e he]

/-- What a memory reads as after the entries a test refuses are dropped. -/
theorem Memory.read_keep (f : Nat → Byte → Bool) (m : Tab Byte) (x : Nat) (h : Memory.wf m = true) :
    Memory.read (Tab.keep f m) x = ((Tab.look m x).filter (f x)).getD blankByte := by
  rw [Memory.read, Tab.look_keep f m x (Memory.wf_tab h)]

/-- Bytes that the host stores one by one keep the canonical form. -/
theorem Memory.wf_foldl (l : List (Nat × Byte)) (m : Tab Byte) (f : Tab Byte → Nat × Byte → Tab Byte)
    (hf : ∀ t e, Memory.wf t = true → Memory.wf (f t e) = true) (h : Memory.wf m = true) :
    Memory.wf (l.foldl f m) = true := by
  induction l generalizing m with
  | nil => exact h
  | cons e t ih => exact ih _ (hf m e h)

/-! ## State: the canonical form -/

theorem State.canonical_iff (s : State) :
    s.canonical = true ↔ Memory.wf s.mem = true ∧ Memory.wf s.host = true ∧ Memory.wf s.bar2 = true := by
  simp [State.canonical, and_assoc]

/-- States with the same three memories are canonical together. -/
theorem State.canonical_of_eq {s t : State} (h : s.canonical = true) (hm : t.mem = s.mem) (hh : t.host = s.host)
    (hb : t.bar2 = s.bar2) : t.canonical = true := by
  simpa [State.canonical, hm, hh, hb] using h

theorem State.store_canonical {s : State} (h : s.canonical = true) (a : Nat) (b : List Byte) :
    (s.store a b).canonical = true := by
  rw [State.canonical_iff] at h ⊢
  unfold State.store
  split
  · exact ⟨Memory.wf_writeN _ _ _ h.1, h.2⟩
  · exact ⟨h.1, Memory.wf_writeN _ _ _ h.2.1, h.2.2⟩

theorem State.scramble_canonical {s : State} (h : s.canonical = true) (a n : Nat) : (s.scramble a n).canonical = true :=
  State.store_canonical h a _

theorem State.zero_canonical {s : State} (h : s.canonical = true) (a n : Nat) : (s.zero a n).canonical = true := by
  rw [State.canonical_iff] at h ⊢
  have hm := fun f => Memory.wf_keep f s.mem h.1
  have hh := fun f => Memory.wf_keep f s.host h.2.1
  unfold State.zero
  split
  · dsimp only
    exact ⟨hm _, h.2.1, h.2.2⟩
  · dsimp only
    exact ⟨h.1, hh _, h.2.2⟩

/-- A fold of canonical steps is canonical. -/
theorem State.foldl_canonical {α : Type} (l : List α) (f : State → α → State) {s : State}
    (hf : ∀ t x, t.canonical = true → (f t x).canonical = true) (h : s.canonical = true) :
    (l.foldl f s).canonical = true := by
  induction l generalizing s with
  | nil => exact h
  | cons x t ih => exact ih (hf s x h)

/-- A fold that keeps a property of each state keeps it as a whole. -/
theorem State.foldl_keeps {α : Type} {P : State → Prop} (l : List α) (f : State → α → State) {s : State}
    (hf : ∀ t x, P t → P (f t x)) (h : P s) : P (l.foldl f s) := by
  induction l generalizing s with
  | nil => exact h
  | cons x t ih => exact ih (hf s x h)

/-! ## State: reading back what was stored -/

/-- Bytes stored in one space read back (R107). -/
theorem State.load_store_same (s : State) (a : Nat) (b : List Byte) : (s.store a b).load a b.length = b := by
  unfold State.store State.load
  split
  · exact Memory.readN_writeN_same _ _ _
  · exact Memory.readN_writeN_same _ _ _

/-- A store leaves reads of the other space alone, and reads of the same space outside its bytes. -/
theorem State.load_store_outside (s : State) (a : Nat) (b : List Byte) {x n : Nat}
    (hw : a < hostWindow ↔ x < hostWindow) (h : x + n ≤ a ∨ a + b.length ≤ x) :
    (s.store a b).load x n = s.load x n := by
  unfold State.store State.load
  by_cases ha : a < hostWindow
  · have hx := hw.mp ha
    simp only [ha, hx, if_true]
    exact Memory.readN_writeN_outside _ _ _ h
  · have hx : ¬ x < hostWindow := fun hx => ha (hw.mpr hx)
    simp only [ha, hx, if_false]
    exact Memory.readN_writeN_outside _ _ _ (by omega)

end Sys2Proof.Machine
end

