-- ==== Sys2Proof/Laws/Commands.lean ====
section
/-! SUPPORT. What the start of a packet can do: it waits, it is refused, it completes with UNIT_FENCED after a failed start-up,
or its effect runs. -/

namespace Sys2Proof.Machine

/-- A packet that may start now runs its checks. -/
theorem Command.start_run (c : Command) (p : Packet) (s : State) (hc : p.opcode = c.code) (hs : s.mayStart p = true)
    (hr : c.ready s p = true) : c.start p s = c.run p s := by
  simp only [State.mayStart, Bool.and_eq_true, beq_iff_eq, Bool.not_eq_true'] at hs
  obtain ⟨⟨h1, h2⟩, h3⟩ := hs
  simp [Command.start, hc, h1, h2, hr, State.stageRuns, h3]

/-- Without a failing check the effect acts on the state it enters. -/
theorem Command.run_effect (c : Command) (p : Packet) (s : State) (hf : c.fail s p = none) :
    c.run p s = c.effect p (s.entered c p) := by
  simp [Command.run, hf, State.entered]

/-- A failing check refuses the packet. -/
theorem Command.run_refuse (c : Command) (p : Packet) (s : State) {f : Fail} (hf : c.fail s p = some f) :
    c.run p s = (s.unstage p).refuse p f := by
  simp [Command.run, hf]

/-- A packet whose waits do not hold goes on waiting. -/
theorem Command.start_wait (c : Command) (p : Packet) (s : State)
    (h : p.opcode ≠ c.code ∨ s.startable p = false ∨ c.ready s p = false ∨ s.commandHeld = true) : c.start p s = s := by
  unfold Command.start
  split
  · rfl
  · rename_i hn
    rcases h with h | h | h | h <;> simp [h] at hn

/-- Everything the start of a packet can do. -/
theorem Command.start_cases (c : Command) (p : Packet) (s : State) :
    c.start p s = s ∨ (∃ f, c.fail s p = some f ∧ c.start p s = (s.unstage p).refuse p f) ∨
      (c.fail s p = none ∧ c.start p s = c.effect p (s.entered c p)) ∨
      (s.startFault = true ∧ c.start p s = (s.unstage p).fallDue (s.recordOf p Status.unitFenced 0)) := by
  unfold Command.start
  split
  · exact .inl rfl
  · split
    · cases hf : c.fail s p with
      | none => exact .inr (.inr (.inl ⟨rfl, Command.run_effect c p s hf⟩))
      | some f => exact .inr (.inl ⟨f, rfl, Command.run_refuse c p s hf⟩)
    · split
      · exact .inr (.inr (.inr ⟨by assumption, rfl⟩))
      · exact .inl rfl

/-! ## Rings -/

@[simp] theorem State.ring_setRing_same (s : State) (n : Nat) (r : Ring) : (s.setRing n r).ring n = r := by
  simp [State.ring, State.setRing]

theorem State.ring_setRing_ne (s : State) {n m : Nat} (r : Ring) (h : m ≠ n) : (s.setRing n r).ring m = s.ring m := by
  simp [State.ring, State.setRing, Tab.look_put_ne s.rings r h]

/-- States with the same rings show the same ring. -/
theorem State.ring_congr {s t : State} (h : t.rings = s.rings) (n : Nat) : t.ring n = s.ring n := by
  simp [State.ring, h]

/-! ## Registers -/

@[simp] theorem State.reg_setReg_same (s : State) (off : Nat) (v : Word) : (s.setReg off v).reg off = v := by
  unfold State.reg State.setReg
  split
  · simp_all
  · simp

theorem State.reg_setReg_ne (s : State) {off o : Nat} (v : Word) (h : o ≠ off) : (s.setReg off v).reg o = s.reg o := by
  unfold State.reg State.setReg
  split
  · simp [Tab.get_del_ne _ s.regs h]
  · simp [Tab.get_put_ne _ s.regs v h]

/-- A counter that is bumped shows the saturated sum. -/
theorem State.reg_bump_same (s : State) (off : Nat) {n : Nat} (h : 0 < n) :
    (s.bump off n).reg off = satAdd (s.reg off) n := by
  have h0 : n ≠ 0 := by omega
  simp only [State.bump, h0, if_false]
  exact State.reg_setReg_same s off _

theorem State.reg_bump_ne (s : State) {off o : Nat} (n : Nat) (h : o ≠ off) : (s.bump off n).reg o = s.reg o := by
  unfold State.bump
  split
  · rfl
  · exact State.reg_setReg_ne s _ h

end Sys2Proof.Machine
end

