-- ==== Sys2Proof/Laws/Rings.lean ====
section
/-! SUPPORT. What the operations on rings leave of the state, and what a ring shows after a change of all rings. -/

namespace Sys2Proof.Machine

/-- Change every ring of a list in turn. -/
theorem State.foldl_setRing_ne (f : Ring → Ring) (l : List Nat) (s : State) (n : Nat) (h : n ∉ l) :
    (l.foldl (fun t k => t.setRing k (f (t.ring k))) s).ring n = s.ring n := by
  induction l generalizing s with
  | nil => rfl
  | cons k t ih =>
    simp only [List.mem_cons, not_or] at h
    rw [List.foldl_cons, ih _ h.2, State.ring_setRing_ne _ _ h.1]

theorem State.foldl_setRing_mem (f : Ring → Ring) (l : List Nat) (s : State) (n : Nat) (hd : l.Nodup) (h : n ∈ l) :
    (l.foldl (fun t k => t.setRing k (f (t.ring k))) s).ring n = f (s.ring n) := by
  induction l generalizing s with
  | nil => simp at h
  | cons k t ih =>
    rw [List.nodup_cons] at hd
    rw [List.foldl_cons]
    rcases List.mem_cons.mp h with rfl | hm
    · rw [State.foldl_setRing_ne f t _ n hd.1, State.ring_setRing_same]
    · have hne : n ≠ k := fun e => hd.1 (e ▸ hm)
      rw [ih _ hd.2 hm, State.ring_setRing_ne _ _ hne]

theorem State.foldl_setRing_frame (f : Ring → Ring) (l : List Nat) (s : State) :
    l.foldl (fun t k => t.setRing k (f (t.ring k))) s =
      { s with rings := (l.foldl (fun t k => t.setRing k (f (t.ring k))) s).rings } := by
  induction l generalizing s with
  | nil => rfl
  | cons k t ih =>
    rw [List.foldl_cons, ih]
    rfl

/-- A ring after every ring was disabled (R96, R570). -/
theorem State.disableRings_ring (s : State) (st : RingState) {n : Nat} (h : n < 16) :
    (s.disableRings st).ring n =
      { s.ring n with ctrl := (s.ring n).ctrl &&& ~~~(1#32), state := st, redirect := true } := by
  unfold State.disableRings
  exact State.foldl_setRing_mem (fun r => { r with ctrl := r.ctrl &&& ~~~(1#32), state := st, redirect := true })
    (List.range 16) { s with bar2 := [] } n List.nodup_range (List.mem_range.mpr h)

/-- Only rings and ring memory change when every ring is disabled. -/
theorem State.disableRings_frame (s : State) (st : RingState) :
    s.disableRings st = { s with bar2 := [], rings := (s.disableRings st).rings } := by
  unfold State.disableRings
  exact State.foldl_setRing_frame (fun r => { r with ctrl := r.ctrl &&& ~~~(1#32), state := st, redirect := true })
    (List.range 16) { s with bar2 := [] }

/-- Writing one record changes the ring, its home ring, host memory and interrupts. -/
theorem State.retire_frame (s : State) (r : Record) : s.retire r = { s with rings := (s.retire r).rings } := by
  unfold State.retire
  extract_lets h
  split <;> rfl

end Sys2Proof.Machine
end

