-- ==== Sys2Proof/Tests/Slice0.lean ====
section
/-! SUPPORT. Tests: ill-formed terms that the well-formedness check refuses, and for the statements of Certificates/Slice0/Obligations.lean
states and operands that meet their hypotheses. Where a hypothesis rests on a value that nothing in Lean can see (a signature of the
vendor, a key of a peer), the witness takes that value as its own hypothesis and shows the rest. -/

namespace Sys2Proof.Tests

set_option maxRecDepth 100000
set_option Elab.async false

open Sys2Proof.Machine

/-! ## Helpers -/

/-- Bytes with little-endian fields (offset, width, value) written over zeros. -/
def fieldsAt (n : Nat) (l : List (Nat × Nat × Nat)) : List Byte :=
  l.foldl (fun b f => b.take f.1 ++ leBytes f.2.1 f.2.2 ++ b.drop (f.1 + f.2.1)) (List.replicate n 0)

/-- A packet of ring 0 with its opcode, LEN, job and parameter fields. -/
def packetOf (opcode len job : Nat) (l : List (Nat × Nat × Nat)) : Packet :=
  ⟨0, 0, 1, fieldsAt (64 * (len + 1)) ([(0, 2, opcode), (4, 1, len), (8, 8, 0x1234), (16, 4, job)] ++
    l.map fun f => (64 + f.1, f.2.1, f.2.2))⟩

/-- No job. -/
def idle32 : Nat := 0xFFFFFFFF

/-- The module in READY with its link up, and firmware that implements compute-semantics version 1. -/
def ready : State :=
  { State.reset with
    glb := { State.reset.glb with started := true, stage := 10, linkUp := true }
    mgt := { State.reset.mgt with bankA := ⟨1, true, fieldsAt 32 [(20, 4, 1), (24, 4, 1)]⟩ } }

/-- An enabled ring 0 with packets consumed and not started. -/
def ring0 (l : List Packet) : Ring :=
  { Ring.atReset 0 with ctrl := 1, state := .active, era := 1, staged := l, seq := BitVec.ofNat 32 l.length }

/-- A state with one packet waiting to start on ring 0. -/
def withPacket (s : State) (p : Packet) : State := s.setRing 0 (ring0 [p])

/-- Fields of a tensor descriptor at an offset: base, element type, extents, and strides of dimensions 1 and up. -/
def descFields (o base elem : Nat) (ext str : List Nat) : List (Nat × Nat × Nat) :=
  [(o, 8, base), (o + 8, 1, elem), (o + 9, 1, ext.length)] ++
    (List.range 6).map (fun i => (o + 16 + 4 * i, 4, ext.getD i 1)) ++
    (List.range 5).map (fun i => (o + 64 + 8 * i, 8, str.getD i 0))

/-- Module memory with fields stored at an address. -/
def withBytes (s : State) (a n : Nat) (l : List (Nat × Nat × Nat)) : State := s.store a (fieldsAt n l)

/-- The record, schema, batch and data of a table of one INT32 column with two rows, 5 and 7, at an address. -/
def tableFields (a id : Nat) : List (Nat × Nat × Nat) :=
  [(0, 4, 0x4C425446), (4, 4, id), (8, 2, 1), (12, 4, 1), (16, 8, 2), (24, 8, a + 64), (32, 8, a + 128), (64, 1, 0x06),
   (128 + 8, 4, 2), (128 + 16, 8, a + 192), (192 + 16, 8, a + 256), (192 + 24, 8, 8), (256, 4, 5), (260, 4, 7)]

/-- The header fields of a base manifest for a number of ranks, and of an overlay without patches. -/
def baseFields (ranks : Nat) : List (Nat × Nat × Nat) :=
  [(0, 4, 0x464D4E53), (4, 2, 1), (6, 2, 256), (8, 4, 256), (12, 4, 1), (16, 4, ranks), (20, 4, 1), (32, 2, 1), (34, 1, 3),
   (36, 5, 0x0101010101), (44, 4, 1000), (48, 8, 0x1000)]
def baseBytes (ranks : Nat) : List Byte := fieldsAt 256 (baseFields ranks)
def overlayBytes (mode : Nat) : List Byte := overlay (fieldsAt 64 [(0, 4, 0x4F4D4E53), (4, 1, mode), (6, 2, 64)]) 16 ((sha3 (baseBytes 1)).take 32)

/-- JOB_OPEN of job 7 for rank 0, with manifest slots 7 and 47 and a hold area of 4 KiB at 0x8000. -/
def openPacket : Packet := packetOf 0x0101 2 7 [(0, 4, 7), (8, 4, 1), (12, 1, 7), (13, 1, 47), (16, 8, 0x8000), (24, 8, 0x1000)]

/-- Job 7 of a number of ranks, of which this module holds rank 0, after step `next - 1`. -/
def jobOf (ranks next : Nat) : Job := ready.newJob openPacket (baseBytes ranks) (fieldsAt 64 [(4, 1, 1)]) next 0

/-- A state with one open job, in slot 0. -/
def withJob (s : State) (j : Job) : State := { s with job := { s.job with jobs := [(0, j)] } }

/-- A command is accepted when it would be without its own checks, and its own checks find nothing. -/
theorem accepts_of_own (c : Command) (s : State) (p : Packet)
    (h : s.accepts { c with own := fun _ _ => none } p = true) (h' : c.own s p = none) : s.accepts c p = true := by
  simpa [State.accepts, Command.fail, h'] using h

/-! ## Well-formedness: an ill-formed term for each check, which the check refuses -/

/-- A NOP packet of a ring, with a number of bytes and an opcode. -/
def nopLike (ring n code : Nat) : Packet := ⟨ring, 0, 1, fieldsAt n [(0, 2, code)]⟩
def badFrame (port n : Nat) : Frame := ⟨port, List.replicate n 0, false, []⟩

theorem test_wf_packet : (Instr.nop (nopLike 0 64 0x0C00)).wf = true ∧ (Instr.nop (nopLike 16 64 0x0C00)).wf = false ∧
    (Instr.nop (nopLike 0 128 0x0C00)).wf = false ∧ (Instr.nop (nopLike 0 64 0x0C01)).wf = false := by decide +kernel

theorem test_wf_frame : (Instr.ackReceived (badFrame 7 16)).wf = true ∧ (Instr.ackReceived (badFrame 8 16)).wf = false ∧
    (Instr.ackReceived (badFrame 0 4)).wf = false := by decide +kernel

/-- Each number that names a thing the module has is refused one past its range. -/
theorem test_wf_numbers :
    ([.statusRecordWrite 16, .relayPostTimeout 16 0, .registerWrite 0x2000000 0 true, .registerWrite 2 0 true, .bar4Access false 0 0 [] true,
      .bar4Access false 0 4097 [] true, .latchingRegisterRead 0 true, .preparePhaseStart 16 0, .preparePhaseStart 0 (2 ^ 32), .runPhaseStart 16,
      .taskAdmission 0 2, .taskGrant 2 1 false, .taskGrant 0 0 false, .taskGrant 0 8 false, .engineTransferComplete 0, .queueSpaceReleased 2 0,
      .queueSpaceReleased 0 8, .stripeStart 64, .sampleIssue 2 none, .sampleDecodeComplete 32 none, .slotHandOn 2, .hotRowCopyComplete 2 0 0 0,
      .hotRowCopyComplete 0 1024 0 0, .hotRowCopyComplete 0 0 64 0, .drainEpochDrained 2 0, .cnpReceived 65536 0, .cnpReceived 0 8,
      .arpRequest 8 false [] [], .structuralTestComplete 0 none, .ackTimerExpiry 0 0 4, .linkStateChange 8 true,
      .pageRetirement false hostWindow [], .railStepComplete 52,
      .railOutOfRegulation 67, .sensorSample [], .configurationRequest false 4096 0 false, .challenge 0 [], .ideStreamLoss 2,
      .setEndpointId true 256, .updateComponent true 3 0, .ptpMessageReceived 8 0 0 0 0, .ptpMessageReceived 0 128 0 0 0,
      .clockTreeOrResetDomainFault 4] : List Instr).all (fun i => !i.wf) = true := by decide +kernel

/-! ## Known answers of published standards -/

/-- FIPS 197: the S-box takes 53 to ED. -/
theorem test_sbox : subByte 0x53 = 0xED ∧ subByte 0x00 = 0x63 ∧ subByte 0xFF = 0x16 := by decide +kernel

/-- FIPS 202: SHA3-512 of no bytes begins A6 9F 73 CC. -/
theorem test_sha3 : (sha3 []).take 4 = [0xA6, 0x9F, 0x73, 0xCC] := by decide +kernel

/-- NIST SP 800-38D with AES-256: the tag of nothing under a zero key and IV begins 53 0F 8A FB. -/
theorem test_gcm : (gcmSeal (List.replicate 32 0) (List.replicate 12 0) [] []).2.take 4 = [0x53, 0x0F, 0x8A, 0xFB] := by decide +kernel

/-! ## Witnesses: the queue, packets and rings (R73 to R101) -/

def nopPacket : Packet := packetOf 0x0C00 0 idle32 []
/-- NOP with a LEN it does not take. -/
def longNop : Packet := packetOf 0x0C00 1 idle32 []
/-- NOP with FENCE, as the second packet of its ring. -/
def fencedNop : Packet := ⟨0, 1, 1, fieldsAt 64 [(0, 2, 0x0C00), (2, 1, 2), (16, 4, idle32)]⟩
/-- NOP that waits for the first record of ring 1. -/
def waitingNop : Packet := ⟨0, 0, 1, fieldsAt 64 [(0, 2, 0x0C00), (16, 4, idle32), (20, 1, 0x81), (24, 4, 1)]⟩

theorem witness_empty_queue : State.reset.pending = [] ∧ State.reset.canonical = true ∧
    step State.reset = .next State.reset.tick := ⟨by decide, by decide, rfl⟩

theorem witness_packet_starts : packetRow (.nop nopPacket) = some (nopPacket, nopCommand) ∧
    (withPacket ready nopPacket).accepts nopCommand nopPacket = true := ⟨rfl, by decide +kernel⟩

theorem witness_packet_refused : packetRow (.nop longNop) = some (longNop, nopCommand) ∧ longNop.opcode = nopCommand.code ∧
    (withPacket ready longNop).mayStart longNop = true ∧ nopCommand.ready (withPacket ready longNop) longNop = true ∧
    nopCommand.fail (withPacket ready longNop) longNop = some ⟨Status.badLength, 4⟩ := ⟨rfl, by decide +kernel⟩

/-- Each wait of R80, R81 and R88 by itself: not the oldest packet, wait_ring not met, FENCE not met, completion ring full. -/
theorem witness_packet_waits :
    ((withPacket ready fencedNop).ring 0).staged.head? ≠ some nopPacket ∧
    (waitingNop.waitValid = true ∧ 2 ^ 31 ≤ (((withPacket ready waitingNop).ring waitingNop.waitRing).retired - waitingNop.waitSeq).toNat) ∧
    (fencedNop.fence = true ∧ fencedNop.era = ((withPacket ready fencedNop).ring 0).era ∧
      ((withPacket ready fencedNop).ring 0).retired ≠ fencedNop.seq) ∧
    (let s := ready.setRing 0 { ring0 [nopPacket] with cqTail := 63 };
      (s.ring 0).state = .active ∧ (s.ring 0).room = false) := by decide +kernel

/-- Start-up that ended in FAULT at the last stage that runs no packets. -/
def faulted : State := { ready with glb := { ready.glb with stage := 3, cause := 3 } }

theorem witness_fault_fences_packet :
    let s := withPacket faulted nopPacket;
    nopPacket.opcode = nopCommand.code ∧ s.startable nopPacket = true ∧ s.commandHeld = false ∧
      nopCommand.ready s nopPacket = true ∧ s.glb.stage < 4 ∧ s.glb.cause ≠ 0 := by decide +kernel

/-! ## Witnesses: power and heat (R553 to R565) -/

def braked : State := { ready with pwr := { ready.pwr with brk := true } }
/-- A sensor array with every sensor at one value. -/
def heated (v : Int) : State :=
  { ready with mgt := { ready.mgt with sensors := (List.range 187).map fun i => (i, v) }, pwr := { ready.pwr with thermalLevel := 62 } }

theorem witness_power : ready.pwr.brk = false ∧ braked.pwr.brk = true ∧ ready.pwr.fastLimit = false ∧
    3 ≤ ready.glb.stage ∧ ready.pwr.capLevel ≤ 63 ∧ (ready.pwr.capLevel ≤ min 70 63 ∧ false = false) ∧
    ready.pwr.tripped = false := by decide +kernel

/-- The three clauses of the thermal loop, the first two at the edges of their ranges. -/
theorem witness_thermal_loop :
    ((heated 1680).hot 105 100 = true ∧ (heated 1680).hot 100 95 = true) ∧
    ((heated 1520).hot 105 100 = false ∧ (heated 1520).hot 100 95 = true) ∧
    (let s := { heated 1519 with pwr := { (heated 1519).pwr with thermalEngaged := true } };
      s.hot 105 100 = false ∧ s.hot 100 95 = false ∧ s.pwr.thermalEngaged = true ∧ s.pwr.thermalLevel ≤ 63) := by
  decide +kernel

/-- A clock domain with a strike, whose rail is to move up, and lane-group rails above what their units call for. -/
def struck : State :=
  { ready with integrity := { ready.integrity with strikes := [⟨.unit 0x1000, 1, 0⟩] }, pwr := { ready.pwr with offsets := [(36, 15), (51, 30)] } }

theorem witness_rails : struck.offset 0 < struck.wantedOffset 0 ∧ struck.wantedOffset 36 < struck.offset 36 ∧
    struck.wantedOffset 51 < struck.offset 51 := by decide +kernel

theorem witness_sensor_sample : 3 ≤ ready.glb.stage ∧ (List.replicate 187 (0 : Int)).length = 187 := by decide +kernel

namespace Job

/-! ## Witnesses: start-up, loss of power and host resets -/

/-- The module switched off by a power failure. -/
def off5 : State := { State.reset with glb := { State.reset.glb with offFor := 5 } }
/-- The module in a start-up stage. -/
def atStage (n : Nat) : State := { State.reset with glb := { State.reset.glb with started := true, stage := n } }
/-- A module in stage 1 with no bank that can be booted. -/
def unbootable : State :=
  { atStage 1 with mgt := { State.reset.mgt with bankA := { State.reset.mgt.bankA with bootable := false }, bankB := { State.reset.mgt.bankB with bootable := false } } }

theorem witness_start_up : State.reset.glb.started = false ∧ State.reset.glb.offFor = 4 ∧ off5.glb.offFor ≠ 4 ∧
    (atStage 9).glb.started = true ∧ (atStage 9).glb.stage < 10 ∧ (atStage 9).glb.cause = 0 ∧ (atStage 9).packageFenced = false ∧
    (atStage 1).bootBank.isSome = true ∧ unbootable.glb.started = true ∧ unbootable.glb.stage = 1 ∧ unbootable.bootBank = none := by
  decide +kernel

theorem witness_host_resets : ready.glb.started = true ∧ ready.glb.perst = false ∧ ready.glb.linkUp = true ∧ ready.glb.d3hot = false ∧
    (let s := { ready with glb := { ready.glb with d3hot := true } }; s.glb.d3hot = true) ∧
    (let s := { ready with glb := { ready.glb with stage := 2 } }; s.glb.linkUp = true ∧ 1 ≤ s.glb.stage ∧ s.glb.stage < 3) := by
  decide +kernel

/-! ## Witnesses: command rings and registers -/

/-- A ring whose clear is under way, and the ring with a due record. -/
def clearing : State := ready.setRing 15 { Ring.atReset 15 with ctrl := 0xF01, state := .clearing, era := 1 }
def dueRecord : Record := ready.recordOf nopPacket Status.ok 0
def recording : State := ready.setRing 0 { ring0 [] with due := [dueRecord], cqTail := 63, cqHead := 1, baseInForce := 2 ^ 47 - 2048 }
def fullRing : State := ready.setRing 0 { ring0 [] with due := [dueRecord], cqTail := 62, cqHead := 63 }

theorem witness_ring_registers : ready.mmioOpen = true ∧ ready.teeBlocked false = false ∧ (ready.ring 15).enabled = false ∧
    (1 : Word).toNat % 2 = 1 ∧ 4 ≤ ready.glb.stage ∧ (clearing.ring 15).enabled = true ∧ (clearing.ring 15).state = .clearing ∧
    (clearing.ring 15).due = [] ∧ (clearing.held.all fun h => h.ring != 15) = true ∧ clearing.headsKnown = true ∧
    (ready.ring 15).state ≠ .clearing := by decide +kernel

theorem witness_records : (recording.ring 0).due = [dueRecord] ∧ (recording.ring 0).redirect = false ∧
    (recording.ring 0).state ≠ .clearing ∧ (recording.ring 0).room = true ∧ recording.recordBlocked dueRecord = false ∧
    (recording.ring 0).baseInForce + 32 * (recording.ring 0).cqTail + 32 ≤ 2 ^ 47 ∧ recording.headsKnown = true ∧
    (fullRing.ring 0).redirect = false ∧ (fullRing.ring 0).room = false ∧ fullRing.headsKnown = true := by decide +kernel

/-- A ring whose next packet wraps over slot 255, and the header stored there with the expected phase. -/
def wrapping : State := ready.setRing 0 { ring0 [] with head := 255 }
def headerStores : List (Nat × Byte) := [(0x3FC1, 0x0C), (0x3FC2, 1), (0x3FC4, 1)]

theorem witness_consume : wrapping.mmioOpen = true ∧ wrapping.teeBlocked false = false ∧ (wrapping.ring 0).state = .active ∧
    wrapping.headsKnown = true ∧
    ((wrapping.storeHost []).storeBar2 0 []).headerThere 0 = false ∧
    ((wrapping.storeHost []).storeBar2 0 headerStores).headerThere 0 = true ∧
    knownOpcode (leField (((wrapping.storeHost []).storeBar2 0 headerStores).slotsFrom 0 255 2) 0 2) = true := by decide +kernel

/-- A ring whose moderation time of 1 µs has just passed: 107 timer clocks. -/
def moderated : State :=
  { ready.setRing 0 { ring0 [] with ctrl := 0x2001, cqMod := 0x10001, irqSince := some 0 } with clk := 107 }

theorem witness_moderation : (moderated.ring 0).intEnable = true ∧ (moderated.ring 0).irqSince = some 0 ∧ 0 < (moderated.ring 0).time ∧
    0 + microseconds (moderated.ring 0).time ≤ moderated.clk := by decide +kernel

end Job

namespace Mem

/-! ## Witnesses: host accesses, module time and the meter -/

/-- The interface in RUN, where an access needs the T bit. -/
def inRun : State := { ready with sec := { ready.sec with tdi := .run, mode := .attested } }
/-- A page protected under key slot 0. -/
def guarded : State := { ready with memory := { ready.memory with regions := [(0, ⟨noJob, 0x1000, 0x1000, some 0⟩)] } }

theorem witness_registers : (Reg.manJobSel, 0xF) ∈ Reg.selectors ∧ (Reg.glbError, 0x1F) ∈ Reg.clearable ∧
    ready.mmioOpen = true ∧ ready.teeBlocked false = false ∧ ready.confidential = false ∧
    inRun.mmioOpen = true ∧ inRun.teeBlocked false = true ∧ ready.metered = true := by decide +kernel

/-- The three kinds of a BAR4 piece, each at an edge of its range. -/
theorem witness_bar4 : ready.mmioOpen = true ∧ guarded.pieceKind 0xFFF 1 = .served ∧ 0xFFF % 64 + 1 ≤ 64 ∧
    guarded.pieceKind 0x1FC0 64 = .closed ∧ 0x1FC0 % 64 + 64 ≤ 64 ∧ guarded.pieceKind 0xC000000000 64 = .unmapped := by
  decide +kernel

/-- A module whose time follows PPS_IN, and one whose time follows PTP on port 1 in domain 7. -/
def onPps : State := { ready with mgt := { ready.mgt with timeMode := 2 } }
def onPtp : State := { ready with mgt := { ready.mgt with timeMode := 0x0705 } }

theorem witness_time : onPps.timeKind = 2 ∧ (-1000000 : Int).natAbs ≤ 1000000 ∧ 1000000 < (1000001 : Int).natAbs ∧
    onPtp.timeKind ≠ 0 ∧ onPtp.timePort = 1 ∧ onPtp.timeDomain = 7 ∧ 9 ≤ onPtp.glb.stage ∧
    onPtp.mgt.locked = false ∧ onPtp.mgt.holdover = false ∧
    (onPps.mgt.timeMode ≠ onPps.mgt.timeCtrl ∧ onPps.mgt.timeCtrl.toNat % 4 = 0) ∧
    0 < ({ onPps.mgt with samples := 1 } : MgtState).samples := by decide +kernel

/-- A meter that counts, at 0.9 Wh; gated in confidential mode; and one in FAULT. -/
def metering : State := { ready with meter := { ready.meter with powered := true, energy := 9 } }
def gated (n : Nat) : State := { inRun with meter := { ready.meter with powered := true, energy := n } }
def stopped : State := { ready with meter := { ready.meter with powered := true, state := 2 } }

theorem witness_meter : metering.metered = true ∧ metering.meter.powered = true ∧ metering.meter.state ≠ 2 ∧ metering.gate = false ∧
    (gated 8).gate = true ∧ ((gated 8).meter.energy + 1) % 10 ≠ 0 ∧ (gated 9).gate = true ∧ ((gated 9).meter.energy + 1) % 10 = 0 ∧
    stopped.meter.state = 2 ∧ metering.meter.newest = some ⟨0, 0, 0, 0, true, true⟩ ∧ metering.meter.sealedNv = 0 ∧
    metering.meter.state = 0 ∧ metering.meter.log.length < 1024 ∧
    ({ metering.mirror with seen := true } : MirrorState).seen = true := by decide +kernel

end Mem

namespace Data

/-! ## Witnesses: memory regions, copy and fill -/

def definePacket : Packet := packetOf 0x0201 1 idle32 [(0, 4, 4095), (4, 4, idle32), (8, 8, 0x2000), (16, 8, 0x1000)]
def releasePacket : Packet := packetOf 0x0202 1 idle32 [(0, 4, 4095)]
def regioned : State := { ready with memory := { ready.memory with regions := [(4095, ⟨noJob, 0x2000, 0x1000, none⟩)] } }
/-- Two rows of 65 bytes, 128 bytes apart. -/
def fillPacket : Packet := packetOf 0x0204 3 idle32 ((0, 8, 0x0807060504030201) :: descFields 64 0x4000 0x20 [65, 2] [128])
/-- Two rows of 64 bytes, placed in the opposite order. -/
def copyPacket : Packet :=
  packetOf 0x0203 5 idle32 (descFields 64 0x4000 0x20 [64, 2] [64] ++ descFields 192 0x6040 0x20 [64, 2] [2 ^ 64 - 64])
def poisonedSource : State := { ready with memory := { ready.memory with poisoned := [0x4040] } }

theorem witness_regions : (withPacket ready definePacket).accepts regionDefineCommand definePacket = true ∧
    (withPacket regioned releasePacket).accepts regionReleaseCommand releasePacket = true ∧
    (withPacket regioned releasePacket).running = [] := by decide +kernel

theorem witness_fill : (withPacket ready fillPacket).accepts memFillCommand fillPacket = true ∧ (memFillDst fillPacket).rows = 2 ∧
    apart ((memFillDst fillPacket).rowAt 0) 65 ((memFillDst fillPacket).rowAt 1) 65 = true := by decide +kernel

theorem witness_copy : (withPacket ready copyPacket).accepts memCopyCommand copyPacket = true ∧
    (withPacket ready copyPacket).poisonedIn [(memCopySrc copyPacket).footprint, (memCopySrc copyPacket).scaleRange] = none ∧
    memCopyTranspose copyPacket = false ∧ elemMx (memCopySrc copyPacket).elem = false ∧
    (withPacket poisonedSource copyPacket).accepts memCopyCommand copyPacket = true ∧
    (withPacket poisonedSource copyPacket).poisonedIn [(memCopySrc copyPacket).footprint, (memCopySrc copyPacket).scaleRange] =
      some 0x4040 ∧ chargeOf 0x4040 = some (.page 0x4000) := by decide +kernel

end Data

namespace Prog

/-! ## Witnesses: tables and feature programs -/

/-- A source table at 0x10000, and a loaded table 0 at 0x20000. -/
def sourced : State := withBytes ready 0x10000 320 (tableFields 0x10000 9)
def tabled : State :=
  let s := withBytes ready 0x20000 320 (tableFields 0x20000 0)
  { s with ingest := { s.ingest with tables := [(0, ⟨0x20000, 0x1000, 0, 0⟩)] } }
def loadPacket (source peer : Nat) : Packet :=
  packetOf 0x0205 4 idle32 [(0, 4, 4095), (4, 1, 1), (5, 1, source), (8, 8, 0x10000), (24, 4, peer), (32, 8, 0x30000), (40, 8, 0x1000)]
def tableReleasePacket : Packet := packetOf 0x0206 1 idle32 [(0, 4, 0)]

theorem witness_tables :
    (withPacket sourced (loadPacket 1 idle32)).accepts (tableLoadCommand none) (loadPacket 1 idle32) = true ∧
    (withPacket ready (loadPacket 3 0)).accepts (tableLoadCommand none) (loadPacket 3 0) = true ∧ 3 ≤ loadSource (loadPacket 3 0) ∧
    (withPacket tabled tableReleasePacket).accepts tableReleaseCommand tableReleasePacket = true ∧
    (withPacket tabled tableReleasePacket).running = [] ∧ tabled.ingest.programs = [] := by decide +kernel

/-- A program of one SCAN node that copies column 0 of table 0 to output 0, and one whose node has no operator. -/
def programFields (op : Nat) : List (Nat × Nat × Nat) :=
  [(0, 4, 0x47505246), (4, 2, 1), (6, 2, 1), (8, 1, 1), (9, 1, 1), (10, 1, 1), (12, 4, 1), (28, 4, 64),
   (64, 1, op), (66, 1, 1), (68, 2, 0x8000), (84, 1, 0x06), (88, 4, 128), (92, 4, 16)]
def imaged (op : Nat) : State := withBytes tabled 0x40000 192 (programFields op)
def fprogPacket : Packet := packetOf 0x0301 1 idle32 [(0, 1, 63), (8, 8, 0x40000), (16, 4, 192)]
def programmed : State :=
  { tabled with ingest := { tabled.ingest with programs := [(63, ⟨0x40000, fieldsAt 192 (programFields 1), 0, 0, 0, [], 0, none⟩)] } }
def unloadPacket : Packet := packetOf 0x0304 1 idle32 [(0, 1, 63)]
def queryPacket : Packet := packetOf 0x0303 1 idle32 [(0, 1, 63), (8, 8, hostWindow + 0x1000)]
/-- FPROG_START of slot 63 over both rows, with output 0 a column of two INT32 at 0x50000. -/
def startPacket : Packet :=
  packetOf 0x0302 18 idle32 ([(0, 1, 63), (1, 1, 1), (2, 1, 1), (32, 4, 0), (36, 4, idle32), (40, 4, idle32), (44, 4, idle32), (48, 1, 1),
    (64, 8, 0x60000), (72, 8, 0x1000)] ++ descFields 128 0x50000 0x06 [1, 2] [64])

theorem witness_programs :
    (withPacket (imaged 1) fprogPacket).accepts fprogLoadCommand fprogPacket = true ∧
    (imaged 1).poisonedIn [loadImage fprogPacket] = none ∧
    (withPacket (imaged 1) fprogPacket).programFault ((imaged 1).load (loadImage fprogPacket).lo (loadImage fprogPacket).len) = none ∧
    (withPacket (imaged 0) fprogPacket).accepts fprogLoadCommand fprogPacket = true ∧
    (imaged 0).programFault ((imaged 0).load 0x40000 192) = some (Status.programInvalid, 0) ∧
    (withPacket programmed unloadPacket).accepts fprogUnloadCommand unloadPacket = true ∧
    (withPacket programmed queryPacket).accepts fprogQueryCommand queryPacket = true ∧ hostWindow ≤ queryPacket.param 8 8 ∧
    (withPacket programmed startPacket).accepts fprogStartCommand startPacket = true := by decide +kernel

/-- The program runs: before its first stripe, with its stripe on lane 0, and with an output too small for its rows. -/
def startOp : RunOp := ⟨startPacket, .fprogStart 63, 1, [], 0, 2, false⟩
def runOf (rows : Nat) (started : List (Nat × Nat)) : ProgRun :=
  ⟨overlay startPacket.startBlock (128 + 20) (leBytes 4 rows), none, [(0, 0x20000)], 1, 0, 2, 0, 0, started, 0, 0, [0], [], [], []⟩
def slotOf (r : ProgRun) : ProgSlot := ⟨0x40000, fieldsAt 192 (programFields 1), 0, 0, 0, [], 0, some r⟩
def running (r : ProgRun) : State :=
  { tabled with running := [startOp], ingest := { tabled.ingest with programs := [(63, slotOf r)] } }

theorem witness_stripe_starts :
    (let r := runOf 2 []; let s := running r
      (((List.range ((s.evOf (slotOf r) r 0).items r.pass).length).drop r.placed).find? fun k => !r.started.any fun y => y.1 == k) = some 0 ∧
      ((s.evOf (slotOf r) r 0).items r.pass)[0]? = some (.drive 0 2) ∧ 0 < r.placed + stripeWindow r.params (slotOf r).image ∧
      s.pickLane r.mask (s.itemDie (s.evOf (slotOf r) r 0) (.drive 0 2)) = some 0) := by decide +kernel

theorem witness_stripe_fails :
    (let r := runOf 1 [(0, 0)]; let s := running r
      r.step = none ∧ s.ingest.waiting = [] ∧ (r.started.find? fun y => y.1 == r.placed) = some (r.placed, 0) ∧
      ((s.evOf (slotOf r) r (0 / 32)).items r.pass)[r.placed]? = some (.drive 0 2) ∧
      (match placeItem (s.evOf (slotOf r) r (0 / 32)) r.params s r (.drive 0 2) with
        | .error (st, _) => st == Status.tableFull
        | .ok _ => false) = true ∧
      s.running = [startOp] ∧ startOp.kind = .fprogStart 63) := by decide +kernel

/-! PARTITION_EXCHANGE of one rank with itself: two destinations, records of one INT32 column. -/
def exchangePacket (rows : Nat) : Packet :=
  packetOf 0x0305 4 7 ([(0, 4, 7), (12, 4, 1), (20, 1, 1), (21, 1, 1), (24, 4, 9), (32, 8, 0xB0000), (40, 8, 0xB1000), (48, 8, 0x1000),
    (56, 8, 0xB2000), (64, 8, 0x1000), (72, 1, 0x06)] ++ descFields 128 0xC0000 0x20 [32, rows] [64])
def exchanging (count : Nat) : State := withBytes (withJob ready (jobOf 1 0)) 0xB0000 16 [(0, 8, count), (8, 8, count)]
def exchangeOp : RunOp := ⟨exchangePacket 2, .exchange 1, 1, [], 0, 0, false⟩
def awaiting : State := { exchanging 1 with running := [exchangeOp] }

theorem witness_exchange :
    (withPacket (exchanging 1) (exchangePacket 2)).accepts partitionExchangeCommand (exchangePacket 2) = true ∧
    ((withPacket (exchanging 1) (exchangePacket 2)).entered partitionExchangeCommand (exchangePacket 2)).exTooLarge (exchangePacket 2) = none ∧
    (withPacket (exchanging 256) (exchangePacket 512)).accepts partitionExchangeCommand (exchangePacket 512) = true ∧
    ((withPacket (exchanging 256) (exchangePacket 512)).entered partitionExchangeCommand (exchangePacket 512)).exTooLarge (exchangePacket 512) = some 0 ∧
    (awaiting.exchanges.find? fun o => o.kind == .exchange 1) = some exchangeOp ∧ awaiting.exSent exchangeOp = true ∧
    ((exGroup exchangeOp.pkt).find? fun r => !awaiting.exArrived exchangeOp.pkt r) = some 0 := by decide +kernel

end Prog

namespace Smp

/-! ## Witnesses: samples and images -/

/-- A base with sections 5 (a batch of two 16 by 16 elements with INT32 labels) and 6 (1 MiB of scratch, no set). -/
def pipeBytes : List Byte :=
  fieldsAt 384 (baseFields 1 ++ [(8, 4, 384), (56, 2, 2), (64, 2, 5), (66, 2, 1), (68, 4, 256), (72, 2, 6), (74, 2, 1), (76, 4, 320),
    (256, 4, 2), (260, 4, 1), (264, 4, 1000), (268, 2, 16), (270, 2, 16), (272, 1, 0x0B), (273, 1, 1), (274, 1, 0x06),
    (322, 1, 1), (323, 1, 1), (328, 8, 0x100000)])
def pipeJob (next : Nat) : Job := { jobOf 1 next with image := pipeBytes, holdBase := 0x10000000, holdSize := 0x4000000 }
def dataset3 (kind : Nat) : Dataset := ⟨4, 0, 0, [⟨1, idle32, 0, 0x80000, 0x1000⟩, ⟨kind, idle32, 0, 0x80000, 0x1000⟩]⟩
def pipe3 : Pipeline := ⟨3, 0, 0x4000, 1, [(0, 0)], [(0, 0)]⟩
/-- Dataset 3 with its index at 0x80000: every entry names one 1 by 1 picture at 0x80100. -/
def indexed : State :=
  let s := withJob ready (pipeJob 0)
  let s := withBytes s 0x80000 128 ((List.range 4).flatMap fun i =>
    [(32 * i, 8, 0x100), (32 * i + 8, 4, 19), (32 * i + 12, 1, 0), (32 * i + 13, 1, 2), (32 * i + 14, 2, 0xFFFF), (32 * i + 16, 8, 7 + i)])
  let s := withBytes s 0x80100 19 [(0, 4, 0x57524157), (4, 2, 1), (6, 2, 1), (8, 1, 3), (16, 3, 0x302010)]
  { s with samples := { s.samples with datasets := [(3, dataset3 1)] } }
def piped : State := { indexed with samples := { indexed.samples with pipes := [(0, pipe3)] } }

def datasetPacket : Packet :=
  packetOf 0x0401 9 idle32 [(0, 4, 2), (8, 8, 4), (16, 1, 0), (64, 1, 1), (64 + 4, 4, idle32), (64 + 16, 8, 0x80000), (64 + 24, 8, 0x1000)]
def datasetClosePacket : Packet := packetOf 0x0406 1 idle32 [(0, 4, 3)]
def pipelinePacket : Packet :=
  packetOf 0x0402 1 7 [(0, 4, 7), (4, 1, 3), (16, 8, 0x4000), (24, 4, 1)]
def epochPacket : Packet := packetOf 0x0403 1 7 [(0, 4, 7), (4, 4, 9), (8, 4, 3)]

theorem witness_pipelines :
    (withPacket indexed datasetPacket).accepts datasetOpenCommand datasetPacket = true ∧
    (withPacket indexed datasetClosePacket).accepts datasetCloseCommand datasetClosePacket = true ∧
    (withPacket indexed pipelinePacket).accepts pipelineConfigCommand pipelinePacket = true ∧
    Tab.get [] indexed.samples.restored 0 = [] ∧
    (withPacket piped epochPacket).accepts epochSetCommand epochPacket = true := by decide +kernel

def preparePacket : Packet := packetOf 0x0404 1 7 [(0, 4, 7), (4, 4, 0), (8, 4, 0), (12, 4, 1), (16, 8, 0x20000000), (24, 8, 0x4000)]
/-- A correction set for a 16 by 16 picture with a mesh of 2 by 2 points, at 0x90000. -/
def setFields (magic : Nat) : List (Nat × Nat × Nat) :=
  [(0, 4, magic), (4, 2, 1), (8, 2, 16), (10, 2, 16), (12, 2, 16), (14, 2, 16), (16, 1, 2), (17, 1, 2),
   (24, 8, 0x3FF0000000000000), (32, 8, 0x3FF0000000000000)]
def withSet (magic : Nat) : State := withBytes ready 0x90000 192 (setFields magic)
def correctionPacket (len : Nat) : Packet :=
  packetOf 0x0405 1 idle32 ([(0, 2, 255), (4, 4, len)] ++ if len = 0 then [] else [(8, 8, 0x90000), (16, 8, 0xA0000), (24, 8, 64)])

theorem witness_batches :
    (withPacket piped preparePacket).accepts batchPrepareCommand preparePacket = true ∧
    (piped.running.all fun o => o.kind != .batchPrepare (piped.starts + 1)) = true ∧
    (withPacket ready (correctionPacket 0)).accepts correctionLoadCommand (correctionPacket 0) = true ∧
    (withPacket (withSet 0x54534343) (correctionPacket 192)).accepts correctionLoadCommand (correctionPacket 192) = true ∧
    (withSet 0x54534343).poisonedIn [correctionImage (correctionPacket 192)] = none ∧
    setFault ((withSet 0x54534343).load 0x90000 192) = none ∧
    (withPacket (withSet 0) (correctionPacket 192)).accepts correctionLoadCommand (correctionPacket 192) = true ∧
    setFault ((withSet 0).load 0x90000 192) = some 0 := by decide +kernel

def dealt : State :=
  { piped with samples := { piped.samples with queue0 := [⟨.job 0, 0, 0, 0, 2⟩], left := [(.job 0, 0, 0, 2)] } }
/-- Slot 0 of the batch in the window of AD_0, decoded by lane 0 or decoded already. -/
def windowed (index : List Byte) (r : Option SampleResult) : State :=
  { dealt with samples := { dealt.samples with window0 := [⟨.job 0, 0, 0, 0, 3, index, some 0, r⟩] } }
def soundEntry : List Byte := fieldsAt 32 [(0, 8, 0x100), (8, 4, 19), (13, 1, 2), (14, 2, 0xFFFF)]
def settings0 : PipeSettings := ⟨slice pipeBytes 256 64, slice pipeBytes 320 64, 1, 0⟩

theorem witness_sample_issue : dealt.dieDecodes 0 = true ∧ dealt.laneFor 0 = some 0 ∧ (dealt.windowOf 0).length < 4096 ∧
    dealt.queueOf 0 = [⟨.job 0, 0, 0, 0, 2⟩] ∧ dealt.ownerSlot (.job 0) = some 0 ∧
    (dealt.pipeAt 0 0).map (fun y => y.2) = some (pipe3, dataset3 1) ∧
    dealt.settingsFault 0 settings0 pipe3 (dataset3 1)
      (dealt.load (0x80000 + 32 * (sampleOf settings0 4 [(0, 0)] 0 0 0).1) 32) = none := by decide +kernel

theorem witness_sample_decode :
    ((windowed soundEntry none).samples.window0.find? fun e => e.lane == some 0 && e.result.isNone).isSome = true ∧
    entrySound (dataset3 1) settings0 (leBytes 32 0) = false ∧ entrySound (dataset3 1) settings0 soundEntry = true ∧
    (windowed soundEntry none).poisonedIn [⟨0x80100, 19⟩] = none ∧
    entrySound (dataset3 3) settings0 (overlay soundEntry 12 [1]) = true ∧
    2 ≤ ((dataset3 3).sources.getD (entrySource (overlay soundEntry 12 [1])) ⟨0, 0, 0, 0, 0⟩).kind := by decide +kernel

theorem witness_slot_hand_on :
    ((windowed soundEntry (some ⟨1, 0, 5, []⟩)).windowOf 0).map (fun e => e.result.map fun r => r.reason) = [some 1] ∧
    ((windowed soundEntry none).windowOf 0).map (fun e => e.result) = [none] ∧
    (windowed soundEntry none).samples.left = [(.job 0, 0, 0, 2)] := by decide +kernel

end Smp

namespace Gra

/-! ## Witnesses: graphs -/

/-- A graph of two VECTOR tasks of AD_0: task 0 reads descriptor 0 from a source and feeds task 1, which reads descriptor 1. -/
def graphFields (source : Nat) : List (Nat × Nat × Nat) :=
  [(0, 4, 0x48505247), (4, 2, 1), (8, 4, 2), (12, 4, 1), (16, 2, 3), (18, 2, 2), (20, 2, 1), (24, 2, 4), (28, 4, 1), (32, 4, 64),
   (36, 4, 320), (40, 4, 384),
   (64, 1, 2), (66, 1, 1), (72, 1, source), (76, 4, 1), (136, 4, 0), (140, 2, 1), (144, 1, 1), (145, 1, 1), (146, 2, 1), (148, 4, 4), (152, 4, 1),
   (160, 1, 8), (161, 1, 0xFF),
   (192, 1, 2), (194, 1, 1), (196, 2, 1), (200, 1, 1), (202, 2, 1), (204, 4, 1), (264, 4, 1), (272, 1, 1), (273, 1, 1), (274, 2, 2),
   (276, 4, 4), (280, 4, 1), (288, 1, 8), (289, 1, 0xFF), (320, 4, 1)] ++
    (List.range 3).flatMap fun i => descFields (384 + 128 * i) (0xD0000 + 0x1000 * i) 0x0D [4] []
def graphBytes (source : Nat) : List Byte := fieldsAt 768 (graphFields source)
def graphPacket : Packet := packetOf 0x0501 1 idle32 [(0, 1, 31), (8, 8, 0xE0000), (16, 4, 768)]
def graphUnloadPacket : Packet := packetOf 0x0502 1 idle32 [(0, 1, 31)]
def graphRunPacket : Packet := packetOf 0x0503 1 idle32 [(0, 1, 31), (4, 4, idle32)]
def graphSourced (source : Nat) : State := ready.store 0xE0000 (graphBytes source)
def graphed : State :=
  { ready with graph := { ready.graph with graphs := [(31, ⟨0xE0000, graphBytes 6, List.replicate 64 1⟩)] } }

theorem witness_graphs :
    (withPacket (graphSourced 6) graphPacket).accepts graphLoadCommand graphPacket = true ∧
    (graphSourced 6).poisonedIn [graphSource graphPacket] = none ∧
    ready.graphFault (graphBytes 6) = none ∧ ready.graphFault (graphBytes 0) = some (Status.graphInvalid, 0) ∧
    (withPacket (graphSourced 0) graphPacket).accepts graphLoadCommand graphPacket = true ∧
    (withPacket graphed graphUnloadPacket).accepts graphUnloadCommand graphUnloadPacket = true ∧
    (graphed.graph.runs.all fun e => e.2.slot != 31 || e.2.cmd.isNone) = true ∧
    (withPacket graphed graphRunPacket).accepts graphRunCommand graphRunPacket = true := by decide +kernel

/-- Run 4 of the graph with some tasks admitted. -/
def runWith (tasks : Tab TaskState) : GraphRun :=
  ⟨31, none, some (0, 0), 0, 0, true, false, tasks, [], [], [], [], [], [], [], []⟩
def graphRunning (source : Nat) (tasks : Tab TaskState) : State :=
  { ready with graph := { ready.graph with graphs := [(31, ⟨0xE0000, graphBytes source, List.replicate 64 1⟩)], runs := [(4, runWith tasks)] } }
/-- A running graph of any image, its run, and what its units hold. -/
def withGraph (img : List Byte) (r : GraphRun) (units : Tab (List (Nat × Nat × Nat × Nat))) : State :=
  { ready with graph := { ready.graph with graphs := [(31, ⟨0xE0000, img, List.replicate 64 1⟩)], runs := [(4, r)], units := units } }
def waiting1 : TaskState := ⟨[0], .waiting, 0, []⟩
def granted1 (u : Nat) : TaskState := ⟨[1], .granted u, 0, []⟩

theorem witness_admission :
    (let s := graphRunning 6 [(0, waiting1)]; s.admissionHead (runWith [(0, waiting1)]) 0 = some 1 ∧
      s.admissible (runWith [(0, waiting1)]) 0 1 = true ∧
      ((graphTask (s.runImage (runWith [(0, waiting1)])) 1).slots.all fun x => x.source != 6) = true ∧
      (graphTask (s.runImage (runWith [(0, waiting1)])) 1).slots ≠ []) ∧
    (let s := graphRunning 6 []; s.admissible { runWith [] with stopped := true } 0 0 = false) := by decide +kernel

/-- A token for slot 0 of task 1, which is its last or the first of two. -/
def token1 : Token := ⟨4, 1, 0, 0, 0x1000⟩
def twoArrivals : List Byte := overlay (graphBytes 6) 204 (leBytes 4 2)
def tokened (img : List Byte) : State :=
  let s := withGraph img (runWith [(1, waiting1)]) []
  { s with graph := { s.graph with tokens := [token1, ⟨9, 1, 0, 0, 0⟩] } }

theorem witness_tokens :
    (tokened twoArrivals).graph.tokens[0]? = some token1 ∧ (tokened twoArrivals).graphRun 4 = some (runWith [(1, waiting1)]) ∧
    token1.attempt = (runWith [(1, waiting1)]).attempt ∧ Tab.look (runWith [(1, waiting1)]).tasks 1 = some waiting1 ∧
    waiting1.fill.getD 0 0 < (((tokened (graphBytes 6)).taskRecord 4 1).slot 0).arrivals ∧
    slotsFull ((tokened twoArrivals).taskRecord 4 1) { waiting1 with fill := setAt waiting1.fill 0 fun n => n + 1 } = false ∧
    slotsFull ((tokened (graphBytes 6)).taskRecord 4 1) { waiting1 with fill := setAt waiting1.fill 0 fun n => n + 1 } = true ∧
    (Tab.get [] (tokened (graphBytes 6)).graph.ready (readyKey ((tokened (graphBytes 6)).taskRecord 4 1))).length < 2048 ∧
    (tokened twoArrivals).graph.tokens[1]? = some ⟨9, 1, 0, 0, 0⟩ ∧ (tokened twoArrivals).graphRun 9 = none := by decide +kernel

/-- Task 1 on its ready list, and a duplicate of task 1 that waits for an array other than array 0. -/
def readied : State :=
  let s := withGraph (graphBytes 6) (runWith [(1, { waiting1 with fill := [1], place := .ready })]) []
  { s with graph := { s.graph with ready := [(0, [(4, 1)])] } }
def dupRun : GraphRun := { runWith [(1, granted1 0x1000)] with dups := [⟨1, 0x1000, false, none⟩] }
def duplicating : State := withGraph (graphBytes 6) dupRun [(0x1000, [(4, 1, 0, 0)])]

theorem witness_grants :
    readied.pickTask 1 ((List.range 8).reverse.flatMap fun p => Tab.get [] readied.graph.ready (0 * 8 + p)) = some (4, 1, 0x1000) ∧
    readied.flowOk (runWith []) (readied.taskReads (graphBytes 6) (graphTask (graphBytes 6) 1)) (taskWrites (graphBytes 6) (graphTask (graphBytes 6) 1)) = true ∧
    (graphTask (graphBytes 6) 1).type = 2 ∧ readied.taskGather 4 1 = none ∧
    duplicating.pickDup 0 = some (4, ⟨1, 0x1000, false, none⟩, 0x1001) ∧
    ready.pickTask 1 ((List.range 8).reverse.flatMap fun p => Tab.get [] ready.graph.ready (0 * 8 + p)) = none := by decide +kernel

/-- Array 0 offers the result of task 1, of its present placement or of an earlier one. -/
def offer1 (gen : Nat) : Offer := ⟨0x1000, 4, 1, gen, 0, false, [], []⟩
def offering (gen : Nat) : State := withGraph (graphBytes 6) (runWith [(1, granted1 0x1000)]) [(0x1000, [(4, 1, gen, 0)])]

theorem witness_results :
    ((offering 7).entries 0x1000).head? = some (4, 1, 7, 0) ∧ Tab.look (offering 7).graph.transfers 0x1000 = none ∧
    (offering 7).graph.holds.contains 0x1000 = false ∧ (granted1 0x1000).gen ≠ 7 ∧ (runWith []).job = none ∧
    ((offering 0).entries 0x1000).head? = some (4, 1, 0, 0) ∧ (offering 0).workDone 4 1 = true ∧
    ((offering 0).endEntry 0x1000).errorsMet (runWith [(1, granted1 0x1000)]) (graphTask (graphBytes 6) 1) (offer1 0).parity = [] ∧
    (graphTask (graphBytes 6) 1).commit = false ∧ (offering 0).runCommand 4 = none := by decide +kernel

/-- Engine transfers, a task that waits for room in its list, and a prefetch copy of task 0. -/
def transferring (a b : Nat) : State := { ready with graph := { ready.graph with transfers := [(0x1000, (a, b))] } }
def crowded : State :=
  let s := withGraph (graphBytes 6) (runWith [(1, { waiting1 with fill := [1] })]) []
  { s with graph := { s.graph with crowded := [(4, 1)] } }
def fetching : State :=
  let s := withGraph (graphBytes 2) (runWith [(0, waiting1)]) []
  { s with graph := { s.graph with prefetch := [(4, 0, 0)] } }

theorem witness_engines :
    Tab.look (transferring 0 1).graph.transfers 0x1000 = some (0, 1) ∧ Tab.look (transferring 1 0).graph.transfers 0x1000 = some (1, 0) ∧
    (crowded.graph.crowded.find? fun e => readyKey (crowded.taskRecord e.1 e.2) == 0 * 8 + 0) = some (4, 1) ∧
    (Tab.get [] crowded.graph.ready 0).length < 2048 ∧ fetching.graph.prefetch[0]? = some (4, 0, 0) ∧
    (fetching.prefetchUnderWay (graphTask (graphBytes 2) 0).die).contains (4, 0, 0) = true ∧
    fetching.poisonedIn [(graphDesc (graphBytes 2) 0).footprint, (graphDesc (graphBytes 2) 0).scaleRange] = none := by decide +kernel

end Gra

namespace Emb

/-! ## Witnesses: embedding tables -/

/-- A slice of table 5: two rows of 16 FP32 elements, with some versions. -/
def sliceWith (vs : List Version) : Slice := ⟨0x0D, 1, false, noJob, 2, 16, vs, 0⟩
def version1 (st : VersionState) : Version := ⟨1, st, 0x40000, 4096, 0⟩
def withSlice (x : Slice) : State := { ready with emb := { ready.emb with slices := [(320, x)] } }
def createPacket : Packet := packetOf 0x0601 1 idle32 [(0, 2, 5), (3, 1, 0x0D), (4, 2, 1), (8, 4, idle32), (16, 8, 2), (24, 4, 16)]
def loadPacket (source : Nat) : Packet :=
  packetOf 0x0602 2 idle32 [(0, 2, 5), (3, 1, source), (4, 4, 1), (8, 8, 0x20000), (16, 4, if source = 3 then 1 else idle32),
    (24, 8, 0x40000), (32, 8, 4096), (40, 8, 64)]
def publishPacket (step : Nat) : Packet := packetOf 0x0603 1 idle32 [(0, 2, 5), (4, 4, 1), (8, 4, step)]
def destroyPacket : Packet := packetOf 0x0605 1 idle32 [(0, 2, 5), (2, 1, 0xFF)]
def loadable : State := (withSlice (sliceWith [])).store 0x20000 (fieldsAt 128 [(0, 4, 0x3F800000), (64, 4, 0x40000000)])

theorem witness_tables :
    (withPacket ready createPacket).accepts embTableCreateCommand createPacket = true ∧
    (withPacket loadable (loadPacket 1)).accepts (embVersionLoadCommand none) (loadPacket 1) = true ∧
    loadable.embSlice (versionSliceKey (loadPacket 1)) = some (sliceWith []) ∧
    loadable.poisonedIn [versionSource (loadPacket 1) (sliceWith [])] = none ∧
    ((List.range 2).all fun r => (List.range 2).all fun q => apart (0x40000 + q * 64) 64 (0x20000 + r * 64) 64) = true ∧
    (withPacket loadable (loadPacket 3)).accepts (embVersionLoadCommand none) (loadPacket 3) = true ∧
    (withPacket loadable destroyPacket).accepts embTableDestroyCommand destroyPacket = true ∧
    loadable.destroyedSlices (destroyPacket.param 0 2 * 256 + destroyPacket.param 2 1) ≠ [] ∧
    ((loadable.destroyedSlices (destroyPacket.param 0 2 * 256 + destroyPacket.param 2 1)).all fun e => loadable.sliceUnbound e.1) = true := by
  decide +kernel

def publishable : State := withSlice (sliceWith [version1 .loaded])
/-- The slice belongs to job 7, which has gone past step 4. -/
def publishStaged : State := withJob (withSlice { sliceWith [version1 .loaded] with job := 7 }) (jobOf 1 5)

theorem witness_publish :
    (withPacket publishable (publishPacket 0)).accepts embVersionPublishCommand (publishPacket 0) = true ∧
    publishable.tableJob 5 = none ∧
    ((publishable.tableSlices 5).all fun e => e.2.versions.any fun v => v.number == 1) = true ∧
    (withPacket publishStaged (publishPacket 9)).accepts embVersionPublishCommand (publishPacket 9) = true ∧
    publishStaged.tableJob 5 = some (0, jobOf 1 5) ∧ publishNow (jobOf 1 5) = false := by decide +kernel

def gatherOf (version : Nat) : Packet := packetOf 0x0604 3 idle32 ([(0, 2, 5), (4, 4, version), (8, 4, 2), (12, 4, 2), (16, 1, 0x0D), (32, 8, 0x30000)] ++
  descFields 64 0x50000 0x0D [16, 2] [64])
def gatherable : State := withSlice (sliceWith [version1 .current])
/-- The request of a gather of rows 0 and 1, being served with no window served yet. -/
def request1 : GatherReq :=
  ⟨some 0, 0, idle32, 0, 0, 0, 0, requestHead 1 5 0 0 0 0x0D 16 2 2 0 0 ++ List.replicate 64 0, []⟩
def request2 : GatherReq :=
  { request1 with data := requestHead 1 5 0 0 0 0x0D 16 8192 8192 0 0 ++ List.replicate 64 0 }
def gather1 : GatherOp := ⟨some (9, 0), none, 0, fieldsAt 128 (descFields 0 0x50000 0x0D [16, 2] [64]), 16, 4, 2, 1, [0], [(320, 1)], 0⟩
def serving : State := { gatherable with emb := { gatherable.emb with requests := [(3, request2)], gathers := [(0, gather1)] } }
/-- Every gather unit is fenced. -/
def fencedGathers : State := { ready with integrity := { ready.integrity with fences := (unitsOf 4).map Fence.unit } }

theorem witness_gathers :
    (withPacket gatherable (gatherOf 1)).accepts embGatherCommand (gatherOf 1) = true ∧
    gatherable.poisonedIn ((gatherable.embReads (gatherOf 1)).map fun u => u.range) = none ∧
    gatherable.embVersion (gatherOf 1) = some 1 ∧ gatherable.embTable (gatherOf 1) = some (320, sliceWith [version1 .current]) ∧
    (withPacket publishable (gatherOf 2)).accepts embGatherCommand (gatherOf 2) = true ∧
    publishable.embVersion (gatherOf 2) = none ∧
    Tab.look serving.emb.requests 3 = some request2 ∧ serving.unfenced 4 ≠ [] ∧ serving.windowPoison request2 1 = none ∧
    1 < reqWindows request2.data ∧ serving.requestTarget request2.data = some (320, sliceWith [version1 .current], version1 .current) ∧
    request2.served.length + 1 ≠ reqWindows request2.data ∧ (serving.emb.gathers.all fun e => e.2.cmd.isNone) = true ∧
    Tab.look serving.emb.gathers 0 = some gather1 ∧ gather1.landed.contains 0 = true ∧ fencedGathers.unfenced 4 = [] := by decide +kernel

/-! ## Witnesses: the key directory -/

def entryOf (key : Nat) (w priority value : Nat) : DirEntry :=
  { recordEntry (fieldsAt 64 [(0, 8, key), (32, 8, value), (40, 1, priority)]) w with tag := dirTag (dirHash [BitVec.ofNat 64 key] 9) }
/-- A bank of table 3 on die 0 with entries of key 5 in slots 0 and 2. -/
def bank3 : DirBank := ⟨3, 1, 8, 9, [(0, entryOf 5 1 7 0x111), (2, entryOf 5 1 7 0x222)]⟩
def withBank (b : DirBank) : State := { ready with dir := { ready.dir with banks := [(0, b)] } }

theorem witness_bank :
    Tab.wf bank3.slots = true ∧ (bank3.slots.all fun x => decide (x.1 < bank3.size)) = true ∧
    (bank3.search [5]).winner = some (0, entryOf 5 1 7 0x111) ∧ (bank3.search [6]).winner = none ∧
    ((bank3.insert (entryOf 6 1 9 0)).map fun b => b.slots.map fun x => (x.1, x.2.key)) = some [(0, [6]), (1, [5]), (2, [5])] ∧
    ({ bank3 with width := 4096 } : DirBank).insert (entryOf 6 1 9 0) = none ∧
    (withBank bank3).bankFor 3 0 [5] = some 0 ∧
    (((withBank bank3).dirDelete 3 0 [5] fun _ => true).1.bank 0).map (fun b => b.slots) = some [] := by decide +kernel

def bankPacket (table : Nat) : Packet := packetOf 0x0701 1 idle32 [(0, 1, 1), (1, 1, 1), (2, 2, table), (4, 1, 8), (5, 1, 1), (8, 8, 9)]
def dirListPacket (code : Nat) : Packet := packetOf code 1 idle32 [(0, 2, 3), (2, 1, 1), (4, 4, 1), (8, 8, 0x20000)]
def dirCompactPacket : Packet := packetOf 0x0705 1 idle32 [(0, 2, 3), (2, 1, 1)]
def dirListed : State := (withBank bank3).store 0x20000 (fieldsAt 64 [(0, 8, 5)])

theorem witness_directory :
    (withPacket ready (bankPacket 3)).accepts dirBankConfigCommand (bankPacket 3) = true ∧ configTable (bankPacket 3) ≠ 0xFFFF ∧
    configClear (bankPacket 3) = true ∧
    (withPacket ready (bankPacket 0xFFFF)).accepts dirBankConfigCommand (bankPacket 0xFFFF) = true ∧
    (withPacket dirListed (dirListPacket 0x0702)).accepts dirInsertCommand (dirListPacket 0x0702) = true ∧
    dirListed.poisonedIn [listRange (dirListPacket 0x0702) 64] = none ∧
    (withPacket dirListed (dirListPacket 0x0703)).accepts dirDeleteCommand (dirListPacket 0x0703) = true ∧
    (withPacket dirListed dirCompactPacket).accepts dirCompactCommand dirCompactPacket = true ∧
    dirListed.compactBanks dirCompactPacket = [0] ∧ dirListed.bank 0 = some bank3 := by decide +kernel

def searchPacket : Packet := packetOf 0x0704 1 idle32 [(0, 2, 3), (4, 4, 1), (8, 8, 0x20000), (16, 8, 0x21000)]
def lostTable : State := { dirListed with dir := { dirListed.dir with lost := [(3, 0)] } }

theorem witness_search :
    (withPacket lostTable searchPacket).accepts dirSearchCommand searchPacket = true ∧
    lostTable.dirLost (listTable searchPacket) (searchPacket.param 2 1) = true ∧
    (withPacket dirListed searchPacket).accepts dirSearchCommand searchPacket = true ∧
    dirListed.dirLost (listTable searchPacket) (searchPacket.param 2 1) = false ∧
    dirListed.poisonedIn [listRange searchPacket 32] = none ∧
    apart 0x30000 64 (searchPacket.param 16 8) (16 * listCount searchPacket) = true := by decide +kernel

/-- Table 5 with HOT, a bank of the hot table on die 0, and entries of it. -/
def hotSlice : Slice := { sliceWith [version1 .current] with hot := true }
def hotEntry (row state epoch : Nat) : DirEntry := ⟨[hotKey 5 0 row], 16, 0, hotFlags false false 0 false state, 0, false, epoch⟩
def hotBank (l : List (Nat × DirEntry)) : DirBank := ⟨255, 1, 8, 0, l⟩
def hotState (l : List (Nat × DirEntry)) : State :=
  let s := withSlice hotSlice
  { s with dir := { s.dir with banks := [(0, hotBank l)], epoch0 := 2 } }
def promotePacket : Packet := packetOf 0x0706 1 idle32 [(0, 2, 5), (4, 4, 1), (8, 8, 0x20000), (16, 8, (seraiRange 0).lo)]
def demotePacket : Packet := packetOf 0x0707 1 idle32 [(0, 2, 5), (4, 4, 1), (8, 8, 0x20000)]

theorem witness_hot :
    (withPacket (hotState []) promotePacket).accepts dirHotPromoteCommand promotePacket = true ∧
    (hotState []).embSlice (hotSliceKey promotePacket) = some hotSlice ∧ hotSlice.current = some (version1 .current) ∧
    (hotState []).poisonedIn [hotRows promotePacket] = none ∧
    (withPacket (hotState []) demotePacket).accepts dirHotDemoteCommand demotePacket = true ∧
    (((hotState [(0, hotEntry 1 1 0)]).unfenced 4).any fun u => unitDie u == some 0) = true ∧
    (((hotState [(0, hotEntry 1 1 0)]).hotEntries 0).find? fun e => e.sliceKey == 64 * 5 + 0 && e.row == 1 && e.state == 1 && !e.copied) =
      some (hotEntry 1 1 0) ∧
    (hotSlice.versions.find? fun v => v.vslot == (hotEntry 1 1 0).vslot) = some (version1 .current) ∧
    (hotState [(0, hotEntry 1 1 0)]).sliceFree hotSlice = true ∧
    hotEntry 1 3 1 ∈ (hotState [(0, hotEntry 1 3 1)]).hotEntries 0 ∧
    1 < (hotState [(0, hotEntry 1 3 1)]).dir.epoch0 := by decide +kernel

end Emb

namespace Sel

/-! ## Witnesses: selection -/

/-- A row of FP32 values 1.0, 3.0, NaN and 3.0. -/
def row4 : List Nat := [0x3F800000, 0x40400000, 0x7FC00000, 0x40400000]

theorem witness_row :
    (let r := selectRow 0x0D false 2 10 row4
     r.valid = 3 ∧ r.ties = 0 ∧ r.entries = [(11, 0x40400000), (13, 0x40400000)]) ∧
    (selectRow 0x0D false 1 10 row4).ties = 1 ∧
    ((selectRow 0x0D false 1 10 row4).entries.all fun x => x.1 != 10 + 3) = true ∧ selectInvalid 0x0D 0x40400000 = false := by
  decide +kernel

def topkPacket : Packet := packetOf 0x0801 5 idle32 ([(0, 1, 0x0D), (2, 2, 2), (4, 4, 4), (8, 4, 1), (12, 4, 10)] ++
  descFields 64 0x20000 0x0D [4, 1] [64] ++ descFields 192 0x30000 0x20 [192, 1] [192])
/-- A merge of two lists of two, of one row. -/
def mergePacket : Packet := packetOf 0x0802 5 idle32 ([(0, 1, 0x0D), (1, 1, 2), (2, 2, 2), (8, 4, 1), (18, 1, 2), (20, 2, 2)] ++
  descFields 64 0x20000 0x20 [192, 2, 1] [192, 384] ++ descFields 192 0x30000 0x20 [192, 1] [192])
def mergeable (lo : Nat) : State :=
  let l := fun (base : Nat) => (selectRow 0x0D false 2 base row4).bytes 0x0D false 2
  (ready.store 0x20000 (l 10)).store 0x200C0 (l lo)
def mergeRows (s : State) : State × Nat × Option (Nat × Nat) :=
  (s.entered selectMergeCommand mergePacket).selectRows (selectParams mergePacket) (selectSrc mergePacket) (selectDst mergePacket)
    (List.range (selectParams mergePacket).rows) (s.entered selectMergeCommand mergePacket) 0

theorem witness_select :
    (let s := ready.store 0x20000 (row4.flatMap (leBytes 4))
     (withPacket s topkPacket).accepts selectTopkCommand topkPacket = true ∧ s.poisonedIn [(selectSrc topkPacket).footprint] = none) ∧
    (withPacket (mergeable 14) mergePacket).accepts selectMergeCommand mergePacket = true ∧
    (mergeable 14).poisonedIn [(selectSrc mergePacket).footprint] = none ∧
    (mergeRows (withPacket (mergeable 14) mergePacket)).2.2 = none ∧
    (withPacket (mergeable 12) mergePacket).accepts selectMergeCommand mergePacket = true ∧
    (mergeRows (withPacket (mergeable 12) mergePacket)).2.2 = some (0, 1) := by decide +kernel

end Sel

namespace Rly

/-! ## Witnesses: relay commands -/

def peerPacket (kind n : Nat) : Packet := packetOf 0x0901 1 idle32 [(0, 1, kind), (4, 4, if kind = 2 then 5 else 0), (8, 4, n), (16, 8, 0x20000)]
def localRow : LocalRecord := ⟨1, 1, false, none, 0x5000000, List.replicate 4 0, List.replicate 4 0, List.replicate 128 0, List.replicate 64 0⟩
def localBytes : State := ready.store 0x20000 (fieldsAt 256 [(0, 2, 1), (2, 1, 1), (8, 8, 0x5000000)])
/-- The module is module 1 on the relay. -/
def relaying : State := { ready with relay := { ready.relay with local_ := some localRow } }
def entryBytes : State := relaying.store 0x20000 (fieldsAt 160 [(0, 2, 5), (2, 2, 1), (16, 4, 0x0A000001)])

theorem witness_peers :
    (withPacket localBytes (peerPacket 1 0)).accepts relayPeerSetLocalCommand (peerPacket 1 0) = true ∧ peerKind (peerPacket 1 0) ≠ 2 ∧
    localBytes.poisonedIn [⟨peerRecord (peerPacket 1 0), 256⟩] = none ∧
    (withPacket entryBytes (peerPacket 2 1)).accepts relayPeerSetModulesCommand (peerPacket 2 1) = true ∧ peerKind (peerPacket 2 1) = 2 ∧
    entryBytes.poisonedIn [peerEntries (peerPacket 2 1)] = none := by decide +kernel

def qpPacket : Packet := packetOf 0x0902 2 idle32 [(0, 2, 3), (32, 2, 4096), (36, 1, 1), (8, 4, 100), (12, 4, 200)]
def qpDestroyPacket : Packet := packetOf 0x0903 1 idle32 [(0, 2, 3)]
def qp3 : QueuePair := ⟨qpPacket.paramBytes 0 128, 100, 200, 0, false, 0, 0, 0, false, false, 0, false, 0, [], []⟩
def withQp (q : QueuePair) : State := { relaying with relay := { relaying.relay with qps := [(3, q)] } }
def postPacket (op len : Nat) : Packet := packetOf 0x0904 2 idle32
  [(0, 1, op), (4, 4, 65539), (8, 4, idle32), (16, 8, 0x20000), (24, 8, 0x9000), (32, 4, len), (64, 8, 0x30000), (72, 4, 1000)]
def sealedPacket (op : Nat) : Packet := packetOf 0x0904 2 7
  [(0, 1, op), (1, 1, if op = 19 then 0 else 2), (4, 4, 5), (8, 4, 7), (16, 8, 0x20000), (32, 4, if op = 19 then 0 else 64), (72, 4, 1000)]

theorem witness_qp :
    (withPacket relaying qpPacket).accepts relayQpCreateCommand qpPacket = true ∧
    (withPacket (withQp qp3) qpDestroyPacket).accepts relayQpDestroyCommand qpDestroyPacket = true ∧ (withQp qp3).qp 3 = some qp3 ∧
    ([(1, 64), (2, 64), (3, 64), (4, 8), (5, 8)].all fun x =>
      let p := postPacket x.1 x.2
      (withPacket (withQp qp3) p).accepts (qpPostCommand x.1) p && ((withQp qp3).poisonedIn [⟨postLocal p, postLength p⟩]).isNone &&
      (withPacket (withQp { qp3 with failed := true }) p).accepts (qpPostCommand x.1) p) = true := by decide +kernel

theorem witness_posts :
    [16, 17, 19].all fun op =>
      let p := sealedPacket op
      let s := withPacket (withJob relaying (jobOf 1 5)) p
      s.accepts (sealedPostCommand op) p && (s.postOrigin p.job).isSome && (s.poisonedIn [⟨postLocal p, postLength p⟩]).isNone := by
  decide +kernel

/-! ## Witnesses: received packets -/

/-- Job 7 at step 5 with a digest; module 1 shares a pairwise key with module 5, whose first plane address is 10.0.0.1. -/
def job7 : Job := { jobOf 1 5 with digest := List.replicate 64 0x11 }
def pair5 : PairKey := ⟨5, List.replicate 32 0x5A, 1, 1, 0, true⟩
def joined : State :=
  let s := withJob relaying job7
  { s with
    relay := { s.relay with peers := [(5, ⟨false, fieldsAt 128 [(0, 4, 0x0A000001)]⟩)] }
    sec := { s.sec with pairs := [pair5] }
    memory := { s.memory with regions := [(2, ⟨7, 0x100000, 0x1000, none⟩), (3, ⟨7, 0x200000, 0x1000, some 1⟩)] } }
/-- A packet of job 7 for a step, with the first fields of its block. -/
def bodyOf (opcode step block : Nat) (payload : List Byte) : Body := (job7.origin step 0 3).body 0 0 opcode 0xFFFFFFFF (leBytes 16 block) payload
/-- The frame that carries it from module 5, as packet 9. -/
def frameOf (b : Body) : Frame := ⟨0, fieldsAt 16 [(0, 4, 0x0A000001)], false, b.sealed 5 1 9 ⟨0xFFFF, pair5.key, 0⟩⟩
def openedOf (b : Body) : Opened := ⟨5, 0, 9, b, false, true⟩
/-- The same frame from an address that is none of module 5's. -/
def strayFrame : Frame := { frameOf (bodyOf 0xC5 5 0 []) with src := List.replicate 16 0xFF }

theorem witness_frame_opens :
    joined.openFrame (frameOf (bodyOf 0xC5 5 0 [])) = some (openedOf (bodyOf 0xC5 5 0 [])) ∧ (frameOf (bodyOf 0xC5 5 0 [])).opcode = 0xC5 := by
  decide +kernel

theorem witness_frame_refused : joined.openFrame strayFrame = none ∧ strayFrame.sender.isSome = true ∧ joined.moduleId.isSome = true := by
  decide +kernel

theorem witness_vote : joined.openFrame (frameOf (bodyOf 0xC4 5 1 [])) = some (openedOf (bodyOf 0xC4 5 1 [])) ∧
    (openedOf (bodyOf 0xC4 5 1 [])).body.kind = 1 := by decide +kernel

theorem witness_judged :
    (joined.recvStream 5 0 0).limit ≤ (openedOf (bodyOf 0xC0 5 2 [])).seq ∧
    (joined.findJob 9).isNone = true ∧
    (joined.findJob (bodyOf 0xC0 5 2 []).job).map (fun e => e.1) = some 0 ∧
    ({ bodyOf 0xC0 5 2 [] with tag := [] } : Body).tag ≠ job7.tagAt 5 ∧
    (bodyOf 0xC0 3 2 []).tag = job7.tagAt 3 ∧ (bodyOf 0xC0 3 2 []).step ≠ job7.next ∧ job7.timing (bodyOf 0xC0 3 2 []) = .stale := by
  decide +kernel

def earlyOf (b : Body) : Early := ⟨5, 0, 9, b, false⟩

theorem witness_landing :
    (bodyOf 0xC0 5 2 (List.replicate 64 1)).isDigest = false ∧
    joined.sealedRange 7 2 0 64 = some ⟨0x100000, 64⟩ ∧ (bodyOf 0xC0 5 2 (List.replicate 64 1)).region = 2 ∧
    joined.trusts (earlyOf (bodyOf 0xC0 5 2 [])) [⟨0x100000, 64⟩] = true ∧
    joined.sealedRange 7 3 0 64 = some ⟨0x200000, 64⟩ ∧ joined.trusts (earlyOf (bodyOf 0xC0 5 3 [])) [⟨0x200000, 64⟩] = false ∧
    joined.sealedRange 7 4 0 64 = none ∧
    (⟨3, [5], 10, 0, 0⟩ : RecvStream).holds 4 = false := by decide +kernel

/-! ## Witnesses: relay timers and foreign requests -/

/-- A packet in flight to module 5 on plane 0, over two links. -/
def flight0 : Flight := ⟨5, 0, 9, bodyOf 0xC5 5 0 [], List.replicate 92 7, 0, 0, false⟩
def flying (bad : List Nat) : State :=
  { joined with relay := { joined.relay with links := [0, 1], flights := [flight0], unusable := bad, notReady := [(5, 0, 0, 9)],
                                             planeExpiries := [(40, 1)], rates := [(40, 3)] } }

theorem witness_resends :
    (flying []).flightOf 5 0 0 9 = some flight0 ∧
    (let s := flying []; ({ s with relay := { s.relay with unusable := [40] } } : State).nextPlane 5 0 = some 1) ∧
    (flying []).nextPlane 5 0 = some 1 ∧ 8 * 5 + 0 ∈ (flying [40]).relay.unusable := by decide +kernel

def unacked : State := (flying []).setRecv 5 0 1 ⟨4, [], 8, 2, 0⟩
/-- 200 µs and more have gone by since the last CNP. -/
def quiet : State := { flying [] with clk := 0xF0000000 }

theorem witness_rates :
    (Tab.look joined.relay.peers 5).isSome = true ∧ 0 < Tab.get 0 quiet.relay.rates (8 * 5 + 0) ∧
    Tab.get 0 quiet.relay.cnpSeen (8 * 5 + 0) + microseconds 200 ≤ quiet.clk ∧
    0 < (unacked.recvStream 5 0 1).unacked ∧ relaying.relay.local_ = some localRow ∧ localRow.ipv6 = false := by decide +kernel

/-- A queue pair whose peer may reach region 2 for atomics under remote key 0x77, and a fetch-and-add of 3. -/
def qpForeign : QueuePair :=
  { qp3 with params := fieldsAt 128 [(3, 1, 9), (32, 2, 4096), (34, 1, 14), (35, 1, 2), (36, 1, 1), (37, 1, 1), (48, 4, 2), (52, 4, 0x77)] }
def foreign : State :=
  let s := (withQp qpForeign).store 0x100008 (leBytes 8 40)
  { s with memory := { s.memory with regions := [(2, ⟨idle32, 0x100000, 0x1000, none⟩)] } }
def fetchAdd : Frame :=
  ⟨0, List.replicate 16 0, false, [0x14] ++ List.replicate 4 0 ++ beBytes 3 0x1003 ++ [0x80] ++ beBytes 3 200 ++ beBytes 8 0x100008 ++
    beBytes 4 0x77 ++ beBytes 8 3 ++ beBytes 8 0⟩

theorem witness_foreign :
    fetchAdd.bytes.length = 40 ∧ beNat (slice fetchAdd.bytes 5 3) = 0x1000 + 3 ∧ leField fetchAdd.bytes 0 1 = 0x14 ∧
    leField fetchAdd.bytes 1 1 / 16 % 4 = 0 ∧ foreign.qp 3 = some qpForeign ∧ qpForeign.failed = false ∧ qpForeign.writing = false ∧
    fetchAdd.port = qpForeign.plane ∧ fetchAdd.ce = false ∧ qpForeign.allows 0 = true ∧ fetchAdd.src = slice qpForeign.params 16 16 ∧
    beNat (slice fetchAdd.bytes 9 3) = qpForeign.expectPsn ∧ beNat (slice fetchAdd.bytes 12 8) % 8 = 0 ∧
    (foreign.foreignRange qpForeign 3 (beNat (slice fetchAdd.bytes 20 4)) (beNat (slice fetchAdd.bytes 12 8)) 8).isSome = true := by
  decide +kernel

/-- A write of the queue pair whose retries are spent, and its command. -/
def work0 : QpWork := ⟨0, 0, 1, some 100, 1, 0x20000, 0x9000, 64, 0, 0, 0, 0, 0, 2, 0⟩
def op0 (p : Packet) : RunOp := ⟨p, .relayPost 1, 0, [], 0, 0, false⟩
def posting (p : Packet) : State :=
  let s := withQp { qpForeign with work := [work0] }
  { s with running := [op0 p] }

theorem witness_timeouts :
    (posting (postPacket 1 64)).qp 3 = some { qpForeign with work := [work0] } ∧ work0.first.isSome = true ∧
    qpForeign.rnrWait = false ∧ qpForeign.timeout ≠ 0 ∧ qpForeign.retryCnt ≤ work0.retries ∧
    (posting (postPacket 1 64)).running = [op0 (postPacket 1 64)] ∧
    (posting (postPacket 1 64)).postCommand 0 0 = some (op0 (postPacket 1 64)) ∧
    (posting (sealedPacket 16)).postCommand 0 0 = some (op0 (sealedPacket 16)) ∧
    postPeer (op0 (sealedPacket 16)).pkt < 65536 ∧ (posting (sealedPacket 16)).job.jobs = [] ∧
    (posting (sealedPacket 16)).relay.early = [] := by decide +kernel

end Rly

namespace Int

/-! ## Witnesses: integrity -/

def unitPacket (code unit : Nat) : Packet := packetOf code 1 idle32 [(0, 2, unit)]
def testAllPacket (mask hours : Nat) : Packet := packetOf 0x0A02 1 idle32 [(0, 2, mask), (2, 2, hours)]

theorem witness_tests_requested :
    (withPacket ready (unitPacket 0x0A01 0x1000)).accepts intTestUnitCommand (unitPacket 0x0A01 0x1000) = true ∧
    (withPacket ready (unitPacket 0x0A05 0x1000)).accepts intUnfenceCommand (unitPacket 0x0A05 0x1000) = true ∧
    (withPacket ready (testAllPacket 2 0)).accepts intTestAllCommand (testAllPacket 2 0) = true ∧
    (maskUnits 2).find? (fun u => !ready.faultFenced u) = some 0x1000 ∧ ready.openTests (testAllPacket 2 0).testFor = [] ∧
    (withPacket ready (testAllPacket 0 0)).accepts intTestAllCommand (testAllPacket 0 0) = true ∧
    (withPacket ready (testAllPacket 0 9)).accepts intTestAllCommand (testAllPacket 0 9) = true ∧ ready.job.jobs = [] ∧
    (withPacket (withJob ready (jobOf 1 5)) (testAllPacket 2 0)).accepts intTestAllCommand (testAllPacket 2 0) = true ∧
    (withJob ready (jobOf 1 5)).job.jobs ≠ [] := by decide +kernel

/-- A test of array 0, waiting or running, and a strike on it. -/
def test0 (unfence : Bool) : TestReq := ⟨0x1000, .rotation, unfence, false, []⟩
def testWaiting : State := { ready with integrity := { ready.integrity with waiting := [test0 false] } }
def testRunning (unfence : Bool) : State :=
  { ready with integrity := { ready.integrity with testing := [test0 unfence], fences := [.unit 0x1000, .unit 0x1001],
                                                   strikes := [⟨.unit 0x1000, 1, 0⟩] } }
/-- A job of 512 ranks is open, so struck units are observed. -/
def observing : State :=
  { withJob ready { jobOf 1 5 with image := fieldsAt 256 [(16, 4, 512)] } with
    integrity := { ready.integrity with strikes := [⟨.unit 0x1000, 1, 0⟩] } }

theorem witness_tests_run :
    testWaiting.integrity.testing = [] ∧ testWaiting.integrity.waiting = [test0 false] ∧ unitKnown 0x1000 = true ∧
    testWaiting.faultFenced 0x1000 = false ∧ testWaiting.bankStuck 0x1000 = false ∧
    ((testedUnits 0x1000).all fun u => !testWaiting.busy u) = true ∧ testedUnits 0x1000 ≠ [] ∧
    ((testRunning true).integrity.testing.find? fun r => r.unit == 0x1000) = some (test0 true) ∧ unitType 0x1000 ≠ 8 ∧
    unitValid 0x1000 = true ∧ observing.observed 0x1000 = true ∧ observing.faultFenced 0x1000 = false ∧
    ready.rotationUnits.find? (fun u => decide (ready.integrity.rotationNext ≤ u)) = some 0x1000 := by decide +kernel

def strikesPacket : Packet := packetOf 0x0A03 1 idle32 [(0, 8, 0x20000), (8, 4, 16)]
def patternPacket : Packet := packetOf 0x0A06 1 idle32 [(0, 8, 0x20000), (8, 4, 4819)]
def patternStored : State := ready.store 0x20000 (fieldsAt 64 [(0, 4, 0x54544150), (4, 2, 1), (8, 4, 5), (12, 8, 4819)])

theorem witness_fence :
    (withPacket ready (unitPacket 0x0A04 0x1000)).accepts intFenceCommand (unitPacket 0x0A04 0x1000) = true ∧
    (withPacket ready strikesPacket).accepts intStrikesQueryCommand strikesPacket = true ∧
    (withPacket patternStored patternPacket).accepts { patternSetStageCommand with own := fun _ _ => none } patternPacket = true ∧
    (patternStored.integrity.patternVersion.toNat < leField (patternStored.patternImage patternPacket) 8 4) ∧
    patternStored.poisonedIn [patternPacket.patternRange] = none := by decide +kernel

/-- A pattern set of version 5 is accepted where the vendor's signature verifies. -/
theorem witness_patterns (h : Config.vendorSigned ((withPacket patternStored patternPacket).patternImage patternPacket) = true) :
    (withPacket patternStored patternPacket).accepts patternSetStageCommand patternPacket = true :=
  accepts_of_own _ _ _ witness_fence.2.2.1
    (by
      have v : decide ((withPacket patternStored patternPacket).integrity.patternVersion.toNat <
          leField ((withPacket patternStored patternPacket).patternImage patternPacket) 8 4) = true := by decide +kernel
      simp only [patternSetStageCommand, h, v]; rfl)

/-- Three strikes on a page of HBM, and on a granule of serai. -/
def struckPage : State :=
  { ready with integrity := { ready.integrity with
      strikes := List.replicate 3 ⟨.page 0x7000, 2, 0⟩ ++ List.replicate 3 ⟨.granule 0x010008010000, 2, 0⟩ } }

theorem witness_retirement :
    3 ≤ struckPage.liveOn (.page 0x7000) ∧ struckPage.memory.pool0.pages.length < 32768 ∧
    3 ≤ struckPage.liveOn (.granule 0x010008010000) ∧ struckPage.memory.pool1.granules.length < 32 ∧
    ((struckPage.memory.pool0.pages ++ struckPage.memory.pool1.pages ++ struckPage.memory.pool0.granules ++
      struckPage.memory.pool1.granules).contains 0x7000) = false := by decide +kernel

end Int

namespace Key

open Sys2Proof.Tests.Rly

/-! ## Witnesses: sessions, keys and packages -/

def sessionPacket (op gen : Nat) : Packet := packetOf 0x0B01 1 (if op = 4 then 7 else idle32)
  [(0, 1, op), (1, 1, gen), (4, 4, if op = 4 then 7 else idle32), (8, 4, if op = 3 ∨ op = 4 then 1 else 0),
   (16, 8, if op = 3 ∨ op = 4 then 0x30000 else 0), (24, 8, if op = 1 then 0 else 0x40000), (32, 8, if op = 1 then 0 else 0x4000)]
def noEntropy : State := { ready with sec := { ready.sec with entropyFault := true } }

theorem witness_sessions :
    (withPacket ready (sessionPacket 1 0)).accepts secSessionOpenNewCommand (sessionPacket 1 0) = true ∧ ready.sec.entropyFault = false ∧
    (withPacket noEntropy (sessionPacket 1 0)).accepts secSessionOpenNewCommand (sessionPacket 1 0) = true := by decide +kernel

/-- CERTIFY is accepted where the certificate and the chain have 12,000 bytes. -/
theorem witness_certify (h : ((withPacket ready (sessionPacket 2 0)).certificate ++ (withPacket ready (sessionPacket 2 0)).chain).length = 12000) :
    (withPacket ready (sessionPacket 2 0)).accepts secSessionOpenCertifyCommand (sessionPacket 2 0) = true := by
  unfold State.accepts Command.fail
  simp only [secSessionOpenCertifyCommand, h]
  decide +kernel

/-- Module 1, with job 7 open, and the session certificate of module 5 at 0x30000, LOCKED, with a chain of four empty links. -/
def certified : State := (withJob relaying (jobOf 1 5)).store 0x30000 (fieldsAt 64 [(0, 4, 0x54435353), (4, 2, 1), (6, 1, 1), (8, 8, 3), (16, 2, 5)])

theorem witness_offer_accepts :
    (withPacket certified (sessionPacket 3 0)).accepts secSessionOpenPairOfferCommand (sessionPacket 3 0) = true ∧
    certified.moduleId = some 1 ∧ certModule (certified.memberCert 0x30000) = 5 ∧ certified.running = [] ∧ certified.relay.early = [] ∧
    certified.relay.ops = [] ∧
    (withPacket certified (sessionPacket 4 9)).accepts secSessionOpenJobKeyIssueCommand (sessionPacket 4 9) = true ∧
    (certified.findJob 7).map (fun e => e.1) = some 0 ∧ certified.freshGeneration 0 9 = true ∧
    (certified.memberAts 1 0x30000).1 = [0x30000] := by decide +kernel

/-- A structure whose chain verifies, and whose signature verifies under it, is refused for no reason. -/
theorem signedReason_none (magic : Nat) (b chain ak : List Byte) (h : Config.chainKey chain = some ak)
    (v : Config.verify ak (b.take (b.length - signatureLength)) (b.drop (b.length - signatureLength)) = true) (m : leField b 0 4 = magic) :
    signedReason magic b chain = none := by
  simp [signedReason, h, v, m]

/-- The certificate of module 5 is accepted, for an offer and for a grant, where its chain and its signature verify. -/
theorem witness_certificate (ak : List Byte)
    (h : Config.chainKey (certified.load (0x30000 + certLength) (certified.chainBytes 4 (0x30000 + certLength))) = some ak)
    (v : Config.verify ak ((certified.memberCert 0x30000).take ((certified.memberCert 0x30000).length - signatureLength))
      ((certified.memberCert 0x30000).drop ((certified.memberCert 0x30000).length - signatureLength)) = true) :
    certified.certReason 0x30000 = none ∧ certified.memberReason true 0x30000 = none := by
  have a : certified.certReason 0x30000 = none :=
    signedReason_none _ _ _ ak h v (by decide +kernel)
  have c : (certState (certified.memberCert 0x30000) == 0) = false := by decide +kernel
  exact ⟨a, by simp only [State.memberReason, a, c]; rfl⟩

def importPacket (kind : Nat) : Packet := packetOf 0x0B02 1 idle32
  [(0, 1, kind), (8, 8, 0x30000), (16, 4, if kind = 1 then 1680 else if kind = 2 then 6259 else 6307),
   (24, 8, if kind = 1 then 0 else 0x34000), (32, 4, if kind = 1 then 0 else 256)]
def attested : State := { ready with sec := { ready.sec with mode := .attested, session := 4 } }
/-- A key blob, an offer of module 0 and a grant for job 7, made for session 4, at 0x30000. -/
def blobbed : State := attested.store 0x30000 (fieldsAt 64 [(0, 4, 0x4B4D4C53), (4, 2, 1), (24, 8, 4)])
def offered : State :=
  let s := withJob relaying (jobOf 1 5)
  { s with sec := { s.sec with session := 4 } }.store 0x30000 (fieldsAt 64 [(0, 4, 0x46524F50), (10, 2, 1), (24, 8, 4)])
def granted : State :=
  let s := withJob relaying (jobOf 1 5)
  { s with sec := { s.sec with session := 4 } }.store 0x30000 (fieldsAt 64 [(0, 4, 0x54524E47), (4, 4, 7), (8, 1, 9), (12, 2, 1), (20, 8, 4)])

theorem witness_imports :
    (withPacket blobbed (importPacket 1)).accepts secKeyImportModelKeyCommand (importPacket 1) = true ∧
    (withPacket attested (importPacket 1)).accepts secKeyImportModelKeyCommand (importPacket 1) = true ∧
    (match attested.openBlob 0 (attested.blob (importPacket 1)) with | .error r => r == 1 | .ok _ => false) = true ∧
    (withPacket offered (importPacket 2)).accepts secKeyImportPairCommand (importPacket 2) = true ∧
    (withPacket granted (importPacket 3)).accepts secKeyImportJobKeyCommand (importPacket 3) = true ∧
    offered.running = [] ∧ offered.relay.early = [] ∧ offered.relay.ops = [] := by decide +kernel

/-- The blob gives its key where its tag verifies. -/
theorem witness_blob (key : List Byte)
    (h : gcmOpen (wrapKey "SNRL-MODEL" (kemOpen blobbed.sec.kem (slice (blobbed.blob (importPacket 1)) 64 1568)) ((blobbed.blob (importPacket 1)).take 64))
      zeroIv ((blobbed.blob (importPacket 1)).take 64) (slice (blobbed.blob (importPacket 1)) 1632 32)
      (slice (blobbed.blob (importPacket 1)) 1664 16) = some key) :
    ∃ k, blobbed.openBlob 0 (blobbed.blob (importPacket 1)) = .ok k := by
  have a : ¬ (leField (blobbed.blob (importPacket 1)) 0 4 ≠ 0x4B4D4C53 ∨ leField (blobbed.blob (importPacket 1)) 4 2 ≠ 1 ∨
    4 ≤ leField (blobbed.blob (importPacket 1)) 6 2) := by decide +kernel
  have b : ¬ leField (blobbed.blob (importPacket 1)) 24 8 ≠ blobbed.sec.session := by decide +kernel
  have c : ¬ ((Tab.look blobbed.sec.keys 0).isSome = true ∨ (blobbed.sec.keys.any fun e => e.2.baseRef == slice (blobbed.blob (importPacket 1)) 32 32) = true) := by
    decide +kernel
  simp only [State.openBlob, if_neg a, if_neg b, h, if_neg c]
  exact ⟨_, rfl⟩

/-- The offer is accepted where its chain and signature verify, and is refused where no chain does. -/
theorem witness_offer :
    (∀ ak, Config.chainKey (offered.blobChain (importPacket 2)) = some ak →
      Config.verify ak ((offered.blob (importPacket 2)).take ((offered.blob (importPacket 2)).length - signatureLength))
        ((offered.blob (importPacket 2)).drop ((offered.blob (importPacket 2)).length - signatureLength)) = true →
      offered.offerReason (offered.blob (importPacket 2)) (offered.blobChain (importPacket 2)) = none) ∧
    (Config.chainKey (offered.blobChain (importPacket 2)) = none →
      offered.offerReason (offered.blob (importPacket 2)) (offered.blobChain (importPacket 2)) = some 3) := by
  constructor
  · intro ak h v
    have a := signedReason_none 0x46524F50 _ _ ak h v (by decide +kernel)
    have b : ¬ (offered.moduleId ≠ some (leField (offered.blob (importPacket 2)) 10 2) ∨
      leField (offered.blob (importPacket 2)) 10 2 ≤ leField (offered.blob (importPacket 2)) 8 2) := by decide +kernel
    have c : ¬ leField (offered.blob (importPacket 2)) 24 8 ≠ offered.sec.session := by decide +kernel
    simp only [State.offerReason, a, if_neg b, if_neg c]
  · intro h
    simp only [State.offerReason, signedReason, h]

/-- The grant gives its key where its chain, its signature and its tag verify, and is refused where no chain does. -/
theorem witness_grant :
    (∀ ak key, Config.chainKey (granted.blobChain (importPacket 3)) = some ak →
      Config.verify ak ((granted.blob (importPacket 3)).take ((granted.blob (importPacket 3)).length - signatureLength))
        ((granted.blob (importPacket 3)).drop ((granted.blob (importPacket 3)).length - signatureLength)) = true →
      gcmOpen (wrapKey "SNRL-JOB" (kemOpen granted.sec.kem (slice (granted.blob (importPacket 3)) 64 1568)) ((granted.blob (importPacket 3)).take 64))
        zeroIv ((granted.blob (importPacket 3)).take 64) (slice (granted.blob (importPacket 3)) 1632 32)
        (slice (granted.blob (importPacket 3)) 1664 16) = some key →
      granted.openGrant (granted.blob (importPacket 3)) (granted.blobChain (importPacket 3)) = .ok (0, key)) ∧
    (Config.chainKey (granted.blobChain (importPacket 3)) = none →
      granted.openGrant (granted.blob (importPacket 3)) (granted.blobChain (importPacket 3)) = .error 3) := by
  constructor
  · intro ak key h v g
    have a := signedReason_none 0x54524E47 _ _ ak h v (by decide +kernel)
    have b : ¬ granted.moduleId ≠ some (leField (granted.blob (importPacket 3)) 12 2) := by decide +kernel
    have c : ¬ leField (granted.blob (importPacket 3)) 20 8 ≠ granted.sec.session := by decide +kernel
    have j : granted.findJob (BitVec.ofNat 32 (leField (granted.blob (importPacket 3)) 4 4)) = some (0, jobOf 1 5) := by decide +kernel
    have f : leField (granted.blob (importPacket 3)) 8 1 ≤ 254 ∧ granted.freshGeneration 0 (leField (granted.blob (importPacket 3)) 8 1) = true := by
      decide +kernel
    simp only [State.openGrant, a, if_neg b, if_neg c, g, j, if_pos f]
  · intro h
    simp only [State.openGrant, signedReason, h]

/-- A model key in slot 2 that may export, a region bound to it, and a region that is not protected. -/
def modelKey : ModelKey := ⟨List.replicate 16 3, 1, List.replicate 32 4, List.replicate 32 5⟩
def keyed : State :=
  { attested with sec := { attested.sec with keys := [(2, modelKey)] },
                  memory := { ready.memory with regions := [(2, ⟨idle32, 0x100000, 0x1000, some 2⟩), (3, ⟨idle32, 0x200000, 64, none⟩)] } }
def weightsPacket (code src n dst m chunk : Nat) : Packet := packetOf code 1 idle32
  [(0, 4, idle32), (4, 1, 2), (5, 1, chunk), (8, 8, src), (16, 8, n), (24, 8, dst), (32, 8, m)]
def importing : Packet := weightsPacket 0x0B03 0x30000 288 0x100000 16 0
def exporting : Packet := weightsPacket 0x0B04 0x100000 16 0x30000 288 16
def protectPacket : Packet := packetOf 0x0B05 1 idle32 [(0, 4, 3), (4, 1, 2)]

theorem witness_weights :
    (withPacket keyed importing).accepts secWeightsImportCommand importing = true ∧ keyed.poisonedIn [weightsSrc importing] = none ∧
    Tab.look keyed.sec.keys (weightsSlot importing) = some modelKey ∧
    (match openPackage modelKey (keyed.load (weightsSrc importing).lo (weightsSrc importing).len) with
      | .error i => i == 0xFFFFFFFFFFFFFFFF | .ok _ => false) = true ∧
    (withPacket keyed exporting).accepts secWeightsExportCommand exporting = true ∧ keyed.poisonedIn [weightsSrc exporting] = none ∧
    modelKey.keyId.length = 16 ∧
    (withPacket keyed protectPacket).accepts secRegionProtectCommand protectPacket = true ∧
    keyed.protectRegion protectPacket = some ⟨idle32, 0x200000, 64, none⟩ := by decide +kernel

/-- A package of 16 bytes at the source, which opens. -/
def packaged : State := keyed.store 0x30000 (sealPackage modelKey (List.replicate 32 6) 16 (List.replicate 16 7))
theorem witness_package :
    (withPacket packaged importing).accepts secWeightsImportCommand importing = true ∧
    packaged.poisonedIn [weightsSrc importing] = none ∧
    (match openPackage modelKey (packaged.load (weightsSrc importing).lo (weightsSrc importing).len) with
      | .ok l => l == List.replicate 16 7 | .error _ => false) = true := by decide +kernel

end Key

namespace Spdm

/-! ## Witnesses: the responder and the interface -/

/-- A responder at a stage of the connection, with a secure session state. -/
def responder (g : SpdmStage) (secured : Nat) : State :=
  { ready with sec := { ready.sec with spdm := g, secured := secured } }
def tdiState (t : TdiState) (live : Bool) : State :=
  let s := responder .negotiated 2
  { s with sec := { s.sec with tdi := t, mode := if t = .run then .attested else .opened, stream0 := ⟨live, live⟩ } }

theorem witness_responder :
    3 ≤ ready.glb.stage ∧ ready.glb.linkUp = true ∧ (responder .version 0).sec.spdm = .version ∧
    (responder .negotiated 1).sec.entropyFault = false ∧ (responder .negotiated 2).sec.secured = 2 ∧
    (tdiState .unlocked false).sec.tdi = .unlocked ∧ (tdiState .locked true).sec.tdi = .locked ∧
    (tdiState .locked true).sec.liveStreams ≠ 0 ∧ (tdiState .locked false).sec.liveStreams = 0 ∧
    (tdiState .run true).sec.tdi = .run ∧ ((tdiState .run true).sec.setStream 0 ⟨false, false⟩).liveStreams = 0 ∧
    (tdiState .run true).sec.mode = .attested ∧ ((tdiState .locked true).sec.stream 0).keyed = true := by decide +kernel

theorem leBytes_length (n : Nat) : ∀ v, (leBytes n v).length = n := by
  induction n with
  | zero => intro v; rfl
  | succ n ih => intro v; simp [leBytes, ih]

theorem witness_chain : 0 < (responder .negotiated 0).chain.length := by
  simp [State.chain, State.chainDer, chainEntry, padTo, leBytes_length] <;> omega
end Spdm

namespace Mgt

/-! ## Witnesses: management -/

def capPacket : Packet := packetOf 0x0C04 1 idle32 [(0, 2, 1200), (2, 1, 1)]
def ledgerPacket : Packet := packetOf 0x0C05 1 idle32 [(0, 8, 0), (8, 4, 4), (16, 8, 0x20000), (24, 8, 0x4000)]
/-- ABORT of handle 0x77 on every ring, and a packet with that handle that waits on ring 1. -/
def abortPacket : Packet := packetOf 0x0C01 1 idle32 [(0, 8, 0x77), (8, 1, 0x80)]
def victim : Packet := ⟨1, 0, 1, fieldsAt 64 [(0, 2, 0x0C00), (8, 8, 0x77), (16, 4, idle32)]⟩
def aborting (l : List Packet) : State :=
  (withPacket ready abortPacket).setRing 1 { Ring.atReset 1 with ctrl := 1, state := .active, era := 1, staged := l, seq := BitVec.ofNat 32 l.length }

theorem witness_packets :
    (withPacket ready nopPacket).accepts nopCommand nopPacket = true ∧
    (withPacket ready capPacket).accepts powerCapSetCommand capPacket = true ∧
    (withPacket ready ledgerPacket).accepts ledgerReadCommand ledgerPacket = true := by decide +kernel

theorem witness_abort :
    ([[], [victim]].all fun l => (aborting l).abortReady abortPacket && (aborting l).headsKnown && (aborting l).glb.stage == 10 &&
      (abortCommand.fail (aborting l) abortPacket).isNone && (aborting l).running.isEmpty) = true ∧
    abortPacket.opcode = abortCommand.code ∧
    ((List.range 16).all fun n => ((aborting []).ring n).staged.all fun q => decide (q = abortPacket)) = true ∧
    ((List.range 16).all fun n => n == 0 || !((aborting []).ring n).staged.contains abortPacket) = true ∧
    victim ≠ abortPacket ∧ victim.handle = abortHandle abortPacket ∧ abortNames abortPacket victim.ring = true ∧
    abortPacket.handle ≠ abortHandle abortPacket ∧
    (((aborting [victim]).ring 1).staged.filter fun x => x.handle == abortHandle abortPacket) = [victim] ∧
    ((List.range 16).all fun n => n == 1 ||
      ((aborting [victim]).ring n).staged.all fun x => x.handle != abortHandle abortPacket) = true := by decide +kernel

/-- A firmware image of three empty components, whose digest starts A69F73CC…, that implements one version. -/
def imageHead (version : Nat) : List Byte :=
  fieldsAt 256 ([(0, 4, 0x57464E53), (4, 2, 1), (6, 2, 3), (8, 4, 2), (12, 1, 5), (13, 1, 1), (16, 4, 4883), (20, 4, 1), (24, 4, version)] ++
    (List.range 3).flatMap fun i => [(64 + 32 * i, 1, i + 1), (68 + 32 * i, 4, 256), (80 + 32 * i, 8, 0xC59A3AA2CC739FA6),
      (88 + 32 * i, 8, 0x6E755A18DC67B5C8)])
def imageBytes (version : Nat) : List Byte := imageHead version ++ List.replicate 4627 0
def stagePacket : Packet := packetOf 0x0C02 1 idle32 [(0, 1, 1), (8, 8, 0x20000), (16, 4, 4883)]
def activatePacket : Packet := packetOf 0x0C03 1 idle32 []
def stageable : State := ready.store 0x20000 (imageHead 1)
/-- Bank B holds an image that implements another version than job 7 names. -/
def stagedFirmware : State :=
  { withJob ready { jobOf 1 5 with image := fieldsAt 256 [(12, 4, 1)] } with mgt := { ready.mgt with bankB := ⟨0, true, imageBytes 2⟩ } }

theorem witness_stage :
    (withPacket stageable stagePacket).accepts { fwStageCommand with own := fun _ _ => none } stagePacket = true ∧
    (⟨0, true, stageable.stageImage stagePacket⟩ : Bank).digestsOk = true ∧
    stageable.mgt.floor ≤ leField (stageable.stageImage stagePacket) 12 1 ∧ stageable.updateBusy = false ∧
    stageable.poisonedIn [stageSource stagePacket] = none ∧
    (withPacket stagedFirmware activatePacket).accepts fwActivateCommand activatePacket = true := by decide +kernel

/-- The image is accepted where the vendor's signature verifies. -/
theorem witness_stage_signed (h : Config.vendorSigned ((withPacket stageable stagePacket).stageImage stagePacket) = true) :
    (withPacket stageable stagePacket).accepts fwStageCommand stagePacket = true :=
  accepts_of_own _ _ _ witness_stage.1
    (by
      have v : decide ((withPacket stageable stagePacket).mgt.floor ≤
          leField ((withPacket stageable stagePacket).stageImage stagePacket) 12 1) = true := by decide +kernel
      have u : (withPacket stageable stagePacket).updateBusy = false := by decide +kernel
      simp only [fwStageCommand, h, v, u]; rfl)

/-- An activation in a stage, and its command. -/
def activating (stage : Nat) (deadline : Option Nat) : State :=
  { stagedFirmware with
    clk := 5000000
    mgt := { stagedFirmware.mgt with activation := some ⟨stage, deadline, 0, false⟩ }
    running := [⟨activatePacket, .activate, 0, [], 0, 6, false⟩] }

theorem witness_activation :
    ({ activating 4 none with running := [] } : State).mgt.activation = some ⟨4, none, 0, false⟩ ∧
    (activating 6 none).mgt.activation = some ⟨6, none, 0, false⟩ ∧ (activating 6 none).mgt.inactiveBank.raises = true ∧
    (activating 6 none).running = [⟨activatePacket, .activate, 0, [], 0, 6, false⟩] ∧
    (⟨4, none, 0, false⟩ : Activation).startedAt + milliseconds 10 ≤ (activating 4 none).clk ∧
    (activating 1 (some 9)).versionsLeft = [1] ∧ 9 ≤ (activating 1 (some 9)).clk := by decide +kernel

def note1 : LedgerEntry := ⟨0, 3, 0, 1, 0, false, noJob, noJob, []⟩
def buffered : State := { ready with mgt := { ready.mgt with ledger := { ready.mgt.ledger with buffer := [note1] } } }
def locked : State := { ready with sec := { ready.sec with mode := .locked } }

theorem witness_ledger :
    buffered.mgt.ledger.buffer = [note1] ∧ buffered.mgt.ledger.suppressed = 0 ∧ buffered.mgt.ledger.flash.length < 65536 ∧
    Tab.look buffered.mgt.ledger.flash buffered.mgt.ledger.next = none ∧ locked.sec.mode ≠ .opened ∧ ready.sec.mode = .opened ∧
    3 ≤ ready.glb.stage := by decide +kernel

/-- An update in a state of the agent. -/
def updating (m : PldmMode) (size : Nat) (received : List Byte) : State :=
  { ready with mgt := { ready.mgt with pldm := m, component := 1, componentSize := size, received := received } }

theorem witness_update :
    ready.updateBusy = false ∧ ready.mgt.pldm = .idle ∧ (updating .learn 0 []).mgt.pldm = .learn ∧
    (updating .download 300 []).mgt.received.length < (updating .download 300 []).mgt.componentSize ∧
    (List.replicate 256 (7 : Byte)).length = min 256 ((updating .download 300 []).mgt.componentSize - 0) ∧
    (updating .download 3 [1, 2, 3]).mgt.componentSize ≤ (updating .download 3 [1, 2, 3]).mgt.received.length ∧
    (updating .verify 3 [1, 2, 3]).componentFault = some Status.badParam ∧
    stagedFirmware.mgt.inactiveBank.bootable = true := by decide +kernel

/-- A component that the vendor signed is acceptable. -/
theorem witness_component (h : Config.vendorSigned (imageBytes 1) = true) :
    (updating .verify 4883 (imageBytes 1)).componentFault = none := by
  have a : ¬ (2 ^ 23 < (imageBytes 1).length ∨ (imageFault (imageBytes 1) (imageBytes 1).length).isSome = true) := by decide +kernel
  have b : ¬ leField (imageBytes 1) 12 1 < (updating .verify 4883 (imageBytes 1)).mgt.floor := by decide +kernel
  have c : (updating .verify 4883 (imageBytes 1)).mgt.received = imageBytes 1 := rfl
  have e : (updating .verify 4883 (imageBytes 1)).mgt.component = 1 := rfl
  simp only [State.componentFault, c, e, if_neg a, h, if_neg b]
  rfl

end Mgt

namespace Man

/-! ## Witnesses: manifests and jobs -/

def stored : State := withBytes ready 0x70000 256 (baseFields 1)
def manifestPacket : Packet := packetOf 0x0D01 1 idle32 [(0, 8, 0x70000), (8, 4, 256), (12, 1, 1), (13, 1, 7)]
def overlayPacket : Packet := packetOf 0x0D01 1 idle32 [(0, 8, 0x70000), (8, 4, 64), (12, 1, 2), (13, 1, 47)]
def storedOverlay : State := ready.store 0x70000 (overlayBytes 1)

theorem witness_manifest_load :
    (withPacket stored manifestPacket).accepts manifestLoadCommand manifestPacket = true ∧
    (withPacket stored manifestPacket).poisonedIn [⟨manifestPacket.param 0 8, manifestPacket.param 8 4⟩] = none ∧
    manifestPacket.param 12 1 = 1 ∧
    (withPacket storedOverlay overlayPacket).accepts manifestLoadCommand overlayPacket = true ∧ overlayPacket.param 12 1 = 2 := by
  decide +kernel

/-- Both manifests in their slots, and the job open with them. -/
def manifested : State := { ready with job := { ready.job with bases := [(7, baseBytes 1)], overlays := [(47, overlayBytes 1)] } }
def stagePacket : Packet :=
  let p := packetOf 0x0D02 2 7 [(0, 4, 7), (4, 4, 3), (8, 1, 7), (9, 1, 47)]
  { p with bytes := overlay p.bytes 128 (pairDigest (baseBytes 1) (overlayBytes 1)) }
def queriedPacket : Packet := packetOf 0x0D03 1 7 [(0, 4, 7), (8, 8, 0x1000)]

def attachPacket : Packet := packetOf 0x0102 1 7 [(0, 4, 7)]
def stepPacket : Packet := packetOf 0x0103 1 7 [(0, 4, 0), (4, 4, 1), (8, 8, 0x1000)]
def closePacket : Packet := packetOf 0x0106 1 7 [(0, 4, 7)]

theorem witness_jobs :
    (withPacket (withJob ready (jobOf 1 0)) attachPacket).accepts jobAttachCommand attachPacket = true ∧
    (withPacket (withJob ready (jobOf 1 0)) stepPacket).accepts stepRunCommand stepPacket = true ∧ (jobOf 1 0).state = .idle ∧
    (withPacket (withJob ready (jobOf 1 0)) closePacket).accepts jobCloseCommand closePacket = true ∧ (jobOf 1 0).runs = [] ∧
    (jobOf 1 0).attached = none ∧ (withJob ready (jobOf 1 0)).running = [] := by decide +kernel

/-- The job owns region 5 of 4 KiB at 0xC000, and its snapshot at 0xA000 has one entry of it. -/
def owning : State :=
  { ready with memory := { ready.memory with regions := [(5, ⟨7, 0xC000, 0x1000, none⟩), (4096, ⟨7, 0x8000, 0x1000, none⟩)] } }
def snapshotPacket (room : Nat) : Packet := packetOf 0x0104 1 7 [(0, 4, 7), (8, 8, 0xA000), (16, 8, room)]

theorem witness_snapshot :
    let s := withPacket (withJob owning (jobOf 1 0)) (snapshotPacket 4416);
    let t := withPacket (withJob owning (jobOf 1 0)) (snapshotPacket 4415);
    s.accepts jobSnapshotCommand (snapshotPacket 4416) = true ∧ t.accepts jobSnapshotCommand (snapshotPacket 4415) = true ∧
      s.poisonedIn ((s.snapSources (snapshotPacket 4416)).map fun u => u.range) = none ∧ (s.sealKey (jobOf 1 0)).isNone = true ∧
      (jobOf 1 0).confidential = false ∧ (jobOf 1 0).digest.length = 64 ∧
      (snapLayout (up64 (256 + 64 * (s.snapEntries 0 (jobOf 1 0)).length)) ((s.snapEntries 0 (jobOf 1 0)).map (snapLength false))).2 = 4416 := by
  decide +kernel

def snapshotFields : List (Nat × Nat × Nat) :=
  [(0, 4, 0x50414E53), (4, 2, 1), (8, 4, 7), (16, 4, 1), (20, 4, 4), (36, 4, 1), (40, 8, 4416),
   (256, 1, 1), (264, 4, 5), (272, 8, 320), (280, 8, 4096), (288, 8, 4096), (320, 2, 0xBEEF)]
def restoring : State :=
  let s := withBytes (withBytes manifested 0xA000 384 snapshotFields) 0xB800 16 [(0, 8, 0xA000), (8, 8, 4416)]
  { s with memory := { s.memory with regions := [(5, ⟨7, 0xC000, 0x1000, none⟩)] } }
def restorePacket : Packet :=
  packetOf 0x0105 2 7 [(0, 4, 7), (8, 4, 1), (12, 1, 7), (13, 1, 47), (14, 2, 1), (16, 8, 0x8000), (24, 8, 0x1000), (40, 8, 0xB800)]

/-- The digests of the pair are computed once for all three. -/
theorem witness_pair :
    (withPacket (withJob manifested (jobOf 1 0)) stagePacket).accepts manifestStageCommand stagePacket = true ∧
    (withPacket manifested openPacket).accepts jobOpenCommand openPacket = true ∧
    (withPacket restoring restorePacket).accepts jobRestoreCommand restorePacket = true ∧
    (match restoring.allPlain none (restoring.restoreFound restorePacket) with
      | .ok l => l.length == 1
      | .error _ => false) = true := by decide +kernel

theorem witness_manifest_query :
    (withPacket (withJob manifested (jobOf 1 0)) queriedPacket).accepts manifestQueryCommand queriedPacket = true ∧
    manifested.openPair openPacket = some (baseBytes 1, overlayBytes 1) := ⟨by decide +kernel, rfl⟩

end Man

namespace Step

open Sys2Proof.Tests.Rly

/-! ## Witnesses: the phases of a step -/

def runPacket : Packet := packetOf 0x0103 1 7 [(0, 4, 4), (4, 4, 4), (8, 8, 0x1000)]
/-- STEP_RUN of steps 4 to 7. -/
def run4 : StepRun := ⟨runPacket, 4, 4, 0x1000, 0, false⟩
def runOp : RunOp := ⟨runPacket, .stepRun 0, 0, [], 0, 4, false⟩
/-- The job runs step 5. -/
def stepping : Job :=
  { jobOf 1 5 with digest := List.replicate 64 0x11, state := .running, runs := [run4], prepared := [5], attempt := 2 }
def withStep (j : Job) : State := { withJob ready j with running := [runOp] }

theorem witness_phases :
    (withStep { stepping with prepared := [] }).jobAt 0 = some { stepping with prepared := [] } ∧
    ({ stepping with prepared := [] } : Job).mayPrepare 5 = true ∧ stepping.mayPrepare 5 = false ∧
    stepping.mayRun = true ∧ (withStep stepping).relay.early = [] ∧ (withStep stepping).relay.ops = [] ∧
    ((withStep stepping).nextGraph stepping).isNone = true := by decide +kernel

/-- The Run phase runs, with some causes met, in attempt 2 or in the last. -/
def running5 (attempt : Nat) (faults : List Vote) : Job := { stepping with phase := .run, attempt := attempt, faults := faults }
def parityVote : Vote := ⟨0, false, Status.testFail, 0, none, false⟩

theorem witness_root :
    (withStep (running5 2 [])).jobAt 0 = some (running5 2 []) ∧ (running5 2 []).ranks = [0] ∧ (running5 2 []).rankCount = 1 ∧
    (running5 2 []).votes = [] ∧ (running5 2 []).verdicts = [] ∧ (running5 2 []).muster = none ∧
    (withStep (running5 2 [])).ingest.ended = [] ∧ (withStep (running5 2 [])).stepRunOf 0 = none ∧
    (running5 2 [parityVote]).faults = [parityVote] ∧ noReplay.contains parityVote.cause = false ∧
    parityVote.cause ≠ Status.rankExpelled ∧ (running5 7 [parityVote]).attempt = 7 ∧
    ({ withStep (running5 7 [parityVote]) with running := [] } : State).running = [] := by decide +kernel

def committing : Job := { stepping with phase := .commit, decision := some (5, 2, true) }

theorem witness_commit :
    (withStep committing).jobAt 0 = some committing ∧ committing.muster = none ∧ committing.staged = none ∧ committing.acting = none ∧
    committing.spoiled = none ∧ committing.journalLost = false ∧ committing.runs = [run4] ∧ committing.next + 1 < run4.first + run4.count ∧
    Tab.look committing.reports committing.next = none ∧ Tab.get [] (withStep committing).emb.scatter 0 = [] ∧
    (withStep committing).emb.staged = [] ∧ (withStep committing).running = [runOp] ∧
    (withStep committing).stepCommand run4 = some runOp ∧ (withStep committing).hotEntries 0 = [] ∧
    apart 0 64 (hostWindow + run4.reports + 64) 64 = true := by decide +kernel

/-- A muster of step 4 while step 5 runs, in a job of one rank, and in one of four ranks that this module leads. -/
def mustering (formed : Bool) : Job := { running5 2 [] with muster := some ⟨4, 0, 0, formed, false⟩ }
def digestRow (r : Nat) (b : Byte) : Nat × List Byte × List Byte := (r, List.replicate 64 b, List.replicate 64 1)
def comparing : Job :=
  { mustering true with image := baseBytes 4, digests := [digestRow 0 9, digestRow 1 9, digestRow 2 8, digestRow 3 9] }

theorem witness_muster :
    (withStep (mustering false)).jobAt 0 = some (mustering false) ∧ manShards (mustering false).image = 1 ∧
    (withStep comparing).jobAt 0 = some comparing ∧ comparing.ranks.contains 0 = true ∧ comparing.leads 0 = true ∧
    ((comparing.groupOf 0).all fun r => comparing.digests.any fun x => x.1 == r) = true ∧ comparing.groupOf 0 = [0, 1, 2, 3] ∧
    (comparing.verdicts.any fun v => v.rank == 0) = false ∧
    ([digestRow 0 9, digestRow 1 9].all fun x => x.2 == (digestRow 0 9).2) = true ∧
    comparing.digests.length < 2 * (comparing.digests.filter fun x => x.2 == (digestRow 0 9).2).length ∧
    (comparing.digests.find? fun x => x.2 != (digestRow 0 9).2) = some (digestRow 2 8) ∧
    musterVerdict 0 comparing.digests = ⟨0, false, Status.rankExpelled, 0, some 2, false⟩ := by decide +kernel

/-- Rank 0 of four waits for votes, and another rank for the decision of rank 0's module. -/
def awaitingVotes : Job := { running5 2 [] with image := baseBytes 4, phase := .voted, voteTimer := some 0 }
def awaitingRoot (acting : Option ActingRoot) : Job :=
  { running5 2 [] with image := baseBytes 4, ranks := [1], phase := .voted, decisionTimer := some 0, queryTimer := some 0, acting := acting }
def late (j : Job) : State := { withJob relaying j with clk := milliseconds 1000 }

theorem witness_timers :
    (late awaitingVotes).jobAt 0 = some awaitingVotes ∧ (late awaitingVotes).timedOut awaitingVotes awaitingVotes.voteTimer = true ∧
    awaitingVotes.ballot.isSome = true ∧ (withStep awaitingVotes).timedOut awaitingVotes awaitingVotes.voteTimer = false ∧
    1 ∈ treeChildren 4 0 ∧ ({ awaitingVotes with voteTimer := none } : Job).muster = none ∧
    (late (awaitingRoot none)).timedOut (awaitingRoot none) (awaitingRoot none).decisionTimer = true ∧
    (awaitingRoot none).ranks.contains 0 = false ∧
    (late (awaitingRoot (some ⟨[], [], []⟩))).timedOut (awaitingRoot (some ⟨[], [], []⟩)) (some 0) = true ∧
    (awaitingRoot (some ⟨[], [], []⟩)).state ≠ .rehosting ∧ (late (awaitingRoot none)).running = [] := by decide +kernel

end Step

end Sys2Proof.Tests
end

section
/-! SUPPORT. Registers whose value the state does not choose, and what the shared register files show at reset. -/

namespace Sys2Proof.Machine

/-! ## Capability registers: they read the same in every state (R100, R166, R252, R297, R354, R383, R404, R441, R472, R507,
R533, R534, R573) -/

@[simp] theorem State.readReg_cmdCaps (s : State) : s.readReg 0x100000 = 1023 * 2 ^ 12 + 64 * 2 ^ 5 + 16 := rfl
@[simp] theorem State.readReg_feaCaps (s : State) : s.readReg Reg.feaCaps = 8 * 2 ^ 16 + 64 * 2 ^ 8 + 64 := rfl
@[simp] theorem State.readReg_smpCaps (s : State) : s.readReg Reg.smpCaps = 4096 * 2 ^ 16 + 32 * 2 ^ 8 + 16 := rfl
@[simp] theorem State.readReg_arrCaps (s : State) :
    s.readReg Reg.arrCaps = 128 * 2 ^ 24 + 144 * 2 ^ 16 + 128 * 2 ^ 8 + 8 := rfl
@[simp] theorem State.readReg_gatCaps (s : State) : s.readReg Reg.gatCaps = 64 * 2 ^ 16 + 12 * 2 ^ 8 + 32 := rfl
@[simp] theorem State.readReg_dirCaps (s : State) : s.readReg Reg.dirCaps = 64 * 2 ^ 24 + 2048 * 2 ^ 12 + 255 := rfl
@[simp] theorem State.readReg_selCaps (s : State) : s.readReg Reg.selCaps = 4096 * 2 ^ 16 + 24 * 2 ^ 8 + 8 := rfl
@[simp] theorem State.readReg_rlyCaps (s : State) : s.readReg Reg.rlyCaps = 32 * 2 ^ 24 + 8 * 2 ^ 20 + 4096 := rfl
@[simp] theorem State.readReg_intCaps (s : State) :
    s.readReg Reg.intCaps = 12 * 2 ^ 24 + 3 * 2 ^ 16 + 3 * 2 ^ 8 + 8 := rfl
@[simp] theorem State.readReg_secCaps (s : State) : s.readReg Reg.secCaps = 16 * 2 ^ 24 + 2 * 2 ^ 16 + 2 ^ 8 + 4 := rfl
@[simp] theorem State.readReg_mgtCaps (s : State) :
    s.readReg Reg.mgtCaps = 187 * 2 ^ 24 + 16 * 2 ^ 16 + 8 * 2 ^ 8 + 64 := rfl
@[simp] theorem State.readReg_logCaps (s : State) : s.readReg Reg.logCaps = 32 * 2 ^ 24 + 7 * 2 ^ 16 + 16 := rfl
@[simp] theorem State.readReg_pwrCaps (s : State) : s.readReg Reg.pwrCaps = 2000 * 2 ^ 20 + 600 * 2 ^ 8 + 64 := rfl

/-! ## The power cap and the counters -/

/-- PWR_CAP shows the effective cap above the host cap (R553, R573). -/
theorem State.readReg_pwrCap (s : State) : s.readReg Reg.pwrCap = s.effectiveCap * 2 ^ 16 + s.pwr.hostCap := by
  change s.effectiveCap * 2 ^ 16 + (s.pwr.hostCap * 2 ^ 0 + 0) = _
  simp

theorem State.readReg_pwrThrottleMs (s : State) : s.readReg Reg.pwrThrottleMs = s.counter Reg.pwrThrottleMs := rfl
theorem State.readReg_cntBar4Unmapped (s : State) : s.readReg Reg.cntBar4Unmapped = s.counter Reg.cntBar4Unmapped := rfl
theorem State.readReg_secKeyRefused (s : State) : s.readReg Reg.secKeyRefused = (s.reg Reg.secKeyRefused).toNat := rfl

/-! ## The state after reset -/

@[simp] theorem State.reset_reg (off : Nat) : State.reset.reg off = 0 := rfl
@[simp] theorem State.reset_tollgate : State.reset.tollgate = false := rfl
@[simp] theorem State.reset_hostCap : State.reset.pwr.hostCap = 2000 := rfl

/-- Outside confidential mode a counter shows its register, which reset clears. -/
@[simp] theorem State.reset_counter (off : Nat) : State.reset.counter off = 0 := by
  simp [State.counter]

/-- PWR_BRK# is not asserted at reset, so the effective cap is the host cap. -/
@[simp] theorem State.reset_effectiveCap : State.reset.effectiveCap = State.reset.pwr.hostCap := rfl

/-! ## Reset values of the registers -/

/-- Settles O2: the capability registers read the same in every state, PWR_CAP shows the cap that reset leaves, and the
counters start at 0. -/
theorem resetRegisters : Obligations.ResetRegisters := by
  have hcap : State.reset.readReg Reg.pwrCap = 2000 * 2 ^ 16 + 2000 := by
    rw [State.readReg_pwrCap, State.reset_effectiveCap, State.reset_hostCap]
  have hthrottle : State.reset.readReg Reg.pwrThrottleMs = 0 := by
    rw [State.readReg_pwrThrottleMs, State.reset_counter]
  have hunmapped : State.reset.readReg Reg.cntBar4Unmapped = 0 := by
    rw [State.readReg_cntBar4Unmapped, State.reset_counter]
  have hrefused : State.reset.readReg Reg.secKeyRefused = 0 := by
    simp [State.readReg_secKeyRefused]
  exact ⟨State.readReg_cmdCaps _, State.readReg_feaCaps _, State.readReg_smpCaps _, State.readReg_arrCaps _,
    State.readReg_gatCaps _, State.readReg_dirCaps _, State.readReg_selCaps _, State.readReg_rlyCaps _,
    State.readReg_intCaps _, State.readReg_secCaps _, State.readReg_mgtCaps _, State.readReg_logCaps _,
    State.readReg_pwrCaps _, hcap, hthrottle, hunmapped, hrefused, rfl, rfl⟩

end Sys2Proof.Machine
end

section
/-! SUPPORT. Work that moves between units: what its operations leave of integrity, memory, rings, commands and the test
counters. -/

namespace Sys2Proof.Machine

/-- The counters of structural tests that ran and of those that failed (R472). -/
def testCounts : List Nat := [Reg.intTestsRun, Reg.intTestsFailed]

/-- Work has moved between units: integrity, memories, rings, commands, security and the test counters are as before. -/
structure State.Quiet (s t : State) : Prop where
  integrity : t.integrity = s.integrity := by rfl
  mem : t.mem = s.mem := by rfl
  host : t.host = s.host := by rfl
  rings : t.rings = s.rings := by rfl
  held : t.held = s.held := by rfl
  running : t.running = s.running := by rfl
  sec : t.sec = s.sec := by rfl
  counts : ∀ o ∈ testCounts, t.reg o = s.reg o := by exact fun _ _ => rfl

namespace State.Quiet

theorem refl (s : State) : Quiet s s := {}

theorem trans {s t u : State} (h : Quiet s t) (k : Quiet t u) : Quiet s u where
  integrity := k.integrity.trans h.integrity
  mem := k.mem.trans h.mem
  host := k.host.trans h.host
  rings := k.rings.trans h.rings
  held := k.held.trans h.held
  running := k.running.trans h.running
  sec := k.sec.trans h.sec
  counts o ho := (k.counts o ho).trans (h.counts o ho)

theorem foldl {α : Type} (l : List α) {f : State → α → State} (hf : ∀ t x, Quiet t (f t x)) (s : State) :
    Quiet s (l.foldl f s) :=
  State.foldl_keeps (P := Quiet s) l f (fun t x h => h.trans (hf t x)) (refl s)

end State.Quiet

theorem State.setReg_quiet (s : State) {off : Nat} (v : Word) (h : off ∉ testCounts) : State.Quiet s (s.setReg off v) where
  counts o ho := State.reg_setReg_ne s v (by rintro rfl; exact h ho)

theorem State.bump_quiet (s : State) {off : Nat} (n : Nat) (h : off ∉ testCounts) : State.Quiet s (s.bump off n) := by
  unfold State.bump
  split
  · exact .refl s
  · exact s.setReg_quiet _ h

theorem State.raise_quiet (s : State) (v : Nat) : State.Quiet s (s.raise v) := by
  rw [State.raise_frame]
  exact {}

theorem State.alert_quiet (s : State) (bit : Nat) : State.Quiet s (s.alert bit) :=
  (s.setReg_quiet _ (by decide)).trans (State.raise_quiet _ _)

theorem State.error_quiet (s : State) (bit : Nat) : State.Quiet s (s.error bit) :=
  (s.setReg_quiet _ (by decide)).trans (State.raise_quiet _ _)

theorem State.log_quiet (s : State) (cls severity code unit : Nat) (job step : Word) (data : List Byte) :
    State.Quiet s (s.log cls severity code unit job step data) := by
  unfold State.log
  extract_lets _ _ _ _ logged
  have hs : State.Quiet s logged := {}
  split
  · exact State.Quiet.trans {} (State.bump_quiet _ 1 (by decide))
  · split
    · exact hs.trans (State.alert_quiet _ _)
    · exact hs

theorem State.onJob_quiet (s : State) (slot : Nat) (f : Job → Job) : State.Quiet s (s.onJob slot f) := by
  rw [State.onJob_frame]
  exact {}

theorem State.requeue_quiet (s : State) (run task : Nat) : State.Quiet s (s.requeue run task) := by
  unfold State.requeue
  split
  · exact .refl s
  split
  · exact .refl s
  split
  · split
    · exact s.onJob_quiet _ _
    · exact .refl s
  · exact State.Quiet.trans {} (State.bump_quiet _ 1 (by decide))

theorem State.migrateOne_quiet (s : State) (e : Nat × Nat × Nat × Nat) : State.Quiet s (s.migrateOne e) := by
  unfold State.migrateOne
  split
  · exact .refl s
  split
  · exact s.requeue_quiet _ _
  split
  · exact .refl s
  · exact .trans (.trans {} (State.requeue_quiet _ _ _)) (State.bump_quiet _ 1 (by decide))

theorem State.dropStripes_quiet (s : State) (lane : Nat) : State.Quiet s (s.dropStripes lane) :=
  State.Quiet.trans {} (State.bump_quiet _ _ (by decide))

theorem State.dropSample_quiet (s : State) (lane : Nat) : State.Quiet s (s.dropSample lane) :=
  State.Quiet.trans {} (State.bump_quiet _ _ (by decide))

theorem State.evict_quiet (s : State) (unit : Nat) : State.Quiet s (s.evict unit) := by
  unfold State.evict
  extract_lets held _ _ _ emptied migrated
  have hm : State.Quiet s migrated := .trans {} (.foldl held State.migrateOne_quiet emptied)
  split
  · exact hm.trans (State.dropStripes_quiet _ _)
  split
  · exact hm.trans (State.dropSample_quiet _ _)
  · exact hm


/-! ## Banks whose entries move (R373, R466) -/

theorem State.loseEntries_quiet (s : State) (b : DirBank) (die : Nat) : State.Quiet s (s.loseEntries b die) := by
  unfold State.loseEntries
  split
  · exact {}
  · exact {}

theorem moveEntry_quiet (r : State × Nat × Bool) (target : Nat) (e : DirEntry) :
    State.Quiet r.1 (moveEntry r target e).1 := by
  unfold moveEntry
  extract_lets _ drawn
  have hd : State.Quiet r.1 drawn := {}
  split
  · exact hd
  split
  · exact hd
  split
  · exact hd
  · exact .trans {} (State.bump_quiet _ 1 (by decide))

theorem moveEntries_quiet (l : List DirEntry) (target : Nat) (r : State × Nat × Bool) :
    State.Quiet r.1 (l.foldl (fun r e => moveEntry r target e) r).1 := by
  induction l generalizing r with
  | nil => exact .refl _
  | cons e l ih => exact (moveEntry_quiet r target e).trans (ih _)

theorem State.moveBank_quiet (s : State) (n : Nat) : State.Quiet s (s.moveBank n) := by
  unfold State.moveBank
  split
  · exact .refl s
  split
  · exact .refl s
  extract_lets empty
  have he : State.Quiet s empty := {}
  split
  · exact he.trans (State.loseEntries_quiet _ _ _)
  extract_lets r s' _ _ moved
  have hr : State.Quiet empty r.1 := moveEntries_quiet _ _ (empty, 0, false)
  have hb : State.Quiet r.1 s' := State.bump_quiet _ _ (by decide)
  have hs : State.Quiet s moved := ((he.trans hr).trans hb).trans {}
  split
  · exact hs.trans (State.loseEntries_quiet _ _ _)
  · exact hs

theorem State.restoreBank_quiet (s : State) (n : Nat) (indices : List Nat) : State.Quiet s (s.restoreBank n indices) := by
  unfold State.restoreBank
  split
  · extract_lets _ emptied r s' _ _ moved
    have he : State.Quiet s emptied := {}
    have hr : State.Quiet emptied r.1 := moveEntries_quiet _ _ (emptied, 0, false)
    have hb : State.Quiet r.1 s' := State.bump_quiet _ _ (by decide)
    have hs : State.Quiet s moved := ((he.trans hr).trans hb).trans {}
    split
    · exact hs.trans (State.loseEntries_quiet _ _ _)
    · exact hs
  · exact .refl s

/-! ## Remedies (R452, R561) -/

/-- A divider changes at once or waits for the array's task: only the graph block may change (R292, R559). -/
theorem State.setDivider_frame (s : State) (unit d : Nat) : s.setDivider unit d = { s with graph := (s.setDivider unit d).graph } := by
  unfold State.setDivider
  split
  · rfl
  split <;> rfl

theorem State.remedyArray_frame (s : State) (unit : Nat) : s.remedyArray unit = { s with graph := (s.remedyArray unit).graph } := by
  unfold State.remedyArray
  extract_lets want rail
  split
  · rfl
  · exact s.setDivider_frame unit want

theorem State.remedyArray_quiet (s : State) (unit : Nat) : State.Quiet s (s.remedyArray unit) := by
  rw [State.remedyArray_frame]
  exact {}

theorem State.remedies_quiet (s : State) : State.Quiet s s.remedies := .foldl _ State.remedyArray_quiet s

end Sys2Proof.Machine
end

section
/-! SUPPORT. What stays of tests, strikes and fences while a fault fence is placed: every fence that stood still stands, and the
new one stands beside them. -/

namespace Sys2Proof.Machine

/-! ## Tests and strikes stay while fences grow, or stay as well -/

/-- Running tests, strikes and the test counters are as before, and every fence that stood still stands. -/
structure State.FencesGrow (s t : State) : Prop where
  testing : t.integrity.testing = s.integrity.testing := by rfl
  strikes : t.integrity.strikes = s.integrity.strikes := by rfl
  fences : s.integrity.fences ⊆ t.integrity.fences
  counts : ∀ o ∈ testCounts, t.reg o = s.reg o := by exact fun _ _ => rfl

/-- Running tests, strikes, fences and the test counters are as before. -/
structure State.SameTests (s t : State) : Prop where
  testing : t.integrity.testing = s.integrity.testing := by rfl
  strikes : t.integrity.strikes = s.integrity.strikes := by rfl
  fences : t.integrity.fences = s.integrity.fences := by rfl
  counts : ∀ o ∈ testCounts, t.reg o = s.reg o := by exact fun _ _ => rfl

theorem State.FencesGrow.trans {s t u : State} (h : s.FencesGrow t) (k : t.FencesGrow u) : s.FencesGrow u where
  testing := k.testing.trans h.testing
  strikes := k.strikes.trans h.strikes
  fences := List.Subset.trans h.fences k.fences
  counts o ho := (k.counts o ho).trans (h.counts o ho)

theorem State.SameTests.refl (s : State) : s.SameTests s := {}

theorem State.SameTests.trans {s t u : State} (h : s.SameTests t) (k : t.SameTests u) : s.SameTests u where
  testing := k.testing.trans h.testing
  strikes := k.strikes.trans h.strikes
  fences := k.fences.trans h.fences
  counts o ho := (k.counts o ho).trans (h.counts o ho)

theorem State.SameTests.foldl {α : Type} (l : List α) {f : State → α → State} (hf : ∀ t x, State.SameTests t (f t x))
    (s : State) : s.SameTests (l.foldl f s) :=
  State.foldl_keeps (P := s.SameTests) l f (fun t x h => h.trans (hf t x)) (.refl s)

theorem State.SameTests.grow {s t : State} (h : s.SameTests t) : s.FencesGrow t :=
  ⟨h.testing, h.strikes, by rw [h.fences]; exact List.Subset.refl _, h.counts⟩

theorem State.Quiet.sameTests {s t : State} (h : s.Quiet t) : s.SameTests t where
  testing := by rw [h.integrity]
  strikes := by rw [h.integrity]
  fences := by rw [h.integrity]
  counts := h.counts

theorem State.Quiet.grow {s t : State} (h : s.Quiet t) : s.FencesGrow t := h.sameTests.grow

/-! ## Placing a fault fence (R28, R29, R480) -/

theorem State.packageFenced_iff (s : State) : s.packageFenced = true ↔ Fence.package ∈ s.integrity.fences := by
  simp [State.packageFenced]

theorem State.faultFenced_of_mem {s : State} {f : Fence} {id : Nat} (h : f ∈ s.integrity.fences) (hc : f.covers id = true) :
    s.faultFenced id = true :=
  List.any_eq_true.mpr ⟨f, h, hc⟩

/-- A local store lies in the module's own address space, so clearing it changes module memory alone (R31, R480). -/
theorem State.clearLocal_frame (s : State) (unit : Nat) : s.clearLocal unit = { s with mem := (s.clearLocal unit).mem } := by
  have hlo : (localRange (unitIndex unit)).lo < hostWindow := by
    have : unit % 4096 < 4096 := Nat.mod_lt _ (by decide)
    simp only [localRange, unitIndex, hostWindow]
    omega
  unfold State.clearLocal State.zero
  split
  · rw [if_pos hlo]
  · rfl

theorem State.clearLocals_frame (s : State) (units : List Nat) :
    ∃ m, units.foldl (fun t u => t.clearLocal u) s = { s with mem := m } :=
  State.foldl_keeps (P := fun t => ∃ m, t = { s with mem := m }) units _
    (fun t u ⟨m, h⟩ => ⟨(t.clearLocal u).mem, by rw [State.clearLocal_frame t u, h]⟩) ⟨s.mem, rfl⟩

theorem State.clearLocals_sameTests (s : State) (units : List Nat) :
    s.SameTests (units.foldl (fun t u => t.clearLocal u) s) := by
  obtain ⟨m, h⟩ := s.clearLocals_frame units
  rw [h]
  exact {}

theorem State.addFence_grow (s : State) (f : Fence) (g : GlbState) :
    s.FencesGrow { s with integrity := { s.integrity with fences := s.integrity.fences ++ [f] }, glb := g } where
  fences := List.subset_append_left _ _

/-- A package fence is placed beside the fences that stand (R28). -/
theorem State.fencePackage_spec (s : State) (cause : Nat) :
    s.FencesGrow (s.fencePackage cause) ∧ Fence.package ∈ (s.fencePackage cause).integrity.fences := by
  unfold State.fencePackage
  split
  case isTrue h => exact ⟨(State.Quiet.refl s).grow, s.packageFenced_iff.mp h⟩
  have he : s.Quiet (Fence.package.units.foldl (fun t u => t.evict u) s) := .foldl _ State.evict_quiet s
  dsimp only
  generalize Fence.package.units.foldl (fun t u => t.evict u) s = evicted at he ⊢
  have hf := evicted.addFence_grow .package { evicted.glb with cause := if evicted.glb.cause = 0 then cause else evicted.glb.cause }
  have hl := fun t : State => (t.log_quiet 4 3 3 0xFFFF noJob noJob (leBytes 1 cause)).trans (State.alert_quiet _ 1)
  exact ⟨(he.grow.trans hf).trans (hl _).grow, (hl _).grow.fences (List.mem_append_right _ (List.mem_singleton_self _))⟩

theorem State.escalate_grow (s : State) : s.FencesGrow s.escalate := by
  unfold State.escalate
  split
  · exact (s.fencePackage_spec 4).1
  · exact (State.Quiet.refl s).grow

/-- A fault fence is placed beside the fences that stand (R28); escalation may add the package fence (R29). -/
theorem State.placeFence_spec (s : State) (f : Fence) (unit : Nat) (data : List Byte) :
    s.FencesGrow (s.placeFence f unit data) ∧ f ∈ (s.placeFence f unit data).integrity.fences := by
  unfold State.placeFence
  split
  case isTrue h => exact ⟨(State.Quiet.refl s).grow, List.contains_iff_mem.mp h⟩
  extract_lets us evicted cleared _ fenced moved logged _ marked
  have he : s.Quiet evicted := .foldl _ State.evict_quiet s
  have hc : evicted.SameTests cleared := by
    unfold cleared
    split
    · exact evicted.clearLocals_sameTests us
    · exact .refl evicted
  have hf : cleared.FencesGrow fenced := cleared.addFence_grow f cleared.glb
  have hm : fenced.Quiet moved := .foldl _ (fun t u => t.moveBank_quiet (unitIndex u)) fenced
  have hl : moved.Quiet logged := (moved.log_quiet _ _ _ _ _ _ _).trans (State.alert_quiet _ _)
  have hk : logged.Quiet marked := by
    unfold marked
    split
    · exact logged.error_quiet 1
    · exact .trans {} (State.error_quiet _ 1)
    · exact .refl logged
  have hrest : fenced.FencesGrow marked.escalate := ((hm.trans hl).trans hk).grow.trans marked.escalate_grow
  exact ⟨((he.grow.trans hc.grow).trans hf).trans hrest,
    hrest.fences (List.mem_append_right _ (List.mem_singleton_self f))⟩

/-- What a fence covers is under a fault fence once it is placed. -/
theorem State.placeFence_covers (s : State) {f : Fence} {id : Nat} (unit : Nat) (data : List Byte) (h : f.covers id = true) :
    (s.placeFence f unit data).faultFenced id = true :=
  State.faultFenced_of_mem (s.placeFence_spec f unit data).2 h

theorem State.fencePackage_packageFenced (s : State) (cause : Nat) : (s.fencePackage cause).packageFenced = true :=
  (State.packageFenced_iff _).mpr (s.fencePackage_spec cause).2

theorem State.packageFenced_congr {s t : State} (h : t.integrity = s.integrity) : t.packageFenced = s.packageFenced := by
  simp [State.packageFenced, h]

end Sys2Proof.Machine
end

section
/-! PROOFS. Steps of a rail, and the faults that fence. -/

namespace Sys2Proof.Machine

/-! ## A rail's offset (R561) -/

/-- The state after rail `rail` has been set to `v` mV above its base voltage. -/
def State.withOffset (s : State) (rail v : Nat) : State :=
  { s with pwr := { s.pwr with offsets := if v = 0 then Tab.del s.pwr.offsets rail else Tab.put s.pwr.offsets rail v } }

@[simp] theorem State.offset_withOffset_same (s : State) (rail v : Nat) : (s.withOffset rail v).offset rail = v := by
  unfold State.offset State.withOffset
  by_cases hv : v = 0 <;> simp [hv]

theorem State.offset_withOffset_ne (s : State) {rail r : Nat} (v : Nat) (h : r ≠ rail) :
    (s.withOffset rail v).offset r = s.offset r := by
  unfold State.offset State.withOffset
  by_cases hv : v = 0
  · simp [hv, Tab.get_del_ne 0 s.pwr.offsets h]
  · simp [hv, Tab.get_put_ne 0 s.pwr.offsets v h]

/-- Remedies of arrays change the graph block alone. -/
theorem State.remedyArrays_frame (s : State) (units : List Nat) :
    ∃ g, units.foldl (fun t u => t.remedyArray u) s = { s with graph := g } :=
  State.foldl_keeps (P := fun t => ∃ g, t = { s with graph := g }) units _
    (fun t u ⟨g, h⟩ => ⟨(t.remedyArray u).graph, by rw [State.remedyArray_frame t u, h]⟩) ⟨s.graph, rfl⟩

/-- A rail below what its units call for steps up by 15 mV, and waiting dividers of its arrays may follow. -/
theorem exec_railStepComplete_up {rail : Nat} {s : State} (hr : rail < 52) (h : s.offset rail < s.wantedOffset rail) :
    ∃ g, exec (.railStepComplete rail) s = .next { s.withOffset rail (s.offset rail + 15) with graph := g } := by
  obtain ⟨g, hg⟩ := (s.withOffset rail (s.offset rail + 15)).remedyArrays_frame (railArrays rail)
  have hstay : ¬ (52 ≤ rail ∨ s.wantedOffset rail = s.offset rail) := by omega
  refine ⟨g, ?_⟩
  rw [← hg]
  simp only [exec, execRailStepComplete, hstay, h, if_true, if_false]
  rfl

/-- A lane-group rail above what its units call for steps down by 15 mV: it feeds no array whose divider must fall first. -/
theorem exec_railStepComplete_down {rail : Nat} {s : State} (hlo : 36 ≤ rail) (hr : rail < 52)
    (h : s.wantedOffset rail < s.offset rail) :
    exec (.railStepComplete rail) s = .next (s.withOffset rail (s.offset rail - 15)) := by
  have hstay : ¬ (52 ≤ rail ∨ s.wantedOffset rail = s.offset rail) := by omega
  have hup : ¬ s.offset rail < s.wantedOffset rail := by omega
  have harr : railArrays rail = [] := if_neg (by omega)
  simp only [exec, execRailStepComplete, hstay, hup, harr, List.all_nil, if_true, if_false]
  rfl

/-! ## Faults that fence (R28, R558, R561, R565) -/

/-- A thermal trip fences the package, turns both array dies off and loses module memory (R565). -/
theorem exec_thermalTrip {s : State} (h : s.pwr.tripped = false) : ∃ t, exec .thermalTrip s = .next t ∧
    t.packageFenced = true ∧ t.mem = [] ∧ t.pwr.die0 = 2 ∧ t.pwr.die1 = 2 ∧ t.pwr.tripped = true := by
  simp only [exec, execThermalTrip, h, Bool.false_eq_true, if_false]
  refine ⟨_, rfl, ?_, ?_, ?_, ?_, ?_⟩
  · exact (State.packageFenced_congr (by simp [State.loseMemory])).trans (s.fencePackage_packageFenced 3)
  all_goals simp [State.loseMemory]

theorem exec_clockTreeOrResetDomainFault {region : Nat} {s : State} (h : region < 4) :
    exec (.clockTreeOrResetDomainFault region) s = .next (s.placeFence (.region region) 0xFFFF (leBytes 1 region)) := by
  have h4 : ¬ 4 ≤ region := by omega
  simp only [exec, execClockTreeOrResetDomainFault, h4, if_false]

/-- A cluster rail out of regulation fences its cluster (R28, R561). -/
theorem exec_railOutOfRegulation_cluster {rail : Nat} {s : State} (h : rail < 36) :
    exec (.railOutOfRegulation rail) s =
      .next (((s.error 3).logPlain 2 2 5 (leBytes 1 rail)).placeFence (.cluster rail) (unitId 8 rail) []) := by
  have h67 : ¬ 67 ≤ rail := by omega
  simp only [exec, execRailOutOfRegulation, h67, h, if_true, if_false]

/-- The port-die rail out of regulation fences the package (R28, R561). -/
theorem exec_railOutOfRegulation_portDie (s : State) :
    exec (.railOutOfRegulation 54) s = .next (((s.error 3).logPlain 2 2 5 (leBytes 1 54)).fencePackage 7) := by
  simp only [exec, execRailOutOfRegulation, Nat.reduceLeDiff, Nat.reduceLT, if_true, if_false]

/-- The fence of a cluster covers its four arrays (R19, R28). -/
theorem Fence.cluster_covers {n i : Nat} (hn : n < 36) (hi : i < 4) : (Fence.cluster n).covers (unitId 1 (4 * n + i)) = true := by
  have ht : unitType (unitId 1 (4 * n + i)) = 1 := by simp only [unitType, unitId]; omega
  have hx : unitIndex (unitId 1 (4 * n + i)) / 4 = n := by simp only [unitIndex, unitId]; omega
  simp [Fence.covers, ht, hx]

theorem Fence.region_covers {n id : Nat} (h : unitRegion id = some n) : (Fence.region n).covers id = true := by
  simp [Fence.covers, h]

/-- Settles O10: a rail steps by 15 mV alone, and each fault places the fence of what it reaches. That module memory reads 0
after a thermal trip is the model's choice (log entry 41). -/
theorem railsAndFaultFences : Obligations.RailsAndFaultFences := by
  refine ⟨⟨fun rail s hr h => ?up, fun rail s hlo hr h => ?down⟩, fun s => ?pll, fun s => ?portDie, fun s h => exec_thermalTrip h,
    fun s => ?portRail, fun region s h => ?region, fun rail s h => ?cluster⟩
  case up =>
    obtain ⟨g, he⟩ := exec_railStepComplete_up hr h
    exact ⟨_, he, s.offset_withOffset_same rail _, fun r hne => s.offset_withOffset_ne _ hne, rfl, rfl⟩
  case down =>
    exact ⟨_, exec_railStepComplete_down hlo hr h, s.offset_withOffset_same rail _,
      fun r hne => s.offset_withOffset_ne _ hne, rfl, rfl⟩
  case pll => exact ⟨_, rfl, s.fencePackage_packageFenced 2⟩
  case portDie => exact ⟨_, rfl, s.fencePackage_packageFenced 5⟩
  case portRail => exact ⟨_, exec_railOutOfRegulation_portDie s, State.fencePackage_packageFenced _ 7⟩
  case region => exact ⟨_, exec_clockTreeOrResetDomainFault h, fun id hid => State.placeFence_covers _ _ _ (Fence.region_covers hid)⟩
  case cluster =>
    exact ⟨_, exec_railOutOfRegulation_cluster h, fun i hi => State.placeFence_covers _ _ _ (Fence.cluster_covers h hi)⟩

end Sys2Proof.Machine
end

section
/-! SUPPORT. Completion of commands and the commands it wakes, requests for tests, and the records that accepted packets owe. -/

namespace Sys2Proof.Machine

/-! ## Completion of a command, and the commands it wakes -/

theorem State.countStatus_quiet (s : State) (st : Status) : s.Quiet (s.countStatus st) := by
  unfold State.countStatus
  split
  · exact s.bump_quiet 1 (by decide)
  split
  · exact s.bump_quiet 1 (by decide)
  · exact .refl s

theorem State.closeEntry_quiet (s : State) (p : Packet) (st : Status) (position total : Nat) :
    s.Quiet (s.closeEntry p st position total) := by
  rw [State.closeEntry_frame]
  exact {}

theorem State.advance_quiet (s : State) (p : Packet) (position total : Nat) : s.Quiet (s.advance p position total) := by
  rw [State.advance_frame]
  exact {}

theorem State.fallDue_sameTests (s : State) (r : Record) : s.SameTests (s.fallDue r) := by
  rw [State.fallDue_frame]
  exact {}

theorem State.finish_sameTests (s : State) (o : RunOp) (st : Status) (detail : Nat) : s.SameTests (s.finish o st detail) :=
  .trans (.trans {} ((State.closeEntry_quiet _ _ _ _ _).trans (State.countStatus_quiet _ _)).sameTests)
    (State.fallDue_sameTests _ _)

theorem State.zero_sameTests (s : State) (a n : Nat) : s.SameTests (s.zero a n) := by
  rw [State.zero_frame]
  exact {}

theorem State.closeJob_sameTests (s : State) (slot : Nat) : s.SameTests (s.closeJob slot) := by
  unfold State.closeJob
  split
  · exact .refl s
  · extract_lets wipe wiped regions logged
    have hw : s.SameTests wiped := .foldl wipe (fun t e => t.zero_sameTests e.2.base e.2.size) s
    have hl : wiped.SameTests logged := .trans {} (State.log_quiet _ _ _ _ _ _ _ _).sameTests
    exact (hw.trans hl).trans {}

theorem State.destroySlices_quiet (s : State) (n : Nat) : s.Quiet (s.destroySlices n) := {}

theorem State.drainEffect_sameTests (s : State) (o : RunOp) : s.SameTests (s.drainEffect o) := by
  unfold State.drainEffect
  split
  · split
    · exact s.zero_sameTests _ _
    · exact .refl s
  · exact {}
  · exact {}
  · exact {}
  · exact s.closeJob_sameTests _
  · exact (s.destroySlices_quiet _).sameTests
  · exact .refl s

theorem State.wakeN_sameTests (k : Nat) (s : State) : s.SameTests (State.wakeN k s) := by
  induction k generalizing s with
  | zero => exact .refl s
  | succ k ih =>
    unfold State.wakeN
    split
    · exact .refl s
    · exact ((s.drainEffect_sameTests _).trans (State.finish_sameTests _ _ _ _)).trans (ih _)

theorem State.wake_sameTests (s : State) : s.SameTests s.wake := s.wakeN_sameTests _

/-! ## Requests for tests (R30, R469) -/

/-- The request of a command or of the rotation for a unit's test. -/
def TestFor.request (w : TestFor) (u : Nat) : TestReq := ⟨u, w, false, false, []⟩

def State.withWaiting (s : State) (l : List TestReq) : State := { s with integrity := { s.integrity with waiting := l } }

theorem State.requestTest_eq (s : State) (u : Nat) (w : TestFor) :
    s.requestTest u w false = s.withWaiting (s.integrity.waiting ++ [w.request u]) := rfl

theorem State.openTests_withWaiting (s : State) (w : TestFor) (us : List Nat) :
    (s.withWaiting (s.integrity.waiting ++ us.map w.request)).openTests w = s.openTests w ++ us := by
  have hall : (us.map w.request).filter (fun q => q.why == w) = us.map w.request := by
    rw [List.filter_eq_self]
    intro q hq
    obtain ⟨u, -, rfl⟩ := List.mem_map.mp hq
    simp [TestFor.request]
  have hunit : (fun q : TestReq => q.unit) ∘ w.request = id := rfl
  simp only [State.openTests, State.withWaiting, ← List.append_assoc, List.filter_append _ (us.map _), hall, List.map_append,
    List.map_map, hunit, List.map_id]

/-- A pass only adds requests of its own behind those that wait. -/
theorem State.askTests_frame (s : State) (w : TestFor) (l : List Nat) :
    ∃ us : List Nat, (s.askTests w l).1 = s.withWaiting (s.integrity.waiting ++ us.map w.request) := by
  fun_induction State.askTests s w l with
  | case1 s => exact ⟨[], by simp [State.withWaiting]⟩
  | case2 s u l hwait r ih => exact ih
  | case3 s u l hfree hf r ih => exact ih
  | case4 s u l hfree hf ih =>
    obtain ⟨us, ih⟩ := ih
    exact ⟨u :: us, by rw [ih, State.requestTest_eq]; simp [State.withWaiting]⟩

theorem State.askTests_sameTests (s : State) (w : TestFor) (l : List Nat) : s.SameTests (s.askTests w l).1 := by
  obtain ⟨us, h⟩ := s.askTests_frame w l
  rw [h]
  exact {}

/-- The requests of a pass stay open while it asks for more. -/
theorem State.askTests_keeps_open {s : State} {w : TestFor} (l : List Nat) (h : s.openTests w ≠ []) :
    (s.askTests w l).1.openTests w ≠ [] := by
  obtain ⟨us, hus⟩ := s.askTests_frame w l
  rw [hus, State.openTests_withWaiting]
  simp [h]

theorem State.openTests_requestTest (s : State) (u : Nat) (w : TestFor) :
    (s.requestTest u w false).openTests w = s.openTests w ++ [u] := by
  rw [State.requestTest_eq, ← s.openTests_withWaiting w [u]]
  rfl

/-- A pass over units of which one is under no fault fence has a test open. -/
theorem State.askTests_opens (s : State) (w : TestFor) (l : List Nat) (h : ∃ u ∈ l, s.faultFenced u = false) :
    (s.askTests w l).1.openTests w ≠ [] := by
  fun_induction State.askTests s w l with
  | case1 s => simp at h
  | case2 s u l hwait r ih =>
    obtain ⟨v, hv, -⟩ := List.any_eq_true.mp hwait
    exact State.askTests_keeps_open l (List.ne_nil_of_mem hv)
  | case3 s u l hfree hf r ih =>
    obtain ⟨v, hv, hvf⟩ := h
    rcases List.mem_cons.mp hv with rfl | hv
    · simp [hf] at hvf
    · exact ih ⟨v, hv, hvf⟩
  | case4 s u l hfree hf ih =>
    exact State.askTests_keeps_open l (by simp [State.openTests_requestTest])

/-- While a job is open, no unit of a pass is asked for beside one whose test is open (R30). -/
theorem State.askTests_waits {s : State} {w : TestFor} (l : List Nat) (hj : s.job.jobs ≠ []) (ho : s.openTests w ≠ []) :
    (s.askTests w l).1 = s := by
  have hturn : ∀ u, (s.openTests w).any (fun v => s.takeTurns v u) = true := by
    intro u
    obtain ⟨v, hv⟩ := List.exists_mem_of_ne_nil _ ho
    exact List.any_eq_true.mpr ⟨v, hv, by simp [State.takeTurns, hj]⟩
  induction l with
  | nil => rfl
  | cons u l ih => simp only [State.askTests, hturn, if_true, ih]

/-- While a job is open, a pass starts with its first unit under no fault fence (R30, R469). -/
theorem State.askTests_first {s : State} {w : TestFor} {u : Nat} (l : List Nat) (hj : s.job.jobs ≠ [])
    (ho : s.openTests w = []) (hu : l.find? (fun v => !s.faultFenced v) = some u) :
    (s.askTests w l).1 = s.requestTest u w false := by
  induction l with
  | nil => simp at hu
  | cons v l ih =>
    cases hf : s.faultFenced v with
    | true =>
      have hu : l.find? (fun v => !s.faultFenced v) = some u := by simpa [List.find?_cons, hf] using hu
      simp [State.askTests, ho, hf, ih hu]
    | false =>
      obtain rfl : v = u := by simpa [List.find?_cons, hf] using hu
      have hnext := State.askTests_waits (s := s.requestTest v w false) (w := w) l hj (by simp [State.openTests_requestTest])
      simp [State.askTests, ho, hf, hnext]

/-- A unit under no fault fence, of the type and on the die of another. -/
def State.likeUnit (s : State) (u v : Nat) : Bool := !s.faultFenced v && unitType v == unitType u && unitDie v == unitDie u

theorem State.takeTurns_iff {s : State} (hj : s.job.jobs = []) (v u : Nat) :
    s.takeTurns v u = true ↔ unitType v = unitType u ∧ unitDie v = unitDie u := by
  simp [State.takeTurns, hj]

theorem State.likeUnit_iff {s : State} {u v : Nat} :
    s.likeUnit u v = true ↔ s.faultFenced v = false ∧ unitType v = unitType u ∧ unitDie v = unitDie u := by
  simp only [State.likeUnit, Bool.and_eq_true, Bool.not_eq_true', beq_iff_eq, and_assoc]

/-- While no job is open, a pass asks for a unit if no test open before takes turns with it and it is the first of its type
and die that is under no fault fence (R30, R469). -/
theorem State.request_mem_askTests (s : State) (w : TestFor) (l : List Nat) (u : Nat) (hj : s.job.jobs = []) :
    w.request u ∈ (s.askTests w l).1.integrity.waiting ↔ w.request u ∈ s.integrity.waiting ∨
      ((∀ v ∈ s.openTests w, s.takeTurns v u = false) ∧ l.find? (s.likeUnit u) = some u) := by
  fun_induction State.askTests s w l with
  | case1 s => simp
  | case2 s x l hwait r ih =>
    rw [ih hj]
    obtain ⟨v, hv, hvx⟩ := List.any_eq_true.mp hwait
    refine or_congr_right (and_congr_right fun hall => ?_)
    have hx : s.likeUnit u x = false := by
      refine Bool.eq_false_iff.mpr fun hx => ?_
      obtain ⟨-, htype, hdie⟩ := State.likeUnit_iff.mp hx
      obtain ⟨htypev, hdiev⟩ := (State.takeTurns_iff hj v x).mp hvx
      have hvu := (State.takeTurns_iff hj v u).mpr ⟨htypev.trans htype, hdiev.trans hdie⟩
      exact Bool.eq_false_iff.mp (hall v hv) hvu
    rw [List.find?_cons, hx]
  | case3 s x l hfree hf r ih =>
    have hx : s.likeUnit u x = false := by simp [State.likeUnit, hf]
    rw [ih hj, List.find?_cons, hx]
  | case4 s x l hfree hf ih =>
    have hopen : ∀ v ∈ s.openTests w, s.takeTurns v x = false := by simpa using hfree
    have hlike : (s.requestTest x w false).likeUnit = s.likeUnit := rfl
    have hturns : (s.requestTest x w false).takeTurns = s.takeTurns := rfl
    have hmem : w.request u ∈ (s.requestTest x w false).integrity.waiting ↔ w.request u ∈ s.integrity.waiting ∨ u = x := by
      simp [State.requestTest_eq, State.withWaiting, TestFor.request]
    rw [ih hj, State.openTests_requestTest, hlike, hturns, hmem, List.find?_cons]
    by_cases hux : u = x
    · subst hux
      have hself : s.likeUnit u u = true := by simp [State.likeUnit, hf]
      exact iff_of_true (.inl (.inr rfl)) (.inr ⟨hopen, by simp [hself]⟩)
    · cases hx : s.likeUnit u x with
      | true =>
        have hxu : s.takeTurns x u = true := (State.takeTurns_iff hj x u).mpr (State.likeUnit_iff.mp hx).2
        have hno : ¬ ∀ v ∈ s.openTests w ++ [x], s.takeTurns v u = false := fun hall =>
          Bool.eq_false_iff.mp (hall x (List.mem_append_right _ (List.mem_singleton_self x))) hxu
        have hsome : ¬ some x = some u := fun h => hux (Option.some.inj h).symm
        simp only [hux, hno, hsome, or_false, false_and, and_false]
      | false =>
        have hxu : s.takeTurns x u = false := Bool.eq_false_iff.mpr fun hturn =>
          Bool.eq_false_iff.mp hx (State.likeUnit_iff.mpr ⟨Bool.eq_false_iff.mpr hf, (State.takeTurns_iff hj x u).mp hturn⟩)
        have hopens : (∀ v ∈ s.openTests w ++ [x], s.takeTurns v u = false) ↔ ∀ v ∈ s.openTests w, s.takeTurns v u = false :=
          ⟨fun h v hv => h v (List.mem_append_left _ hv), fun h v hv => (List.mem_append.mp hv).elim (h v) fun hv =>
            List.mem_singleton.mp hv ▸ hxu⟩
        simp only [hux, hopens, or_false]


/-! ## A pass of INT_TEST_ALL, and the answer to a test (R469) -/

theorem State.passOn_sameTests (s : State) (o : RunOp) (left : List Nat) (failed position : Nat) :
    s.SameTests (s.passOn o left failed position) := by
  unfold State.passOn
  extract_lets r done o' asked
  have ha : s.SameTests asked := .trans (s.askTests_sameTests _ _) {}
  split
  · exact ha.trans (State.finish_sameTests _ _ _ _)
  · exact ha.trans (State.advance_quiet _ _ _ _).sameTests

/-- A pass with a test open goes on: it asks for its tests and shows its position. -/
theorem State.passOn_open (s : State) (o : RunOp) (left : List Nat) (failed position : Nat)
    (h : (s.askTests o.pkt.testFor left).1.openTests o.pkt.testFor ≠ []) :
    ∃ ru pr sh, s.passOn o left failed position =
      { (s.askTests o.pkt.testFor left).1 with running := ru, progress := pr, shown := sh } := by
  unfold State.passOn
  extract_lets r done o' asked
  have ho : ¬ (r.2.1.isEmpty = true ∧ (asked.openTests o.pkt.testFor).isEmpty = true) := by
    rintro ⟨-, he⟩
    exact h (List.isEmpty_iff.mp he)
  rw [if_neg ho, State.advance_frame]
  exact ⟨_, _, _, rfl⟩

theorem State.answerTest_sameTests (s : State) (q : TestReq) (result : Option (Option Nat)) :
    s.SameTests (s.answerTest q result) := by
  have hset (o n : RunOp) : s.SameTests (s.setOp o n) := {}
  unfold State.answerTest
  split
  · exact .refl s
  extract_lets patterns bad o' moved
  split
  · exact s.passOn_sameTests _ _ _ _
  split
  · exact .trans {} (State.finish_sameTests _ _ _ _)
  split
  · exact (hset _ _).trans (State.finish_sameTests _ _ _ _)
  split
  · exact (hset _ _).trans (State.finish_sameTests _ _ _ _)
  · exact (hset _ _).trans (State.finish_sameTests _ _ _ _)

/-! ## Packets that are accepted, and the records they owe -/

/-- The effect of an accepted packet acts on the state it enters. -/
theorem Command.start_accepts {c : Command} {p : Packet} {s : State} (h : s.accepts c p = true) :
    c.start p s = c.effect p (s.entered c p) := by
  simp only [State.accepts, Bool.and_eq_true, beq_iff_eq, Option.isNone_iff_eq_none] at h
  obtain ⟨⟨⟨hcode, hmay⟩, hready⟩, hfail⟩ := h
  rw [Command.start_run c p s hcode hmay hready, Command.run_effect c p s hfail]

/-- The start of a packet writes its ring, its progress entry and the count of starts. -/
theorem State.entered_frame (s : State) (c : Command) (p : Packet) :
    ∃ r pr sh n, s.entered c p = { s with rings := r, progress := pr, shown := sh, starts := n } := by
  unfold State.entered
  rw [State.claim_frame, State.unstage_frame]
  exact ⟨_, _, _, _, rfl⟩

theorem State.dues_congr {s t : State} (hh : t.held = s.held) (hd : ∀ n, (t.ring n).due = (s.ring n).due) (r : Record) :
    t.dues r = s.dues r := by
  simp [State.dues, hh, hd]

/-- The packet that starts owes no record yet. -/
theorem State.entered_dues (s : State) (c : Command) (p : Packet) (r : Record) : (s.entered c p).dues r = s.dues r := by
  refine State.dues_congr (by simp [State.entered]) (fun n => ?_) r
  have hring : (s.entered c p).ring n = (s.unstage p).ring n := State.ring_congr (by simp [State.entered]) n
  rw [hring, State.unstage]
  by_cases hn : n = p.ring
  · subst hn
    simp
  · simp [State.ring_setRing_ne s _ hn]

theorem State.fallDue_dues (s : State) (r : Record) : (s.fallDue r).dues r = s.dues r + 1 := by
  unfold State.fallDue
  extract_lets q
  split
  · have hring : State.ring { s with held := s.held ++ [r] } r.ring = s.ring r.ring := rfl
    simp only [State.dues, hring, List.count_append, List.count_singleton_self]
    omega
  · simp only [State.dues, State.ring_setRing_same, State.setRing_held, List.count_append, List.count_singleton_self, q]
    omega

/-- A packet that completes owes one record more (R87). -/
theorem State.complete_owes {s t : State} (p : Packet) (st : Status) (detail position total : Nat) (hj : t.job = s.job)
    (hc : t.clk = s.clk) (hd : ∀ r, t.dues r = s.dues r) : (t.complete p st detail position total).owes s p st detail = true := by
  have hrec : t.recordOf p st detail = s.recordOf p st detail := by simp [State.recordOf, State.findJob, hj, hc]
  have hclosed (r : Record) : ((t.closeEntry p st position total).countStatus st).dues r = t.dues r :=
    State.dues_congr (by simp) (fun n => by rw [State.ring_congr (s := t) (by simp)]) r
  simp [State.owes, State.complete, hrec, State.fallDue_dues, hclosed, hd]

/-- A completion with OK writes the record and the progress entry alone. -/
theorem State.complete_ok_frame (s : State) (p : Packet) (detail position total : Nat) :
    ∃ r h pr sh, s.complete p Status.ok detail position total = { s with rings := r, held := h, progress := pr, shown := sh } := by
  unfold State.complete
  rw [State.fallDue_frame, State.countStatus, if_neg (by decide), if_neg (by decide), State.closeEntry_frame]
  exact ⟨_, _, _, _, rfl⟩

end Sys2Proof.Machine
end

section
/-! PROOFS. Tests of units: their commands, the test-fence, how a test ends, and the rotation. -/

namespace Sys2Proof.Machine

/-! ## INT_TEST_UNIT, INT_UNFENCE and INT_TEST_ALL (R469) -/

/-- A test that a packet asks for joins the requests that wait, and the command waits for its end. -/
theorem State.enroll_requestTest_frame {c : Command} {p : Packet} {s t : State} {total : Nat} {unfence : Bool}
    (ht : t = ((s.entered c p).enroll p (.test p.unitParam) [] total).requestTest p.unitParam p.testFor unfence) :
    ∃ o, t.running = s.running ++ [o] ∧ o.pkt = p ∧ o.kind = .test p.unitParam ∧
      t.integrity = { s.integrity with waiting := s.integrity.waiting ++ [⟨p.unitParam, p.testFor, unfence, false, []⟩] } ∧
      t = { s.bookkept t with running := t.running, integrity := t.integrity } := by
  obtain ⟨r, pr, sh, n, he⟩ := s.entered_frame c p
  subst ht
  rw [he]
  exact ⟨_, rfl, rfl, rfl, rfl, rfl⟩

/-- A pass enrolls its command and asks for its first tests (R469). -/
theorem intTestAll_effect {p : Packet} (s : State) (h : p.param 2 2 = 0) :
    let units := maskUnits (p.param 0 2)
    ∃ o, o.pkt = p ∧ intTestAllCommand.effect p s =
      (s.enroll p (.testAll units 0) [] (s.patternTotal units)).passOn o units 0 0 := by
  refine ⟨⟨p, .testAll (maskUnits (p.param 0 2)) 0, s.starts, [], 0, s.patternTotal (maskUnits (p.param 0 2)), false⟩, rfl, ?_⟩
  simp [intTestAllCommand, h, State.enroll]

/-- A pass over units of which one is under no fault fence asks for tests in a state with the same tests, fences and jobs. -/
theorem intTestAll_asks {p : Packet} {s : State} (h : s.accepts intTestAllCommand p = true) (hp : p.param 2 2 = 0)
    (hu : ∃ u ∈ maskUnits (p.param 0 2), s.faultFenced u = false) :
    ∃ t s' : State, exec (.intTestAll p) s = .next t ∧ s'.integrity = s.integrity ∧ s'.job = s.job ∧
      t.integrity = (s'.askTests p.testFor (maskUnits (p.param 0 2))).1.integrity ∧
      t = { s.bookkept t with running := t.running, integrity := t.integrity } := by
  obtain ⟨o, ho, heff⟩ := intTestAll_effect (s.entered intTestAllCommand p) hp
  obtain ⟨r, pr, sh, n, he⟩ := s.entered_frame intTestAllCommand p
  rw [← Command.start_accepts h, he] at heff
  generalize hs' : State.enroll _ p _ _ _ = s' at heff
  have hi : s'.integrity = s.integrity := by rw [← hs']; rfl
  have hj : s'.job = s.job := by rw [← hs']; rfl
  have hopen := s'.askTests_opens p.testFor _ (by simpa [State.faultFenced, hi] using hu)
  obtain ⟨ru, pr', sh', hpass⟩ := s'.passOn_open o _ 0 0 (ho ▸ hopen)
  obtain ⟨us, hask⟩ := s'.askTests_frame p.testFor (maskUnits (p.param 0 2))
  rw [ho] at hpass
  refine ⟨_, s', congrArg Host.Outcome.next (heff.trans hpass), hi, hj, rfl, ?_⟩
  rw [hask, ← hs']
  rfl

/-- A pass with no unit left and no test open completes with its count of failures. -/
theorem State.passOn_done (s : State) (o : RunOp) (failed position : Nat) (h : s.openTests o.pkt.testFor = []) :
    ∃ ru, s.passOn o [] failed position = State.complete { s with running := ru } o.pkt Status.ok failed position o.total := by
  unfold State.passOn
  extract_lets r done o' asked
  rw [if_pos ⟨rfl, List.isEmpty_iff.mpr h⟩]
  exact ⟨_, rfl⟩

/-- A pass over no units completes at once (R469). -/
theorem intTestAll_completes {p : Packet} {s : State} (h : s.accepts intTestAllCommand p = true) (hp : p.param 2 2 = 0)
    (hu : maskUnits (p.param 0 2) = []) (ho : s.openTests p.testFor = []) :
    ∃ t, exec (.intTestAll p) s = .next t ∧ t.owes s p Status.ok 0 = true ∧ t.integrity = s.integrity ∧ t.mem = s.mem := by
  obtain ⟨o, ho', heff⟩ := intTestAll_effect (s.entered intTestAllCommand p) hp
  have hd := s.entered_dues intTestAllCommand p
  obtain ⟨r, pr, sh, n, he⟩ := s.entered_frame intTestAllCommand p
  rw [← Command.start_accepts h, hu, he] at heff
  rw [he] at hd
  generalize hs' : State.enroll _ p _ _ _ = s' at heff
  have hopen : s'.openTests o.pkt.testFor = [] := by rw [← hs', ho']; exact ho
  obtain ⟨ru, hpass⟩ := s'.passOn_done o 0 0 hopen
  rw [ho'] at hpass
  refine ⟨_, congrArg Host.Outcome.next (heff.trans hpass), ?_, by rw [State.complete_integrity, ← hs']; rfl,
    by rw [State.complete_mem, ← hs']; rfl⟩
  rw [← hs']
  exact State.complete_owes p _ 0 _ _ rfl rfl hd

/-- A new rotation period is set at once (R467, R469). -/
theorem intTestAll_period {p : Packet} {s : State} (h : s.accepts intTestAllCommand p = true) (hp : p.param 2 2 ≠ 0) :
    ∃ t, exec (.intTestAll p) s = .next t ∧ t.owes s p Status.ok 0 = true ∧
      t = { s.bookkept t with integrity := { s.integrity with periodHours := p.param 2 2 } } := by
  have heff : intTestAllCommand.start p s = State.complete { s.entered intTestAllCommand p with
      integrity := { (s.entered intTestAllCommand p).integrity with periodHours := p.param 2 2 } } p Status.ok 0 0 0 := by
    rw [Command.start_accepts h]
    simp only [intTestAllCommand, ne_eq, hp, not_false_eq_true, if_true]
  have hd := s.entered_dues intTestAllCommand p
  obtain ⟨r, pr, sh, n, he⟩ := s.entered_frame intTestAllCommand p
  rw [he] at heff hd
  refine ⟨_, congrArg Host.Outcome.next heff, State.complete_owes p _ 0 0 0 rfl rfl hd, ?_⟩
  obtain ⟨r', h', pr', sh', hc⟩ := State.complete_ok_frame { s with
    rings := r, progress := pr, shown := sh, starts := n,
    integrity := { s.integrity with periodHours := p.param 2 2 } } p 0 0 0
  rw [hc]
  rfl

/-! ## TEST_FENCE_START (R30, R466) -/

/-- No request is served beside another test while a job is open (R30). -/
theorem State.nextTest_none {s : State} (hj : s.job.jobs ≠ []) {ahead : List TestReq} (ha : ahead ≠ []) (l : List TestReq) :
    s.nextTest ahead l = none := by
  induction l generalizing ahead with
  | nil => rfl
  | cons q l ih =>
    obtain ⟨r, ahead, rfl⟩ := List.exists_cons_of_ne_nil ha
    have hturn : s.takeTurns r.unit q.unit = true := by simp [State.takeTurns, hj]
    simp [State.nextTest, hturn, ih]

/-- The units whose test-fence a test holds are under it (R30). -/
theorem testCovers_of_mem {unit u : Nat} (hk : unitKnown unit = true) (hu : u ∈ testedUnits unit) : testCovers unit u = true := by
  unfold testedUnits at hu
  split at hu
  case isTrue h8 =>
    rcases List.mem_cons.mp hu with rfl | hu
    · simp [testCovers]
    · obtain ⟨i, hi, rfl⟩ := List.mem_map.mp hu
      have hi : i < 4 := List.mem_range.mp hi
      have hn : unitIndex unit < 36 := by simpa [unitKnown, unitValid, h8, unitCount] using hk
      have ht : unitType (unitId 1 (4 * unitIndex unit + i)) = 1 := by simp only [unitType, unitId]; omega
      have hx : unitIndex (unitId 1 (4 * unitIndex unit + i)) / 4 = unitIndex unit := by
        have : (1 * 4096 + (4 * unitIndex unit + i)) % 4096 / 4 = unitIndex unit := by omega
        exact this
      simp [testCovers, h8, ht, hx]
  case isFalse => simp [testCovers, List.mem_singleton.mp hu]

theorem State.clearBank_quiet (s : State) (unit : Nat) : s.Quiet (s.clearBank unit) := by
  unfold State.clearBank
  split
  · exact .refl s
  · exact s.moveBank_quiet _

theorem State.confidential_congr {s t : State} (h : t.sec = s.sec) : t.confidential = s.confidential := by
  simp [State.confidential, h]

/-- The state in which a request has joined the running tests, with the bank indices that its unit serves. -/
def State.underTest (s : State) (q : TestReq) : State :=
  { s with integrity := { s.integrity with testing := s.integrity.testing ++ [{ q with moved := s.servedBy q.unit }] } }

/-- A request gets the test-fence: work moves away, and only in confidential mode is storage cleared (R466, R480). -/
theorem State.beginTest_spec (s : State) (q : TestReq) :
    ∃ t m, (s.underTest q).Quiet t ∧ s.beginTest q = { t with mem := m } ∧ (s.confidential = false → m = t.mem) := by
  unfold State.beginTest
  extract_lets us q' _ fenced moved
  have he : fenced.Quiet (us.foldl (fun t u => t.evict u) fenced) := .foldl us State.evict_quiet fenced
  have hq : fenced.Quiet moved := he.trans (State.clearBank_quiet _ q.unit)
  have hc : moved.confidential = s.confidential := State.confidential_congr hq.sec
  cases hs : s.confidential with
  | false => exact ⟨moved, moved.mem, hq, by rw [hc, hs]; rfl, fun _ => rfl⟩
  | true =>
    obtain ⟨m, hm⟩ := moved.clearLocals_frame us
    exact ⟨moved, m, hq, by rw [hc, hs]; exact hm, fun h => by simp at h⟩

/-- The oldest request is served when its turn has come and its units are in service and idle (R30, R466). -/
theorem exec_testFenceStart_serves {q : TestReq} {rest : List TestReq} {s : State} (hw : s.integrity.waiting = q :: rest)
    (hturn : ∀ r, r ∈ s.integrity.testing →
      s.takeTurns r.unit q.unit = false ∧ ∀ u, u ∈ testedUnits r.unit → testCovers q.unit u = false)
    (hf : s.faultFenced q.unit = false) (hb : s.bankStuck q.unit = false)
    (hidle : ∀ u, u ∈ testedUnits q.unit → s.busy u = false) :
    exec .testFenceStart s = .next ((s.withWaiting rest).beginTest q) := by
  have hahead : (s.integrity.testing.all fun r =>
      !s.takeTurns r.unit q.unit && (testedUnits r.unit).all fun u => !testCovers q.unit u) = true := by
    simpa [List.all_eq_true] using hturn
  have hskip : s.skipsFenced q = false := by simp [State.skipsFenced, hf]
  have hfree : s.testFree q = true := by simpa [State.testFree, hskip, hb] using hidle
  have hnext : s.nextTest s.integrity.testing s.integrity.waiting = some q := by
    simp only [hw, State.nextTest, hahead, hfree, Bool.and_true, if_true]
  have hrest : s.integrity.waiting.erase q = rest := by rw [hw, List.erase_cons_head]
  simp only [exec, execTestFenceStart, hnext, hskip, hb, Bool.false_eq_true, if_false, hrest]
  rfl

/-! ## STRUCTURAL_TEST_COMPLETE (R466, R467, R469, R470) -/

/-- The state after a test has left the running tests and is counted, with `n` failures (R472). -/
def State.testEnded (s : State) (q : TestReq) (n : Nat) : State :=
  (State.bump { s with integrity := { s.integrity with testing := s.integrity.testing.erase q } } Reg.intTestsRun 1).bump
    Reg.intTestsFailed n

theorem State.testEnded_integrity (s : State) (q : TestReq) (n : Nat) :
    (s.testEnded q n).integrity = { s.integrity with testing := s.integrity.testing.erase q } := by
  simp [State.testEnded]

theorem State.testEnded_run (s : State) (q : TestReq) (n : Nat) :
    (s.testEnded q n).reg Reg.intTestsRun = satAdd (s.reg Reg.intTestsRun) 1 := by
  rw [State.testEnded, State.reg_bump_ne _ _ (by decide), State.reg_bump_same _ _ (by decide)]
  rfl

theorem State.testEnded_passed (s : State) (q : TestReq) :
    (s.testEnded q 0).reg Reg.intTestsFailed = s.reg Reg.intTestsFailed := by
  rw [State.testEnded, State.bump, if_pos rfl, State.reg_bump_ne _ _ (by decide)]
  rfl

theorem State.testEnded_failed (s : State) (q : TestReq) :
    (s.testEnded q 1).reg Reg.intTestsFailed = satAdd (s.reg Reg.intTestsFailed) 1 := by
  rw [State.testEnded, State.reg_bump_same _ _ (by decide), State.reg_bump_ne _ _ (by decide)]
  rfl

theorem exec_structuralTestComplete_pass {q : TestReq} {s : State}
    (h : s.integrity.testing.find? (fun r => r.unit == q.unit) = some q) :
    exec (.structuralTestComplete q.unit none) s =
      .next ((((s.testEnded q 0).passUnit q).answerTest q (some none)).wake) := by
  simp only [exec, execStructuralTestComplete, h]
  rfl

theorem exec_structuralTestComplete_fail {q : TestReq} {n : Nat} {s : State}
    (h : s.integrity.testing.find? (fun r => r.unit == q.unit) = some q) :
    exec (.structuralTestComplete q.unit (some n)) s =
      .next ((((s.testEnded q 1).failUnit q.unit n).answerTest q (some (some n))).wake) := by
  simp only [exec, execStructuralTestComplete, h]
  rfl

/-- What follows a test's verdict, the answer to its command and the commands that wake, leaves tests and fences alone. -/
theorem State.answerTest_wake_sameTests (s : State) (q : TestReq) (result : Option (Option Nat)) :
    s.SameTests (s.answerTest q result).wake :=
  (s.answerTest_sameTests q result).trans (State.wake_sameTests _)

/-- The integrity block once a unit has returned: its strikes and its own fence are gone (R469). -/
def IntState.returned (i : IntState) (unit : Nat) : IntState :=
  { i with
    strikes := i.strikes.filter fun k => k.on != Charged.unit unit
    fences := i.fences.filter fun f => f != if unitType unit = 8 then .cluster (unitIndex unit) else .unit unit }

theorem State.unfenceUnit_sameTests (s : State) (unit : Nat) :
    State.SameTests { s with integrity := s.integrity.returned unit } (s.unfenceUnit unit) :=
  ((State.log_quiet _ _ _ _ _ _ _ _).trans (State.remedies_quiet _)).sameTests

/-- A passing INT_UNFENCE that no strike met returns its unit (R469). -/
theorem State.passUnit_returns {q : TestReq} (s : State) (ht : unitType q.unit ≠ 8) (hu : q.unfence = true)
    (hs : q.struck = false) : State.SameTests { s with integrity := s.integrity.returned q.unit } (s.passUnit q) := by
  have hl : s.Quiet (s.log 4 0 5 q.unit noJob noJob []) := s.log_quiet _ _ _ _ _ _ _
  have hr := State.unfenceUnit_sameTests (s.log 4 0 5 q.unit noJob noJob []) q.unit
  rw [hl.integrity] at hr
  have hc : State.SameTests { s with integrity := s.integrity.returned q.unit }
      { s.log 4 0 5 q.unit noJob noJob [] with integrity := s.integrity.returned q.unit } := { counts := hl.counts }
  simp only [State.passUnit, ht, hu, hs, if_false, Bool.not_false, Bool.and_self, if_true]
  split
  · exact (hc.trans hr).trans (State.restoreBank_quiet _ _ _).sameTests
  · exact hc.trans hr

/-- A unit's own fence covers it: that of its cluster for a cluster (R28). -/
theorem Fence.own_covers (unit : Nat) :
    (if unitType unit = 8 then Fence.cluster (unitIndex unit) else .unit unit).covers unit = true := by
  split
  case isTrue h =>
    have hid : unitId 8 (unitIndex unit) = unit := by
      rw [← h]
      simp only [unitId, unitIndex, unitType]
      omega
    simp [Fence.covers, hid]
  case isFalse => simp [Fence.covers]

/-- A unit that fails its test is under a fault fence (R467). -/
theorem State.failUnit_spec (s : State) (unit pattern : Nat) :
    s.FencesGrow (s.failUnit unit pattern) ∧ (s.failUnit unit pattern).faultFenced unit = true := by
  unfold State.failUnit
  extract_lets logged _ eligible
  have hl : s.Quiet logged := (s.log_quiet _ _ _ _ _ _ _).trans (State.alert_quiet _ 1)
  have he : s.SameTests eligible := by
    refine hl.sameTests.trans ?_
    unfold eligible
    split
    · exact {}
    · exact .refl _
  split
  case isTrue h => exact ⟨he.grow, h⟩
  case isFalse => exact ⟨he.grow.trans (State.placeFence_spec _ _ _ _).1, State.placeFence_covers _ _ _ (Fence.own_covers unit)⟩

theorem State.FencesGrow.faultFenced {s t : State} (h : s.FencesGrow t) {unit : Nat} (hf : s.faultFenced unit = true) :
    t.faultFenced unit = true := by
  obtain ⟨f, hm, hc⟩ := List.any_eq_true.mp hf
  exact State.faultFenced_of_mem (h.fences hm) hc

/-! ## ROTATION_TEST_DUE (R467) -/

theorem exec_rotationTestDue_watched {u : Nat} {s : State} (hv : unitValid u = true) (ho : s.observed u = true)
    (hf : s.faultFenced u = false) : exec (.rotationTestDue (some u)) s = .next (s.requestTest u .rotation false) := by
  simp [exec, execRotationTestDue, hv, ho, hf]

/-- The rotation comes to the next unit in order, whose test it requests unless a fault fence holds it. -/
theorem exec_rotationTestDue_next {u : Nat} {s : State}
    (h : s.rotationUnits.find? (fun u => decide (s.integrity.rotationNext ≤ u)) = some u) :
    exec (.rotationTestDue none) s =
      .next { s with integrity := { s.integrity with
        rotationNext := u + 1
        waiting := if s.faultFenced u then s.integrity.waiting
          else s.integrity.waiting ++ [⟨u, .rotation, false, false, []⟩] } } := by
  have hsame (i : Nat) : State.faultFenced { s with integrity := { s.integrity with rotationNext := i } } u = s.faultFenced u := rfl
  simp only [exec, execRotationTestDue, h, Option.some_or, Option.getD_some, hsame]
  split <;> rfl

/-! ## The tests settled -/

/-- While no job is open a pass starts with the first unit of each type on each die that is under no fault fence, and other
commands' requests stay (R30, R469). -/
theorem intTestAll_asks_each_type {p : Packet} {s : State} (h : s.accepts intTestAllCommand p = true) (hp : p.param 2 2 = 0)
    (hj : s.job.jobs = []) (ho : s.openTests p.testFor = []) (hu : ∃ u ∈ maskUnits (p.param 0 2), s.faultFenced u = false) :
    ∃ t, exec (.intTestAll p) s = .next t ∧
      (∀ u, p.testFor.request u ∈ t.integrity.waiting ↔ (maskUnits (p.param 0 2)).find? (s.likeUnit u) = some u) ∧
      (∀ q, q.why ≠ p.testFor → (q ∈ t.integrity.waiting ↔ q ∈ s.integrity.waiting)) ∧
      t = { s.bookkept t with running := t.running, integrity := { s.integrity with waiting := t.integrity.waiting } } := by
  obtain ⟨t, s', he, hi, hjob, ht, hframe⟩ := intTestAll_asks h hp hu
  obtain ⟨us, hask⟩ := s'.askTests_frame p.testFor (maskUnits (p.param 0 2))
  have hopen : s'.openTests p.testFor = [] := by rwa [State.openTests, hi]
  have hnew (u : Nat) : p.testFor.request u ∉ s.integrity.waiting := by
    intro hmem
    have : u ∈ s.openTests p.testFor :=
      List.mem_map.mpr ⟨_, List.mem_filter.mpr ⟨List.mem_append_right _ hmem, beq_self_eq_true _⟩, rfl⟩
    simp [ho] at this
  have hlike : s'.likeUnit = s.likeUnit := by
    funext u v
    simp [State.likeUnit, State.faultFenced, hi]
  refine ⟨t, he, fun u => ?_, fun q hq => ?_, ?_⟩
  · have hiff := s'.request_mem_askTests p.testFor (maskUnits (p.param 0 2)) u (by rw [hjob, hj])
    rw [← ht, hi, hopen, hlike] at hiff
    simpa [hnew] using hiff
  · have hnot : q ∉ us.map p.testFor.request := by
      intro hmem
      obtain ⟨u, -, rfl⟩ := List.mem_map.mp hmem
      exact hq rfl
    rw [ht, hask, ← hi]
    simp only [State.withWaiting, List.mem_append, hnot, or_false]
  · have hw : t.integrity = { s.integrity with waiting := t.integrity.waiting } := by rw [ht, hask, ← hi]; rfl
    rw [← hw]
    exact hframe

/-- While a job is open a pass starts with the first unit named that is under no fault fence (R30, R469). -/
theorem intTestAll_asks_first {p : Packet} {u : Nat} {s : State} (h : s.accepts intTestAllCommand p = true)
    (hp : p.param 2 2 = 0) (hj : s.job.jobs ≠ []) (ho : s.openTests p.testFor = [])
    (hu : (maskUnits (p.param 0 2)).find? (fun u => !s.faultFenced u) = some u) :
    ∃ t, exec (.intTestAll p) s = .next t ∧
      t.integrity = { s.integrity with waiting := s.integrity.waiting ++ [p.testFor.request u] } ∧
      t = { s.bookkept t with running := t.running, integrity := t.integrity } := by
  have hmem : u ∈ maskUnits (p.param 0 2) := List.mem_of_find?_eq_some hu
  have hfree : s.faultFenced u = false := by simpa using List.find?_some hu
  obtain ⟨t, s', he, hi, hjob, ht, hframe⟩ := intTestAll_asks h hp ⟨u, hmem, hfree⟩
  have hfirst := State.askTests_first (s := s') (w := p.testFor) _ (by rwa [hjob])
    (by rwa [State.openTests, hi]) (by simpa only [State.faultFenced, hi] using hu)
  exact ⟨t, he, by rw [ht, hfirst, ← hi]; rfl, hframe⟩

/-- A test-fence covers what the request covers, and beginning it leaves fences, rings and commands alone (R30, R466). -/
theorem State.beginTest_fences {q : TestReq} (s : State) (hk : unitKnown q.unit = true) :
    (s.beginTest q).integrity.waiting = s.integrity.waiting ∧
      (s.beginTest q).integrity.testing = s.integrity.testing ++ [{ q with moved := s.servedBy q.unit }] ∧
      (∀ u, u ∈ testedUnits q.unit → (s.beginTest q).fenced u = true) ∧
      (s.beginTest q).integrity.fences = s.integrity.fences ∧
      (s.confidential = false → (s.beginTest q).mem = s.mem) ∧ (s.beginTest q).host = s.host ∧
      (s.beginTest q).rings = s.rings ∧ (s.beginTest q).held = s.held ∧ (s.beginTest q).running = s.running := by
  obtain ⟨t, m, hq, hbegin, hm⟩ := s.beginTest_spec q
  have ht := hq.sameTests.testing
  rw [hbegin]
  refine ⟨(congrArg IntState.waiting hq.integrity :), ht, fun u hu => ?_, hq.sameTests.fences, fun hc => (hm hc).trans hq.mem,
    hq.host, hq.rings, hq.held, hq.running⟩
  simp [State.fenced, State.testFenced, ht, State.underTest, testCovers_of_mem hk hu]

/-- A passing INT_UNFENCE that no strike met is counted and takes the unit's strikes and its fence away (R469). -/
theorem structuralTestComplete_returns {q : TestReq} {s : State}
    (hq : s.integrity.testing.find? (fun r => r.unit == q.unit) = some q) (hu : q.unfence = true) (hs : q.struck = false)
    (h8 : unitType q.unit ≠ 8) :
    ∃ t, exec (.structuralTestComplete q.unit none) s = .next t ∧ t.integrity.testing = s.integrity.testing.erase q ∧
      t.reg Reg.intTestsRun = satAdd (s.reg Reg.intTestsRun) 1 ∧ t.reg Reg.intTestsFailed = s.reg Reg.intTestsFailed ∧
      (∀ k, k ∈ t.integrity.strikes ↔ k ∈ s.integrity.strikes ∧ k.on ≠ .unit q.unit) ∧
      (∀ f, f ∈ t.integrity.fences ↔ f ∈ s.integrity.fences ∧ f ≠ .unit q.unit) := by
  have hret := ((s.testEnded q 0).passUnit_returns h8 hu hs).trans (State.answerTest_wake_sameTests _ q (some none))
  rw [State.testEnded_integrity] at hret
  refine ⟨_, exec_structuralTestComplete_pass hq, hret.testing, ?_, ?_, fun k => ?_, fun f => ?_⟩
  · exact (hret.counts _ (by decide)).trans (s.testEnded_run q 0)
  · exact (hret.counts _ (by decide)).trans (s.testEnded_passed q)
  · simp [hret.strikes, IntState.returned]
  · simp [hret.fences, IntState.returned, h8]

/-- A failing test is counted and leaves its unit under a fault fence (R467). -/
theorem structuralTestComplete_fences {q : TestReq} (n : Nat) {s : State}
    (hq : s.integrity.testing.find? (fun r => r.unit == q.unit) = some q) :
    ∃ t, exec (.structuralTestComplete q.unit (some n)) s = .next t ∧ t.integrity.testing = s.integrity.testing.erase q ∧
      t.reg Reg.intTestsRun = satAdd (s.reg Reg.intTestsRun) 1 ∧
      t.reg Reg.intTestsFailed = satAdd (s.reg Reg.intTestsFailed) 1 ∧
      t.faultFenced q.unit = true ∧ t.integrity.strikes = s.integrity.strikes := by
  obtain ⟨hgrow, hfenced⟩ := (s.testEnded q 1).failUnit_spec q.unit n
  have hrest := State.answerTest_wake_sameTests ((s.testEnded q 1).failUnit q.unit n) q (some (some n))
  have hall := hgrow.trans hrest.grow
  have hi := s.testEnded_integrity q 1
  refine ⟨_, exec_structuralTestComplete_fail hq, ?_, ?_, ?_, hrest.grow.faultFenced hfenced, ?_⟩
  · rw [hall.testing, hi]
  · exact (hall.counts _ (by decide)).trans (s.testEnded_run q 1)
  · exact (hall.counts _ (by decide)).trans (s.testEnded_failed q)
  · rw [hall.strikes, hi]

/-- Settles O47: requests join the queue, the first whose turn has come is served, and a test that ends is counted and
returns or fences its unit. Which tests take turns is the model's choice (log entry 69), as is what keeps a unit busy (70)
and the order of the rotation (72). -/
theorem unitTests : Obligations.UnitTests := by
  refine ⟨⟨fun p s h => ?testUnit, fun p s h => ?unfence, fun p u s h hp hj ho hu => intTestAll_asks_first h hp hj ho hu,
    fun p s h hp hj ho hu => intTestAll_asks_each_type h hp hj ho hu,
    fun p s h hp hm ho => intTestAll_completes h hp (by rw [hm]; rfl) ho, fun p s h hp => intTestAll_period h hp⟩,
    fun q rest s hw hk hturn hf hb hidle => ⟨_, exec_testFenceStart_serves hw hturn hf hb hidle,
      (s.withWaiting rest).beginTest_fences hk⟩,
    fun s hj ht => ?turn, fun q s hq hu hs h8 => structuralTestComplete_returns hq hu hs h8,
    fun q n s hq _ => structuralTestComplete_fences n hq,
    fun u s hv ho hf => ⟨_, exec_rotationTestDue_watched hv ho hf, rfl⟩,
    fun u s hu => ⟨_, exec_rotationTestDue_next hu, rfl, rfl, rfl⟩⟩
  case testUnit =>
    obtain ⟨o, ho⟩ := State.enroll_requestTest_frame (Command.start_accepts h)
    exact ⟨_, o, rfl, ho⟩
  case unfence =>
    obtain ⟨o, ho⟩ := State.enroll_requestTest_frame (Command.start_accepts h)
    exact ⟨_, o, rfl, ho⟩
  case turn => simp only [exec, execTestFenceStart, State.nextTest_none hj ht]

end Sys2Proof.Machine
end

section
/-! SUPPORT. What starts and completions of packets leave of the state, what they leave of each ring, and when the heads of the
rings need no settling. -/

namespace Sys2Proof.Machine

/-! ## The operand of a packet row starts by its command (R84) -/

/-- A packet row is the start of its packet by the command that its opcode and operation field name. -/
theorem exec_packetRow {i : Instr} {p : Packet} {c : Command} (h : packetRow i = some (p, c)) (s : State) :
    exec i s = .next (c.start p s) := by
  cases i with
  | relayPeerSetLocal | relayPostWrite | secSessionOpenNew | secKeyImportModelKey =>
    obtain ⟨hother, hrow⟩ := Option.ite_none_left_eq_some.mp h
    cases hrow
    exact congrArg Host.Outcome.next (if_neg hother)
  | relayPeerSetModules | relayPostWriteImm | relayPostRead | relayPostFetchAdd | relayPostCmpSwap | relayPostSealedPut
  | relayPostSealedGet | relayPostFence | secSessionOpenCertify | secSessionOpenPairOffer | secSessionOpenJobKeyIssue
  | secKeyImportPair | secKeyImportJobKey =>
    obtain ⟨hop, hrow⟩ := Option.ite_none_right_eq_some.mp h
    cases hrow
    exact congrArg Host.Outcome.next (if_pos hop)
  | _ => cases h <;> rfl

/-! ## Frames of starts and completions -/

theorem State.bookkept_trans {s t u : State} (h : t = s.bookkept t) (k : u = t.bookkept u) : u = s.bookkept u := by
  rw [k, h]
  rfl

theorem State.unstage_bookkept (s : State) (p : Packet) : s.unstage p = s.bookkept (s.unstage p) := rfl

theorem State.fallDue_bookkept (s : State) (r : Record) : s.fallDue r = s.bookkept (s.fallDue r) := by
  rw [State.fallDue_frame]
  rfl

@[simp] theorem State.entered_job (s : State) (c : Command) (p : Packet) : (s.entered c p).job = s.job := by
  simp [State.entered]

@[simp] theorem State.entered_clk (s : State) (c : Command) (p : Packet) : (s.entered c p).clk = s.clk := by
  simp [State.entered]

@[simp] theorem State.entered_running (s : State) (c : Command) (p : Packet) : (s.entered c p).running = s.running := by
  simp [State.entered]

theorem State.entered_bookkept (s : State) (c : Command) (p : Packet) : s.entered c p = s.bookkept (s.entered c p) := by
  obtain ⟨r, pr, sh, n, h⟩ := s.entered_frame c p
  rw [h]
  rfl

/-- A completion with a status that no counter counts writes the record and the progress entry alone. -/
theorem State.complete_bookkept {s : State} {p : Packet} {st : Status} {detail position total : Nat}
    (h : ∀ t : State, t.countStatus st = t) :
    s.complete p st detail position total = s.bookkept (s.complete p st detail position total) := by
  rw [State.complete, h, State.fallDue_frame, State.closeEntry_frame]
  rfl

theorem State.countStatus_ok (s : State) : s.countStatus Status.ok = s := rfl
theorem State.countStatus_noTarget (s : State) : s.countStatus Status.noTarget = s := rfl

/-! ## Bytes of the host window (R107) -/

/-- A store in the host window writes host memory alone. -/
theorem State.store_window (s : State) (a : Nat) (b : List Byte) :
    s.store (hostWindow + a) b = { s with host := Memory.writeN s.host a b } := by
  rw [State.store, if_neg (by omega), Nat.add_sub_cancel_left]

theorem State.load_congr {s t : State} (hm : t.mem = s.mem) (hh : t.host = s.host) (a n : Nat) : t.load a n = s.load a n := by
  simp only [State.load, hm, hh]

/-- A store leaves alone what lies apart from its bytes, whether in its own space or in the other (R107). -/
theorem State.load_store_apart (s : State) {a n lo : Nat} {b : List Byte} (h : apart a n lo b.length = true) :
    (s.store lo b).load a n = s.load a n := by
  have hapart : a + n ≤ lo ∨ lo + b.length ≤ a := of_decide_eq_true h
  unfold State.store State.load
  by_cases hlo : lo < hostWindow
  · by_cases ha : a < hostWindow
    · simpa only [if_pos hlo, if_pos ha] using Memory.readN_writeN_outside _ _ _ hapart
    · simp only [if_pos hlo, if_neg ha]
  · by_cases ha : a < hostWindow
    · simp only [if_neg hlo, if_pos ha]
    · simpa only [if_neg hlo, if_neg ha] using Memory.readN_writeN_outside _ _ _ (by omega)

/-! ## Rings after starts and completions -/

/-- A record that falls due adds at most to what its ring owes. -/
theorem State.fallDue_ring (s : State) (r : Record) (n : Nat) : ∃ d, (s.fallDue r).ring n = { s.ring n with due := d } := by
  unfold State.fallDue
  extract_lets q
  split
  · exact ⟨(s.ring n).due, rfl⟩
  by_cases hn : n = r.ring
  · subst hn
    exact ⟨_, State.ring_setRing_same _ _ _⟩
  · exact ⟨(s.ring n).due, State.ring_setRing_ne s _ hn⟩

@[simp] theorem State.fallDue_staged (s : State) (r : Record) (n : Nat) : ((s.fallDue r).ring n).staged = (s.ring n).staged := by
  obtain ⟨d, h⟩ := s.fallDue_ring r n
  rw [h]

@[simp] theorem State.complete_staged (s : State) (p : Packet) (st : Status) (detail position total n : Nat) :
    ((s.complete p st detail position total).ring n).staged = (s.ring n).staged := by
  rw [State.complete, State.fallDue_staged, State.ring_congr (s := s) (by simp)]

/-- A packet that leaves the waiting packets leaves the rest of every ring alone. -/
theorem State.unstage_ring_same (s : State) (p : Packet) :
    (s.unstage p).ring p.ring = { s.ring p.ring with staged := (s.ring p.ring).staged.filter fun q => q != p } :=
  State.ring_setRing_same _ _ _

theorem State.unstage_ring_ne (s : State) (p : Packet) {n : Nat} (h : n ≠ p.ring) : (s.unstage p).ring n = s.ring n :=
  State.ring_setRing_ne s _ h

theorem State.unstage_due (s : State) (p : Packet) (n : Nat) : ((s.unstage p).ring n).due = (s.ring n).due := by
  by_cases h : n = p.ring
  · rw [h, State.unstage_ring_same]
  · rw [State.unstage_ring_ne s p h]

theorem State.mem_unstage_staged {s : State} {p q : Packet} {n : Nat} :
    q ∈ ((s.unstage p).ring n).staged ↔ q ∈ (s.ring n).staged ∧ (n = p.ring → q ≠ p) := by
  by_cases h : n = p.ring
  · simp [h, State.unstage_ring_same]
  · simp [h, State.unstage_ring_ne s p h]

theorem State.entered_ring (s : State) (c : Command) (p : Packet) (n : Nat) : (s.entered c p).ring n = (s.unstage p).ring n :=
  State.ring_congr (by simp [State.entered]) n

/-! ## Records that fall due -/

/-- The record of a packet depends on the clock and the jobs alone. -/
theorem State.recordOf_congr {s t : State} (hj : t.job = s.job) (hc : t.clk = s.clk) (p : Packet) (st : Status) (detail : Nat) :
    t.recordOf p st detail = s.recordOf p st detail := by
  simp [State.recordOf, State.findJob, hj, hc]

theorem State.recordOf_ne (s : State) (p q : Packet) {st st' : Status} (detail detail' : Nat) (h : st ≠ st') :
    s.recordOf p st detail ≠ s.recordOf q st' detail' :=
  fun he => h (congrArg Record.status he)

theorem State.fallDue_dues_ne (s : State) {r r' : Record} (h : r' ≠ r) : (s.fallDue r).dues r' = s.dues r' := by
  unfold State.fallDue
  extract_lets q
  have hcount : [r].count r' = 0 := List.count_eq_zero_of_not_mem (by simpa using h)
  split
  · have hring : State.ring { s with held := s.held ++ [r] } r'.ring = s.ring r'.ring := rfl
    simp only [State.dues, hring, List.count_append, hcount, Nat.add_zero]
  by_cases hn : r'.ring = r.ring
  · simp [State.dues, hn, hcount, q]
  · simp [State.dues, State.ring_setRing_ne s _ hn]

@[simp] theorem State.countStatus_dues (s : State) (st : Status) (r : Record) : (s.countStatus st).dues r = s.dues r :=
  State.dues_congr (by simp) (fun n => by rw [State.ring_congr (s := s) (by simp)]) r

@[simp] theorem State.closeEntry_dues (s : State) (p : Packet) (st : Status) (position total : Nat) (r : Record) :
    (s.closeEntry p st position total).dues r = s.dues r :=
  State.dues_congr (by simp) (fun n => by rw [State.ring_congr (s := s) (by simp)]) r

@[simp] theorem State.store_dues (s : State) (a : Nat) (b : List Byte) (r : Record) : (s.store a b).dues r = s.dues r :=
  State.dues_congr (by simp) (fun n => by rw [State.ring_congr (s := s) (by simp)]) r

theorem State.unstage_dues (s : State) (p : Packet) (r : Record) : (s.unstage p).dues r = s.dues r :=
  State.dues_congr (t := s.unstage p) (s := s) rfl (s.unstage_due p) r

theorem State.complete_dues_same (s : State) (p : Packet) (st : Status) (detail position total : Nat) :
    (s.complete p st detail position total).dues (s.recordOf p st detail) = s.dues (s.recordOf p st detail) + 1 :=
  eq_of_beq (State.complete_owes p st detail position total rfl rfl fun _ => rfl)

/-- A packet's completion leaves the records of other completions as they are. -/
theorem State.complete_dues_ne (s : State) {p : Packet} {st : Status} {detail : Nat} (position total : Nat) {r : Record}
    (h : r ≠ s.recordOf p st detail) : (s.complete p st detail position total).dues r = s.dues r := by
  rw [State.complete, State.fallDue_dues_ne _ h, State.countStatus_dues, State.closeEntry_dues]

/-! ## Heads of known opcode need no settling (R84) -/

theorem State.headsKnown_iff (s : State) :
    s.headsKnown = true ↔ ∀ n < 16, ∀ p ∈ (s.ring n).staged, knownOpcode p.opcode = true := by
  simp [State.headsKnown]

theorem State.headsKnown_of_subset {s t : State} (h : s.headsKnown = true)
    (hsub : ∀ n, (t.ring n).staged ⊆ (s.ring n).staged) : t.headsKnown = true := by
  rw [State.headsKnown_iff] at h ⊢
  exact fun n hn p hp => h n hn p (hsub n hp)

theorem State.refuseUnknown_of_known {s : State} {n : Nat} (h : ∀ p ∈ (s.ring n).staged, knownOpcode p.opcode = true)
    (k : Nat) : s.refuseUnknown n k = s := by
  cases k with
  | zero => rfl
  | succ k =>
    unfold State.refuseUnknown
    split
    · rfl
    next p hp => rw [if_pos (by simp [h p (List.mem_of_head? hp)])]

theorem State.settle_of_headsKnown {s : State} (h : s.headsKnown = true) : s.settle = s := by
  have hfold (l : List Nat) (hl : ∀ n ∈ l, n < 16) :
      l.foldl (fun t n => t.refuseUnknown n (t.ring n).staged.length) s = s := by
    induction l with
    | nil => rfl
    | cons n l ih =>
      rw [List.foldl_cons, State.refuseUnknown_of_known (s.headsKnown_iff.mp h n (hl n (List.mem_cons_self ..)))]
      exact ih fun m hm => hl m (List.mem_cons_of_mem _ hm)
  exact hfold _ fun n hn => List.mem_range.mp hn

end Sys2Proof.Machine
end

section
/-! PROOFS. Refusals, NOP, consumption of packets, and the records that answer them. -/

namespace Sys2Proof.Machine

/-! ## Refusals (R84, R498, R507) -/

/-- A status counts in the two security counters at most. -/
theorem State.reg_countStatus_ne (s : State) (st : Status) {o : Nat} (hk : o ≠ Reg.secKeyRefused)
    (hp : o ≠ Reg.secProtRefused) : (s.countStatus st).reg o = s.reg o := by
  unfold State.countStatus
  split
  · exact s.reg_bump_ne 1 hk
  split
  · exact s.reg_bump_ne 1 hp
  · rfl

/-- The state in which a packet has left its ring and is counted as refused. -/
def State.countedRefused (s : State) (p : Packet) : State :=
  (s.unstage p).setRing p.ring
    { (s.unstage p).ring p.ring with refused := satAdd ((s.unstage p).ring p.ring).refused 1 }

theorem State.refuse_unstage (s : State) (p : Packet) (f : Fail) :
    (s.unstage p).refuse p f = ((s.countedRefused p).countStatus f.code).fallDue (s.recordOf p f.code f.detail) := rfl

@[simp] theorem State.countedRefused_regs (s : State) (p : Packet) : (s.countedRefused p).regs = s.regs := rfl

theorem State.countedRefused_ring_same (s : State) (p : Packet) :
    (s.countedRefused p).ring p.ring = { s.ring p.ring with
      staged := (s.ring p.ring).staged.filter fun q => q != p, refused := satAdd (s.ring p.ring).refused 1 } := by
  rw [State.countedRefused, State.ring_setRing_same, State.unstage_ring_same]

theorem State.countedRefused_dues (s : State) (p : Packet) (r : Record) : (s.countedRefused p).dues r = s.dues r := by
  refine State.dues_congr (by simp [State.countedRefused]) (fun n => ?_) r
  by_cases hn : n = p.ring
  · rw [hn, State.countedRefused_ring_same]
  · rw [State.countedRefused, State.ring_setRing_ne _ _ hn, State.unstage_ring_ne s p hn]

/-- A refused packet leaves its ring, is counted there, and owes its record (R84). -/
theorem State.refuse_unstage_ring (s : State) (p : Packet) (f : Fail) :
    (((s.unstage p).refuse p f).ring p.ring).refused = satAdd (s.ring p.ring).refused 1 ∧
      (((s.unstage p).refuse p f).ring p.ring).staged = (s.ring p.ring).staged.filter fun q => q != p := by
  obtain ⟨d, hd⟩ := ((s.countedRefused p).countStatus f.code).fallDue_ring (s.recordOf p f.code f.detail) p.ring
  rw [State.refuse_unstage, hd, State.ring_congr (s := s.countedRefused p) (by simp), State.countedRefused_ring_same]
  exact ⟨rfl, rfl⟩

theorem State.refuse_unstage_owes (s : State) (p : Packet) (f : Fail) :
    ((s.unstage p).refuse p f).owes s p f.code f.detail = true := by
  simp [State.owes, State.refuse_unstage, State.fallDue_dues, State.countedRefused_dues]

/-- Settles O6: a refusal takes the packet from its ring, counts it there, and lets its record fall due. -/
theorem refusalChangesNothing : Obligations.RefusalChangesNothing := by
  intro i p c f s hrow hcode hmay hready hfail
  have hstart : c.start p s = (s.unstage p).refuse p f := by
    rw [Command.start_run c p s hcode hmay hready, Command.run_refuse c p s hfail]
  obtain ⟨hrefused, hstaged⟩ := s.refuse_unstage_ring p f
  have hreg (o : Nat) (hk : o ≠ Reg.secKeyRefused) (hp : o ≠ Reg.secProtRefused) :
      ((s.unstage p).refuse p f).reg o = s.reg o := by
    have h := (s.countedRefused p).reg_countStatus_ne f.code hk hp
    simpa [State.reg, State.refuse_unstage] using h
  refine ⟨_, (exec_packetRow hrow s).trans (congrArg _ hstart), s.refuse_unstage_owes p f, hrefused, hstaged, hreg, ?frame⟩
  case frame => simp

/-! ## NOP (R94) -/

/-- Settles O7: the effect of NOP is its completion with OK. -/
theorem nopChangesNothing : Obligations.NopChangesNothing := by
  refine ⟨rfl, fun n => beq_iff_eq, fun p s h => ?_⟩
  refine ⟨_, congrArg Host.Outcome.next (Command.start_accepts h), ?owes, ?frame⟩
  case owes =>
    exact State.complete_owes p _ 0 0 0 (s.entered_job nopCommand p) (s.entered_clk nopCommand p) (s.entered_dues nopCommand p)
  case frame => exact State.bookkept_trans (s.entered_bookkept nopCommand p) (State.complete_bookkept State.countStatus_ok)

/-! ## PACKET_CONSUMED (R75, R78, R79) -/

/-- A host access that reaches the device is carried out (R484, R570). -/
theorem State.hostAccess_open {s : State} {tee : Bool} (hopen : s.mmioOpen = true) (htee : s.teeBlocked tee = false)
    (f : State → State) : s.hostAccess tee f = f s := by
  simp [State.hostAccess, hopen, htee]

theorem State.consume_ring_ne (s : State) {n m : Nat} (h : m ≠ n) : (s.consume n).ring m = s.ring m :=
  State.ring_setRing_ne s _ h

theorem State.consume_ring_same (s : State) (n : Nat) :
    (s.consume n).ring n =
      let r := s.ring n
      let len := leField (s.slotBytes n r.head) 4 1 % 64
      { r with
        head := (r.head + 1 + len) % 256, phase := if 256 ≤ r.head + 1 + len then !r.phase else r.phase, seq := r.seq + 1,
        staged := r.staged ++ [⟨n, r.seq, r.era, s.slotsFrom n r.head (1 + len)⟩] } :=
  State.ring_setRing_same _ _ _

/-- A consumed packet of known opcode leaves no unknown one at any head. -/
theorem State.consume_headsKnown {s : State} {n : Nat} (h : s.headsKnown = true)
    (hnew : knownOpcode
      (leField (s.slotsFrom n (s.ring n).head (1 + leField (s.slotBytes n (s.ring n).head) 4 1 % 64)) 0 2) = true) :
    (s.consume n).headsKnown = true := by
  rw [State.headsKnown_iff] at h ⊢
  intro m hm p hp
  by_cases hmn : m = n
  · subst hmn
    rw [State.consume_ring_same] at hp
    rcases List.mem_append.mp hp with hold | hlast
    · exact h m hm p hold
    · rw [List.mem_singleton.mp hlast]
      exact hnew
  · rw [State.consume_ring_ne s hmn] at hp
    exact h m hm p hp

/-- A store that reaches ring memory is followed by the look at the consume position (R78). -/
theorem exec_packetConsumed {ring : Nat} {stores hostStores : List (Nat × Byte)} {tee : Bool} {s : State} (hring : ring < 16)
    (hopen : s.mmioOpen = true) (htee : s.teeBlocked tee = false) (hactive : (s.ring ring).state = .active) :
    let s1 := (s.storeHost hostStores).storeBar2 ring stores
    exec (.packetConsumed ring stores hostStores tee) s =
      .next (if s1.headerThere ring then (s1.consume ring).settle else s1) := by
  have hstate : (((s.storeHost hostStores).storeBar2 ring stores).ring ring).state = .active := hactive
  have h16 : ¬ 16 ≤ ring := by omega
  simp only [exec, execPacketConsumed, State.hostAccess_open (s := s.storeHost hostStores) hopen htee, h16, if_false, hstate,
    beq_self_eq_true, Bool.true_and]

/-- Settles O15: the look at the consume position copies a packet whose slot shows the expected phase. -/
theorem consumeByPhase : Obligations.ConsumeByPhase := by
  intro ring stores hostStores tee s hring hopen htee hactive hknown s1 r len
  have hexec := exec_packetConsumed (stores := stores) (hostStores := hostStores) hring hopen htee hactive
  refine ⟨fun hno => by rw [hexec, if_neg (Bool.eq_false_iff.mp hno)], fun hhead hnew => ?_⟩
  have hsettle : (s1.consume ring).settle = s1.consume ring :=
    State.settle_of_headsKnown (State.consume_headsKnown (s := s1) hknown hnew)
  refine ⟨s1.consume ring, by rw [hexec, if_pos hhead, hsettle], s1.consume_ring_same ring, fun n hn => s1.consume_ring_ne hn,
    rfl, rfl, rfl, rfl, rfl, rfl⟩

/-! ## STATUS_RECORD_WRITE (R86 to R88) -/

theorem Record.bytes_length (r : Record) (phase : Bool) : (r.bytes phase).length = 32 := rfl

/-- A written record is counted by the ring of its packet, which keeps all else (R79). -/
theorem State.retire_ring (s : State) (r : Record) (n : Nat) :
    ∃ a w, (s.retire r).ring n = { s.ring n with retired := a, written := w } := by
  unfold State.retire
  extract_lets h w
  split
  · by_cases hn : n = r.home
    · subst hn
      exact ⟨_, _, State.ring_setRing_same _ _ _⟩
    · exact ⟨(s.ring n).retired, (s.ring n).written, State.ring_setRing_ne s _ hn⟩
  · exact ⟨(s.ring n).retired, (s.ring n).written, rfl⟩

/-- Interrupt moderation restarts a ring's count and timer and keeps all else (R90). -/
theorem State.moderate_ring (s : State) (m n : Nat) (now : Bool) :
    ∃ a b, (s.moderate m now).ring n = { s.ring n with irqCount := a, irqSince := b } := by
  unfold State.moderate
  extract_lets r due old
  split
  · rw [State.ring_congr (State.raise_rings _ _)]
    by_cases hn : n = m
    · subst hn
      exact ⟨_, _, State.ring_setRing_same _ _ _⟩
    · exact ⟨(s.ring n).irqCount, (s.ring n).irqSince, State.ring_setRing_ne s _ hn⟩
  · exact ⟨(s.ring n).irqCount, (s.ring n).irqSince, rfl⟩

/-- The state in which a record stands at the tail of its completion ring, where host memory reaches (R86 to R88). -/
def State.recordStored (s : State) (n : Nat) (r : Record) : State :=
  let q := s.ring n
  (s.store (hostWindow + (q.baseInForce + 32 * q.cqTail)) (r.bytes q.cqPhase)).setRing n { q with
    due := q.due.drop 1
    cqTail := if q.entries ≤ q.cqTail + 1 then 0 else q.cqTail + 1
    cqPhase := if q.entries ≤ q.cqTail + 1 then !q.cqPhase else q.cqPhase
    irqCount := if r.noIrq then q.irqCount else q.irqCount + 1
    irqSince := if r.noIrq then q.irqSince else some (q.irqSince.getD s.clk) }

theorem State.writeRecord_eq {s : State} {n : Nat} (r : Record)
    (h : (s.ring n).baseInForce + 32 * (s.ring n).cqTail + 32 ≤ 2 ^ 47) :
    s.writeRecord n r = ((s.recordStored n r).retire r).moderate n r.irqNow := by
  have hclk : (s.store (hostWindow + ((s.ring n).baseInForce + 32 * (s.ring n).cqTail)) (r.bytes (s.ring n).cqPhase)).clk = s.clk :=
    State.store_clk _ _ _
  simp only [State.writeRecord, State.recordStored, if_pos h, hclk, decide_eq_true_eq]

/-- After a record is written only host memory, the ring it stands in, the ring of its packet and interrupts differ. -/
theorem State.writeRecord_frame {s : State} {n : Nat} (r : Record)
    (h : (s.ring n).baseInForce + 32 * (s.ring n).cqTail + 32 ≤ 2 ^ 47) :
    ∃ rs pb iq, s.writeRecord n r = { s with
      host := Memory.writeN s.host ((s.ring n).baseInForce + 32 * (s.ring n).cqTail) (r.bytes (s.ring n).cqPhase),
      rings := rs, pba := pb, irqs := iq } := by
  rw [State.writeRecord_eq r h, State.moderate_frame, State.retire_frame, State.recordStored, State.store_window]
  exact ⟨_, _, _, rfl⟩

/-- After a record is written every ring keeps its waiting packets, and the ring it stands in has moved on (R79, R88, R90). -/
theorem State.writeRecord_ring {s : State} {n : Nat} (r : Record)
    (h : (s.ring n).baseInForce + 32 * (s.ring n).cqTail + 32 ≤ 2 ^ 47) (m : Nat) :
    ∃ a w c i, (s.writeRecord n r).ring m = { (s.recordStored n r).ring m with
      retired := a, written := w, irqCount := c, irqSince := i } := by
  obtain ⟨a, w, hret⟩ := (s.recordStored n r).retire_ring r m
  obtain ⟨c, i, hmod⟩ := ((s.recordStored n r).retire r).moderate_ring n m r.irqNow
  exact ⟨a, w, c, i, by rw [State.writeRecord_eq r h, hmod, hret]⟩

theorem State.recordStored_staged (s : State) (n m : Nat) (r : Record) :
    ((s.recordStored n r).ring m).staged = (s.ring m).staged := by
  by_cases hm : m = n
  · subst hm
    rw [State.recordStored, State.ring_setRing_same]
  · rw [State.recordStored, State.ring_setRing_ne _ _ hm, State.ring_congr (s := s) (State.store_rings _ _ _)]

theorem State.writeRecord_headsKnown {s : State} {n : Nat} (r : Record)
    (h : (s.ring n).baseInForce + 32 * (s.ring n).cqTail + 32 ≤ 2 ^ 47) (hk : s.headsKnown = true) :
    (s.writeRecord n r).headsKnown = true := by
  refine State.headsKnown_of_subset hk fun m => ?_
  obtain ⟨a, w, c, i, hring⟩ := State.writeRecord_ring r h m
  rw [hring, State.recordStored_staged]
  exact List.Subset.refl _

theorem exec_statusRecordWrite {ring : Nat} (h : ring < 16) (s : State) :
    exec (.statusRecordWrite ring) s = .next (s.writeDue ring).settle :=
  congrArg Host.Outcome.next (if_neg (by omega))

/-- The oldest due record is written where nothing holds it back (R88, R481, R570). -/
theorem State.writeDue_writes {s : State} {n : Nat} {r : Record} {rest : List Record} (hdue : (s.ring n).due = r :: rest)
    (hred : (s.ring n).redirect = false) (hclear : (s.ring n).state ≠ .clearing) (hroom : (s.ring n).room = true)
    (hblock : s.recordBlocked r = false) : s.writeDue n = s.writeRecord n r := by
  simp [State.writeDue, hdue, hred, hclear, hroom, hblock]

/-- A full completion ring writes nothing (R88). -/
theorem State.writeDue_full {s : State} {n : Nat} (hred : (s.ring n).redirect = false) (hroom : (s.ring n).room = false) :
    s.writeDue n = s := by
  unfold State.writeDue
  extract_lets q
  split
  · rfl
  · simp [q, hred, hroom]

/-- Settles O16: the oldest due record is stored at the tail, and its ring moves on. -/
theorem recordWrittenAtTail : Obligations.RecordWrittenAtTail := by
  refine ⟨fun ring r rest s hring hdue hred hclear hroom hblock hreach hknown => ?written,
    fun ring s hring hred hroom hknown => ?full⟩
  case full => rw [exec_statusRecordWrite hring, State.writeDue_full hred hroom, State.settle_of_headsKnown hknown]
  case written =>
    have hexec : exec (.statusRecordWrite ring) s = .next (s.writeRecord ring r) := by
      rw [exec_statusRecordWrite hring, State.writeDue_writes hdue hred hclear hroom hblock,
        State.settle_of_headsKnown (State.writeRecord_headsKnown r hreach hknown)]
    obtain ⟨a, w, c, i, hmoved⟩ := State.writeRecord_ring r hreach ring
    rw [State.recordStored, State.ring_setRing_same] at hmoved
    obtain ⟨rs, pb, iq, hframe⟩ := State.writeRecord_frame r hreach
    refine ⟨_, hexec, ⟨?bytes, fun x hx => ?outside⟩, ?due, by rw [hmoved], by rw [hmoved], ?mem, ?held, ?running, ?regs⟩
    case bytes =>
      have hload := s.load_store_same (hostWindow + ((s.ring ring).baseInForce + 32 * (s.ring ring).cqTail))
        (r.bytes (s.ring ring).cqPhase)
      rw [State.store_window, Record.bytes_length] at hload
      rw [hframe]
      exact hload
    case outside =>
      rw [hframe]
      exact Memory.read_writeN_outside _ _ _ hx
    case due => rw [hmoved, hdue, List.drop_one, List.tail_cons]
    all_goals rw [hframe]

/-! ## CMD_CQ_HEAD_WRITE, CMD_CQ_BASE_WRITE and INTERRUPT_MODERATION_TIMEOUT (R88 to R90) -/

theorem exec_cmdCqHeadWrite {ring : Nat} {v : Word} {tee : Bool} {s : State} (hring : ring < 16) (hopen : s.mmioOpen = true)
    (htee : s.teeBlocked tee = false) :
    exec (.cmdCqHeadWrite ring v tee) s = .next (s.setRing ring { s.ring ring with cqHead := v }) := by
  have h16 : ¬ 16 ≤ ring := by omega
  simp only [exec, execCmdCqHeadWrite, State.hostAccess_open hopen htee, h16, if_false]

/-- Either half of the base is taken; a ring that is disabled sends later records to the held store (R89). -/
theorem exec_cmdCqBaseWrite {ring : Nat} {hi : Bool} {v : Word} {tee : Bool} {s : State} (hring : ring < 16)
    (hopen : s.mmioOpen = true) (htee : s.teeBlocked tee = false) :
    exec (.cmdCqBaseWrite ring hi v tee) s = .next (s.setRing ring { s.ring ring with
      cqBaseHi := if hi then v else (s.ring ring).cqBaseHi
      cqBaseLo := if hi then (s.ring ring).cqBaseLo else v
      redirect := (s.ring ring).redirect || !(s.ring ring).enabled }) := by
  have h16 : ¬ 16 ≤ ring := by omega
  simp only [exec, execCmdCqBaseWrite, State.hostAccess_open hopen htee, h16, if_false]
  cases hi <;> rfl

theorem State.raise_unmasked {s : State} {v : Nat} (h : (Tab.get 1 s.msix (16 * v + 12)).toNat % 2 = 0) :
    s.raise v = { s with irqs := s.irqs ++ [v] } :=
  if_neg (by omega)

/-- A record older than TIME restarts the ring's count and timer and raises its unmasked vector (R90). -/
theorem State.moderate_timeout {s : State} {n since : Nat} (hint : (s.ring n).intEnable = true)
    (hsince : (s.ring n).irqSince = some since) (htime : 0 < (s.ring n).time)
    (hold : since + microseconds (s.ring n).time ≤ s.clk)
    (hunmasked : (Tab.get 1 s.msix (16 * (s.ring n).vector + 12)).toNat % 2 = 0) :
    s.moderate n false =
      { s.setRing n { s.ring n with irqCount := 0, irqSince := none } with irqs := s.irqs ++ [(s.ring n).vector] } := by
  simp only [State.moderate, hint, hsince, htime, hold, decide_true, Bool.and_self, Bool.or_true, if_true]
  exact State.raise_unmasked hunmasked

/-- Settles O17: the two registers take the host's words, and a timeout raises the ring's vector. -/
theorem completionRingRegisters : Obligations.CompletionRingRegisters := by
  refine ⟨fun ring v tee s hring hopen htee => exec_cmdCqHeadWrite hring hopen htee, fun ring v tee s hring hopen htee => ?lo,
    fun ring v tee s hring hopen htee => ?hi, fun ring since s hring hint hsince htime hold hunmasked => ?timeout⟩
  case lo | hi =>
    exact ⟨_, exec_cmdCqBaseWrite hring hopen htee, State.ring_setRing_same _ _ _, fun n hn => State.ring_setRing_ne s _ hn,
      rfl, rfl, rfl⟩
  case timeout =>
    have hexec : exec (.interruptModerationTimeout ring) s = .next (s.moderate ring false) :=
      congrArg Host.Outcome.next (if_neg (by omega))
    rw [State.moderate_timeout hint hsince htime hold hunmasked] at hexec
    exact ⟨_, hexec, rfl, State.ring_setRing_same _ _ _, fun n hn => State.ring_setRing_ne s _ hn, rfl, rfl⟩

end Sys2Proof.Machine
end

section
/-! PROOFS. POWER_CAP_SET, LEDGER_READ and ABORT. -/

namespace Sys2Proof.Machine

/-! ## POWER_CAP_SET (R557) -/

/-- An accepted POWER_CAP_SET takes the cap, is noted in the ledger and joins the running commands (R557). -/
theorem powerCapSet_effect (p : Packet) (s : State) : ∃ m rg pb iq, powerCapSetCommand.effect p s = { s with
    pwr := { s.pwr with
      hostCap := p.param 0 2, keptCap := if bitOf (p.param 2 1) 0 then some (p.param 0 2) else s.pwr.keptCap }
    running := s.running ++ [⟨p, .capSet s.pwr.hostCap, s.starts, [], 0, 0, false⟩]
    mgt := m, regs := rg, pba := pb, irqs := iq } := by
  simp only [powerCapSetCommand, State.enroll]
  rw [State.logPlain_frame]
  exact ⟨_, _, _, _, rfl⟩

theorem powerCapSet_takes_cap {p : Packet} {s : State} (h : s.accepts powerCapSetCommand p = true) :
    ∃ t o, exec (.powerCapSet p) s = .next t ∧ t.running = s.running ++ [o] ∧ o.pkt = p ∧ o.kind = .capSet s.pwr.hostCap ∧
      t.pwr = { s.pwr with
        hostCap := p.param 0 2, keptCap := if bitOf (p.param 2 1) 0 then some (p.param 0 2) else s.pwr.keptCap } ∧
      t.mem = s.mem ∧ t.host = s.host ∧ t.job = s.job ∧ t.glb = s.glb ∧ t.held = s.held := by
  have hexec := Command.start_accepts h
  obtain ⟨r, pr, sh, n, he⟩ := s.entered_frame powerCapSetCommand p
  rw [he] at hexec
  obtain ⟨m, rg, pb, iq, heff⟩ :=
    powerCapSet_effect p { s with rings := r, progress := pr, shown := sh, starts := n }
  exact ⟨_, _, congrArg Host.Outcome.next (hexec.trans heff), rfl, rfl, rfl, rfl, rfl, rfl, rfl, rfl, rfl⟩

/-! ## LEDGER_READ (R522, R523) -/

/-- What a LEDGER_READ writes: its entries, and the seal where it is asked for. -/
def State.ledgerOut (s : State) (p : Packet) : List Byte :=
  (s.ledgerShown p).flatMap s.mgt.ledger.entryBytes ++ if ledgerSeal p then s.ledgerSealBytes p (s.ledgerShown p) else []

theorem ledgerRead_effect (p : Packet) (s : State) : ledgerReadCommand.effect p s =
    (s.store (p.param 16 8) (s.ledgerOut p)).complete p Status.ok (s.ledgerShown p).length 0 0 := rfl

theorem ledgerRead_writes {p : Packet} {s : State} (h : s.accepts ledgerReadCommand p = true) :
    ∃ t, exec (.ledgerRead p) s = .next t ∧ t.owes s p Status.ok (s.ledgerShown p).length = true ∧
      t.load (p.param 16 8) (s.ledgerOut p).length = s.ledgerOut p ∧
      (∀ a n, apart a n (p.param 16 8) (s.ledgerOut p).length = true → t.load a n = s.load a n) ∧
      t.mgt = s.mgt ∧ t.regs = s.regs ∧ t.running = s.running ∧ t.job = s.job := by
  have hexec := Command.start_accepts h
  have hdues := s.entered_dues ledgerReadCommand p
  obtain ⟨r, pr, sh, n, he⟩ := s.entered_frame ledgerReadCommand p
  rw [he] at hexec hdues
  generalize hu : ({ s with rings := r, progress := pr, shown := sh, starts := n } : State) = u at hexec hdues
  have hshown : u.ledgerShown p = s.ledgerShown p := by rw [← hu]; rfl
  have hout : u.ledgerOut p = s.ledgerOut p := by rw [← hu]; rfl
  rw [ledgerRead_effect, hshown, hout] at hexec
  generalize hv : u.store (p.param 16 8) (s.ledgerOut p) = v at hexec
  have hload (a n : Nat) : (v.complete p Status.ok (s.ledgerShown p).length 0 0).load a n = v.load a n :=
    State.load_congr (by simp) (by simp) a n
  have hframe : v.complete p Status.ok (s.ledgerShown p).length 0 0 = v.bookkept _ := State.complete_bookkept State.countStatus_ok
  refine ⟨_, congrArg Host.Outcome.next hexec, ?owes, ?written, fun a n hapart => ?apart, ?mgt, ?regs, ?running, ?job⟩
  case owes =>
    refine State.complete_owes p _ _ 0 0 (by simp [← hv, ← hu]) (by simp [← hv, ← hu]) fun x => ?_
    rw [← hv, State.store_dues, hdues]
  case written => rw [hload, ← hv, State.load_store_same]
  case apart => rw [hload, ← hv, State.load_store_apart u hapart, ← hu]; rfl
  all_goals
    rw [hframe]
    simp [State.bookkept, ← hv, ← hu]

/-! ## ABORT (R95) -/

/-- The packets an ABORT names: those with its handle on the rings it names (R95). -/
def abortHits (p q : Packet) : Bool := q.handle == abortHandle p && abortNames p q.ring

theorem abortHits_iff {p q : Packet} : abortHits p q = true ↔ q.handle = abortHandle p ∧ abortNames p q.ring = true := by
  simp [abortHits]

/-- The waiting packets that an ABORT names, ring by ring. -/
def State.abortNamed (s : State) (p : Packet) : List Packet :=
  (List.range 16).flatMap fun n => (s.ring n).staged.filter (abortHits p)

/-- An ABORT that names no running command takes the waiting packets it names. -/
theorem State.abortAll_of_idle {s : State} {p : Packet} (h : ∀ o ∈ s.running, ¬ abortHits p o.pkt = true) :
    s.abortAll p = ((s.abortNamed p).foldl (fun t q => t.abortStaged q) s, (s.abortNamed p).length) := by
  unfold State.abortAll
  extract_lets hit r staged
  have hnone : (s.running.filter fun o => hit o.pkt) = [] := List.filter_eq_nil_iff.mpr h
  have hr : r = (s, 0) := by simp only [r, hnone, List.reverse_nil, List.foldl_nil]
  rw [hr, Nat.zero_add]
  rfl

/-- An ABORT that names no running command completes with NO_TARGET or with the count of the waiting packets it took. -/
theorem abort_effect_of_idle {p : Packet} {s : State} (h : ∀ o ∈ s.running, ¬ abortHits p o.pkt = true) :
    abortCommand.effect p s = ((s.abortNamed p).foldl (fun t q => t.abortStaged q) s).complete p
      (if (s.abortNamed p).length = 0 then Status.noTarget else Status.ok) (s.abortNamed p).length 0 0 := by
  have heff : abortCommand.effect p s = (s.abortAll p).1.complete p
      (if (s.abortAll p).2 = 0 then Status.noTarget else Status.ok) (s.abortAll p).2 0 0 := rfl
  rw [heff, State.abortAll_of_idle h]

/-- A list in which a function gives nothing but at one place collects what it gives there. -/
theorem flatMap_eq_of_only {α : Type} {f : Nat → List α} {k : Nat} {l : List Nat} (hd : l.Nodup) (hk : k ∈ l)
    (hf : ∀ n ∈ l, n ≠ k → f n = []) : l.flatMap f = f k := by
  induction l with
  | nil => simp at hk
  | cons a l ih =>
    rw [List.nodup_cons] at hd
    have hrest : ∀ n ∈ l, n ≠ k → f n = [] := fun n hn => hf n (List.mem_cons_of_mem a hn)
    rw [List.flatMap_cons]
    by_cases ha : a = k
    · subst ha
      rw [List.flatMap_eq_nil_iff.mpr fun n hn => hrest n hn (fun e => hd.1 (e ▸ hn)), List.append_nil]
    · rw [hf a (List.mem_cons_self ..) ha, List.nil_append]
      exact ih hd.2 ((List.mem_cons.mp hk).resolve_left (Ne.symm ha)) hrest

/-- The ABORT itself is not among the waiting packets of the state it enters. -/
theorem State.entered_abortNamed_nil {s : State} {c : Command} {p : Packet}
    (hothers : ∀ n q, n < 16 → q ∈ (s.ring n).staged → q ≠ p → ¬ abortHits p q = true)
    (hhome : ∀ n, n < 16 → n ≠ p.ring → p ∉ (s.ring n).staged) : (s.entered c p).abortNamed p = [] := by
  refine List.flatMap_eq_nil_iff.mpr fun n hn => List.filter_eq_nil_iff.mpr fun q hq => ?_
  have hn : n < 16 := List.mem_range.mp hn
  rw [State.entered_ring, State.mem_unstage_staged] at hq
  obtain ⟨hmem, hleft⟩ := hq
  refine hothers n q hn hmem ?_
  by_cases hring : n = p.ring
  · exact hleft hring
  · rintro rfl
    exact hhome n hn hring hmem

/-- A packet that leaves its ring is not missed by a test it fails. -/
theorem State.unstage_staged_filter (s : State) {p : Packet} {f : Packet → Bool} (hf : f p = false) (n : Nat) :
    ((s.unstage p).ring n).staged.filter f = (s.ring n).staged.filter f := by
  by_cases hn : n = p.ring
  · subst hn
    rw [State.unstage_ring_same, List.filter_filter]
    refine List.filter_congr fun q _ => ?_
    by_cases hq : q = p
    · simp [hq, hf]
    · simp [hq]
  · rw [State.unstage_ring_ne s p hn]

/-- The single waiting packet that an ABORT names. -/
theorem State.entered_abortNamed_singleton {s : State} {c : Command} {p q : Packet} (hq : q.ring < 16)
    (hnames : abortNames p q.ring = true) (hself : p.handle ≠ abortHandle p)
    (honly : ((s.ring q.ring).staged.filter fun x => x.handle == abortHandle p) = [q])
    (hothers : ∀ n x, n < 16 → n ≠ q.ring → x ∈ (s.ring n).staged → ¬ abortHits p x = true)
    (hhome : ∀ x, x ∈ (s.ring q.ring).staged → x.ring = q.ring) : (s.entered c p).abortNamed p = [q] := by
  have hmiss : abortHits p p = false := by simp [abortHits, hself]
  have hsame (n : Nat) : ((s.entered c p).ring n).staged.filter (abortHits p) = (s.ring n).staged.filter (abortHits p) := by
    rw [State.entered_ring, s.unstage_staged_filter hmiss]
  have hring : (s.ring q.ring).staged.filter (abortHits p) = [q] := by
    rw [← honly]
    refine List.filter_congr fun x hx => ?_
    rw [abortHits, hhome x hx, hnames, Bool.and_true]
  simp only [State.abortNamed, hsame]
  rw [flatMap_eq_of_only List.nodup_range (List.mem_range.mpr hq) fun n hn hne =>
    List.filter_eq_nil_iff.mpr fun x hx => hothers n x (List.mem_range.mp hn) hne hx, hring]

/-- A packet taken by ABORT owes its record (R95). -/
theorem State.abortStaged_dues_same (s : State) (q : Packet) :
    (s.abortStaged q).dues (s.recordOf q Status.aborted 0) = s.dues (s.recordOf q Status.aborted 0) + 1 := by
  rw [State.abortStaged, State.fallDue_dues, State.unstage_dues]

theorem State.abortStaged_dues_ne (s : State) {q : Packet} {r : Record} (h : r ≠ s.recordOf q Status.aborted 0) :
    (s.abortStaged q).dues r = s.dues r := by
  rw [State.abortStaged, State.fallDue_dues_ne _ h, State.unstage_dues]

theorem State.abortStaged_recordOf (s : State) (q p : Packet) (st : Status) (detail : Nat) :
    (s.abortStaged q).recordOf p st detail = s.recordOf p st detail :=
  State.recordOf_congr (by simp [State.abortStaged]) (by simp [State.abortStaged]) p st detail

section

variable {p : Packet} {s : State} (hcode : p.opcode = abortCommand.code) (hready : s.abortReady p = true)
  (hstage : s.glb.stage = 10) (hfail : abortCommand.fail s p = none) (hknown : s.headsKnown = true)

include hcode hready hstage hfail hknown

/-- An ABORT that may start and passes its checks acts on the state it enters. Where no waiting packet is new, no head needs
settling after it. -/
theorem exec_abort {t : State} (heff : abortCommand.effect p (s.entered abortCommand p) = t)
    (hsub : ∀ n, (t.ring n).staged ⊆ ((s.entered abortCommand p).ring n).staged) : exec (.abort p) s = .next t := by
  have hsettle : t.settle = t := State.settle_of_headsKnown <| State.headsKnown_of_subset hknown fun n q hq => by
    have hq := hsub n hq
    rw [State.entered_ring] at hq
    exact (State.mem_unstage_staged.mp hq).1
  have hexec : exec (.abort p) s = .next (abortCommand.run p s).settle := by
    simp [exec, execAbort, hcode, hready, State.stageRuns, hstage]
  rw [hexec, Command.run_effect abortCommand p s hfail, heff, hsettle]

/-- An ABORT that names nothing completes with NO_TARGET and changes nothing else (R95). -/
theorem abort_noTarget (hidle : ∀ o ∈ s.running, ¬ abortHits p o.pkt = true)
    (hnamed : (s.entered abortCommand p).abortNamed p = []) :
    ∃ t, exec (.abort p) s = .next t ∧ t.owes s p Status.noTarget 0 = true ∧ t = s.bookkept t := by
  have hdues := s.entered_dues abortCommand p
  have hbook := s.entered_bookkept abortCommand p
  have hexec := exec_abort (t := (s.entered abortCommand p).complete p Status.noTarget 0 0 0) hcode hready hstage hfail
    hknown
  have hrunning := s.entered_running abortCommand p
  have hjob := s.entered_job abortCommand p
  have hclk := s.entered_clk abortCommand p
  generalize s.entered abortCommand p = u at *
  refine ⟨_, hexec ?effect fun n => by rw [State.complete_staged]; exact List.Subset.refl _,
    State.complete_owes p _ 0 0 0 hjob hclk hdues,
    State.bookkept_trans hbook (State.complete_bookkept State.countStatus_noTarget)⟩
  case effect => rw [abort_effect_of_idle (hrunning ▸ hidle), hnamed]; rfl

/-- An ABORT that names one waiting packet takes it from its ring, completes it with ABORTED, and completes with a count
of 1 (R95). -/
theorem abort_takes_one {q : Packet} (hidle : ∀ o ∈ s.running, ¬ abortHits p o.pkt = true)
    (hnamed : (s.entered abortCommand p).abortNamed p = [q]) :
    ∃ t, exec (.abort p) s = .next t ∧ t.owes s p Status.ok 1 = true ∧ t.owes s q Status.aborted 0 = true ∧
      ¬ q ∈ (t.ring q.ring).staged ∧ t = s.bookkept t := by
  have hdues := s.entered_dues abortCommand p
  have hbook := s.entered_bookkept abortCommand p
  have hexec := exec_abort (t := ((s.entered abortCommand p).abortStaged q).complete p Status.ok 1 0 0) hcode hready hstage hfail
    hknown
  have hrunning := s.entered_running abortCommand p
  have hjob := s.entered_job abortCommand p
  have hclk := s.entered_clk abortCommand p
  generalize s.entered abortCommand p = u at *
  have hstaged (n : Nat) : (((u.abortStaged q).complete p Status.ok 1 0 0).ring n).staged = ((u.unstage q).ring n).staged := by
    rw [State.complete_staged, State.abortStaged, State.fallDue_staged]
  refine ⟨_, hexec ?effect fun n x hx => ?subset, ?own, ?taken, ?gone, ?frame⟩
  case effect => rw [abort_effect_of_idle (hrunning ▸ hidle), hnamed]; rfl
  case subset =>
    rw [hstaged] at hx
    exact (State.mem_unstage_staged.mp hx).1
  case own =>
    have hne : u.recordOf p Status.ok 1 ≠ u.recordOf q Status.aborted 0 := u.recordOf_ne p q 1 0 (by decide)
    have hsame := (u.abortStaged q).complete_dues_same p Status.ok 1 0 0
    rw [u.abortStaged_recordOf, u.abortStaged_dues_ne hne, State.recordOf_congr hjob hclk] at hsame
    rw [State.owes, hsame, hdues, beq_self_eq_true]
  case taken =>
    have hne : u.recordOf q Status.aborted 0 ≠ (u.abortStaged q).recordOf p Status.ok 1 := by
      rw [u.abortStaged_recordOf]
      exact u.recordOf_ne q p 0 1 (by decide)
    rw [State.owes, ← State.recordOf_congr hjob hclk, State.complete_dues_ne _ _ _ hne, u.abortStaged_dues_same, hdues,
      beq_self_eq_true]
  case gone =>
    rw [hstaged, State.mem_unstage_staged]
    exact fun h => h.2 rfl rfl
  case frame =>
    have htaken : u.abortStaged q = u.bookkept (u.abortStaged q) :=
      State.bookkept_trans (u.unstage_bookkept q) (State.fallDue_bookkept _ _)
    exact State.bookkept_trans hbook (State.bookkept_trans htaken (State.complete_bookkept State.countStatus_ok))

end

/-- Settles O54: POWER_CAP_SET and LEDGER_READ take effect, and ABORT takes the one waiting packet it names, or none. That a
packet aborted before its start ends with position 0 is the model's choice (log entry 8). -/
theorem managementAndAbort : Obligations.ManagementAndAbort := by
  refine ⟨⟨fun p s h => powerCapSet_takes_cap h, fun p s h => ledgerRead_writes h⟩,
    fun p s hcode hready hstage hfail hknown hidle hothers hhome => ?none,
    fun p q s hcode hready hstage hfail hknown _ hq _ hidle _ hnames hself honly hothers hhome => ?one⟩
  case none =>
    exact abort_noTarget hcode hready hstage hfail hknown (fun o ho => mt abortHits_iff.mp (hidle o ho))
      (State.entered_abortNamed_nil (fun n q hn hmem hne => mt abortHits_iff.mp (hothers n q hn hmem hne)) hhome)
  case one =>
    exact abort_takes_one hcode hready hstage hfail hknown (fun o ho => mt abortHits_iff.mp (hidle o ho))
      (State.entered_abortNamed_singleton hq hnames hself honly
        (fun n x hn hne hmem => mt abortHits_iff.mp (hothers n x hn hne hmem)) hhome)

end Sys2Proof.Machine
end

section
/-! SUPPORT. What a fault fence leaves of rings, commands, memories and jobs: work migrates off what is fenced, so a module
whose units hold no work keeps its jobs as well. -/

namespace Sys2Proof.Machine

/-- What placing a fence leaves: rings, held records, running commands, security and host bytes; module memory outside
confidential mode, where storage is cleared (R480); and, where no unit holds work that would migrate (R23), the jobs and the
clock. -/
structure State.Undisturbed (s t : State) : Prop where
  rings : t.rings = s.rings := by rfl
  held : t.held = s.held := by rfl
  running : t.running = s.running := by rfl
  sec : t.sec = s.sec := by rfl
  host : t.host = s.host := by rfl
  mem : s.confidential = false → t.mem = s.mem := by exact fun _ => rfl
  idle : s.graph.units = [] → t.graph.units = [] ∧ t.job = s.job ∧ t.clk = s.clk := by exact fun h => ⟨h, rfl, rfl⟩

namespace State.Undisturbed

theorem refl (s : State) : Undisturbed s s := {}

theorem trans {s t u : State} (h : Undisturbed s t) (k : Undisturbed t u) : Undisturbed s u where
  rings := k.rings.trans h.rings
  held := k.held.trans h.held
  running := k.running.trans h.running
  sec := k.sec.trans h.sec
  host := k.host.trans h.host
  mem hc := (k.mem ((State.confidential_congr h.sec).trans hc)).trans (h.mem hc)
  idle hu := by
    obtain ⟨ht, hjob, hclk⟩ := h.idle hu
    obtain ⟨hu, hjob', hclk'⟩ := k.idle ht
    exact ⟨hu, hjob'.trans hjob, hclk'.trans hclk⟩

theorem foldl {α : Type} (l : List α) {f : State → α → State} (hf : ∀ t x, Undisturbed t (f t x)) (s : State) :
    Undisturbed s (l.foldl f s) :=
  State.foldl_keeps (P := Undisturbed s) l f (fun t x h => h.trans (hf t x)) (refl s)

theorem dues {s t : State} (h : Undisturbed s t) (r : Record) : t.dues r = s.dues r :=
  State.dues_congr h.held (fun n => by rw [State.ring_congr h.rings n]) r

end State.Undisturbed

theorem State.Quiet.undisturbed {s t : State} (h : s.Quiet t)
    (hidle : s.graph.units = [] → t.graph.units = [] ∧ t.job = s.job ∧ t.clk = s.clk) : s.Undisturbed t where
  rings := h.rings
  held := h.held
  running := h.running
  sec := h.sec
  host := h.host
  mem _ := h.mem
  idle := hidle

theorem State.alert_undisturbed (s : State) (bit : Nat) : s.Undisturbed (s.alert bit) := by
  rw [State.alert_frame]
  exact {}

theorem State.error_undisturbed (s : State) (bit : Nat) : s.Undisturbed (s.error bit) := by
  rw [State.error_frame]
  exact {}

theorem State.log_undisturbed (s : State) (cls severity code unit : Nat) (job step : Word) (data : List Byte) :
    s.Undisturbed (s.log cls severity code unit job step data) := by
  rw [State.log_frame]
  exact {}

/-! ## Work that migrates (R23, R312) -/

/-- A unit that holds nothing gives nothing back: no task, so no job, is touched. -/
theorem State.evict_idle {s : State} (unit : Nat) (h : s.graph.units = []) :
    (s.evict unit).graph.units = [] ∧ (s.evict unit).job = s.job ∧ (s.evict unit).clk = s.clk := by
  have hnone : Tab.get [] s.graph.units unit = [] := by rw [h]; rfl
  have hdel : Tab.del s.graph.units unit = [] := by rw [h]; rfl
  simp only [State.evict, hnone, hdel, List.reverse_nil, List.foldl_nil, State.dropStripes, State.dropSample]
  split
  · exact ⟨by rw [State.bump_graph], State.bump_job _ _ _, State.bump_clk _ _ _⟩
  split
  · exact ⟨by rw [State.bump_graph], State.bump_job _ _ _, State.bump_clk _ _ _⟩
  · exact ⟨rfl, rfl, rfl⟩

theorem State.evict_undisturbed (s : State) (unit : Nat) : s.Undisturbed (s.evict unit) :=
  (s.evict_quiet unit).undisturbed (State.evict_idle unit)

/-! ## Entries that move between banks (R373) -/

/-- The parts of a state that entries moving between directory banks write: the directory, the replicas' guards, the counters and
the drawn numbers. -/
def State.moved (s t : State) : State := { s with dir := t.dir, memory := t.memory, regs := t.regs, free := t.free }

theorem State.moved_trans {s t u : State} (h : t = s.moved t) (k : u = t.moved u) : u = s.moved u := by
  rw [k, h]
  rfl

theorem State.loseEntries_moved (s : State) (b : DirBank) (die : Nat) : s.loseEntries b die = s.moved (s.loseEntries b die) := by
  unfold State.loseEntries
  split <;> rfl

theorem State.bump_moved (s : State) (off n : Nat) : s.bump off n = s.moved (s.bump off n) := by
  rw [State.bump_frame]
  rfl

theorem moveEntry_moved (r : State × Nat × Bool) (target : Nat) (e : DirEntry) :
    (moveEntry r target e).1 = r.1.moved (moveEntry r target e).1 := by
  unfold moveEntry
  extract_lets _ drawn
  split
  · rfl
  split
  · rfl
  split
  · rfl
  case h_2 _ _ _ b' _ => exact State.moved_trans rfl ((drawn.setBank target b').bump_moved Reg.dirStolen 1)

theorem moveEntries_moved (l : List DirEntry) (target : Nat) (r : State × Nat × Bool) :
    (l.foldl (fun r e => moveEntry r target e) r).1 = r.1.moved (l.foldl (fun r e => moveEntry r target e) r).1 := by
  induction l generalizing r with
  | nil => rfl
  | cons e l ih => exact State.moved_trans (moveEntry_moved r target e) (ih _)

theorem State.moveBank_moved (s : State) (n : Nat) : s.moveBank n = s.moved (s.moveBank n) := by
  unfold State.moveBank
  split
  · rfl
  split
  · rfl
  extract_lets empty
  have he : empty = s.moved empty := rfl
  split
  · exact State.moved_trans he (State.loseEntries_moved _ _ _)
  extract_lets r s' _ _ served
  have hr : s' = s.moved s' :=
    State.moved_trans (State.moved_trans he (moveEntries_moved _ _ (empty, 0, false))) (State.bump_moved _ _ _)
  have hs : served = s.moved served := State.moved_trans hr rfl
  split
  · exact State.moved_trans hs (State.loseEntries_moved _ _ _)
  · exact hs

theorem State.moveBank_undisturbed (s : State) (n : Nat) : s.Undisturbed (s.moveBank n) := by
  rw [State.moveBank_moved]
  exact {}

/-! ## Fences (R28, R29, R480) -/

theorem State.addFence_undisturbed (s : State) (f : Fence) (g : GlbState) :
    s.Undisturbed { s with integrity := { s.integrity with fences := s.integrity.fences ++ [f] }, glb := g } := {}

/-- A package fence clears nothing: what a unit held migrates, and the fence is recorded. -/
theorem State.fencePackage_undisturbed (s : State) (cause : Nat) : s.Undisturbed (s.fencePackage cause) := by
  unfold State.fencePackage
  split
  · exact .refl s
  · have he : s.Undisturbed (Fence.package.units.foldl (fun t u => t.evict u) s) := .foldl _ State.evict_undisturbed s
    dsimp only
    generalize Fence.package.units.foldl (fun t u => t.evict u) s = evicted at he ⊢
    have hf := evicted.addFence_undisturbed .package
      { evicted.glb with cause := if evicted.glb.cause = 0 then cause else evicted.glb.cause }
    have hl := fun t : State => (t.log_undisturbed 4 3 3 0xFFFF noJob noJob (leBytes 1 cause)).trans (State.alert_undisturbed _ 1)
    exact (he.trans hf).trans (hl _)

theorem State.escalate_undisturbed (s : State) : s.Undisturbed s.escalate := by
  unfold State.escalate
  split
  · exact s.fencePackage_undisturbed 4
  · exact .refl s

/-- Local stores are cleared in confidential mode alone (R480). -/
theorem State.clearLocals_undisturbed {s : State} (units : List Nat) (h : s.confidential = true) :
    s.Undisturbed (units.foldl (fun t u => t.clearLocal u) s) := by
  obtain ⟨m, hm⟩ := s.clearLocals_frame units
  rw [hm]
  exact { mem := fun hc => absurd (h.symm.trans hc) (by decide) }

theorem State.placeFence_undisturbed (s : State) (f : Fence) (unit : Nat) (data : List Byte) :
    s.Undisturbed (s.placeFence f unit data) := by
  unfold State.placeFence
  split
  · exact .refl s
  extract_lets us evicted cleared _ fenced moved logged _ marked
  have he : s.Undisturbed evicted := .foldl us State.evict_undisturbed s
  have hc : evicted.Undisturbed cleared := by
    unfold cleared
    split
    case isTrue h => exact State.clearLocals_undisturbed us h
    case isFalse => exact .refl evicted
  have hf : cleared.Undisturbed fenced := cleared.addFence_undisturbed f cleared.glb
  have hm : fenced.Undisturbed moved := .foldl _ (fun t u => t.moveBank_undisturbed (unitIndex u)) fenced
  have hl : moved.Undisturbed logged := (moved.log_undisturbed _ _ _ _ _ _ _).trans (State.alert_undisturbed _ _)
  have hk : logged.Undisturbed marked := by
    unfold marked
    split
    · exact logged.error_undisturbed 1
    · exact .trans {} (State.error_undisturbed _ 1)
    · exact .refl logged
  exact ((((he.trans hc).trans hf).trans hm).trans hl).trans (hk.trans marked.escalate_undisturbed)

end Sys2Proof.Machine
end

section
/-! SUPPORT. Fields read back from bytes that are put together of little-endian numbers (R6). -/

namespace Sys2Proof.Machine

@[simp] theorem leBytes_length (n v : Nat) : (leBytes n v).length = n := by
  induction n generalizing v with
  | zero => rfl
  | succ n ih => rw [leBytes, List.length_cons, ih]

theorem leNat_leBytes (n v : Nat) : leNat (leBytes n v) = v % 256 ^ n := by
  induction n generalizing v with
  | zero => rw [Nat.pow_zero, Nat.mod_one]; rfl
  | succ n ih =>
    rw [leBytes, leNat, ih, BitVec.toNat_ofNat, Nat.pow_succ' (m := 256)]
    exact Nat.mod_mul.symm

/-- The part of a list behind `off` bytes is the slice of its length at `off`. -/
theorem slice_middle {pre b post : List Byte} {off n : Nat} (hpre : pre.length = off) (hb : b.length = n) :
    slice (pre ++ (b ++ post)) off n = b := by
  have htake : ((pre ++ (b ++ post)).drop off).take n = b := by rw [List.drop_left' hpre, List.take_left' hb]
  rw [slice, htake, hb, Nat.sub_self, List.replicate_zero, List.append_nil]

/-- A number written at an offset is the field there (R6). -/
theorem leField_middle {pre : List Byte} {off : Nat} (n v : Nat) (post : List Byte) (hpre : pre.length = off) :
    leField (pre ++ (leBytes n v ++ post)) off n = v % 256 ^ n := by
  rw [leField, slice_middle hpre (leBytes_length n v), leNat_leBytes]

end Sys2Proof.Machine
end

section
/-! PROOFS. Fences by command, strike records, pattern sets, retirement and expiry of strikes. -/

namespace Sys2Proof.Machine

/-! ## INT_FENCE (R469) -/

theorem State.wake_of_idle {s : State} (h : s.running = []) : s.wake = s := by
  rw [State.wake, h]
  rfl

/-- The unit named is under a fault fence beside those that were; with nothing running and no work on a unit, no command wakes
and no job is touched. -/
theorem intFence_fences {p : Packet} {s : State} (h : s.accepts intFenceCommand p = true) (hrun : s.running = [])
    (hunits : s.graph.units = []) :
    ∃ t, exec (.intFence p) s = .next t ∧ t.owes s p Status.ok 0 = true ∧ t.faultFenced p.unitParam = true ∧
      (∀ u, s.faultFenced u = true → t.faultFenced u = true) ∧ (s.confidential = false → t.mem = s.mem) ∧ t.host = s.host ∧
      t.job = s.job ∧ t.running = s.running := by
  have hexec := Command.start_accepts h
  have hdues := s.entered_dues intFenceCommand p
  have hbook := s.entered_bookkept intFenceCommand p
  generalize s.entered intFenceCommand p = u at hexec hdues hbook
  have heff : intFenceCommand.effect p u = ((u.fenceUnit p.unitParam).complete p Status.ok 0 0 0).wake := rfl
  have hcovers : (u.fenceUnit p.unitParam).faultFenced p.unitParam = true :=
    u.placeFence_covers p.unitParam [] (beq_self_eq_true _)
  have hgrow : u.FencesGrow (u.fenceUnit p.unitParam) := (u.placeFence_spec _ _ _).1
  have hcalm : u.Undisturbed (u.fenceUnit p.unitParam) := u.placeFence_undisturbed _ _ _
  generalize u.fenceUnit p.unitParam = v at heff hcovers hgrow hcalm
  obtain ⟨-, hjob, hclk⟩ := hcalm.idle (by rw [hbook]; exact hunits)
  have hrunning : v.running = s.running := by rw [hcalm.running, hbook]; rfl
  have hcomplete : (v.complete p Status.ok 0 0 0).wake = v.complete p Status.ok 0 0 0 :=
    State.wake_of_idle (by rw [State.complete_running, hrunning, hrun])
  have hfenced (i : Nat) : (v.complete p Status.ok 0 0 0).faultFenced i = v.faultFenced i := by
    rw [State.faultFenced, State.complete_integrity, ← State.faultFenced]
  rw [heff, hcomplete] at hexec
  refine ⟨_, congrArg Host.Outcome.next hexec, ?owes, ?named, fun i hi => ?others, fun hc => ?mem, ?host, ?job, ?running⟩
  case owes =>
    exact State.complete_owes p _ 0 0 0 (by rw [hjob, hbook]; rfl) (by rw [hclk, hbook]; rfl)
      fun r => (hcalm.dues r).trans (hdues r)
  case named => rw [hfenced, hcovers]
  case others => rw [hfenced, hgrow.faultFenced (by rw [hbook]; exact hi)]
  case mem => rw [State.complete_mem, hcalm.mem (by rw [hbook]; exact hc), hbook]; rfl
  case host => rw [State.complete_host, hcalm.host, hbook]; rfl
  case job => rw [State.complete_job, hjob, hbook]; rfl
  case running => rw [State.complete_running, hrunning]

/-! ## INT_STRIKES_QUERY (R469) -/

/-- An accepted packet that writes bytes and completes with OK: the bytes stand where they were written, and no byte outside
them changes. -/
theorem Command.start_writes {c : Command} {p : Packet} {s : State} {lo detail : Nat} {b : List Byte}
    (h : s.accepts c p = true)
    (heff : c.effect p (s.entered c p) = ((s.entered c p).store lo b).complete p Status.ok detail 0 0) :
    (c.start p s).owes s p Status.ok detail = true ∧ (c.start p s).load lo b.length = b ∧
      (∀ a n, apart a n lo b.length = true → (c.start p s).load a n = s.load a n) ∧
      (c.start p s).integrity = s.integrity ∧ (c.start p s).regs = s.regs ∧ (c.start p s).running = s.running ∧
      (c.start p s).job = s.job := by
  have hdues := s.entered_dues c p
  have hbook := s.entered_bookkept c p
  rw [Command.start_accepts h, heff]
  generalize s.entered c p = u at hdues hbook
  have hload (a n : Nat) : ((u.store lo b).complete p Status.ok detail 0 0).load a n = (u.store lo b).load a n :=
    State.load_congr (State.complete_mem _ _ _ _ _ _) (State.complete_host _ _ _ _ _ _) a n
  have hframe : (u.store lo b).complete p Status.ok detail 0 0 = (u.store lo b).bookkept _ :=
    State.complete_bookkept State.countStatus_ok
  refine ⟨?owes, ?written, fun a n hapart => ?apart, ?integrity, ?regs, ?running, ?job⟩
  case owes =>
    refine State.complete_owes p _ _ 0 0 (by rw [State.store_job, hbook]; rfl) (by rw [State.store_clk, hbook]; rfl) fun r => ?_
    rw [State.store_dues, hdues]
  case written => rw [hload, State.load_store_same]
  case apart => rw [hload, State.load_store_apart u hapart, hbook]; rfl
  all_goals
    rw [hframe]
    simp only [State.bookkept, State.store_integrity, State.store_regs, State.store_running, State.store_job]
    rw [hbook]
    rfl

theorem State.strikeRecord_length (s : State) (u : Nat) : (s.strikeRecord u).length = 16 := by
  simp only [State.strikeRecord, List.length_append, leBytes_length]

theorem State.strikeRecords_length (s : State) (units : List Nat) : (units.flatMap s.strikeRecord).length = 16 * units.length := by
  induction units with
  | nil => rfl
  | cons u units ih =>
    rw [List.flatMap_cons, List.length_append, List.length_cons, ih, State.strikeRecord_length]
    omega

/-- A header of 64 bytes, and 16 bytes for each unit shown. -/
theorem State.strikeReport_length (s : State) (max_ : Nat) :
    (s.strikeReport max_).length = 64 + 16 * min max_ s.struckUnits.length := by
  simp only [State.strikeReport, List.length_append, leBytes_length, State.strikeRecords_length, List.length_take]

theorem State.strikeReport_clock (s : State) (max_ : Nat) :
    leField (s.strikeReport max_) 0 8 = s.integrity.clock % 2 ^ 64 := by
  simp only [State.strikeReport, List.append_assoc]
  exact leField_middle (pre := []) 8 _ _ rfl

theorem State.strikeReport_count (s : State) (max_ : Nat) :
    leField (s.strikeReport max_) 8 4 = s.struckUnits.length % 2 ^ 32 := by
  simp only [State.strikeReport, List.append_assoc]
  exact leField_middle 4 _ _ (leBytes_length 8 _)

/-- Starting a packet changes nothing that the report shows. -/
theorem intStrikesQuery_effect (p : Packet) (s : State) {u : State} (h : u = s.bookkept u) :
    intStrikesQueryCommand.effect p u =
      (u.store (p.param 0 8) (s.strikeReport (p.param 8 4))).complete p Status.ok
        (min (p.param 8 4) s.struckUnits.length) 0 0 := by
  have hreport : u.strikeReport (p.param 8 4) = s.strikeReport (p.param 8 4) := by rw [h]; rfl
  have hunits : u.struckUnits = s.struckUnits := by rw [h]; rfl
  rw [← hreport, ← hunits]
  rfl

/-! ## PATTERN_SET_STAGE (R468, R469) -/

/-- A verified set goes to the inactive half, which becomes the active one, under the version of its header. -/
def IntState.adopt (i : IntState) (b : List Byte) : IntState :=
  if i.patternHalf = 0 then { i with patterns1 := b, patternHalf := 1, patternVersion := BitVec.ofNat 32 (leField b 8 4) }
  else { i with patterns0 := b, patternHalf := 0, patternVersion := BitVec.ofNat 32 (leField b 8 4) }

theorem State.adoptPatterns_frame (s : State) (b : List Byte) : ∃ m rg pb iq,
    s.adoptPatterns b = { s with integrity := s.integrity.adopt b, mgt := m, regs := rg, pba := pb, irqs := iq } := by
  unfold State.adoptPatterns
  rw [State.logPlain_frame]
  exact ⟨_, _, _, _, rfl⟩

/-- Whichever half is active, the adopted set is active afterwards; tests and strikes stay. -/
theorem IntState.adopt_spec (i : IntState) (b : List Byte) :
    (if (i.adopt b).patternHalf = 0 then (i.adopt b).patterns0 else (i.adopt b).patterns1) = b ∧
      (i.adopt b).patternVersion = BitVec.ofNat 32 (leField b 8 4) ∧ (i.adopt b).testing = i.testing ∧
      (i.adopt b).strikes = i.strikes := by
  unfold IntState.adopt
  split <;> exact ⟨rfl, rfl, rfl, rfl⟩

theorem patternSetStage_adopts {p : Packet} {s : State} (h : s.accepts patternSetStageCommand p = true)
    (hclean : s.poisonedIn [p.patternRange] = none) :
    ∃ t, exec (.patternSetStage p) s = .next t ∧ t.owes s p Status.ok 0 = true ∧ t.patterns = s.patternImage p ∧
      t.integrity.patternVersion = BitVec.ofNat 32 (leField (s.patternImage p) 8 4) ∧
      t.integrity.testing = s.integrity.testing ∧ t.integrity.strikes = s.integrity.strikes ∧ t.mem = s.mem ∧ t.host = s.host ∧
      t.running = s.running ∧ t.job = s.job := by
  have hexec := Command.start_accepts h
  have hdues := s.entered_dues patternSetStageCommand p
  have hbook := s.entered_bookkept patternSetStageCommand p
  generalize s.entered patternSetStageCommand p = u at hexec hdues hbook
  have hread : u.poisonedIn [p.patternRange] = none := by rw [hbook]; exact hclean
  have himage : u.patternImage p = s.patternImage p := by rw [hbook]; rfl
  have heff : patternSetStageCommand.effect p u = (u.adoptPatterns (s.patternImage p)).complete p Status.ok 0 0 0 := by
    simp only [patternSetStageCommand, State.orPoisoned, hread, himage]
  obtain ⟨m, rg, pb, iq, hadopt⟩ := u.adoptPatterns_frame (s.patternImage p)
  obtain ⟨hactive, hversion, htesting, hstrikes⟩ := s.integrity.adopt_spec (s.patternImage p)
  rw [heff, hadopt] at hexec
  generalize hv : ({ u with integrity := _, mgt := _, regs := _, pba := _, irqs := _ } : State) = v at hexec
  have hframe : v.complete p Status.ok 0 0 0 = v.bookkept _ := State.complete_bookkept State.countStatus_ok
  refine ⟨_, congrArg Host.Outcome.next hexec, ?owes, ?_⟩
  case owes =>
    refine State.complete_owes p _ 0 0 0 ?_ ?_ fun r => ?_
    · rw [← hv, hbook]; rfl
    · rw [← hv, hbook]; rfl
    · rw [← hdues, ← hv]; rfl
  rw [hframe, ← hv, hbook]
  exact ⟨hactive, hversion, htesting, hstrikes, rfl, rfl, rfl, rfl⟩

/-! ## PAGE_RETIREMENT (R130) -/

/-- The ledger entry of a retirement, and that of a pool's last free unit. -/
theorem State.logTwice_frame (s : State) (c : Prop) [Decidable c] (data : List Byte) :
    ∃ m rg pb iq, (if c then (s.log 4 1 6 0xFFFF noJob noJob data).log 4 2 7 0xFFFF noJob noJob data
      else s.log 4 1 6 0xFFFF noJob noJob data) = { s with mgt := m, regs := rg, pba := pb, irqs := iq } := by
  split
  · rw [State.log_frame, State.log_frame]
    exact ⟨_, _, _, _, rfl⟩
  · rw [State.log_frame]
    exact ⟨_, _, _, _, rfl⟩

/-- What has its third live strike and is in no pool is remapped (R130). -/
theorem exec_pageRetirement_struck {granule : Bool} {addr : Nat} {poison : List Nat} {s : State}
    (hlive : 3 ≤ s.liveOn (if granule then .granule addr else .page addr))
    (hnew : (s.memory.pool0.pages ++ s.memory.pool1.pages ++ s.memory.pool0.granules ++ s.memory.pool1.granules).contains addr =
      false) : exec (.pageRetirement granule addr poison) s = .next (s.retire' granule addr poison) := by
  have hgo : ¬ (s.liveOn (if granule then .granule addr else .page addr) < 3 ∨ false = true) :=
    not_or.mpr ⟨Nat.not_lt.mpr hlive, Bool.false_ne_true⟩
  simp only [exec, execPageRetirement, hnew, hgo, if_false]

theorem pageRetirement_page0 {addr : Nat} {poison : List Nat} {s : State} (hlive : 3 ≤ s.liveOn (.page addr))
    (hroom : s.memory.pool0.pages.length < 32768) (haddr : addr < 0x006000000000)
    (hnew : (s.memory.pool0.pages ++ s.memory.pool1.pages ++ s.memory.pool0.granules ++ s.memory.pool1.granules).contains addr =
      false) :
    ∃ t, exec (.pageRetirement false addr poison) s = .next t ∧ t.memory.pool0.pages = s.memory.pool0.pages ++ [addr] ∧
      t.memory.pool1 = s.memory.pool1 ∧ t.integrity = s.integrity ∧ t.mem = s.mem ∧ t.running = s.running := by
  refine ⟨_, exec_pageRetirement_struck hlive hnew, ?_⟩
  have hfree : ¬ 32768 ≤ s.memory.pool0.pages.length := by omega
  simp only [State.retire', haddr, hfree, Bool.false_eq_true, if_true, if_false]
  obtain ⟨m, rg, pb, iq, h⟩ := State.logTwice_frame _ (s.memory.pool0.pages.length + 1 = 32768) (leBytes 8 addr)
  rw [h]
  exact ⟨rfl, rfl, rfl, rfl, rfl⟩

theorem pageRetirement_granule1 {addr : Nat} {poison : List Nat} {s : State} (hlive : 3 ≤ s.liveOn (.granule addr))
    (hroom : s.memory.pool1.granules.length < 32) (haddr : 0x010008000000 ≤ addr)
    (hnew : (s.memory.pool0.pages ++ s.memory.pool1.pages ++ s.memory.pool0.granules ++ s.memory.pool1.granules).contains addr =
      false) :
    ∃ t, exec (.pageRetirement true addr poison) s = .next t ∧ t.memory.pool1.granules = s.memory.pool1.granules ++ [addr] ∧
      t.memory.pool0 = s.memory.pool0 ∧ t.integrity = s.integrity ∧ t.mem = s.mem ∧ t.running = s.running := by
  refine ⟨_, exec_pageRetirement_struck hlive hnew, ?_⟩
  have hdie : ¬ addr < 0x010008000000 := by omega
  have hfree : ¬ 32 ≤ s.memory.pool1.granules.length := by omega
  simp only [State.retire', hdie, hfree, Nat.one_ne_zero, if_true, if_false]
  obtain ⟨m, rg, pb, iq, h⟩ := State.logTwice_frame _ (s.memory.pool1.granules.length + 1 = 32) (leBytes 8 addr)
  rw [h]
  exact ⟨rfl, rfl, rfl, rfl, rfl⟩

/-! ## STRIKE_EXPIRY (R451, R454) -/

/-- The state without the strikes that are no longer live. -/
def State.withLiveStrikes (s : State) : State :=
  { s with integrity := { s.integrity with strikes := s.integrity.strikes.filter s.strikeLive } }

/-- Where every strike is live nothing changes; otherwise the strikes that are not go, and remedies follow in the graph block. -/
theorem exec_strikeExpiry (s : State) : ∃ g, exec .strikeExpiry s = .next { s.withLiveStrikes with graph := g } := by
  have hexec : exec .strikeExpiry s =
      .next (if (s.integrity.strikes.filter s.strikeLive).length = s.integrity.strikes.length then s
        else s.withLiveStrikes.remedies) := rfl
  rw [hexec]
  split
  case isTrue h =>
    have hall : s.integrity.strikes.filter s.strikeLive = s.integrity.strikes :=
      List.filter_eq_self.mpr (List.length_filter_eq_length_iff.mp h)
    exact ⟨s.graph, by rw [State.withLiveStrikes, hall]⟩
  case isFalse =>
    obtain ⟨g, hg⟩ := s.withLiveStrikes.remedyArrays_frame _
    exact ⟨g, congrArg Host.Outcome.next hg⟩

/-- Settles O48: a command's fence stands beside the others, the report stands at dest, the verified set is the active one, the
third live strike retires a page or granule, and only live strikes stay. That a unit under any fence counts as fenced for
INT_FENCE is the model's choice (log entry 81), as are the layout of a pattern set (74) and the check of its faults (79). -/
theorem fencesStrikesAndRetirement : Obligations.FencesStrikesAndRetirement := by
  refine ⟨⟨fun p s h hrun hunits => intFence_fences h hrun hunits, fun p s h => ?query,
    fun p s h hclean => patternSetStage_adopts h hclean⟩,
    fun addr poison s hlive hroom haddr hnew => pageRetirement_page0 hlive hroom haddr hnew,
    fun addr poison s hlive hroom haddr hnew => pageRetirement_granule1 hlive hroom haddr hnew, fun s => ?expiry⟩
  case query =>
    obtain ⟨howes, hload, hapart, hkept⟩ := Command.start_writes h (intStrikesQuery_effect p s (s.entered_bookkept _ p))
    exact ⟨_, rfl, howes, hload, s.strikeReport_length _, s.strikeReport_clock _, s.strikeReport_count _, hapart, hkept⟩
  case expiry =>
    obtain ⟨g, h⟩ := exec_strikeExpiry s
    exact ⟨_, h, fun k => List.mem_filter, rfl, rfl, rfl, rfl⟩

end Sys2Proof.Machine
end

section
/-! PROOFS. The sample order is a permutation: the network permutes its domain, and the walk is the first return to the samples. -/

namespace Sys2Proof.Machine

/-! ## The network permutes [0, 2^(2b)) (R232, R233) -/

theorem xor_right_cancel {x y z : Nat} (h : x ^^^ z = y ^^^ z) : x = y := by
  have hz := congrArg (· ^^^ z) h
  simpa only [Nat.xor_assoc, Nat.xor_self, Nat.xor_zero] using hz

theorem feistelRound_injective (b : Nat) (k : DWord) : Function.Injective (feistelRound b · k) := by
  rintro ⟨x1, x2⟩ ⟨y1, y2⟩ h
  simp only [feistelRound, Prod.mk.injEq] at h
  obtain ⟨rfl, h1⟩ := h
  rw [xor_right_cancel h1]

theorem feistelRounds_injective (keys : List DWord) (b : Nat) : Function.Injective fun x => keys.foldl (feistelRound b) x := by
  induction keys with
  | nil => exact fun _ _ h => h
  | cons k keys ih => exact fun _ _ h => feistelRound_injective b k (ih h)

/-- Both halves stay below 2^b. -/
theorem feistelRounds_lt (keys : List DWord) (b : Nat) {x : Nat × Nat} (h1 : x.1 < 2 ^ b) (h2 : x.2 < 2 ^ b) :
    (keys.foldl (feistelRound b) x).1 < 2 ^ b ∧ (keys.foldl (feistelRound b) x).2 < 2 ^ b := by
  induction keys generalizing x with
  | nil => exact ⟨h1, h2⟩
  | cons k keys ih => exact ih h2 (Nat.xor_lt_two_pow h1 (Nat.mod_lt _ (Nat.two_pow_pos b)))

theorem feistelRounds_halves_lt (keys : List DWord) {b x : Nat} (hx : x < 2 ^ (2 * b)) :
    (keys.foldl (feistelRound b) (x / 2 ^ b, x % 2 ^ b)).1 < 2 ^ b ∧
      (keys.foldl (feistelRound b) (x / 2 ^ b, x % 2 ^ b)).2 < 2 ^ b := by
  rw [Nat.two_mul, Nat.pow_add] at hx
  exact feistelRounds_lt keys b (Nat.div_lt_of_lt_mul hx) (Nat.mod_lt x (Nat.two_pow_pos b))

theorem feistel_lt (keys : List DWord) {b x : Nat} (hx : x < 2 ^ (2 * b)) : feistel keys b x < 2 ^ (2 * b) := by
  obtain ⟨h1, h2⟩ := feistelRounds_halves_lt keys hx
  rw [feistel, Nat.two_mul, Nat.pow_add]
  calc _ < (keys.foldl (feistelRound b) (x / 2 ^ b, x % 2 ^ b)).1 * 2 ^ b + 2 ^ b := Nat.add_lt_add_left h2 _
    _ = ((keys.foldl (feistelRound b) (x / 2 ^ b, x % 2 ^ b)).1 + 1) * 2 ^ b := (Nat.succ_mul _ _).symm
    _ ≤ 2 ^ b * 2 ^ b := Nat.mul_le_mul_right _ h1

/-- Two halves below a base are the quotient and the remainder of the number they make. -/
theorem halves_join {m : Nat} {r : Nat × Nat} (h : r.2 < m) : ((r.1 * m + r.2) / m, (r.1 * m + r.2) % m) = r := by
  have hm : 0 < m := by omega
  rw [Nat.mul_comm, Nat.mul_add_div hm, Nat.mul_add_mod, Nat.div_eq_of_lt h, Nat.mod_eq_of_lt h, Nat.add_zero]

theorem halves_injective (m : Nat) : Function.Injective fun x : Nat => (x / m, x % m) := by
  intro x y h
  obtain ⟨hdiv, hmod⟩ := Prod.mk.inj h
  rw [← Nat.div_add_mod x m, hdiv, hmod, Nat.div_add_mod]

theorem feistel_injOn (keys : List DWord) {b x y : Nat} (hx : x < 2 ^ (2 * b)) (hy : y < 2 ^ (2 * b))
    (h : feistel keys b x = feistel keys b y) : x = y := by
  have hrounds := (halves_join (feistelRounds_halves_lt keys hx).2).symm.trans
    ((congrArg (fun z => (z / 2 ^ b, z % 2 ^ b)) h).trans (halves_join (feistelRounds_halves_lt keys hy).2))
  exact halves_injective _ (feistelRounds_injective keys b hrounds)

/-- The value after passes through the network. -/
def passes (keys : List DWord) (b : Nat) : Nat → Nat → Nat
  | 0, x => x
  | k + 1, x => passes keys b k (feistel keys b x)

theorem passes_add (keys : List DWord) (b i j x : Nat) : passes keys b (i + j) x = passes keys b i (passes keys b j x) := by
  induction j generalizing x with
  | zero => rfl
  | succ j ih => exact ih (feistel keys b x)

theorem passes_lt (keys : List DWord) {b x : Nat} (k : Nat) (hx : x < 2 ^ (2 * b)) : passes keys b k x < 2 ^ (2 * b) := by
  induction k generalizing x with
  | zero => exact hx
  | succ k ih => exact ih (feistel_lt keys hx)

theorem passes_injOn (keys : List DWord) {b x y : Nat} (k : Nat) (hx : x < 2 ^ (2 * b)) (hy : y < 2 ^ (2 * b))
    (h : passes keys b k x = passes keys b k y) : x = y := by
  induction k generalizing x y with
  | zero => exact h
  | succ k ih => exact feistel_injOn keys hx hy (ih (feistel_lt keys hx) (feistel_lt keys hy) h)

/-- Two values of one walk that are equal show that the passes between them return to where the walk began. -/
theorem passes_return {keys : List DWord} {b p i j : Nat} (hp : p < 2 ^ (2 * b)) (hij : i ≤ j)
    (h : passes keys b i p = passes keys b j p) : passes keys b (j - i) p = p := by
  rw [show j = i + (j - i) by omega, passes_add] at h
  exact (passes_injOn keys i hp (passes_lt keys _ hp) h).symm

/-- Some pass, within as many as the domain has values, returns to where the walk began: one value more than those cannot all
differ. -/
theorem feistel_returns (keys : List DWord) {b p : Nat} (hp : p < 2 ^ (2 * b)) :
    ∃ j < 2 ^ (2 * b), passes keys b (j + 1) p = p := by
  refine Classical.byContradiction fun hnone => ?_
  have hdiffer : ((List.range (2 ^ (2 * b) + 1)).map (passes keys b · p)).Nodup := by
    refine List.pairwise_map.mpr (List.pairwise_lt_range.imp_of_mem fun {i j} _ hj hij heq => hnone ⟨j - i - 1, ?_, ?_⟩)
    · have := List.mem_range.mp hj
      omega
    · rw [show j - i - 1 + 1 = j - i by omega]
      exact passes_return hp (Nat.le_of_lt hij) heq
  have hdomain : (List.range (2 ^ (2 * b) + 1)).map (passes keys b · p) ⊆ List.range (2 ^ (2 * b)) := by
    intro x hx
    obtain ⟨k, -, rfl⟩ := List.mem_map.mp hx
    exact List.mem_range.mpr (passes_lt keys k hp)
  have hcount := List.Nodup.length_le_of_subset hdiffer hdomain
  rw [List.length_map, List.length_range, List.length_range] at hcount
  omega

/-! ## The walk is the first return below n (R232, R233) -/

/-- A walk that meets a value below n within its fuel stops at the first such value. -/
theorem walkOn_first (keys : List DWord) {b n fuel x : Nat} (k : Nat) (h : ∃ j < fuel, passes keys b j x < n) :
    ∃ j, (walkOn keys b n fuel x k).1 = passes keys b j x ∧ passes keys b j x < n ∧
      ∀ i < j, n ≤ passes keys b i x := by
  induction fuel generalizing x k with
  | zero => obtain ⟨j, hj, -⟩ := h; omega
  | succ fuel ih =>
    rw [walkOn]
    by_cases hx : x < n
    case pos => exact ⟨0, by rw [if_pos hx]; rfl, hx, fun i hi => by omega⟩
    case neg =>
      rw [if_neg hx]
      obtain ⟨j, hj, hlt⟩ := h
      cases j with
      | zero => exact absurd hlt hx
      | succ j =>
        obtain ⟨m, hval, hm, hmin⟩ := ih (k + 1) ⟨j, by omega, hlt⟩
        refine ⟨m + 1, hval, hm, fun i hi => ?_⟩
        cases i with
        | zero => exact Nat.le_of_not_lt hx
        | succ i => exact hmin i (by omega)

/-- Half the width of the network is the first b from 1 on whose domain holds n values. -/
theorem orderBits_covers {n : Nat} (hn : n ≤ 2 ^ 48) : n ≤ 2 ^ (2 * orderBits n) := by
  unfold orderBits
  cases hb : (List.range 32).find? fun b => decide (1 ≤ b) && decide (n ≤ 2 ^ (2 * b)) with
  | none =>
    exact absurd (List.find?_eq_none.mp hb 24 (by decide)) (by simpa using hn)
  | some b =>
    have hcover := List.find?_some hb
    simp only [Bool.and_eq_true, decide_eq_true_eq] at hcover
    exact hcover.2

/-- The sample at a position is the first value below n that passes of the network give from it. -/
theorem sampleAtPosition_first {p n : Nat} (seed : DWord) (epoch : Nat) (hn : n ≤ 2 ^ 48) (hp : p < n) :
    ∃ j, (sampleAtPosition p n seed epoch).1 = passes ((List.range 8).map (orderKey seed epoch)) (orderBits n) (j + 1) p ∧
      (sampleAtPosition p n seed epoch).1 < n ∧
      ∀ i < j, n ≤ passes ((List.range 8).map (orderKey seed epoch)) (orderBits n) (i + 1) p := by
  obtain ⟨j, hj, hback⟩ := feistel_returns ((List.range 8).map (orderKey seed epoch)) (Nat.lt_of_lt_of_le hp (orderBits_covers hn))
  obtain ⟨m, hval, hlt, hmin⟩ := walkOn_first _ 0 ⟨j, hj, Nat.lt_of_le_of_lt (Nat.le_of_eq hback) hp⟩
  exact ⟨m, hval, hval ▸ hlt, hmin⟩

/-- Of two walks that end at one value, the one with more passes would have met the other's start on its way. -/
theorem first_return_start_eq {keys : List DWord} {b n p q i j : Nat} (hn : n ≤ 2 ^ (2 * b)) (hp : p < n) (hq : q < n)
    (hij : i ≤ j) (h : passes keys b (i + 1) p = passes keys b (j + 1) q)
    (hmin : ∀ k < j, n ≤ passes keys b (k + 1) q) : p = q := by
  have hq' : passes keys b (j - i) q < 2 ^ (2 * b) :=
    passes_lt keys _ (Nat.lt_of_lt_of_le hq hn)
  have hstart : p = passes keys b (j - i) q := by
    refine passes_injOn keys (i + 1) (Nat.lt_of_lt_of_le hp hn) hq' ?_
    rw [h, ← passes_add, show i + 1 + (j - i) = j + 1 by omega]
  cases hd : j - i with
  | zero => rwa [hd] at hstart
  | succ d =>
    have hmet := hmin d (by omega)
    rw [← hd, ← hstart] at hmet
    omega

theorem sampleAtPosition_injective {n p q : Nat} (seed : DWord) (epoch : Nat) (hn : n ≤ 2 ^ 48) (hp : p < n) (hq : q < n)
    (h : (sampleAtPosition p n seed epoch).1 = (sampleAtPosition q n seed epoch).1) : p = q := by
  obtain ⟨i, hi, -, himin⟩ := sampleAtPosition_first seed epoch hn hp
  obtain ⟨j, hj, -, hjmin⟩ := sampleAtPosition_first seed epoch hn hq
  rw [hi, hj] at h
  rcases Nat.le_total i j with hij | hji
  · exact first_return_start_eq (orderBits_covers hn) hp hq hij h hjmin
  · exact (first_return_start_eq (orderBits_covers hn) hq hp hji h.symm himin).symm

/-- Settles O27: the rounds are injective on pairs of halves, so the network permutes its domain and every walk returns below n;
two walks that end at one sample began at one position. -/
theorem sampleOrderPermutes : Obligations.SampleOrderPermutes := by
  refine ⟨by decide, by decide, by decide, by decide, by decide, by decide, by decide, by decide, fun seed epoch => ?single,
    fun n seed epoch p q hn hp hq => ⟨?below, sampleAtPosition_injective seed epoch hn hp hq⟩⟩
  case single =>
    obtain ⟨-, -, hlt, -⟩ := sampleAtPosition_first seed epoch (p := 0) (n := 1) (by decide) Nat.one_pos
    exact Nat.lt_one_iff.mp hlt
  case below =>
    obtain ⟨-, -, hlt, -⟩ := sampleAtPosition_first seed epoch hn hp
    exact hlt

end Sys2Proof.Machine
end

section
/-! SUPPORT. What the operations on sample queues and windows show and leave of the state. -/

namespace Sys2Proof.Machine

/-! ## Queues and windows of the two dies (R247) -/

theorem State.windowOf_congr {s t : State} (h : t.samples = s.samples) (die : Nat) : t.windowOf die = s.windowOf die := by
  rw [State.windowOf, State.windowOf, h]

theorem State.queueOf_congr {s t : State} (h : t.samples = s.samples) (die : Nat) : t.queueOf die = s.queueOf die := by
  rw [State.queueOf, State.queueOf, h]

@[simp] theorem State.windowOf_setWindow_same (s : State) (die : Nat) (l : List WindowEntry) :
    (s.setWindow die l).windowOf die = l := by
  unfold State.windowOf State.setWindow
  split <;> rfl

@[simp] theorem State.queueOf_setQueue_same (s : State) (die : Nat) (l : List SampleBlock) : (s.setQueue die l).queueOf die = l := by
  unfold State.queueOf State.setQueue
  split <;> rfl

@[simp] theorem State.queueOf_setWindow (s : State) (die other : Nat) (l : List WindowEntry) :
    (s.setWindow die l).queueOf other = s.queueOf other := by
  unfold State.setWindow
  split <;> rfl

@[simp] theorem State.windowOf_setQueue (s : State) (die other : Nat) (l : List SampleBlock) :
    (s.setQueue die l).windowOf other = s.windowOf other := by
  unfold State.setQueue
  split <;> rfl

@[simp] theorem State.windowOf_bump (s : State) (off n die : Nat) : (s.bump off n).windowOf die = s.windowOf die :=
  State.windowOf_congr (s.bump_samples off n) die

@[simp] theorem State.queueOf_bump (s : State) (off n die : Nat) : (s.bump off n).queueOf die = s.queueOf die :=
  State.queueOf_congr (s.bump_samples off n) die

@[simp] theorem State.left_setWindow (s : State) (die : Nat) (l : List WindowEntry) :
    (s.setWindow die l).samples.left = s.samples.left := by
  unfold State.setWindow
  split <;> rfl

theorem State.pipeAt_setWindow (s : State) (die : Nat) (l : List WindowEntry) (slot step : Nat) :
    (s.setWindow die l).pipeAt slot step = s.pipeAt slot step := by
  unfold State.setWindow
  split <;> rfl

theorem State.batchAt_setWindow (s : State) (die : Nat) (l : List WindowEntry) (o : SampleOwner) (rank step : Nat) :
    (s.setWindow die l).batchAt o rank step = s.batchAt o rank step := by
  unfold State.setWindow
  split <;> rfl

theorem State.windowOf_setWindow_other (s : State) {die : Nat} (hdie : die ≤ 1) (l : List WindowEntry) :
    (s.setWindow die l).windowOf (1 - die) = s.windowOf (1 - die) := by
  obtain rfl | rfl := Nat.le_one_iff_eq_zero_or_eq_one.mp hdie <;> rfl

theorem State.queueOf_setQueue_other (s : State) {die : Nat} (hdie : die ≤ 1) (l : List SampleBlock) :
    (s.setQueue die l).queueOf (1 - die) = s.queueOf (1 - die) := by
  obtain rfl | rfl := Nat.le_one_iff_eq_zero_or_eq_one.mp hdie <;> rfl

/-- A die with an unfenced lane keeps its blocks. -/
theorem State.passBlocks_of_decodes {s : State} {die : Nat} (h : s.dieDecodes die = true) : s.passBlocks die = s :=
  if_pos (.inl h)

/-! ## Sources in module memory (R226) -/

theorem State.sourcePoison_local {x : Source} (h : x.kind = 1) (s : State) (off n : Nat) :
    s.sourcePoison x off n = s.poisonedIn [⟨x.base + off, n⟩] := if_pos h

theorem State.sourceBytes_local {x : Source} (h : x.kind = 1) (s : State) (off n : Nat) (fetched : Option (Tab Byte)) :
    s.sourceBytes x off n fetched = some (s.load (x.base + off) n) := by
  simp only [State.sourceBytes, h]

/-! ## The bytes of a slot (R238, R242) -/

theorem State.store_withSamples (s : State) (q : SampleState) (a : Nat) (b : List Byte) :
    ({ s with samples := q } : State).store a b = { s.store a b with samples := q } := by
  unfold State.store
  split <;> rfl

/-- Writing a slot reads and writes bytes only. -/
theorem State.writeSlot_withSamples (s : State) (q : SampleState) (st : PipeSettings) (base : Nat) (e : WindowEntry)
    (r : SampleResult) : ({ s with samples := q } : State).writeSlot st base e r = { s.writeSlot st base e r with samples := q } := by
  have hload (t : State) (a n : Nat) : ({ t with samples := q } : State).loadNat a n = t.loadNat a n := rfl
  by_cases hl : st.labelBytes = 0 <;> simp only [State.writeSlot, hl, if_true, if_false, State.store_withSamples, hload]

/-- Bytes of the two spaces, and what memory holds of their parity, may have changed. -/
def State.BytesOnly (s t : State) : Prop := t = { s with mem := t.mem, host := t.host, memory := t.memory }

theorem State.BytesOnly.store {s t : State} (h : s.BytesOnly t) (a : Nat) (b : List Byte) : s.BytesOnly (t.store a b) :=
  (t.store_frame a b).trans (congrArg (fun u : State =>
    { u with mem := (t.store a b).mem, host := (t.store a b).host, memory := (t.store a b).memory }) h)

/-- Only mem, host, memory may change. -/
theorem State.writeSlot_frame (s : State) (st : PipeSettings) (base : Nat) (e : WindowEntry) (r : SampleResult) :
    s.writeSlot st base e r = { s with mem := (s.writeSlot st base e r).mem, host := (s.writeSlot st base e r).host, memory := (s.writeSlot st base e r).memory } := by
  have hself : s.BytesOnly s := rfl
  refine State.BytesOnly.store (State.BytesOnly.store ?_ _ _) _ _
  split
  · exact hself.store _ _
  · exact (hself.store _ _).store _ _
@[simp] theorem State.writeSlot_regs (s : State) (st : PipeSettings) (base : Nat) (e : WindowEntry) (r : SampleResult) : (s.writeSlot st base e r).regs = s.regs := by rw [State.writeSlot_frame]
@[simp] theorem State.writeSlot_rings (s : State) (st : PipeSettings) (base : Nat) (e : WindowEntry) (r : SampleResult) : (s.writeSlot st base e r).rings = s.rings := by rw [State.writeSlot_frame]
@[simp] theorem State.writeSlot_running (s : State) (st : PipeSettings) (base : Nat) (e : WindowEntry) (r : SampleResult) : (s.writeSlot st base e r).running = s.running := by rw [State.writeSlot_frame]
@[simp] theorem State.writeSlot_job (s : State) (st : PipeSettings) (base : Nat) (e : WindowEntry) (r : SampleResult) : (s.writeSlot st base e r).job = s.job := by rw [State.writeSlot_frame]
@[simp] theorem State.writeSlot_samples (s : State) (st : PipeSettings) (base : Nat) (e : WindowEntry) (r : SampleResult) : (s.writeSlot st base e r).samples = s.samples := by rw [State.writeSlot_frame]

/-- Writing a slot and taking it from its window are independent. -/
theorem State.writeSlot_setWindow (s : State) (die : Nat) (l : List WindowEntry) (st : PipeSettings) (base : Nat)
    (e : WindowEntry) (r : SampleResult) :
    (s.setWindow die l).writeSlot st base e r = (s.writeSlot st base e r).setWindow die l := by
  rw [State.setWindow, State.writeSlot_withSamples, State.setWindow, State.writeSlot_samples]

theorem waybill_length (sample : Nat) (r : SampleResult) : (waybill sample r).length = 16 := by
  simp [waybill]

theorem State.load_writeSlot_waybill (s : State) (st : PipeSettings) (base : Nat) (e : WindowEntry) (r : SampleResult) :
    (s.writeSlot st base e r).load (base + st.waybillsAt + 16 * e.slot) 16 = waybill e.sample r := by
  rw [← waybill_length e.sample r]
  exact State.load_store_same _ _ _

/-! ## Counts of handed-on slots (R246, R248) -/

/-- The counter of a corrupt sample's reason counts one more. -/
def State.countCorrupt (s : State) (reason : Nat) : State :=
  match corruptCounter reason with
  | some c => s.bump c 1
  | none => s

theorem State.countCorrupt_frame (s : State) (reason : Nat) :
    s.countCorrupt reason = { s with regs := (s.countCorrupt reason).regs } := by
  unfold State.countCorrupt
  split
  · exact s.bump_frame _ 1
  · rfl

theorem State.countCorrupt_regs_congr {s t : State} (h : t.regs = s.regs) (reason : Nat) :
    (t.countCorrupt reason).regs = (s.countCorrupt reason).regs := by
  unfold State.countCorrupt
  split
  · simp only [State.bump, State.setReg, State.reg, h]
    rfl
  · exact h

theorem State.countCorrupt_decode (s : State) {reason : Nat} (h : reason = 1) :
    (s.countCorrupt reason).reg Reg.smpCorruptDecode = satAdd (s.reg Reg.smpCorruptDecode) 1 := by
  subst h
  exact s.reg_bump_same _ Nat.one_pos

theorem State.countCorrupt_good (s : State) {reason : Nat} (h : reason = 0) : (s.countCorrupt reason).regs = s.regs := by
  subst h
  rfl

/-- Of a batch with more than one slot left, one fewer is left. -/
theorem State.slotDone_of_many {s : State} {o : SampleOwner} {rank step n : Nat} (hleft : s.samples.left = [(o, rank, step, n)])
    (hn : 1 < n) : s.slotDone o rank step = { s with samples := { s.samples with left := [(o, rank, step, n - 1)] } } := by
  have hmany : ¬ n ≤ 1 := by omega
  simp [State.slotDone, hleft, hmany, updateFirst]

end Sys2Proof.Machine
end

section
/-! PROOFS. Samples are issued to lanes, decoded, and handed on in order. -/

namespace Sys2Proof.Machine

/-! ## SAMPLE_ISSUE (R235, R247) -/

/-- A die with a free lane, no slot that lost its lane and room in its window issues the next slot of its queue. -/
theorem exec_sampleIssue_next {die lane : Nat} {s : State} (hdie : die ≤ 1) (hdecodes : s.dieDecodes die = true)
    (hlane : s.laneFor die = some lane) (hlost : ((s.windowOf die).any fun e => e.lane.isNone && e.result.isNone) = false)
    (hroom : (s.windowOf die).length < 4096) : exec (.sampleIssue die none) s = .next (s.issueNext die lane none) := by
  have hdie' : ¬ 1 < die := by omega
  have hroom' : ¬ windowSize ≤ (s.windowOf die).length := Nat.not_le.mpr hroom
  simp only [exec, execSampleIssue, hdie', State.passBlocks_of_decodes hdecodes, hlane, hlost, hroom', Bool.false_eq_true, if_false,
    Option.map_none]

/-- The window entry of the slot at the head of a block, issued to a lane with an index entry. -/
def issuedEntry (st : PipeSettings) (x : Pipeline) (d : Dataset) (b : SampleBlock) (lane : Nat) (entry : List Byte) : WindowEntry :=
  ⟨b.owner, b.rank, b.step, b.first, (sampleOf st d.count x.anchors b.rank b.step b.first).1, entry, some lane, none⟩

/-- A slot whose index entry lies in module memory joins its die's window; only its die's queue and window and the count of
extra passes change. -/
theorem State.issueNext_local {die lane slot a : Nat} {b : SampleBlock} {rest : List SampleBlock} {st : PipeSettings}
    {x : Pipeline} {d : Dataset} {src : Source} {s : State} (hqueue : s.queueOf die = b :: rest)
    (howner : s.ownerSlot b.owner = some slot) (hpipe : s.pipeAt slot b.step = some (st, x, d))
    (hsrc : src = d.sources.getD d.indexSource ⟨0, 0, 0, 0, 0⟩) (hkind : src.kind = 1)
    (ha : a = d.indexOffset + 32 * (sampleOf st d.count x.anchors b.rank b.step b.first).1)
    (hclean : s.poisonedIn [⟨src.base + a, 32⟩] = none)
    (hset : s.settingsFault slot st x d (s.load (src.base + a) 32) = none) :
    ∃ extra, s.issueNext die lane none = ((s.setQueue die (advanceBlock (b :: rest))).setWindow die
      (s.windowOf die ++ [issuedEntry st x d b lane (s.load (src.base + a) 32)])).bump Reg.smpWalkExtra extra := by
  rw [← s.sourcePoison_local hkind] at hclean
  have hbytes := s.sourceBytes_local hkind a 32 none
  subst ha hsrc
  exact ⟨_, by simp only [State.issueNext, hqueue, howner, hpipe, hclean, hbytes, hset]; rfl⟩

/-! ## SAMPLE_DECODE_COMPLETE (R242, R247) -/

/-- The sample in a lane has a result. -/
def State.giveResult (s : State) (lane : Nat) (r : SampleResult) : State :=
  { s with samples := { s.samples with
    window0 := updateFirst (fun e => e.lane == some lane && e.result.isNone) (fun e => { e with result := some r }) s.samples.window0
    window1 := updateFirst (fun e => e.lane == some lane && e.result.isNone) (fun e => { e with result := some r })
      s.samples.window1 } }

/-- What a lane makes of the bytes of a sample, by the kind and the set of its index entry: the result, its border taps and
pixels, and whether it is progressive. -/
def State.decodeSample (s : State) (st : PipeSettings) (entry b : List Byte) : (SampleResult × Nat × Nat) × Bool :=
  let set := if entrySet entry = 0xFFFF then none else s.namedSet st (entrySet entry)
  if entryKind entry = 1 then s.decodeJpeg st set b else (s.decodeRaw st set (entryKind entry == 3) b, false)

theorem State.decodeSample_result (s : State) (st : PipeSettings) (entry b : List Byte) :
    (s.decodeSample st entry b).1.1 =
      let set := if entrySet entry = 0xFFFF then none else s.namedSet st (entrySet entry)
      if entryKind entry = 1 then (s.decodeJpeg st set b).1.1 else (s.decodeRaw st set (entryKind entry == 3) b).1 :=
  apply_ite (fun out : (SampleResult × Nat × Nat) × Bool => out.1.1) _ _ _

/-- The counts that a decoded sample adds to. -/
def State.countDecoded (s : State) (out : (SampleResult × Nat × Nat) × Bool) : State :=
  ((s.bump Reg.smpBorderTaps out.1.2.1).bumpWide Reg.smpPixelsLo out.1.2.2).bump Reg.smpProgressive (if out.2 then 1 else 0)

theorem State.countDecoded_frame (s : State) (out : (SampleResult × Nat × Nat) × Bool) :
    ∃ g w, s.countDecoded out = { s with regs := g, wide := w } := by
  unfold State.countDecoded
  rw [State.bump_frame (State.bumpWide _ _ _), State.bumpWide_frame, State.bump_frame s]
  exact ⟨_, _, rfl⟩

section
variable {lane slot : Nat} {e : WindowEntry} {st : PipeSettings} {x : Pipeline} {d : Dataset} {s : State}
  (hmine : ((s.samples.window0 ++ s.samples.window1).find? fun e => e.lane == some lane && e.result.isNone) = some e)
  (howner : s.ownerSlot e.owner = some slot) (hpipe : s.pipeAt slot e.step = some (st, x, d))
include hmine howner hpipe

/-- A sample of an unsound entry is corrupt, with reason 3 (R226, R242). -/
theorem exec_sampleDecodeComplete_unsound (fetched : Option (List (Nat × Byte))) (hsound : entrySound d st e.entry = false) :
    exec (.sampleDecodeComplete lane fetched) s = .next (s.giveResult lane ⟨3, 0, 0xFFFFFFFF, []⟩) := by
  simp only [exec, execSampleDecodeComplete, hmine, howner, Option.bind_some, hpipe, hsound, Bool.not_false, if_true]
  rfl

/-- A sample whose bytes lie in module memory is decoded; beside its result only counters change. -/
theorem exec_sampleDecodeComplete_local {src : Source} (hsound : entrySound d st e.entry = true)
    (hsrc : src = d.sources.getD (entrySource e.entry) ⟨0, 0, 0, 0, 0⟩) (hkind : src.kind = 1)
    (hclean : s.poisonedIn [⟨src.base + entryOffset e.entry, entryLength e.entry⟩] = none) :
    ∃ g w, exec (.sampleDecodeComplete lane none) s = .next (({ s with regs := g, wide := w } : State).giveResult lane
      (s.decodeSample st e.entry (s.load (src.base + entryOffset e.entry) (entryLength e.entry))).1.1) := by
  obtain ⟨g, w, hcount⟩ := s.countDecoded_frame
    (s.decodeSample st e.entry (s.load (src.base + entryOffset e.entry) (entryLength e.entry)))
  refine ⟨g, w, ?_⟩
  rw [← hcount]
  rw [← s.sourcePoison_local hkind] at hclean
  have hbytes := s.sourceBytes_local hkind (entryOffset e.entry) (entryLength e.entry) none
  subst hsrc
  simp only [exec, execSampleDecodeComplete, hmine, howner, Option.bind_some, hpipe, hsound, Bool.not_true, Bool.false_eq_true,
    if_false, hclean, Option.map_none, hbytes]
  rfl

end

/-! ## SLOT_HAND_ON (R238, R242, R246, R248) -/

/-- The oldest slot of a window, complete and of a job's batch, is written, leaves the window, and is counted. -/
theorem exec_slotHandOn_job {die owner : Nat} {e : WindowEntry} {rest : List WindowEntry} {r : SampleResult} {st : PipeSettings}
    {x : Pipeline} {d : Dataset} {s : State} (hwindow : s.windowOf die = e :: rest) (hresult : e.result = some r)
    (howner : e.owner = .job owner) (hpipe : s.pipeAt owner e.step = some (st, x, d)) :
    exec (.slotHandOn die) s =
      .next (((((s.writeSlot st (s.batchAt e.owner e.rank e.step) e r).setWindow die rest).countCorrupt r.reason).bumpWide
        Reg.smpSamplesLo 1).slotDone e.owner e.rank e.step) := by
  rw [← s.pipeAt_setWindow die rest] at hpipe
  simp only [exec, execSlotHandOn, hwindow, hresult, howner, State.ownerSlot, Option.bind_some, hpipe, State.batchAt_setWindow,
    State.writeSlot_setWindow, State.showSample]
  rfl

/-- While the batch has more slots left, only their number, the slot's bytes, its window and the counters change. -/
theorem exec_slotHandOn_many {die owner n : Nat} {e : WindowEntry} {rest : List WindowEntry} {r : SampleResult} {st : PipeSettings}
    {x : Pipeline} {d : Dataset} {s : State} (hwindow : s.windowOf die = e :: rest) (hresult : e.result = some r)
    (howner : e.owner = .job owner) (hpipe : s.pipeAt owner e.step = some (st, x, d))
    (hleft : s.samples.left = [(e.owner, e.rank, e.step, n)]) (hn : 1 < n) :
    let u := (s.writeSlot st (s.batchAt e.owner e.rank e.step) e r).setWindow die rest
    ∃ w, exec (.slotHandOn die) s = .next { u with
      regs := (s.countCorrupt r.reason).regs, wide := w, samples := { u.samples with left := [(e.owner, e.rank, e.step, n - 1)] } } := by
  intro u
  have hregs : (u.countCorrupt r.reason).regs = (s.countCorrupt r.reason).regs :=
    State.countCorrupt_regs_congr (s := s) (t := u) (State.writeSlot_regs _ _ _ _ _) _
  have hcount : (u.countCorrupt r.reason).bumpWide Reg.smpSamplesLo 1 =
      { u with regs := (s.countCorrupt r.reason).regs, wide := ((u.countCorrupt r.reason).bumpWide Reg.smpSamplesLo 1).wide } := by
    rw [← hregs, State.bumpWide_frame, State.countCorrupt_frame u]
  have hkept : u.samples.left = [(e.owner, e.rank, e.step, n)] := by
    rw [State.left_setWindow, State.writeSlot_samples, hleft]
  have hkept' : ((u.countCorrupt r.reason).bumpWide Reg.smpSamplesLo 1).samples.left = [(e.owner, e.rank, e.step, n)] := by
    rw [hcount]
    exact hkept
  rw [exec_slotHandOn_job hwindow hresult howner hpipe, State.slotDone_of_many hkept' hn, hcount]
  exact ⟨_, rfl⟩

/-! ## SAMPLE_SOURCE_TIMEOUT (R229) -/

theorem exec_sampleSourceTimeout_lane {die lane slot : Nat} {e : WindowEntry} {st : PipeSettings} {x : Pipeline} {d : Dataset}
    {s : State} (hmine : ((s.samples.window0 ++ s.samples.window1).find? fun e => e.lane == some lane && e.result.isNone) = some e)
    (howner : e.owner = .job slot) (hpipe : s.pipeAt slot e.step = some (st, x, d)) (hsound : entrySound d st e.entry = true)
    (hremote : 2 ≤ (d.sources.getD (entrySource e.entry) ⟨0, 0, 0, 0, 0⟩).kind) :
    exec (.sampleSourceTimeout die (some lane)) s =
      .next (s.sampleFault (.job slot) e.step Status.sampleSourceFailed e.sample) := by
  simp only [exec, execSampleSourceTimeout, hmine, howner, State.ownerSlot, Option.bind_some, hpipe, hsound, hremote, decide_true,
    and_self, if_true]

/-- A batch that is dropped leaves no slot of its step in a window. -/
theorem State.dropBatch_window0 (s : State) (o : SampleOwner) (step : Nat) :
    ((s.dropBatch o (some step)).samples.window0.all fun w => !(w.owner == o && w.step == step)) = true := by
  refine List.all_eq_true.mpr fun w hw => ?_
  have hother : (!(w.owner == o && step == w.step)) = true := (List.mem_filter.mp hw).2
  rwa [BEq.comm (a := step)] at hother

/-- Settles O29: a slot goes from its die's queue to its window with the sample the order gives it, gets its result there, and is
handed on from the window's head; a remote read that fails drops the step's batch. -/
theorem samplesFlow : Obligations.SamplesFlow := by
  refine ⟨⟨fun die lane slot a b rest st x d src s hdie hdecodes hlane hlost hroom hqueue howner hpipe hsrc hkind ha hclean hset =>
      ?issue,
    fun lane slot e fetched st x d s hmine howner hpipe hsound =>
      exec_sampleDecodeComplete_unsound hmine howner hpipe fetched hsound,
    fun lane slot e st x d src s hmine howner hpipe hsound hsrc hkind hclean => ?decode⟩,
    fun die slot owner n e rest r st x d s hwindow hresult howner hpipe hleft hn hslot => ?handOn,
    fun die e rest s hwindow hresult => ?waits,
    fun die lane slot e st x d s hmine howner hpipe hsound hremote => ?timeout⟩
  case issue =>
    obtain ⟨extra, hissue⟩ := State.issueNext_local (lane := lane) hqueue howner hpipe hsrc hkind ha hclean hset
    rw [exec_sampleIssue_next hdie hdecodes hlane hlost hroom, hissue]
    refine ⟨_, rfl, by simp [issuedEntry], by simp, ?queue, ?window, State.bump_mem _ _ _, State.bump_host _ _ _,
      State.bump_rings _ _ _, State.bump_running _ _ _, State.bump_job _ _ _⟩
    case queue => simp [State.queueOf_setQueue_other _ hdie]
    case window => simp [State.windowOf_setWindow_other _ hdie]
  case decode =>
    obtain ⟨g, w, hdecode⟩ := exec_sampleDecodeComplete_local hmine howner hpipe hsound hsrc hkind hclean
    rw [State.decodeSample_result] at hdecode
    exact ⟨_, hdecode, rfl, rfl, rfl, rfl, rfl, rfl⟩
  case handOn =>
    subst hslot
    obtain ⟨w, hhand⟩ := exec_slotHandOn_many hwindow hresult howner hpipe hleft hn
    refine ⟨_, hhand, State.windowOf_setWindow_same _ die rest, rfl, ⟨rfl, rfl⟩,
      State.load_writeSlot_waybill s st (s.batchAt e.owner e.rank e.step) e r, s.countCorrupt_decode,
      s.countCorrupt_good, State.writeSlot_rings _ _ _ _ _, State.writeSlot_running _ _ _ _ _,
      State.writeSlot_job _ _ _ _ _⟩
  case waits => simp only [exec, execSlotHandOn, hwindow, hresult]
  case timeout =>
    exact ⟨_, exec_sampleSourceTimeout_lane hmine howner hpipe hsound hremote, rfl, s.dropBatch_window0 (.job slot) e.step,
      rfl, rfl, rfl, rfl⟩

end Sys2Proof.Machine
end

section
/-! PROOFS. Tasks are admitted in order, tokens fill their slots, and a dispatcher grants what it picks. -/

namespace Sys2Proof.Machine

/-! ## The tasks of a graph run -/

/-- A second write under a key replaces the first. -/
@[simp] theorem Tab.put_put {α : Type} (t : Tab α) (x : Nat) (v w : α) : Tab.put (Tab.put t x v) x w = Tab.put t x w := by
  induction t with
  | nil => simp [Tab.put]
  | cons e t ih =>
    obtain ⟨k, u⟩ := e
    by_cases hlt : x < k
    · simp [Tab.put, hlt]
    · by_cases heq : x = k
      · simp [Tab.put, heq]
      · simp [Tab.put, hlt, heq, ih]

/-- A run with one of its tasks in a new state. -/
def GraphRun.setTask (g : GraphRun) (task : Nat) (x : TaskState) : GraphRun := { g with tasks := Tab.put g.tasks task x }

@[simp] theorem GraphRun.look_setTask_same (g : GraphRun) (task : Nat) (x : TaskState) :
    Tab.look (g.setTask task x).tasks task = some x := Tab.look_put_same _ _ _

theorem GraphRun.look_setTask_ne (g : GraphRun) {task i : Nat} (x : TaskState) (h : i ≠ task) :
    Tab.look (g.setTask task x).tasks i = Tab.look g.tasks i := Tab.look_put_ne _ _ h

@[simp] theorem GraphRun.setTask_setTask (g : GraphRun) (task : Nat) (x y : TaskState) :
    (g.setTask task x).setTask task y = g.setTask task y := by
  simp [GraphRun.setTask]

@[simp] theorem State.graphRun_setGraphRun_same (s : State) (run : Nat) (g : GraphRun) :
    (s.setGraphRun run g).graphRun run = some g := Tab.look_put_same _ _ _

@[simp] theorem State.setGraphRun_setGraphRun (s : State) (run : Nat) (g g' : GraphRun) :
    (s.setGraphRun run g).setGraphRun run g' = s.setGraphRun run g' := by
  simp [State.setGraphRun]

section
variable {run : Nat} {g : GraphRun} {s : State} (hrun : s.graphRun run = some g)
include hrun

theorem State.onGraphRun_of_run (f : GraphRun → GraphRun) : s.onGraphRun run f = s.setGraphRun run (f g) := by
  simp only [State.onGraphRun, hrun]

theorem State.setTask_of_run (task : Nat) (x : TaskState) : s.setTask run task x = s.setGraphRun run (g.setTask task x) :=
  State.onGraphRun_of_run hrun _

theorem State.runTask_of_run (task : Nat) : s.runTask run task = Tab.look g.tasks task := by
  simp only [State.runTask, hrun, Option.bind_some]

theorem State.taskRecord_of_run (task : Nat) : s.taskRecord run task = graphTask (s.runImage g) task := by
  simp only [State.taskRecord, hrun]

end

/-! ## TASK_ADMISSION (R306, R308) -/

/-- A task with slots, none of them of source STATE, for which no token waits enters with its slots empty: only its run and
the prefetch copies change. -/
theorem State.enter_waits {run task : Nat} {g : GraphRun} {s : State} (hrun : s.graphRun run = some g)
    (hheld : (g.heldTokens.filter fun k => k.task == task) = [])
    (hstate : ((graphTask (s.runImage g) task).slots.all fun x => x.source != 6) = true)
    (hslots : (graphTask (s.runImage g) task).slots ≠ []) :
    ∃ held copies, s.enter run task = { s with graph := { s.graph with
      runs := Tab.put s.graph.runs run
        { g.setTask task ⟨(graphTask (s.runImage g) task).slots.map fun _ => 0, .waiting, 0, []⟩ with heldTokens := held }
      prefetch := copies } } := by
  have hnone : ((graphTask (s.runImage g) task).slots.zipIdx.filter fun x => x.1.source == 6) = [] := by
    rw [List.filter_eq_nil_iff]
    intro x hx
    simpa using List.all_eq_true.mp hstate x.1 (List.fst_mem_of_mem_zipIdx hx)
  have hsome : (graphTask (s.runImage g) task).slots.isEmpty = false := by simpa using hslots
  exact ⟨_, _, by
    simp only [State.enter, hrun, hheld, hnone, hsome, Bool.false_eq_true, if_false, List.map_nil, List.append_nil, List.foldl_nil]
    rfl⟩

section
variable {run die task : Nat} {g : GraphRun} {s : State} (hrun : s.graphRun run = some g)
  (hhead : s.admissionHead g die = some task)
include hrun hhead

theorem exec_taskAdmission_enters (h : s.admissible g die task = true) :
    exec (.taskAdmission run die) s = .next (s.enter run task) := by
  simp only [exec, execTaskAdmission, hrun, hhead, h, if_true]

theorem exec_taskAdmission_waits (h : s.admissible g die task = false) : exec (.taskAdmission run die) s = .next s := by
  simp only [exec, execTaskAdmission, hrun, hhead, h, Bool.false_eq_true, if_false]

end

/-! ## TOKEN_ARRIVAL (R304, R309) -/

/-- A task with one more token in a slot. -/
def TaskState.filled (x : TaskState) (slot : Nat) : TaskState := { x with fill := setAt x.fill slot fun n => n + 1 }

/-- The n-th token is no longer on its way. -/
def State.takeToken (s : State) (n : Nat) : State := s.setGraph { s.graph with tokens := s.graph.tokens.eraseIdx n }

theorem exec_tokenArrival {n : Nat} {k : Token} {s : State} (h : s.graph.tokens[n]? = some k) :
    exec (.tokenArrival n) s = .next ((s.takeToken n).arrive k) := by
  simp only [exec, execTokenArrival, h, State.takeToken]

/-- A token of a run that is gone is counted as stale. -/
theorem State.arrive_of_no_run {k : Token} {s : State} (h : s.graphRun k.run = none) :
    s.arrive k = s.bump Reg.arrStaleTokens 1 := by
  simp only [State.arrive, h]

/-- A token of the current attempt fills a slot that still awaits one, and its task becomes ready if that was the last. -/
theorem State.arrive_fills {k : Token} {g : GraphRun} {x : TaskState} {s : State} (hrun : s.graphRun k.run = some g)
    (hattempt : k.attempt = g.attempt) (htask : Tab.look g.tasks k.task = some x)
    (hroom : x.fill.getD k.slot 0 < ((s.taskRecord k.run k.task).slot k.slot).arrivals) :
    s.arrive k =
      let t := s.setGraphRun k.run (g.setTask k.task (x.filled k.slot))
      if slotsFull (s.taskRecord k.run k.task) (x.filled k.slot) then t.makeReady k.run k.task else t := by
  have hattempt' : ¬ k.attempt ≠ g.attempt := not_not_intro hattempt
  simp only [State.arrive, hrun, hattempt', htask, Nat.not_le.mpr hroom, if_false, State.setTask_of_run hrun]
  rfl

/-- A task joins the end of a ready list. -/
def State.enlist (s : State) (key run task : Nat) : State :=
  s.setGraph { s.graph with ready := Tab.put s.graph.ready key (Tab.get [] s.graph.ready key ++ [(run, task)]) }

/-- A task that no array is held for joins its ready list when that has room. -/
theorem State.makeReady_joins {run task key : Nat} {g : GraphRun} {x : TaskState} {s : State} (hrun : s.graphRun run = some g)
    (htask : Tab.look g.tasks task = some x) (hdirect : (g.direct.all fun y => y.2.1 != task) = true)
    (hkey : readyKey (s.taskRecord run task) = key) (hroom : (Tab.get [] s.graph.ready key).length < readyDepth) :
    s.makeReady run task = (s.enlist key run task).setGraphRun run (g.setTask task { x with place := .ready }) := by
  have hnone : (g.direct.find? fun y => y.2.1 == task) = none := by
    rw [List.find?_eq_none]
    intro y hy
    simpa using List.all_eq_true.mp hdirect y hy
  subst hkey
  simp only [State.makeReady, hrun, State.runTask_of_run hrun, htask, hnone, hroom, if_true]
  exact State.setTask_of_run (s := s.enlist (readyKey (s.taskRecord run task)) run task) hrun _ _

section
variable {n : Nat} {k : Token} {g : GraphRun} {x : TaskState} {s : State} (htoken : s.graph.tokens[n]? = some k)
  (hrun : s.graphRun k.run = some g) (hattempt : k.attempt = g.attempt) (htask : Tab.look g.tasks k.task = some x)
  (hroom : x.fill.getD k.slot 0 < ((s.taskRecord k.run k.task).slot k.slot).arrivals)
include htoken hrun hattempt htask hroom

/-- A token that is not its task's last is counted in its slot. -/
theorem exec_tokenArrival_fills (hfull : slotsFull (s.taskRecord k.run k.task) (x.filled k.slot) = false) :
    exec (.tokenArrival n) s = .next ((s.takeToken n).setGraphRun k.run (g.setTask k.task (x.filled k.slot))) := by
  have hfull' : ¬ slotsFull ((s.takeToken n).taskRecord k.run k.task) (x.filled k.slot) = true := Bool.not_eq_true _ ▸ hfull
  rw [exec_tokenArrival htoken, State.arrive_fills (s := s.takeToken n) hrun hattempt htask hroom]
  exact congrArg _ (if_neg hfull')

/-- The last token of a task puts it at the end of its ready list. -/
theorem exec_tokenArrival_readies (hdirect : (g.direct.all fun y => y.2.1 != k.task) = true)
    (hfull : slotsFull (s.taskRecord k.run k.task) (x.filled k.slot) = true)
    (hlist : (Tab.get [] s.graph.ready (readyKey (s.taskRecord k.run k.task))).length < readyDepth) :
    exec (.tokenArrival n) s = .next
      (((s.takeToken n).enlist (readyKey (s.taskRecord k.run k.task)) k.run k.task).setGraphRun k.run
        (g.setTask k.task { x.filled k.slot with place := .ready })) := by
  have hset := State.graphRun_setGraphRun_same (s.takeToken n) k.run (g.setTask k.task (x.filled k.slot))
  have hkey : readyKey (((s.takeToken n).setGraphRun k.run (g.setTask k.task (x.filled k.slot))).taskRecord k.run k.task) =
      readyKey (s.taskRecord k.run k.task) := by
    rw [State.taskRecord_of_run hset, State.taskRecord_of_run hrun]
    rfl
  rw [exec_tokenArrival htoken, State.arrive_fills (s := s.takeToken n) hrun hattempt htask hroom]
  refine congrArg _ ((if_pos hfull).trans ?_)
  rw [State.makeReady_joins hset (GraphRun.look_setTask_same _ _ _) hdirect hkey hlist, GraphRun.setTask_setTask]
  exact State.setGraphRun_setGraphRun ((s.takeToken n).enlist _ k.run k.task) _ _ _

end

/-! ## What a unit holds, and the transfers of its operands (R27, R310, R315) -/

/-- A unit holds one entry more, behind the others. -/
def State.addEntry (s : State) (u : Nat) (e : Nat × Nat × Nat × Nat) : State :=
  s.setGraph { s.graph with units := Tab.put s.graph.units u (s.entries u ++ [e]) }

/-- From s to t at most the registers, the operand buffer halves and the transfers change. -/
def State.Loads (s t : State) : Prop := ∃ regs halves transfers,
  t = { s with regs := regs, graph := { s.graph with halves := halves, transfers := transfers } }

theorem State.Loads.refl (s : State) : s.Loads s := ⟨_, _, _, rfl⟩

theorem State.Loads.trans {s t u : State} (h : s.Loads t) (k : t.Loads u) : s.Loads u := by
  obtain ⟨_, _, _, rfl⟩ := h
  obtain ⟨_, _, _, rfl⟩ := k
  exact ⟨_, _, _, rfl⟩

theorem State.Loads.taskGather_eq {s t : State} (h : s.Loads t) {run task : Nat} :
    t.taskGather run task = s.taskGather run task := by
  obtain ⟨_, _, _, rfl⟩ := h
  rfl

theorem State.bump_loads (s : State) (off n : Nat) : s.Loads (s.bump off n) := by
  rw [State.bump_frame]
  exact ⟨_, _, _, rfl⟩

theorem State.startTransfers_loads (s : State) (u n : Nat) : s.Loads (s.startTransfers u n) := ⟨_, _, _, rfl⟩

theorem State.fillHalves_loads (s : State) (u run attempt : Nat) (t : Task) (img : List Byte) :
    s.Loads (s.fillHalves u run attempt t img).1 := by
  refine List.foldlRecOn (motive := fun r : State × Nat => s.Loads r.1) _ _ (.refl s) fun r hr x _ => ?_
  dsimp only
  split
  · exact hr.trans (r.1.bump_loads Reg.arrReuseChunks 1)
  · exact hr.trans ⟨_, _, _, rfl⟩

/-- A unit loads the operands of a task that it was given. -/
def State.loadOperands (s : State) (u run attempt : Nat) (t : Task) (img : List Byte) : State :=
  let n := if t.type = 1 then s.fillHalves u run attempt t img else (s, operandTransfers img t)
  n.1.startTransfers u n.2

theorem State.loadOperands_loads (s : State) (u run attempt : Nat) (t : Task) (img : List Byte) :
    s.Loads (s.loadOperands u run attempt t img) := by
  unfold State.loadOperands
  refine State.Loads.trans ?_ (State.startTransfers_loads _ _ _)
  split
  · exact s.fillHalves_loads _ _ _ _ _
  · exact .refl s

/-- From s to t a graph run becomes g and a unit holds one entry more, behind the others; what other units hold, the tokens on
their way and the parts of the module outside dispatch stay as they are. -/
structure State.Places (s : State) (run : Nat) (g : GraphRun) (u : Nat) (e : Nat × Nat × Nat × Nat) (t : State) : Prop where
  graphRun : t.graphRun run = some g
  entries_same : t.entries u = s.entries u ++ [e]
  entries_other : ∀ v, v ≠ u → t.entries v = s.entries v
  tokens : t.graph.tokens = s.graph.tokens
  mem : t.mem = s.mem
  host : t.host = s.host
  rings : t.rings = s.rings
  job : t.job = s.job
  emb : t.emb = s.emb
  relay : t.relay = s.relay

theorem State.Loads.places {s t : State} {run u : Nat} {g : GraphRun} {e : Nat × Nat × Nat × Nat}
    (h : ((s.setGraphRun run g).addEntry u e).Loads t) : s.Places run g u e t := by
  obtain ⟨_, _, _, rfl⟩ := h
  exact ⟨Tab.look_put_same _ _ _, Tab.get_put_same _ _ _ _, fun _ hv => Tab.get_put_ne _ _ _ hv, rfl, rfl, rfl, rfl, rfl, rfl, rfl⟩

/-! ## TASK_GRANT of a ready task (R310) -/

/-- A task without a gather only leaves the operations of its packets to themselves. -/
theorem State.forsake_of_no_gather {run task : Nat} {s : State} (h : s.taskGather run task = none) :
    ∃ ops, s.forsake run task = s.setRelay { s.relay with ops := ops } := by
  simp only [State.forsake, h]
  exact ⟨_, rfl⟩

/-- No array is held for the consumer of a task that is no gather. -/
theorem State.holdDirect_of_no_gather {run task : Nat} {g : GraphRun} {s : State} (hrun : s.graphRun run = some g)
    (htype : (graphTask (s.runImage g) task).type ≠ 3) : s.holdDirect run task = some s := by
  simp only [State.holdDirect, hrun, htype, false_and, if_false]

section
variable {run task u : Nat} {g : GraphRun} {x : TaskState} {s : State} (hrun : s.graphRun run = some g)
  (htask : Tab.look g.tasks task = some x) (hgather : (graphTask (s.runImage g) task).type ≠ 3)
  (hrelay : (graphTask (s.runImage g) task).type ≠ 5) (hnone : s.taskGather run task = none)
include hrun htask hgather hrelay hnone

/-- A task that is neither a gather nor a relay task is placed in its unit, behind what the unit holds, and its operands are
loaded. -/
theorem State.grantTo_loads (here : Nat → Nat → Nat → State → State) :
    ∃ t ops, ((s.setGraphRun run (g.setTask task { x with place := .granted u })).addEntry u (run, task, x.gen, g.attempt)).Loads t ∧
      s.grantTo run task u here = t.setRelay { t.relay with ops := ops } := by
  have hload := State.loadOperands_loads
    ((s.setGraphRun run (g.setTask task { x with place := .granted u })).addEntry u (run, task, x.gen, g.attempt))
    u run g.attempt (graphTask (s.runImage g) task) (s.runImage g)
  obtain ⟨ops, hops⟩ := State.forsake_of_no_gather (hload.taskGather_eq.trans hnone)
  refine ⟨_, ops, hload, Eq.trans ?_ hops⟩
  simp only [State.grantTo, hrun, State.runTask_of_run hrun, htask, State.setTask_of_run hrun, hgather, hrelay, if_false]
  rfl

/-- The tiles selected for duplication after a task is granted to a unit (R447). -/
def State.selectedAfter (s : State) (g : GraphRun) (task u : Nat) : List Nat :=
  if s.chosenTile g (graphTask (s.runImage g) task) task u then (g.selected.filter fun x => x != task) ++ [task]
  else g.selected.filter fun x => x != task

/-- A picked task whose reads may flow where it writes leaves its ready list, is selected for duplication or not, and is
placed in its unit. -/
theorem State.grantReady_loads
    (hflow : s.flowOk g (s.taskReads (s.runImage g) (graphTask (s.runImage g) task)) (taskWrites (s.runImage g)
      (graphTask (s.runImage g) task)) = true) :
    ∃ t ops, (((s.unready run task).setGraphRun run
        ({ g with selected := s.selectedAfter g task u }.setTask task { x with place := .granted u })).addEntry u
        (run, task, x.gen, g.attempt)).Loads t ∧
      s.grantReady run task u = t.setRelay { t.relay with ops := ops } := by
  have hready : (s.unready run task).graphRun run = some g := hrun
  have hhold := State.holdDirect_of_no_gather hready hgather
  obtain ⟨t, ops, hload, hgrant⟩ := State.grantTo_loads
    (State.graphRun_setGraphRun_same (s.unready run task) run { g with selected := s.selectedAfter g task u })
    htask hgather hrelay hnone (State.serveHere run task)
  rw [State.setGraphRun_setGraphRun] at hload
  refine ⟨t, ops, hload, Eq.trans ?_ hgrant⟩
  simp only [State.grantReady, hrun, hflow, hhold, State.onGraphRun_of_run hready, Bool.not_true, Bool.false_eq_true, if_false]
  rfl

end

/-! ## TASK_GRANT of a duplicate (R313) -/

/-- The duplicate that waits first is placed in the array picked for it, behind what the array holds, and its operands are
loaded. -/
theorem State.grantDup_loads {die run u : Nat} {d : DupRun} {g : GraphRun} {s : State}
    (hpick : s.pickDup die = some (run, d, u)) (hrun : s.graphRun run = some g) :
    ((s.setGraphRun run { g with dups := g.dups.map fun x => if x = d then { x with on := some u } else x }).addEntry u
      (run, d.task, dupGen, g.attempt)).Loads (s.grantDup die) := by
  simp only [State.grantDup, hpick, hrun]
  exact (State.fillHalves_loads _ _ _ _ _ _).trans (State.startTransfers_loads _ _ _)

/-! ## The dispatch of tasks -/

/-- The tasks on a die's ready lists, in the order its dispatcher looks at them: highest priority first, oldest first. -/
def State.readyTasks (s : State) (die : Nat) : List (Nat × Nat) :=
  (List.range 8).reverse.flatMap fun p => Tab.get [] s.graph.ready (die * 8 + p)

theorem exec_taskGrant_ready {die ty run task u : Nat} {s : State} (h : s.pickTask ty (s.readyTasks die) = some (run, task, u)) :
    exec (.taskGrant die ty false) s = .next (s.grantReady run task u) := by
  rw [State.readyTasks] at h
  simp only [exec, execTaskGrant, h, Bool.false_eq_true, if_false]

theorem exec_taskGrant_nothing {die ty : Nat} {s : State} (h : s.pickTask ty (s.readyTasks die) = none) :
    exec (.taskGrant die ty false) s = .next s := by
  rw [State.readyTasks] at h
  simp only [exec, execTaskGrant, h, Bool.false_eq_true, if_false]

theorem exec_taskGrant_dup (die ty : Nat) (s : State) : exec (.taskGrant die ty true) s = .next (s.grantDup die) := rfl

/-- Settles O31: each admission, arrival and grant is the update that the lemmas above name, read back from its tables. -/
theorem tasksAdmittedAndGranted : Obligations.TasksAdmittedAndGranted := by
  unfold Obligations.TasksAdmittedAndGranted
  refine ⟨⟨?admitted, ?noRoom, ?filled, ?readied, ?stale⟩, ?granted, ?duplicate, ?nothing⟩
  case admitted =>
    intro run die k g s hrun hhead hroom hheld hstate hslots
    obtain ⟨held, copies, henter⟩ := State.enter_waits hrun hheld hstate hslots
    have hafter : (s.enter run k).graphRun run = _ := 
      (congrArg (·.graphRun run) henter).trans (Tab.look_put_same _ _ _)
    refine ⟨_, exec_taskAdmission_enters hrun hhead hroom, ?_, fun i hi => ?_, ?_⟩
    · rw [State.runTask_of_run hafter]
      exact GraphRun.look_setTask_same _ _ _
    · rw [State.runTask_of_run hafter, State.runTask_of_run hrun]
      exact GraphRun.look_setTask_ne _ _ hi
    · rw [henter]
  case noRoom => exact fun run die k g s hrun hhead hroom => exec_taskAdmission_waits hrun hhead hroom
  case filled =>
    intro n k g x s htoken hrun hattempt htask hroom hfull
    refine ⟨_, exec_tokenArrival_fills htoken hrun hattempt htask hroom hfull, rfl, ?_, rfl⟩
    rw [State.runTask_of_run (State.graphRun_setGraphRun_same _ _ _), GraphRun.look_setTask_same]
    rfl
  case readied =>
    intro n k g x s htoken hrun hattempt htask hdirect hroom hfull hlist
    refine ⟨_, exec_tokenArrival_readies htoken hrun hattempt htask hroom hdirect hfull hlist, rfl,
      Tab.get_put_same _ _ _ _, ?_⟩
    rw [State.runTask_of_run (State.graphRun_setGraphRun_same _ _ _), GraphRun.look_setTask_same]
    rfl
  case stale =>
    intro n k s htoken hgone
    have hgone' : (s.takeToken n).graphRun k.run = none := hgone
    refine ⟨_, exec_tokenArrival htoken, ?_⟩
    rw [State.arrive_of_no_run hgone']
    exact ⟨State.bump_graph _ _ _, State.reg_bump_same _ _ Nat.one_pos, State.bump_mem _ _ _, State.bump_job _ _ _⟩
  case granted =>
    intro die ty run task u g x s hpick hrun htask hflow hgather hrelay hnone
    obtain ⟨t, ops, hload, hgrant⟩ := State.grantReady_loads (u := u) hrun htask hgather hrelay hnone hflow
    have hplaces := hload.places
    have hafter : (t.setRelay { t.relay with ops := ops }).graphRun run = _ := hplaces.graphRun
    refine ⟨_, exec_taskGrant_ready hpick, ?_⟩
    rw [hgrant]
    refine ⟨?_, hplaces.entries_same, hplaces.entries_other, fun i hi => ?_, hplaces.tokens, hplaces.mem, hplaces.host,
      hplaces.rings, hplaces.job, hplaces.emb⟩
    · rw [State.runTask_of_run hafter, GraphRun.look_setTask_same]
    · rw [State.runTask_of_run hafter, State.runTask_of_run hrun]
      exact GraphRun.look_setTask_ne _ _ hi
  case duplicate =>
    intro die ty run u d g s hpick hrun
    have hplaces := (State.grantDup_loads hpick hrun).places
    refine ⟨_, exec_taskGrant_dup die ty s, hplaces.entries_same, ?_, hplaces.entries_other, hplaces.mem, hplaces.job,
      hplaces.relay⟩
    rw [hplaces.graphRun, Option.map_some]
  case nothing => exact fun die ty s hpick => exec_taskGrant_nothing hpick

end Sys2Proof.Machine
end

section
/-! PROOFS. Embedding slices are created, loaded and destroyed, and their versions published. -/

namespace Sys2Proof.Machine

/-! ## Effects that end with the packet's record (R87) -/

/-- The state an effect acts on differs from the one before it in what a start writes, and no record has fallen due. -/
structure State.Enters (s u : State) : Prop where
  frame : u = s.bookkept u
  dues : ∀ r, u.dues r = s.dues r

theorem Command.start_enters {c : Command} {p : Packet} {s : State} (h : s.accepts c p = true) :
    ∃ u, s.Enters u ∧ c.start p s = c.effect p u :=
  ⟨_, ⟨s.entered_bookkept c p, s.entered_dues c p⟩, Command.start_accepts h⟩

/-- What the records of completions come from is as before: rings, held store, jobs and clock. -/
structure State.SameRecords (s t : State) : Prop where
  rings : t.rings = s.rings := by rfl
  held : t.held = s.held := by rfl
  job : t.job = s.job := by rfl
  clk : t.clk = s.clk := by rfl

/-- A completion at the end of an effect owes the packet's record, and writes what a completion writes alone. -/
theorem State.Enters.complete {s u v : State} (hu : s.Enters u) (hv : u.SameRecords v) (p : Packet) {st : Status}
    (hst : ∀ t : State, t.countStatus st = t) (detail position total : Nat) :
    (v.complete p st detail position total).owes s p st detail = true ∧
      v.complete p st detail position total = v.bookkept (v.complete p st detail position total) := by
  refine ⟨State.complete_owes p st detail position total ?_ ?_ fun r => ?_, State.complete_bookkept hst⟩
  · rw [hv.job, hu.frame]; rfl
  · rw [hv.clk, hu.frame]; rfl
  · rw [← hu.dues r]
    exact State.dues_congr hv.held (fun n => by rw [State.ring_congr hv.rings]) r

/-! ## EMB_TABLE_CREATE (R329) -/

/-- The slice that a packet enters: it has no versions. -/
def Packet.newSlice (p : Packet) : Slice :=
  ⟨p.param 3 1, p.param 4 2, bitOf (p.param 6 1) 0, p.job, p.param 16 8, p.param 24 4, [], 0⟩

def State.enterSlice (s : State) (key : Nat) (x : Slice) : State :=
  { s with emb := { s.emb with slices := Tab.put s.emb.slices key x } }

theorem embTableCreate_enters {p : Packet} {s : State} (h : s.accepts embTableCreateCommand p = true) :
    ∃ t, exec (.embTableCreate p) s = .next t ∧ t.owes s p Status.ok 0 = true ∧
      t = (s.enterSlice (sliceKeyOf (p.param 0 2) (p.param 2 1)) p.newSlice).bookkept t := by
  obtain ⟨u, hu, hstart⟩ := Command.start_enters h
  obtain ⟨howes, hframe⟩ := hu.complete (v := u.enterSlice (sliceKeyOf (p.param 0 2) (p.param 2 1)) p.newSlice) {} p
    State.countStatus_ok 0 0 0
  refine ⟨_, congrArg Host.Outcome.next hstart, howes, hframe.trans ?_⟩
  rw [hu.frame]
  rfl

/-! ## EMB_VERSION_LOAD (R344, R348) -/

@[simp] theorem State.load_length (s : State) (a n : Nat) : (s.load a n).length = n := by
  unfold State.load
  split <;> exact Memory.readN_length _ _ _

/-- Rows of one width stored one after the other. -/
def State.storeRows (s : State) (base width : Nat) (row : Nat → List Byte) (n : Nat) : State :=
  (List.range n).foldl (fun t r => t.store (base + r * width) (row r)) s

theorem State.storeRows_succ (s : State) (base width : Nat) (row : Nat → List Byte) (n : Nat) :
    s.storeRows base width row (n + 1) = (s.storeRows base width row n).store (base + n * width) (row n) := by
  simp only [State.storeRows, List.range_succ, List.foldl_append, List.foldl_cons, List.foldl_nil]

section
variable {width : Nat} {row : Nat → List Byte} (hwidth : ∀ r, (row r).length = width)
include hwidth

theorem State.load_storeRows_apart (s : State) {base n a k : Nat} (h : apart a k base (n * width) = true) :
    (s.storeRows base width row n).load a k = s.load a k := by
  induction n with
  | zero => rfl
  | succ n ih =>
    have hsucc : (n + 1) * width = n * width + width := Nat.succ_mul n width
    have hlast : apart a k (base + n * width) (row n).length = true := by
      simp only [apart, decide_eq_true_eq, hwidth] at h ⊢
      omega
    have hfirst : apart a k base (n * width) = true := by
      simp only [apart, decide_eq_true_eq] at h ⊢
      omega
    rw [State.storeRows_succ, State.load_store_apart _ hlast, ih hfirst]

theorem State.load_storeRows_row (s : State) (base : Nat) {n r : Nat} (h : r < n) :
    (s.storeRows base width row n).load (base + r * width) width = row r := by
  induction n with
  | zero => omega
  | succ n ih =>
    rw [State.storeRows_succ]
    rcases Nat.lt_succ_iff_lt_or_eq.mp h with hr | rfl
    · have hbelow : (r + 1) * width ≤ n * width := Nat.mul_le_mul_right width hr
      have hsucc : (r + 1) * width = r * width + width := Nat.succ_mul r width
      have hapart : apart (base + r * width) width (base + n * width) (row n).length = true := by
        simp only [apart, decide_eq_true_eq]
        omega
      rw [State.load_store_apart _ hapart, ih hr]
    · have hload := (s.storeRows base width row r).load_store_same (base + r * width) (row r)
      rwa [hwidth] at hload

end

theorem State.copyRows_eq (s v : State) (p : Packet) (x : Slice) : s.copyRows v p x =
    s.storeRows (p.param 24 8) x.width (fun r => v.load (p.param 8 8 + r * p.param 40 8) x.width) x.rows := rfl

theorem State.copyRows_bytesOnly (s v : State) (p : Packet) (x : Slice) : s.BytesOnly (s.copyRows v p x) :=
  State.foldl_keeps (P := s.BytesOnly) _ _ (fun _ _ h => h.store _ _) rfl

theorem State.load_copyRows_row (s v : State) (p : Packet) {x : Slice} {r : Nat} (h : r < x.rows) :
    (s.copyRows v p x).load (p.param 24 8 + r * x.width) x.width = v.load (p.param 8 8 + r * p.param 40 8) x.width := by
  rw [State.copyRows_eq, State.load_storeRows_row (fun _ => v.load_length _ _) _ _ h]

theorem State.load_copyRows_apart (s v : State) {p : Packet} {x : Slice} {a n : Nat}
    (h : apart a n (p.param 24 8) (x.rows * x.width) = true) : (s.copyRows v p x).load a n = s.load a n := by
  rw [State.copyRows_eq, State.load_storeRows_apart (fun _ => v.load_length _ _) _ h]

/-- The slice with the version that a load adds to it. -/
def Slice.withLoaded (x : Slice) (p : Packet) : Slice :=
  { x with versions := x.versions ++ [⟨p.param 4 4, .loaded, p.param 24 8, p.param 32 8, freeVslot x.versions⟩],
           highest := p.param 4 4 }

theorem embVersionLoad_effect {p : Packet} {fetched : Option (List (Nat × Byte))} {x : Slice} {u : State}
    (hslice : u.embSlice (versionSliceKey p) = some x) (hbytes : p.param 3 1 < 3 ∨ fetched ≠ none)
    (hclean : u.poisonedIn [versionSource p x] = none) :
    ∃ m, (embVersionLoadCommand fetched).effect p u =
      ({ u.copyRows (sourceView u (p.param 3 1) (fetched.getD [])) p x with
        emb := { u.emb with slices := Tab.put u.emb.slices (versionSliceKey p) (x.withLoaded p) }
        memory := m } : State).complete p Status.ok 0 x.rows x.rows := by
  have hgo : ¬ (3 ≤ p.param 3 1 ∧ fetched.isNone = true) := by
    rintro ⟨h3, hnone⟩
    exact hbytes.elim (Nat.not_lt.mpr h3) fun hsome => hsome (Option.isNone_iff_eq_none.mp hnone)
  have hemb (v : State) : (u.copyRows v p x).emb = u.emb := by
    rw [u.copyRows_bytesOnly]
  simp only [embVersionLoadCommand, hslice, hgo, if_false, State.orPoisoned, hclean, hemb]
  exact ⟨_, rfl⟩

theorem embVersionLoad_loads {p : Packet} {fetched : Option (List (Nat × Byte))} {x : Slice} {s : State}
    (h : s.accepts (embVersionLoadCommand fetched) p = true) (hslice : s.embSlice (versionSliceKey p) = some x)
    (hbytes : p.param 3 1 < 3 ∨ fetched ≠ none) (hclean : s.poisonedIn [versionSource p x] = none) :
    ∃ t, exec (.embVersionLoad p fetched) s = .next t ∧ t.owes s p Status.ok 0 = true ∧
      t.embSlice (versionSliceKey p) = some (x.withLoaded p) ∧
      (∀ k, k ≠ versionSliceKey p → t.embSlice k = s.embSlice k) ∧
      (∀ r, r < x.rows → p.param 3 1 = 1 →
        t.load (p.param 24 8 + r * x.width) x.width = s.load (p.param 8 8 + r * p.param 40 8) x.width) ∧
      (∀ a n, apart a n (p.param 24 8) (x.rows * x.width) = true → t.load a n = s.load a n) ∧
      t.job = s.job ∧ t.graph = s.graph ∧ t.running = s.running := by
  obtain ⟨u, hu, hstart⟩ := Command.start_enters h
  have huslice : u.embSlice (versionSliceKey p) = some x := by rw [hu.frame]; exact hslice
  obtain ⟨m, heff⟩ := embVersionLoad_effect huslice hbytes (by rw [hu.frame]; exact hclean)
  have huload (a n : Nat) : u.load a n = s.load a n := by rw [hu.frame]; rfl
  have hcopy := u.copyRows_bytesOnly (sourceView u (p.param 3 1) (fetched.getD [])) p x
  generalize hv : ({ u.copyRows _ p x with emb := _, memory := m } : State) = v at heff
  have hvload (a n : Nat) : v.load a n = (u.copyRows (sourceView u (p.param 3 1) (fetched.getD [])) p x).load a n := by
    rw [← hv]; rfl
  have hsame : u.SameRecords v := by
    rw [← hv, hcopy]
    exact {}
  obtain ⟨howes, hframe⟩ := hu.complete hsame p State.countStatus_ok 0 x.rows x.rows
  refine ⟨_, congrArg Host.Outcome.next (hstart.trans heff), howes, ?_⟩
  rw [hframe]
  refine ⟨?slice, fun k hk => ?others, fun r hr hlocal => ?row, fun a n hapart => ?apart, ?job, ?graph, ?running⟩
  case slice => rw [← hv]; exact Tab.look_put_same _ _ _
  case others => rw [← hv, hu.frame]; exact Tab.look_put_ne _ _ hk
  case row =>
    refine (hvload _ _).trans ?_
    rw [State.load_copyRows_row _ _ _ hr, hlocal]
    exact huload _ _
  case apart =>
    refine (hvload a n).trans ?_
    rw [State.load_copyRows_apart _ _ hapart, huload]
  all_goals
    rw [← hv, hcopy, hu.frame]
    rfl

theorem embVersionLoad_unreachable {p : Packet} {x : Slice} {s : State}
    (h : s.accepts (embVersionLoadCommand none) p = true) (hslice : s.embSlice (versionSliceKey p) = some x)
    (hremote : 3 ≤ p.param 3 1) :
    ∃ t, exec (.embVersionLoad p none) s = .next t ∧ t.owes s p Status.peerUnreachable 0 = true ∧ t.emb = s.emb := by
  obtain ⟨u, hu, hstart⟩ := Command.start_enters h
  have huslice : u.embSlice (versionSliceKey p) = some x := by rw [hu.frame]; exact hslice
  have hnone : 3 ≤ p.param 3 1 ∧ (none : Option (List (Nat × Byte))).isNone = true := ⟨hremote, rfl⟩
  have heff : (embVersionLoadCommand none).effect p u =
      (u.scramble (p.param 24 8) (p.param 32 8)).complete p Status.peerUnreachable 0 0 x.rows := by
    simp only [embVersionLoadCommand, huslice, hnone, and_self, if_true]
    rfl
  have hsame : u.SameRecords (u.scramble (p.param 24 8) (p.param 32 8)) := by
    rw [State.scramble_frame]
    exact {}
  obtain ⟨howes, hframe⟩ := hu.complete hsame p (st := Status.peerUnreachable) (fun _ => rfl) 0 0 x.rows
  refine ⟨_, congrArg Host.Outcome.next (hstart.trans heff), howes, ?_⟩
  rw [hframe]
  refine (State.scramble_emb _ _ _).trans ?_
  rw [hu.frame]
  rfl

/-! ## EMB_TABLE_DESTROY (R351) -/

/-- A single running command that has nothing left to wait for takes its last part and leaves with OK. -/
theorem State.wake_of_single {s : State} {o : RunOp} (h : s.running = [o]) (hdrained : s.drained o = true)
    (hkept : (s.drainEffect o).running = [o]) : s.wake =
      ({ s.drainEffect o with running := [] } : State).complete o.pkt Status.ok 0 o.position o.total := by
  have hfind : s.running.find? (fun o => s.drained o) = some o := by
    rw [h, List.find?_cons, hdrained]
  have hwake : s.wake = (s.drainEffect o).finish o Status.ok 0 := by
    rw [State.wake, h, List.length_singleton]
    simp only [State.wakeN, hfind]
  have hleft : (s.drainEffect o).withdraw o = { s.drainEffect o with running := [] } := by
    simp [State.withdraw, hkept]
  rw [hwake, State.finish, hleft]

/-- The slices but those that a destroy names. -/
def State.keptSlices (s : State) (n : Nat) : Tab Slice :=
  s.emb.slices.filter fun e => !(s.destroyedSlices n).any fun x => x.1 == e.1

theorem State.destroySlices_frame (s : State) (n : Nat) : ∃ m d,
    s.destroySlices n = { s with memory := m, dir := d, emb := { s.emb with slices := s.keptSlices n } } :=
  ⟨_, _, rfl⟩

/-- The slices that the packet of a destroy names, as its running command has them. -/
def Packet.destroyed (p : Packet) : Nat := p.param 0 2 * 256 + p.param 2 1

/-- The running command of a destroy. -/
def State.destroyOp (s : State) (p : Packet) : RunOp := ⟨p, .embDestroy p.destroyed, s.starts, [], 0, 0, false⟩

/-- With nothing else running and no batch bound to them, the slices named go at once. -/
theorem embTableDestroy_effect {p : Packet} {u : State} (hidle : u.running = [])
    (hunbound : ((u.destroyedSlices p.destroyed).all fun e => u.sliceUnbound e.1) = true) :
    ∃ m d, embTableDestroyCommand.effect p u = ({ u with
      memory := m, dir := d, emb := { u.emb with slices := u.keptSlices p.destroyed }, running := [] } : State).complete
        p Status.ok 0 0 0 := by
  generalize hv : u.enroll p (.embDestroy p.destroyed) [] 0 = v
  have halone : v.running = [u.destroyOp p] := by
    rw [← hv, State.enroll, hidle]
    rfl
  have hdrained : v.drained (u.destroyOp p) = true := by
    rw [← hv]
    exact hunbound
  have heffect : v.drainEffect (u.destroyOp p) = v.destroySlices p.destroyed := rfl
  obtain ⟨m, d, hgone⟩ := v.destroySlices_frame p.destroyed
  have hkept : (v.drainEffect (u.destroyOp p)).running = [u.destroyOp p] := by
    rw [heffect, hgone]
    exact halone
  have hwake : embTableDestroyCommand.effect p u = v.wake := congrArg State.wake hv
  rw [hwake, State.wake_of_single halone hdrained hkept, heffect, hgone, ← hv]
  exact ⟨m, d, rfl⟩

theorem embTableDestroy_destroys {p : Packet} {s : State} (h : s.accepts embTableDestroyCommand p = true)
    (hrun : s.running = []) (hunbound : ((s.destroyedSlices p.destroyed).all fun e => s.sliceUnbound e.1) = true) :
    ∃ t, exec (.embTableDestroy p) s = .next t ∧ t.owes s p Status.ok 0 = true ∧ t.emb.slices = s.keptSlices p.destroyed ∧
      t.mem = s.mem ∧ t.host = s.host ∧ t.job = s.job ∧ t.running = [] := by
  obtain ⟨u, hu, hstart⟩ := Command.start_enters h
  obtain ⟨m, d, heff⟩ := embTableDestroy_effect (p := p) (u := u) (by rw [hu.frame]; exact hrun)
    (by rw [hu.frame]; exact hunbound)
  generalize hv : ({ u with memory := m, dir := d, emb := _, running := [] } : State) = v at heff
  have hsame : u.SameRecords v := by
    rw [← hv]
    exact {}
  obtain ⟨howes, hframe⟩ := hu.complete hsame p State.countStatus_ok 0 0 0
  refine ⟨_, congrArg Host.Outcome.next (hstart.trans heff), howes, ?_⟩
  rw [hframe, ← hv, hu.frame]
  exact ⟨rfl, rfl, rfl, rfl, rfl⟩

/-! ## EMB_VERSION_PUBLISH (R346, R347, R349) -/

/-- The state of a version in the switch to a version of a number. -/
def Version.turn (number : Nat) (v : Version) : Version :=
  if v.number = number then { v with state := .current }
  else if v.state = .current then { v with state := .superseded }
  else v

theorem Version.turn_current (number : Nat) (v : Version) : (v.turn number).state = .current ↔ v.number = number := by
  unfold Version.turn
  split
  · simp [*]
  split
  · simp [*]
  · simp [*]

@[simp] theorem Version.turn_number (number : Nat) (v : Version) : (v.turn number).number = v.number := by
  unfold Version.turn
  split
  · rfl
  split <;> rfl

/-- A slice of the table that holds the version makes it its current one. -/
def Slice.turn (table number key : Nat) (x : Slice) : Slice :=
  if key / 64 = table ∧ x.versions.any fun v => v.number == number then
    { x with versions := x.versions.map (Version.turn number) }
  else x

/-- A superseded version that no batch is bound to. -/
def State.versionGone (s : State) (key : Nat) (v : Version) : Bool := v.state == .superseded && !s.versionBound key v.number

/-- The slice without its versions that retire. -/
def State.retireSlice (s : State) (key : Nat) (x : Slice) : Slice :=
  { x with versions := x.versions.filter fun v => !s.versionGone key v }

/-- Retirement takes the versions out of the slices, and their guards with them. -/
theorem State.retireVersions_frame (s : State) : ∃ m, s.retireVersions =
    { s with memory := m, emb := { s.emb with slices := Tab.mapVal s.retireSlice s.emb.slices } } := by
  unfold State.retireVersions
  extract_lets gone dead keep _ kept
  exact State.foldl_keeps (P := fun t => ∃ m, t = { kept with memory := m }) dead _
    (fun t k ⟨m, ht⟩ => ⟨(t.unguard .version k).memory, by rw [ht]; rfl⟩) ⟨_, rfl⟩

theorem State.hotRebuild_frame (s : State) (die key vslot : Nat) : s.hotRebuild die key vslot =
    { s with regs := (s.hotRebuild die key vslot).regs, dir := (s.hotRebuild die key vslot).dir } := by
  unfold State.hotRebuild
  extract_lets mine drains ep bumped mapped switched
  have hmapped : mapped = { s with regs := mapped.regs, dir := mapped.dir } := by
    simp only [mapped, State.mapHot, bumped]
    rw [State.bump_frame]
  split
  · simp only
    rw [hmapped]
  · exact hmapped

/-- Hot entries of the slices that switch start over; retirement follows. -/
theorem State.makeCurrent_frame (s : State) (table number : Nat) : ∃ rg d m, s.makeCurrent table number =
    { s with regs := rg, dir := d, memory := m, emb := { s.emb with
      slices := Tab.mapVal s.retireSlice (Tab.mapVal (Slice.turn table number) s.emb.slices) } } := by
  unfold State.makeCurrent
  extract_lets turn move _ turned rebuilt
  obtain ⟨rg, d, hrebuilt⟩ : ∃ rg d, rebuilt = { turned with regs := rg, dir := d } := by
    refine State.foldl_keeps (P := fun t => ∃ rg d, t = { turned with regs := rg, dir := d }) _ _ ?_ ⟨_, _, rfl⟩
    rintro t e ⟨rg, d, rfl⟩
    split
    · split
      · rw [State.hotRebuild_frame, State.hotRebuild_frame _ 0]
        exact ⟨_, _, rfl⟩
      · exact ⟨_, _, rfl⟩
    · exact ⟨_, _, rfl⟩
  obtain ⟨m, hretired⟩ := rebuilt.retireVersions_frame
  rw [hretired, hrebuilt]
  exact ⟨_, _, _, rfl⟩

/-- A slice that holds the version has it as its current one after the switch. -/
theorem Slice.turn_current {x : Slice} {table number key : Nat} (hkey : key / 64 = table)
    (hheld : (x.versions.any fun v => v.number == number) = true) :
    ∃ v, (x.turn table number key).current = some v ∧ v.number = number := by
  have hversions : (x.turn table number key).versions = x.versions.map (Version.turn number) := by
    rw [Slice.turn, if_pos ⟨hkey, hheld⟩]
  obtain ⟨w, hw, hnumber⟩ := List.any_eq_true.mp hheld
  have hsome : ((x.turn table number key).current).isSome = true := by
    rw [Slice.current, hversions, List.find?_isSome]
    exact ⟨_, List.mem_map_of_mem hw, beq_iff_eq.mpr ((w.turn_current number).mpr (eq_of_beq hnumber))⟩
  obtain ⟨v, hv⟩ := Option.isSome_iff_exists.mp hsome
  refine ⟨v, hv, ?_⟩
  have hstate : v.state = .current := by simpa using List.find?_some hv
  obtain ⟨v0, -, rfl⟩ := List.mem_map.mp (hversions ▸ List.mem_of_find?_eq_some hv)
  rw [Version.turn_number]
  exact (v0.turn_current number).mp hstate

/-- No current version retires. -/
theorem State.retireSlice_current (s : State) (key : Nat) (x : Slice) : (s.retireSlice key x).current = x.current := by
  rw [Slice.current, State.retireSlice, List.find?_filter]
  refine congrArg (fun f => x.versions.find? f) (funext fun v => ?_)
  cases hstate : v.state <;> simp [State.versionGone, hstate]

theorem State.currentVersion_of_all {s : State} {table number : Nat} (hsome : s.tableSlices table ≠ [])
    (hall : ∀ e ∈ s.tableSlices table, ∃ v, e.2.current = some v ∧ v.number = number) :
    s.currentVersion table = some number := by
  obtain ⟨e, l, hl⟩ := List.exists_cons_of_ne_nil hsome
  obtain ⟨v, hv, hnumber⟩ := hall e (hl ▸ List.mem_cons_self)
  rw [State.currentVersion, hl, List.findSome?_cons, hv, Option.map_some, hnumber]

/-- A version that every slice held of a table has is the table's current one after the switch (R346). -/
theorem State.makeCurrent_currentVersion {s : State} {table number : Nat} (hsome : s.tableSlices table ≠ [])
    (hall : ((s.tableSlices table).all fun e => e.2.versions.any fun v => v.number == number) = true) :
    (s.makeCurrent table number).currentVersion table = some number := by
  obtain ⟨rg, d, m, hframe⟩ := s.makeCurrent_frame table number
  have hslices : (s.makeCurrent table number).tableSlices table =
      Tab.mapVal s.retireSlice (Tab.mapVal (Slice.turn table number) (s.tableSlices table)) := by
    rw [hframe]
    simp only [State.tableSlices, Tab.mapVal, List.filter_map]
    rfl
  refine State.currentVersion_of_all (by simpa [hslices, Tab.mapVal] using hsome) fun e he => ?_
  rw [hslices, Tab.mapVal, Tab.mapVal, List.map_map] at he
  obtain ⟨⟨key, x⟩, hx, rfl⟩ := List.mem_map.mp he
  have hkey : key / 64 = table := by simpa using (List.mem_filter.mp hx).2
  obtain ⟨v, hv, hnumber⟩ := Slice.turn_current hkey (List.all_eq_true.mp hall _ hx)
  exact ⟨v, (s.retireSlice_current key _).trans hv, hnumber⟩

theorem embVersionPublish_at_once {p : Packet} {s : State} (h : s.accepts embVersionPublishCommand p = true)
    (hrun : s.running = []) (hjob : s.tableJob (p.param 0 2) = none) (hsome : s.tableSlices (p.param 0 2) ≠ [])
    (hall : ((s.tableSlices (p.param 0 2)).all fun e => e.2.versions.any fun v => v.number == p.param 4 4) = true) :
    ∃ t, exec (.embVersionPublish p) s = .next t ∧ t.owes s p Status.ok 0 = true ∧
      t.currentVersion (p.param 0 2) = some (p.param 4 4) ∧ t.emb.staged = s.emb.staged ∧ t.mem = s.mem ∧
      t.host = s.host := by
  obtain ⟨u, hu, hstart⟩ := Command.start_enters h
  have hslices : u.tableSlices (p.param 0 2) = s.tableSlices (p.param 0 2) := by rw [hu.frame]; rfl
  have hujob : u.tableJob (p.param 0 2) = none := by rw [hu.frame]; exact hjob
  have hcurrent : (u.makeCurrent (p.param 0 2) (p.param 4 4)).currentVersion (p.param 0 2) = some (p.param 4 4) :=
    State.makeCurrent_currentVersion (by rwa [hslices]) (by rwa [hslices])
  have heff : embVersionPublishCommand.effect p u =
      ((u.makeCurrent (p.param 0 2) (p.param 4 4)).complete p Status.ok 0 0 0).wake := by
    simp only [embVersionPublishCommand, hujob]
  obtain ⟨rg, d, m, hmade⟩ := u.makeCurrent_frame (p.param 0 2) (p.param 4 4)
  generalize u.makeCurrent (p.param 0 2) (p.param 4 4) = v at hcurrent heff hmade
  have hsame : u.SameRecords v := by
    rw [hmade]
    exact {}
  obtain ⟨howes, hframe⟩ := hu.complete hsame p State.countStatus_ok 0 0 0
  rw [State.wake_of_idle (by rw [State.complete_running, hmade, hu.frame]; exact hrun)] at heff
  refine ⟨_, congrArg Host.Outcome.next (hstart.trans heff), howes, ?_⟩
  rw [hframe]
  refine ⟨hcurrent, ?_⟩
  rw [hmade, hu.frame]
  exact ⟨rfl, rfl, rfl⟩

def State.stageVersion (s : State) (table number step : Nat) : State :=
  { s with emb := { s.emb with staged := Tab.put s.emb.staged table (number, step) } }

theorem embVersionPublish_stages {p : Packet} {slot : Nat} {j : Job} {s : State}
    (h : s.accepts embVersionPublishCommand p = true) (hrun : s.running = [])
    (hjob : s.tableJob (p.param 0 2) = some (slot, j)) (hlater : publishNow j = false) :
    ∃ t, exec (.embVersionPublish p) s = .next t ∧ t.owes s p Status.ok 0 = true ∧
      t = (s.stageVersion (p.param 0 2) (p.param 4 4) (p.param 8 4)).bookkept t := by
  obtain ⟨u, hu, hstart⟩ := Command.start_enters h
  have hujob : u.tableJob (p.param 0 2) = some (slot, j) := by rw [hu.frame]; exact hjob
  have heff : embVersionPublishCommand.effect p u =
      ((u.stageVersion (p.param 0 2) (p.param 4 4) (p.param 8 4)).complete p Status.ok 0 0 0).wake := by
    simp only [embVersionPublishCommand, hujob, hlater, Bool.false_eq_true, if_false, State.stageVersion]
  obtain ⟨howes, hframe⟩ := hu.complete (v := u.stageVersion (p.param 0 2) (p.param 4 4) (p.param 8 4)) {} p
    State.countStatus_ok 0 0 0
  rw [State.wake_of_idle (by rw [State.complete_running, hu.frame]; exact hrun)] at heff
  refine ⟨_, congrArg Host.Outcome.next (hstart.trans heff), howes, hframe.trans ?_⟩
  rw [hu.frame]
  rfl

/-- Settles O33: each command is its update of the slices or of the staged versions, read back from their tables, and a load
stores its rows one after the other. -/
theorem embeddingTablesAndVersions : Obligations.EmbeddingTablesAndVersions := by
  unfold Obligations.EmbeddingTablesAndVersions
  refine ⟨⟨fun p s h => ?create, fun p fetched x s h hslice hbytes hclean => ?load,
    fun p x s h hslice hremote => embVersionLoad_unreachable h hslice hremote,
    fun p s h hrun hunbound => embTableDestroy_destroys h hrun hunbound⟩,
    fun p s h hrun hjob hsome hall => embVersionPublish_at_once h hrun hjob hsome hall,
    fun p slot j s h hrun hjob hlater => ?stage⟩
  case create =>
    obtain ⟨t, hexec, howes, ht⟩ := embTableCreate_enters h
    have hemb : t.emb = (s.enterSlice (sliceKeyOf (p.param 0 2) (p.param 2 1)) p.newSlice).emb := by rw [ht]; rfl
    refine ⟨t, hexec, howes, ?_, fun k hk => ?_, ht.trans (by rw [hemb]; rfl)⟩
    · rw [State.embSlice, hemb]
      exact Tab.look_put_same _ _ _
    · rw [State.embSlice, hemb]
      exact Tab.look_put_ne _ _ hk
  case load =>
    obtain ⟨t, hexec, howes, hslice, hothers, hrow, hkept⟩ := embVersionLoad_loads h hslice hbytes hclean
    exact ⟨t, hexec, howes, hslice, hothers, fun r hr hlocal _ => hrow r hr hlocal, hkept⟩
  case stage =>
    obtain ⟨t, hexec, howes, ht⟩ := embVersionPublish_stages h hrun hjob hlater
    have hemb : t.emb = (s.stageVersion (p.param 0 2) (p.param 4 4) (p.param 8 4)).emb := by rw [ht]; rfl
    refine ⟨t, hexec, howes, ?_, by rw [hemb]; rfl, ht.trans (by rw [hemb]; rfl)⟩
    rw [hemb]
    exact Tab.look_put_same _ _ _

end Sys2Proof.Machine
end

section
/-! PROOFS. A directory search answers the best match of its bank, and a deletion leaves holes. -/

namespace Sys2Proof.Machine

/-! ## The better of two matches (R360) -/

/-- An entry in its slot wins over another in its slot, or is that entry: higher priority, or equal priority and a slot
that is no higher. -/
def Prevails (x y : Nat × DirEntry) : Prop := y.2.priority < x.2.priority ∨ (y.2.priority = x.2.priority ∧ x.1 ≤ y.1)

theorem Prevails.refl (x : Nat × DirEntry) : Prevails x x := .inr ⟨rfl, Nat.le_refl _⟩

theorem Prevails.trans {x y z : Nat × DirEntry} (hxy : Prevails x y) (hyz : Prevails y z) : Prevails x z := by
  unfold Prevails at *
  omega

/-- Of two matches in rising slots, `better` answers one that prevails over both. -/
theorem better_prevails {x y : Nat × DirEntry} (h : x.1 < y.1) :
    (better x y = x ∨ better x y = y) ∧ Prevails (better x y) x ∧ Prevails (better x y) y := by
  unfold better
  split
  case isTrue hlt => exact ⟨.inr rfl, .inl hlt, Prevails.refl y⟩
  case isFalse hge =>
    refine ⟨.inl rfl, Prevails.refl x, ?_⟩
    unfold Prevails
    omega

/-- Over a table in its canonical form, the fold of `better` answers a member that prevails over every member. -/
theorem foldl_better_prevails (l : Tab DirEntry) (x : Nat × DirEntry) (h : Tab.above x.1 l = true) :
    l.foldl better x ∈ x :: l ∧ ∀ y ∈ x :: l, Prevails (l.foldl better x) y := by
  induction l generalizing x with
  | nil =>
    simp only [List.foldl_nil, List.mem_singleton, forall_eq, true_and]
    exact Prevails.refl x
  | cons y l ih =>
    simp only [Tab.above, Bool.and_eq_true, decide_eq_true_eq] at h
    obtain ⟨hlt, habove⟩ := h
    obtain ⟨hone, hx, hy⟩ := better_prevails hlt
    have hle : (better x y).1 ≤ y.1 := by
      rcases hone with h | h
      · exact Nat.le_trans (Nat.le_of_eq (congrArg Prod.fst h)) (Nat.le_of_lt hlt)
      · exact Nat.le_of_eq (congrArg Prod.fst h)
    obtain ⟨hmem, hbest⟩ := ih (better x y) (Tab.above_mono l hle habove)
    have hsub : better x y :: l ⊆ x :: y :: l :=
      List.cons_subset.mpr ⟨by rcases hone with h | h <;> simp [h], fun _ hz => .tail _ (.tail _ hz)⟩
    simp only [List.foldl_cons, List.forall_mem_cons] at hbest ⊢
    obtain ⟨hhead, hrest⟩ := hbest
    exact ⟨hsub hmem, hhead.trans hx, hhead.trans hy, hrest⟩

/-! ## What a search finds (R360) -/

/-- The entries of a bank that match a key: VALID, with the tag of the search and all key words equal. -/
def DirBank.hits (b : DirBank) (key : List DWord) : Tab DirEntry :=
  Tab.keep (fun _ e => e.tag == dirTag (dirHash key b.hashKey) && e.key == key) b.slots

theorem DirBank.mem_hits {b : DirBank} {key : List DWord} {x : Nat × DirEntry} :
    x ∈ b.hits key ↔ x ∈ b.slots ∧ x.2.tag = dirTag (dirHash key b.hashKey) ∧ x.2.key = key := by
  simp [DirBank.hits, Tab.keep]

/-- The rows that the tag enables and whose key is equal are the hits. -/
theorem DirBank.filter_rows (b : DirBank) (key : List DWord) :
    ((b.slots.filter fun e => e.2.tag == dirTag (dirHash key b.hashKey)).filter fun e => e.2.key == key) = b.hits key := by
  simp only [DirBank.hits, Tab.keep, List.filter_filter, Bool.and_comm]

theorem DirBank.search_matched (b : DirBank) (key : List DWord) : (b.search key).matched = (b.hits key).length :=
  congrArg List.length (b.filter_rows key)

theorem DirBank.search_winner_of_nil {b : DirBank} {key : List DWord} (h : b.hits key = []) :
    (b.search key).winner = none := by
  simp only [DirBank.search, b.filter_rows, h]

theorem DirBank.search_winner_of_cons {b : DirBank} {key : List DWord} {x : Nat × DirEntry} {l : Tab DirEntry}
    (h : b.hits key = x :: l) : (b.search key).winner = some (l.foldl better x) := by
  simp only [DirBank.search, b.filter_rows, h]

theorem DirBank.search_winner_eq_none {b : DirBank} {key : List DWord} (h : (b.search key).winner = none) :
    b.hits key = [] := by
  cases hhits : b.hits key with
  | nil => rfl
  | cons x l => simp [DirBank.search_winner_of_cons hhits] at h

/-- The winner of a search is a hit, and prevails over every hit. -/
theorem DirBank.search_winner_prevails {b : DirBank} {key : List DWord} {w : Nat × DirEntry}
    (hwf : Tab.wf b.slots = true) (h : (b.search key).winner = some w) :
    w ∈ b.hits key ∧ ∀ y ∈ b.hits key, Prevails w y := by
  cases hhits : b.hits key with
  | nil => simp [DirBank.search_winner_of_nil hhits] at h
  | cons x l =>
    have hrising : Tab.wf (x :: l) = true := hhits ▸ Tab.wf_keep _ _ hwf
    rw [DirBank.search_winner_of_cons hhits, Option.some_inj] at h
    exact h ▸ foldl_better_prevails l x hrising

/-- Settles O35: a search folds `better` over the hits, which stand in rising slots. -/
theorem searchFindsBest : Obligations.SearchFindsBest := by
  unfold Obligations.SearchFindsBest
  refine fun b key hwf => ⟨fun k e hwinner => ?best, fun hmiss x hx htag hkey => ?miss, b.search_matched key⟩
  case best =>
    obtain ⟨hmem, hprevails⟩ := DirBank.search_winner_prevails hwf hwinner
    obtain ⟨hslot, htag, hkey⟩ := DirBank.mem_hits.mp hmem
    exact ⟨hslot, hkey, htag, fun x hx hxkey hxtag => hprevails x (DirBank.mem_hits.mpr ⟨hx, hxtag, hxkey⟩)⟩
  case miss =>
    have hhit : x ∈ b.hits key := DirBank.mem_hits.mpr ⟨hx, htag, hkey⟩
    rw [DirBank.search_winner_eq_none hmiss] at hhit
    exact List.not_mem_nil hhit

/-! ## Deleting (R366) -/

@[simp] theorem State.bank_setBank_same (s : State) (n : Nat) (x : DirBank) : (s.setBank n x).bank n = some x :=
  Tab.look_put_same _ _ _

theorem State.bank_setBank_ne (s : State) {n m : Nat} (x : DirBank) (h : m ≠ n) : (s.setBank n x).bank m = s.bank m :=
  Tab.look_put_ne _ _ h

@[simp] theorem State.bank_bump (s : State) (off k n : Nat) : (s.bump off k).bank n = s.bank n := by
  simp only [State.bank, State.bump_dir]

/-- The bank without the entries of a key that a test accepts. -/
def DirBank.without (b : DirBank) (key : List DWord) (test : DirEntry → Bool) : DirBank :=
  { b with slots := Tab.keep (fun _ e => !(e.key == key && test e)) b.slots }

section
variable {b : DirBank} (hwf : Tab.wf b.slots = true) (key : List DWord) (test : DirEntry → Bool) {k : Nat}
include hwf

/-- A slot whose entry goes is a hole; every other slot holds what it held. -/
theorem DirBank.look_without {e : DirEntry} (h : Tab.look b.slots k = some e) :
    Tab.look (b.without key test).slots k = if e.key = key ∧ test e = true then none else some e := by
  rw [DirBank.without, Tab.look_keep _ _ _ hwf, h]
  by_cases hgone : e.key = key ∧ test e = true
  · simp [hgone, Option.filter]
  · rw [if_neg hgone, Option.filter_eq_some_iff]
    exact ⟨rfl, by simpa using Classical.not_and_iff_not_or_not.mp hgone⟩

theorem DirBank.look_without_hole (h : Tab.look b.slots k = none) : Tab.look (b.without key test).slots k = none := by
  rw [DirBank.without, Tab.look_keep _ _ _ hwf, h, Option.filter_none]

end

/-- After a deletion the bank that the key reaches lacks the entries deleted, and every other bank is as it was. -/
theorem State.bank_dirDelete (s : State) (table die : Nat) (key : List DWord) (test : DirEntry → Bool) (n : Nat) :
    (s.dirDelete table die key test).1.bank n =
      if s.bankFor table die key = some n then (s.bank n).map fun b => b.without key test else s.bank n := by
  unfold State.dirDelete
  cases hreach : s.bankFor table die key with
  | none => simp
  | some m =>
    simp only [Option.some_inj]
    by_cases hn : m = n
    · subst hn
      cases hbank : s.bank m with
      | none => simp [hbank]
      | some b => simp [DirBank.without, Tab.keep]
    · cases hbank : s.bank m with
      | none => simp [hn]
      | some b => simp [hn, State.bank_setBank_ne s _ (Ne.symm hn)]

/-- Settles O37: a deletion filters the slots of the bank that its key reaches. -/
theorem deleteLeavesHole : Obligations.DeleteLeavesHole := by
  unfold Obligations.DeleteLeavesHole
  refine fun table die key test s hwf => ⟨fun n b hbank => ?assigned, fun n hbank => ?unassigned⟩
  case assigned =>
    rw [s.bank_dirDelete, hbank]
    by_cases hreach : s.bankFor table die key = some n
    · refine ⟨b.without key test, by simp [hreach], rfl, rfl, rfl, rfl, fun k e hlook => ?held, fun k hlook => ?hole⟩
      case held => simpa [hreach] using DirBank.look_without (hwf n b hbank) key test hlook
      case hole => exact DirBank.look_without_hole (hwf n b hbank) key test hlook
    · exact ⟨b, by simp [hreach], rfl, rfl, rfl, rfl, by simp [hreach], fun _ hlook => hlook⟩
  case unassigned => simp [s.bank_dirDelete, hbank]

end Sys2Proof.Machine
end

section
/-! PROOFS. A selection lists the first valid entries of a row in the selection order. -/

namespace Sys2Proof.Machine

/-! ## The selection order (R387) -/

theorem Entry.before_iff {x y : Entry} :
    x.before y = true ↔ y.key < x.key ∨ (x.key = y.key ∧ x.index ≤ y.index) := by
  simp [Entry.before]

theorem Entry.before_of_not_before {x y : Entry} (h : ¬ x.before y = true) : y.before x = true := by
  simp only [Entry.before_iff] at *
  omega

theorem Entry.before_trans {x y z : Entry} (hxy : x.before y = true) (hyz : y.before z = true) : x.before z = true := by
  simp only [Entry.before_iff] at *
  omega

theorem insertEntry_perm (x : Entry) (l : List Entry) : (insertEntry x l).Perm (x :: l) := by
  induction l with
  | nil => exact .refl _
  | cons y t ih =>
    rw [insertEntry]
    split
    case isTrue => exact .refl _
    case isFalse => exact (ih.cons y).trans (.swap x y t)

theorem insertEntry_pairwise (x : Entry) {l : List Entry} (hl : l.Pairwise fun x y => x.before y = true) :
    (insertEntry x l).Pairwise fun x y => x.before y = true := by
  induction l with
  | nil => exact List.pairwise_singleton _ x
  | cons y t ih =>
    obtain ⟨hy, ht⟩ := List.pairwise_cons.mp hl
    rw [insertEntry]
    split
    case isTrue hxy =>
      refine List.pairwise_cons.mpr ⟨fun z hz => ?_, hl⟩
      rcases List.mem_cons.mp hz with rfl | hz
      · exact hxy
      · exact Entry.before_trans hxy (hy z hz)
    case isFalse hxy =>
      refine List.pairwise_cons.mpr ⟨fun z hz => ?_, ih ht⟩
      rcases List.mem_cons.mp ((insertEntry_perm x t).mem_iff.mp hz) with rfl | hz
      · exact Entry.before_of_not_before hxy
      · exact hy z hz

theorem selectionOrder_perm (l : List Entry) : (selectionOrder l).Perm l := by
  induction l with
  | nil => exact .refl _
  | cons x t ih => exact (insertEntry_perm x (selectionOrder t)).trans (ih.cons x)

theorem selectionOrder_pairwise (l : List Entry) : (selectionOrder l).Pairwise fun x y => x.before y = true := by
  induction l with
  | nil => exact List.Pairwise.nil
  | cons x t ih => exact insertEntry_pairwise x ih

/-- Every entry is among the first k in selection order, or each of those comes before it. -/
theorem mem_take_or_before {l : List Entry} {x : Entry} (k : Nat) (hx : x ∈ l) :
    x ∈ (selectionOrder l).take k ∨ ∀ y ∈ (selectionOrder l).take k, y.before x = true := by
  have hsorted := selectionOrder_pairwise l
  have hmem := (selectionOrder_perm l).mem_iff.mpr hx
  rw [← (selectionOrder l).take_append_drop k] at hsorted hmem
  obtain ⟨-, -, hbefore⟩ := List.pairwise_append.mp hsorted
  rcases List.mem_append.mp hmem with htaken | hleft
  · exact .inl htaken
  · exact .inr fun y hy => hbefore y hy x hleft

/-! ## The valid entries of a row (R385, R388) -/

/-- The valid entries of a row of raw values, in ascending index. -/
def validEntries (elem : Nat) (smallest : Bool) (base : Nat) (values : List Nat) : List Entry :=
  (values.zipIdx.filter fun v => !selectInvalid elem v.1).map fun v => ⟨base + v.2, v.1, selectKey elem smallest v.1⟩

section
variable (elem : Nat) (smallest : Bool) (k base : Nat) (values : List Nat)

theorem selectRow_entries : (selectRow elem smallest k base values).entries =
    ((selectionOrder (validEntries elem smallest base values)).take k).map fun e => (e.index, e.bits) := rfl

theorem selectRow_valid :
    (selectRow elem smallest k base values).valid = (validEntries elem smallest base values).length :=
  (selectionOrder_perm _).length_eq

theorem selectRow_entries_length : (selectRow elem smallest k base values).entries.length =
    min k (selectRow elem smallest k base values).valid := by
  rw [selectRow_entries, selectRow_valid, List.length_map, List.length_take, (selectionOrder_perm _).length_eq]

theorem validEntries_length :
    (validEntries elem smallest base values).length = (values.filter fun v => !selectInvalid elem v).length := by
  have hvalues : (values.zipIdx.filter fun v => !selectInvalid elem v.1).map Prod.fst =
      values.filter fun v => !selectInvalid elem v := by
    conv => rhs; rw [← List.zipIdx_map_fst 0 values, List.filter_map]
    rfl
  rw [validEntries, List.length_map, ← hvalues, List.length_map]

variable {elem smallest k base values}

theorem mem_validEntries {x : Entry} : x ∈ validEntries elem smallest base values ↔
    ∃ j v, values[j]? = some v ∧ selectInvalid elem v = false ∧ x = ⟨base + j, v, selectKey elem smallest v⟩ := by
  simp only [validEntries, List.mem_map, List.mem_filter, Prod.exists, List.mk_mem_zipIdx_iff_getElem?,
    Bool.not_eq_true']
  constructor
  · rintro ⟨v, j, ⟨hv, hvalid⟩, rfl⟩
    exact ⟨j, v, hv, hvalid, rfl⟩
  · rintro ⟨j, v, hv, hvalid, rfl⟩
    exact ⟨v, j, ⟨hv, hvalid⟩, rfl⟩

/-- A listed index and value are those of a valid entry that is among the first k in selection order. -/
theorem mem_selectRow_entries {e : Nat × Nat} : e ∈ (selectRow elem smallest k base values).entries ↔
    ∃ x ∈ (selectionOrder (validEntries elem smallest base values)).take k, e = (x.index, x.bits) := by
  simp only [selectRow_entries, List.mem_map, eq_comm]

theorem mem_validEntries_of_mem_take {x : Entry}
    (hx : x ∈ (selectionOrder (validEntries elem smallest base values)).take k) :
    x ∈ validEntries elem smallest base values :=
  (selectionOrder_perm _).mem_iff.mp (List.mem_of_mem_take hx)

/-- A listed entry stands in the row at its index and is valid. -/
theorem selectRow_entries_valid {e : Nat × Nat} (he : e ∈ (selectRow elem smallest k base values).entries) :
    ∃ j, e.1 = base + j ∧ values[j]? = some e.2 ∧ selectInvalid elem e.2 = false := by
  obtain ⟨x, hx, rfl⟩ := mem_selectRow_entries.mp he
  obtain ⟨j, v, hv, hvalid, rfl⟩ := mem_validEntries.mp (mem_validEntries_of_mem_take hx)
  exact ⟨j, rfl, hv, hvalid⟩

/-- A valid entry that is not listed comes after every listed entry. -/
theorem selectRow_left_out {e : Nat × Nat} (he : e ∈ (selectRow elem smallest k base values).entries) {j v : Nat}
    (hv : values[j]? = some v) (hvalid : selectInvalid elem v = false)
    (hout : ∀ x ∈ (selectRow elem smallest k base values).entries, x.1 ≠ base + j) :
    selectKey elem smallest v < selectKey elem smallest e.2 ∨
      (selectKey elem smallest v = selectKey elem smallest e.2 ∧ e.1 < base + j) := by
  have hne := hout e he
  obtain ⟨x, hx, rfl⟩ := mem_selectRow_entries.mp he
  obtain ⟨i, w, -, -, rfl⟩ := mem_validEntries.mp (mem_validEntries_of_mem_take hx)
  rcases mem_take_or_before k (mem_validEntries.mpr ⟨j, v, hv, hvalid, rfl⟩) with htaken | hbefore
  · exact absurd rfl (hout _ (mem_selectRow_entries.mpr ⟨_, htaken, rfl⟩))
  · have horder := Entry.before_iff.mp (hbefore _ hx)
    dsimp only at horder hne ⊢
    omega

end

/-- Settles O39: the list is the first k of the row's valid entries, sorted in the selection order. -/
theorem selectionTakesBest : Obligations.SelectionTakesBest := by
  unfold Obligations.SelectionTakesBest
  refine fun elem k base smallest values => ⟨?count, ?listed, fun e he => ?taken, fun e he j v hv hvalid hout => ?leftOut⟩
  case count => rw [selectRow_valid, validEntries_length]
  case listed => exact selectRow_entries_length elem smallest k base values
  case taken => exact selectRow_entries_valid he
  case leftOut => exact selectRow_left_out he hv hvalid (by simpa using hout)

end Sys2Proof.Machine
end

section
/-! PROOFS. Sealing under a key of no bytes. -/

namespace Sys2Proof.Machine

/-! ## A key of no bytes (R434) -/

theorem roundKeys_nil_last : (roundKeys []).getD 14 [] = [] := by decide

/-- Round keys of no bytes leave no byte of a block. -/
theorem aesBlock_nil_key (b : List Byte) : aesBlock (roundKeys []) b = [] := by
  simp only [aesBlock, roundKeys_nil_last, xorBytes, List.zipWith_nil_right]

theorem gcmStream_nil_key (iv data : List Byte) : gcmStream (roundKeys []) iv data = [] := by
  simp [gcmStream, aesBlock_nil_key, xorBytes]

/-- Whatever is sealed under a key of no bytes opens to nothing. -/
theorem gcmOpen_gcmSeal_nil_key (iv aad plain : List Byte) :
    gcmOpen [] iv aad (gcmSeal [] iv aad plain).1 (gcmSeal [] iv aad plain).2 = some [] := by
  simp only [gcmOpen, gcmSeal, if_true, gcmStream_nil_key]

/-- Refutes O44: no premise gives the key its 32 bytes (R434), and the byte 0 sealed under a key of no bytes opens to no byte. -/
theorem not_sealedDataLands : ¬ Obligations.SealedDataLands := by
  unfold Obligations.SealedDataLands
  rintro ⟨-, hopens, -⟩
  have hlost : some [] = some [0#8] := (gcmOpen_gcmSeal_nil_key [] [] [0]).symm.trans (hopens [] [] [] [0])
  exact absurd hlost (by decide)

end Sys2Proof.Machine
end

section
/-! SUPPORT. What sending and resending packets leave of the state, and what a flight shows after a change of all flights. -/

namespace Sys2Proof.Machine

/-! ## Packets that are sent (R427 to R431) -/

/-- A state with the parts that sending packets writes taken from another: streams, packets in flight and waiting, read requests,
counters, what has been sent and the drawn numbers. -/
def State.pumped (s t : State) : State :=
  { s with
    relay := { s.relay with
      sends := t.relay.sends
      recvs := t.relay.recvs
      flights := t.relay.flights
      waiting := t.relay.waiting
      gets := t.relay.gets }
    regs := t.regs
    wide := t.wide
    sent := t.sent
    free := t.free }

theorem State.pumped_trans {s t u : State} (h : t = s.pumped t) (k : u = t.pumped u) : u = s.pumped u := by
  rw [k, h]
  rfl

theorem State.countSent_frame (s : State) (cls pkey : Nat) :
    s.countSent cls pkey = { s with wide := (s.countSent cls pkey).wide, regs := (s.countSent cls pkey).regs } := by
  unfold State.countSent
  extract_lets counted
  have hc : counted = { s with wide := counted.wide } := s.bumpWide_frame _ _
  split
  · rw [State.bump_frame, hc]
  · exact hc

theorem State.countSent_pumped (s : State) (cls pkey : Nat) : s.countSent cls pkey = s.pumped (s.countSent cls pkey) := by
  rw [State.countSent_frame]
  rfl

theorem State.setSend_pumped (s : State) (peer serial cls : Nat) (x : SendStream) :
    s.setSend peer serial cls x = s.pumped (s.setSend peer serial cls x) := rfl

theorem State.setRecv_pumped (s : State) (peer serial cls : Nat) (x : RecvStream) :
    s.setRecv peer serial cls x = s.pumped (s.setRecv peer serial cls x) := rfl

theorem State.emit_pumped (s : State) (x : Sent) : s.emit x = s.pumped (s.emit x) := rfl

theorem State.sendAck_pumped (s : State) (peer serial cls : Nat) (nak : Nak) (nakSeq detail : Nat) :
    s.sendAck peer serial cls nak nakSeq detail = s.pumped (s.sendAck peer serial cls nak nakSeq detail) := by
  unfold State.sendAck
  split
  · exact State.pumped_trans (State.pumped_trans (State.pumped_trans (State.pumped_trans (s.setSend_pumped _ _ _ _)
      (State.setRecv_pumped _ _ _ _ _)) (State.setSend_pumped _ _ _ _ _)) (State.emit_pumped _ _)) (State.countSent_pumped _ _ _)
  · rfl

theorem State.trySend_pumped {s t : State} {peer : Nat} {b : Body} (h : s.trySend peer b = some t) : t = s.pumped t := by
  unfold State.trySend at h
  split at h
  · exact absurd h (by simp)
  split at h
  · extract_lets st _ b' frame f sentOn gets flown at h
    split at h
    · exact absurd h (by simp)
    · rw [← Option.some.inj h]
      exact State.pumped_trans rfl (State.countSent_pumped _ _ _)
  · exact absurd h (by simp)

theorem State.pumpList_pumped (l kept : List (Nat × Body)) (s : State) : s.pumpList kept l = s.pumped (s.pumpList kept l) := by
  induction l generalizing s kept with
  | nil => rfl
  | cons w l ih =>
    unfold State.pumpList
    split
    · exact ih _ _
    split
    next t ht => exact State.pumped_trans (State.trySend_pumped ht) (ih _ _)
    next => exact ih _ _

theorem State.reportDemand_pumped (s : State) (key : Nat) : s.reportDemand key = s.pumped (s.reportDemand key) := by
  unfold State.reportDemand
  extract_lets
  split
  · split
    · rfl
    · exact s.sendAck_pumped _ _ _ _ _ _
  · rfl

theorem State.pump_pumped (s : State) : s.pump = s.pumped s.pump := by
  unfold State.pump
  extract_lets listed fresh
  exact State.foldl_keeps (P := fun t => t = s.pumped t) _ _ (fun t k h => State.pumped_trans h (t.reportDemand_pumped k))
    (s.pumpList_pumped _ _)

/-! ## Packets that are resent (R429) -/

/-- A packet in flight takes another plane if it is the one resent. -/
def Flight.replan (f : Flight) (p : Nat) (x : Flight) : Flight :=
  if x.peer = f.peer ∧ x.serial = f.serial ∧ x.seq = f.seq ∧ x.body.cls = f.body.cls then { x with plane := p } else x

theorem Flight.replan_self (f : Flight) (p : Nat) : f.replan p f = { f with plane := p } := by
  simp [Flight.replan]

theorem Flight.is_iff {f : Flight} {peer serial cls seq : Nat} :
    f.is peer serial cls seq = true ↔ f.peer = peer ∧ f.serial = serial ∧ f.body.cls = cls ∧ f.seq = seq := by
  simp [Flight.is, and_assoc]

@[simp] theorem Flight.is_replan (f : Flight) (p : Nat) (x : Flight) (peer serial cls seq : Nat) :
    (f.replan p x).is peer serial cls seq = x.is peer serial cls seq := by
  unfold Flight.replan
  split <;> rfl

theorem State.flightOf_is {s : State} {peer serial cls seq : Nat} {f : Flight} (h : s.flightOf peer serial cls seq = some f) :
    f.peer = peer ∧ f.serial = serial ∧ f.body.cls = cls ∧ f.seq = seq :=
  Flight.is_iff.mp (List.find?_some (p := fun f => Flight.is f peer serial cls seq) h)

/-- A change of every flight that keeps their names changes the flight of a name alike. -/
theorem State.flightOf_map {s t : State} {g : Flight → Flight} {peer serial cls seq : Nat}
    (hg : ∀ x, (g x).is peer serial cls seq = x.is peer serial cls seq) (ht : t.relay.flights = s.relay.flights.map g) :
    t.flightOf peer serial cls seq = (s.flightOf peer serial cls seq).map g := by
  unfold State.flightOf
  rw [ht, List.find?_map]
  congr 1
  exact congrArg (fun p => List.find? p _) (funext hg)

theorem State.reg_countSent_ne (s : State) (cls pkey : Nat) {o : Nat} (h : o ≠ Reg.rlyFallbackPkts) :
    (s.countSent cls pkey).reg o = s.reg o := by
  have hwide : (s.bumpWide Reg.rlyTxPktsLo 1).reg o = s.reg o := by rw [State.bumpWide_frame]; rfl
  unfold State.countSent
  extract_lets counted
  split
  · exact (State.reg_bump_ne counted 1 h).trans hwide
  · exact hwide

/-- The state in which a packet has been sent again on a plane, before it is counted. -/
def State.resentOn (s : State) (f : Flight) (p : Nat) : State :=
  { s with
    relay := { s.relay with flights := s.relay.flights.map (f.replan p) }
    sent := s.sent ++ [.relay f.peer f.body.cls f.seq f.frame] }

/-- What is resent is the packet's stored frame, and it is counted (R429). -/
theorem State.resend_eq {s : State} {f : Flight} {p : Nat} (h : s.nextPlane f.peer f.plane = some p) : s.resend f =
    ((s.resentOn f p).countSent f.body.cls (beNat (slice f.frame 2 2))).bump Reg.rlyRetransmit 1 := by
  simp only [State.resend, h]
  rfl

/-- A packet in flight has been sent again on a plane: its frame is sent, it is counted, and nothing else has changed but the
counts of packets sent. -/
structure State.Resends (s : State) (f : Flight) (p : Nat) (t : State) : Prop where
  frame : t = { s.resentOn f p with wide := t.wide, regs := t.regs }
  counted : t.reg Reg.rlyRetransmit = satAdd (s.reg Reg.rlyRetransmit) 1

theorem State.resend_resends {s : State} {f : Flight} {p : Nat} (h : s.nextPlane f.peer f.plane = some p) :
    s.Resends f p (s.resend f) where
  frame := by rw [State.resend_eq h, State.bump_frame, State.countSent_frame]
  counted := by
    rw [State.resend_eq h, State.reg_bump_same _ _ Nat.one_pos, State.reg_countSent_ne _ _ _ (by decide)]
    rfl

/-- The packet resent is in flight on its new plane. -/
theorem State.Resends.flightOf {s t : State} {f : Flight} {p : Nat} (h : s.Resends f p t)
    (hf : s.flightOf f.peer f.serial f.body.cls f.seq = some f) :
    t.flightOf f.peer f.serial f.body.cls f.seq = some { f with plane := p } := by
  rw [State.flightOf_map (s := s) (fun x => f.is_replan p x _ _ _ _) (by rw [h.frame]; rfl), hf, Option.map_some,
    Flight.replan_self]

end Sys2Proof.Machine
end

section
/-! PROOFS. Resends, planes, links, rate levels, acknowledgements and addresses of the relay. -/

namespace Sys2Proof.Machine

/-! ## RETRANSMISSION_TIMEOUT and NOT_READY_RESEND (R428, R429) -/

/-- A packet in flight has had one timeout more if it is the one named. -/
def Flight.expire (peer serial cls seq : Nat) (x : Flight) : Flight :=
  if x.is peer serial cls seq then { x with expiries := x.expiries + 1 } else x

theorem Flight.is_expire (peer serial cls seq : Nat) (x : Flight) :
    (x.expire peer serial cls seq).is peer serial cls seq = x.is peer serial cls seq := by
  unfold Flight.expire
  split <;> rfl

/-- The planes that are unusable after a packet's timeout (R430). -/
def State.unusableAfter (s : State) (key : Nat) : List Nat :=
  if 2 ≤ Tab.get 0 s.relay.planeExpiries key + 1 ∧ !s.relay.unusable.contains key then s.relay.unusable ++ [key]
  else s.relay.unusable

/-- The state in which the timeout of a packet on a plane is counted. -/
def State.countedTimeout (s : State) (peer serial cls seq key : Nat) : State :=
  s.setRelay { s.relay with
    flights := s.relay.flights.map (Flight.expire peer serial cls seq)
    planeExpiries := Tab.put s.relay.planeExpiries key (Tab.get 0 s.relay.planeExpiries key + 1)
    unusable := s.unusableAfter key }

theorem State.countedTimeout_flightOf {s : State} {peer serial cls seq : Nat} {f : Flight} (key : Nat)
    (h : s.flightOf peer serial cls seq = some f) :
    (s.countedTimeout peer serial cls seq key).flightOf peer serial cls seq = some { f with expiries := f.expiries + 1 } := by
  have hf : f.expire peer serial cls seq = { f with expiries := f.expiries + 1 } :=
    if_pos (Flight.is_iff.mpr (State.flightOf_is h))
  rw [State.flightOf_map (s := s) (Flight.is_expire peer serial cls seq) rfl, h, Option.map_some, hf]

theorem exec_retransmissionTimeout {s : State} {peer serial cls seq : Nat} {f : Flight}
    (h : s.flightOf peer serial cls seq = some f) :
    exec (.retransmissionTimeout peer serial cls seq) s =
      .next ((s.countedTimeout peer serial cls seq (8 * peer + f.plane)).resend { f with expiries := f.expiries + 1 }) := by
  have hcounted := State.countedTimeout_flightOf (8 * peer + f.plane) h
  simp only [exec, execRetransmissionTimeout, h]
  split
  case h_1 g hg =>
    obtain rfl := Option.some.inj (hg.symm.trans hcounted)
    rfl
  case h_2 hg => exact absurd (hg.symm.trans hcounted) (Option.some_ne_none _).symm

/-- A timeout resends the packet on the plane after its own, and a plane's second timeout in a row ends its use (R429, R430). -/
theorem retransmissionTimeout_resends {peer serial cls seq p : Nat} {f : Flight} {s : State}
    (h : s.flightOf peer serial cls seq = some f)
    (hp : ({ s with relay := { s.relay with unusable := s.unusableAfter (8 * peer + f.plane) } } : State).nextPlane f.peer f.plane =
      some p) :
    ∃ t, exec (.retransmissionTimeout peer serial cls seq) s = .next t ∧ t.relay.unusable = s.unusableAfter (8 * peer + f.plane) ∧
      t.sent = s.sent ++ [.relay peer cls seq f.frame] ∧ t.reg Reg.rlyRetransmit = satAdd (s.reg Reg.rlyRetransmit) 1 ∧
      (t.flightOf peer serial cls seq).map (fun g => (g.frame, g.expiries, g.plane)) = some (f.frame, f.expiries + 1, p) ∧
      t.mem = s.mem ∧ t.host = s.host ∧ t.rings = s.rings ∧ t.job = s.job ∧ t.sec = s.sec ∧ t.running = s.running := by
  obtain ⟨rfl, rfl, rfl, rfl⟩ := State.flightOf_is h
  have hcounted := State.countedTimeout_flightOf (8 * f.peer + f.plane) h
  have hresent := State.resend_resends (s := s.countedTimeout f.peer f.serial f.body.cls f.seq (8 * f.peer + f.plane))
    (f := { f with expiries := f.expiries + 1 }) hp
  refine ⟨_, exec_retransmissionTimeout h, ?_⟩
  generalize State.resend _ _ = t at hresent ⊢
  refine ⟨?_, ?_, hresent.counted, by rw [hresent.flightOf hcounted]; rfl, ?_⟩
  all_goals
    rw [hresent.frame]
  · rfl
  · rfl
  · exact ⟨rfl, rfl, rfl, rfl, rfl, rfl⟩

/-- 64 µs after a NOT_READY or a NO_JOB the packet is resent (R428). -/
theorem notReadyResend_resends {peer serial cls seq p : Nat} {f : Flight} {s : State}
    (hwaits : s.relay.notReady = [(peer, serial, cls, seq)]) (h : s.flightOf peer serial cls seq = some f)
    (hp : s.nextPlane f.peer f.plane = some p) :
    ∃ t, exec (.notReadyResend peer serial cls seq) s = .next t ∧ t.relay.notReady = [] ∧
      t.sent = s.sent ++ [.relay peer cls seq f.frame] ∧ t.reg Reg.rlyRetransmit = satAdd (s.reg Reg.rlyRetransmit) 1 ∧
      t.mem = s.mem ∧ t.host = s.host ∧ t.rings = s.rings ∧ t.job = s.job ∧ t.sec = s.sec ∧ t.running = s.running := by
  obtain ⟨rfl, rfl, rfl, rfl⟩ := State.flightOf_is h
  have hresent := State.resend_resends (s := s.setRelay { s.relay with notReady := [] }) (f := f) hp
  have hexec : exec (.notReadyResend f.peer f.serial f.body.cls f.seq) s =
      .next ((s.setRelay { s.relay with notReady := [] }).resend f) := by
    have hflight : (s.setRelay { s.relay with notReady := [] }).flightOf f.peer f.serial f.body.cls f.seq = some f := h
    simp only [exec, execNotReadyResend, hwaits, List.contains_cons, BEq.rfl, Bool.true_or, if_true, List.erase_cons_head, hflight]
  refine ⟨_, hexec, ?_⟩
  generalize State.resend _ _ = t at hresent ⊢
  refine ⟨?_, ?_, hresent.counted, ?_⟩
  all_goals
    rw [hresent.frame]
  · rfl
  · rfl
  · exact ⟨rfl, rfl, rfl, rfl, rfl, rfl⟩

/-! ## PLANE_PROBE and LINK_STATE_CHANGE (R430) -/

/-- A probe makes its plane usable again. -/
theorem planeProbe_frees {peer plane : Nat} {s : State} (h : 8 * peer + plane ∈ s.relay.unusable) :
    ∃ t, exec (.planeProbe peer plane) s = .next t ∧ ¬ 8 * peer + plane ∈ t.relay.unusable ∧
      t.mem = s.mem ∧ t.host = s.host ∧ t.rings = s.rings ∧ t.job = s.job ∧ t.running = s.running := by
  refine ⟨_, by rw [exec, execPlaneProbe, if_pos (List.contains_iff_mem.mpr h)], ?_⟩
  rw [State.pump_pumped]
  refine ⟨?_, rfl, rfl, rfl, rfl, rfl⟩
  exact fun hmem => by simpa using (List.mem_filter.mp hmem).2

/-- The ports whose link is up after one has changed, ascending. -/
def linksAfter (links : List Nat) (port : Nat) (up : Bool) : List Nat :=
  let others := links.filter fun p => p != port
  if up then (others.filter fun p => decide (p < port)) ++ [port] ++ others.filter fun p => decide (port < p) else others

theorem mem_linksAfter_same (links : List Nat) (port : Nat) (up : Bool) : port ∈ linksAfter links port up ↔ up = true := by
  cases up <;> simp [linksAfter]

theorem mem_linksAfter_ne (links : List Nat) {port n : Nat} (up : Bool) (h : n ≠ port) :
    n ∈ linksAfter links port up ↔ n ∈ links := by
  cases up with
  | false => simp [linksAfter, h]
  | true =>
    have hside : n < port ∨ port < n := Nat.lt_or_gt_of_ne h
    simp only [linksAfter, if_true, List.mem_append, List.mem_filter, List.mem_singleton, bne_iff_ne, decide_eq_true_eq]
    tauto

/-- A port's link is as its change says, and the links of the others stay. -/
theorem linkStateChange_sets {port : Nat} {up : Bool} {s : State} (h : port < 8) :
    ∃ t, exec (.linkStateChange port up) s = .next t ∧ (port ∈ t.relay.links ↔ up = true) ∧
      (∀ n, n ≠ port → (n ∈ t.relay.links ↔ n ∈ s.relay.links)) ∧
      t.mem = s.mem ∧ t.host = s.host ∧ t.rings = s.rings ∧ t.job = s.job ∧ t.running = s.running := by
  refine ⟨_, by rw [exec, execLinkStateChange, if_neg (Nat.not_le.mpr h)], ?_⟩
  rw [State.pump_pumped]
  exact ⟨mem_linksAfter_same s.relay.links port up, fun n hn => mem_linksAfter_ne s.relay.links up hn, rfl, rfl, rfl, rfl, rfl⟩

/-! ## CNP_RECEIVED and RATE_LEVEL_DECAY (R433) -/

/-- A rise of a rate level is due: none has been within 50 µs. -/
def State.riseDue (s : State) (key : Nat) : Bool :=
  (Tab.look s.relay.raised key).all fun t => decide (t + microseconds 50 ≤ s.clk)

/-- The relay after a CNP: the CNP is seen, and where a rise is due the rate level rises by one, to 15 at most (R433). -/
def State.cnpSeenBy (s : State) (key : Nat) : RelayState :=
  let seen := { s.relay with cnpSeen := Tab.put s.relay.cnpSeen key s.clk }
  if s.riseDue key then
    { seen with
      rates := Tab.put s.relay.rates key (min 15 (Tab.get 0 s.relay.rates key + 1))
      raised := Tab.put s.relay.raised key s.clk }
  else seen

theorem State.cnpSeenBy_rates (s : State) (key : Nat) : (s.cnpSeenBy key).rates =
    if s.riseDue key then Tab.put s.relay.rates key (min 15 (Tab.get 0 s.relay.rates key + 1)) else s.relay.rates :=
  apply_ite RelayState.rates _ _ _

theorem exec_cnpReceived {peer plane : Nat} {s : State} (hplane : plane < 8) (hpeer : (Tab.look s.relay.peers peer).isSome = true) :
    exec (.cnpReceived peer plane) s = .next ((s.bump Reg.rlyCnpRx 1).setRelay (s.cnpSeenBy (8 * peer + plane))) := by
  have hknown : ¬ (plane ≥ 8 ∨ (!((Tab.look s.relay.peers peer).isSome ||
      (decide (65536 ≤ peer) && (Tab.look s.relay.qps (peer - 65536)).isSome))) = true) := by
    simp [hpeer, hplane]
  rw [exec, execCnpReceived, if_neg hknown]
  simp only [State.bump_relay, State.bump_clk, State.cnpSeenBy, State.riseDue]
  obtain hraised | ⟨t, hraised⟩ := Option.eq_none_or_eq_some (Tab.look s.relay.raised (8 * peer + plane))
  · simp only [hraised, Option.all_none, if_true]
  · simp only [hraised, Option.all_some]
    split <;> rfl

theorem cnpReceived_raises {peer plane : Nat} {s : State} (hplane : plane < 8) (hpeer : (Tab.look s.relay.peers peer).isSome = true) :
    ∃ t, exec (.cnpReceived peer plane) s = .next t ∧ t.reg Reg.rlyCnpRx = satAdd (s.reg Reg.rlyCnpRx) 1 ∧
      Tab.get 0 t.relay.rates (8 * peer + plane) =
        (if s.riseDue (8 * peer + plane) then min 15 (Tab.get 0 s.relay.rates (8 * peer + plane) + 1)
          else Tab.get 0 s.relay.rates (8 * peer + plane)) ∧
      (∀ k, k ≠ 8 * peer + plane → Tab.get 0 t.relay.rates k = Tab.get 0 s.relay.rates k) ∧ t.sent = s.sent ∧ t.mem = s.mem := by
  refine ⟨_, exec_cnpReceived hplane hpeer, State.reg_bump_same s _ Nat.one_pos, ?level, fun k hk => ?others, s.bump_sent _ _,
    s.bump_mem _ _⟩
  all_goals
    refine (congrArg (fun l => Tab.get 0 l _) (s.cnpSeenBy_rates _)).trans ?_
    split
  · exact Tab.get_put_same _ _ _ _
  · rfl
  · exact Tab.get_put_ne _ _ _ hk
  · rfl

/-- 200 µs without a CNP lower the rate level by one. -/
theorem rateLevelDecay_lowers {peer plane : Nat} {s : State} (hlevel : 0 < Tab.get 0 s.relay.rates (8 * peer + plane))
    (hquiet : Tab.get 0 s.relay.cnpSeen (8 * peer + plane) + microseconds 200 ≤ s.clk) :
    ∃ t, exec (.rateLevelDecay peer plane) s = .next t ∧
      Tab.get 0 t.relay.rates (8 * peer + plane) + 1 = Tab.get 0 s.relay.rates (8 * peer + plane) ∧
      (∀ k, k ≠ 8 * peer + plane → Tab.get 0 t.relay.rates k = Tab.get 0 s.relay.rates k) ∧
      t = { s with relay := t.relay } := by
  have hdue : ¬ (Tab.get 0 s.relay.rates (8 * peer + plane) = 0 ∨
      s.clk < Tab.get 0 s.relay.cnpSeen (8 * peer + plane) + microseconds 200) := by omega
  refine ⟨_, by rw [exec, execRateLevelDecay, if_neg hdue], ?level, fun k hk => ?others, rfl⟩
  all_goals
    dsimp only [State.setRelay]
    split
  case level.isTrue hone => rw [Tab.get_del_same, hone]
  case level.isFalse hmore => rw [Tab.get_put_same]; omega
  case others.isTrue => exact Tab.get_del_ne _ _ hk
  case others.isFalse => exact Tab.get_put_ne _ _ _ hk

/-! ## ACK_TIMER_EXPIRY and ARP_REQUEST (R406, R428) -/

theorem exec_ackTimerExpiry {peer serial cls : Nat} {s : State} (h : 0 < (s.recvStream peer serial cls).unacked) :
    exec (.ackTimerExpiry peer serial cls) s = .next (s.sendAck peer serial cls .none 0 0) := by
  simp [exec, execAckTimerExpiry, State.ackIfDue, h]

/-- An address of the module on the port is answered for (R406). -/
theorem exec_arpRequest_own {port : Nat} {asker : List Byte} {r : LocalRecord} {s : State} (hport : port < 8)
    (hlocal : s.relay.local_ = some r) :
    exec (.arpRequest port r.ipv6 (slice r.address (16 * port) (if r.ipv6 then 16 else 4)) asker) s =
      .next { s with sent := s.sent ++ [.arp port (slice r.address (16 * port) (if r.ipv6 then 16 else 4) ++ asker)] } := by
  simp only [exec, execArpRequest, hlocal, hport, and_self, if_true]
  rfl

/-- Settles O45: each timer and each frame makes the one change of the relay that the lemmas above name, and sending what may go
then touches neither planes, links nor rate levels. -/
theorem relayTimersAndRates : Obligations.RelayTimersAndRates := by
  unfold Obligations.RelayTimersAndRates
  refine ⟨⟨?timeout, ?notReady, ?probe, ?link⟩, ?cnp, ?decay, ?ack, ?discarded, ?arp⟩
  case timeout => exact fun peer serial cls seq p f s hf hp => retransmissionTimeout_resends hf hp
  case notReady => exact fun peer serial cls seq p f s hwaits hf hp => notReadyResend_resends hwaits hf hp
  case probe => exact fun peer plane s h => planeProbe_frees h
  case link => exact fun port up s h => linkStateChange_sets h
  case cnp => exact fun peer plane s hplane hpeer => cnpReceived_raises hplane hpeer
  case decay => exact fun peer plane s hlevel hquiet => rateLevelDecay_lowers hlevel hquiet
  case ack => exact fun peer serial cls s h => exec_ackTimerExpiry h
  case discarded => exact fun _ => rfl
  case arp =>
    rintro port ipv6 asker r s hport hlocal rfl
    exact exec_arpRequest_own hport hlocal

end Sys2Proof.Machine
end

section
/-! PROOFS. The LOCAL record, peer states and queue pairs. -/

namespace Sys2Proof.Machine

/-! ## Commands that send what may go (R430, R431) -/

theorem State.pump_dues (s : State) (r : Record) : s.pump.dues r = s.dues r :=
  State.dues_congr (by rw [State.pump_pumped]; rfl) (fun n => by rw [State.ring_congr (s := s) (by rw [State.pump_pumped]; rfl)]) r

/-- An effect that completes with OK and then sends what may go owes the packet's record, and writes what a completion and sending
write alone. -/
theorem State.Enters.complete_pump {s u v : State} (hu : s.Enters u) (hv : u.SameRecords v) (p : Packet) :
    ∃ t, (v.complete p Status.ok 0 0 0).pump = t ∧ t.owes s p Status.ok 0 = true ∧ t = (v.bookkept t).pumped t := by
  obtain ⟨howes, hframe⟩ := hu.complete hv p State.countStatus_ok 0 0 0
  refine ⟨_, rfl, by rw [State.owes, State.pump_dues]; exact howes, ?_⟩
  generalize v.complete p Status.ok 0 0 0 = w at hframe
  have hpump := w.pump_pumped
  generalize w.pump = t at hpump
  rw [hpump, hframe]
  rfl

/-! ## RELAY_PEER_SET with kind LOCAL (R409, R410) -/

theorem State.acceptLocal_frame (s : State) (r : LocalRecord) :
    s.acceptLocal r = { s with memory := (s.acceptLocal r).memory, relay := (s.acceptLocal r).relay } := rfl

theorem State.acceptLocal_peers (s : State) (r : LocalRecord) : (s.acceptLocal r).relay.peers =
    if s.relay.local_.any (fun o => o.stateBase == r.stateBase) then s.relay.peers else [] := rfl

/-- The record's state area stands among the guards. -/
theorem State.acceptLocal_guards (s : State) (r : LocalRecord) :
    ((s.acceptLocal r).memory.guards.any fun g => g.kind == .relayState && g.lo == r.stateBase) = true := by
  simp [State.acceptLocal, State.guard, State.setRelay]

theorem relayPeerSetLocal_accepts {p : Packet} {s : State} (hkind : peerKind p ≠ 2)
    (h : s.accepts relayPeerSetLocalCommand p = true) (hclean : s.poisonedIn [⟨peerRecord p, 256⟩] = none) :
    ∃ t, exec (.relayPeerSetLocal p) s = .next t ∧ t.owes s p Status.ok 0 = true ∧
      t.relay.local_ = some (localRecordOf (s.load (peerRecord p) 256)) ∧
      (t.memory.guards.any fun g => g.kind == .relayState && g.lo == leField (s.load (peerRecord p) 256) 8 8) = true ∧
      ((s.relay.local_.any fun o => o.stateBase == leField (s.load (peerRecord p) 256) 8 8) = false → t.relay.peers = []) ∧
      t.mem = s.mem ∧ t.host = s.host ∧ t.running = s.running ∧ t.job = s.job ∧ t.sec = s.sec := by
  obtain ⟨u, hu, hstart⟩ := Command.start_enters h
  have hload : u.load (peerRecord p) 256 = s.load (peerRecord p) 256 := by rw [hu.frame]; rfl
  have hrelay : u.relay = s.relay := by rw [hu.frame]; rfl
  have heff : relayPeerSetLocalCommand.effect p u =
      ((u.acceptLocal (localRecordOf (s.load (peerRecord p) 256))).complete p Status.ok 0 0 0).pump := by
    have hpoison : u.poisonedIn [⟨peerRecord p, 256⟩] = none := by rw [hu.frame]; exact hclean
    simp only [relayPeerSetLocalCommand, State.orPoisoned, hpoison, hload]
  have hguards := u.acceptLocal_guards (localRecordOf (s.load (peerRecord p) 256))
  have hpeers := u.acceptLocal_peers (localRecordOf (s.load (peerRecord p) 256))
  obtain ⟨t, ht, howes, hframe⟩ := hu.complete_pump (v := u.acceptLocal (localRecordOf (s.load (peerRecord p) 256))) {} p
  refine ⟨t, congrArg Host.Outcome.next ((if_neg hkind).trans (hstart.trans (heff.trans ht))), howes, ?_⟩
  rw [hframe]
  refine ⟨rfl, hguards, fun hnew => hpeers.trans ?_, ?_⟩
  · rw [hrelay]; exact if_neg (ne_true_of_eq_false hnew)
  · rw [u.acceptLocal_frame, hu.frame]
    simp only [State.pumped, State.bookkept, and_self]

/-! ## RELAY_PEER_SET with kind MODULES (R410) -/

/-- Enter a value under a key, or take the key's entry away. -/
def Tab.enter {α : Type} (t : Tab α) (x : Nat) : Option α → Tab α
  | some w => Tab.put t x w
  | none => Tab.del t x

@[simp] theorem Tab.look_enter_same {α : Type} (t : Tab α) (x : Nat) (w : Option α) : Tab.look (Tab.enter t x w) x = w := by
  cases w with
  | some w => exact Tab.look_put_same t x w
  | none => exact Tab.look_del_same t x

theorem Tab.look_enter_ne {α : Type} (t : Tab α) {x y : Nat} (w : Option α) (h : y ≠ x) :
    Tab.look (Tab.enter t x w) y = Tab.look t y := by
  cases w with
  | some w => exact Tab.look_put_ne t w h
  | none => exact Tab.look_del_ne t h

/-- What module entry i of a packet says of its module: a peer state where it is VALID, none otherwise (R410). -/
def State.peerGiven (s : State) (p : Packet) (i : Nat) : Option PeerEntry :=
  let b := s.load (peerRecord p + 160 * i) 160
  if bitOf (leField b 2 2) 0 then some ⟨bitOf (leField b 2 2) 1, slice b 16 128⟩ else none

theorem State.enter_peerGiven (s : State) (p : Packet) (i : Nat) (l : Tab PeerEntry) (n : Nat) :
    Tab.enter l n (s.peerGiven p i) =
      if bitOf (leField (s.load (peerRecord p + 160 * i) 160) 2 2) 0 then
        Tab.put l n ⟨bitOf (leField (s.load (peerRecord p + 160 * i) 160) 2 2) 1, slice (s.load (peerRecord p + 160 * i) 160) 16 128⟩
      else Tab.del l n :=
  apply_ite (Tab.enter l n) _ _ _

/-- The peer states after the first k module entries of a packet. -/
def State.peersAfter (s : State) (p : Packet) : Nat → Tab PeerEntry
  | 0 => s.relay.peers
  | k + 1 => Tab.enter (s.peersAfter p k) (p.param 4 4 + k) (s.peerGiven p k)

theorem State.setPeers_eq (s : State) (p : Packet) :
    s.setPeers p = s.setRelay { s.relay with peers := s.peersAfter p (p.param 8 4) } := by
  unfold State.setPeers
  generalize p.param 8 4 = k
  induction k with
  | zero => rfl
  | succ k ih =>
    rw [List.range_succ, List.foldl_append, ih, List.foldl_cons, List.foldl_nil]
    rw [State.peersAfter, State.enter_peerGiven]
    rfl

theorem State.look_peersAfter_given (s : State) (p : Packet) {k i : Nat} (h : i < k) :
    Tab.look (s.peersAfter p k) (p.param 4 4 + i) = s.peerGiven p i := by
  induction k with
  | zero => exact absurd h (Nat.not_lt_zero i)
  | succ k ih =>
    rw [State.peersAfter]
    obtain hlt | rfl := Nat.lt_succ_iff_lt_or_eq.mp h
    · rw [Tab.look_enter_ne _ _ (by omega), ih hlt]
    · exact Tab.look_enter_same _ _ _

theorem State.look_peersAfter_other (s : State) (p : Packet) {k n : Nat} (h : n < p.param 4 4 ∨ p.param 4 4 + k ≤ n) :
    Tab.look (s.peersAfter p k) n = Tab.look s.relay.peers n := by
  induction k with
  | zero => rfl
  | succ k ih => rw [State.peersAfter, Tab.look_enter_ne _ _ (by omega), ih (by omega)]

theorem relayPeerSetModules_accepts {p : Packet} {s : State} (hkind : peerKind p = 2)
    (h : s.accepts relayPeerSetModulesCommand p = true) (hclean : s.poisonedIn [peerEntries p] = none) :
    ∃ t, exec (.relayPeerSetModules p) s = .next t ∧ t.owes s p Status.ok 0 = true ∧
      (∀ i, i < p.param 8 4 → Tab.look t.relay.peers (p.param 4 4 + i) = s.peerGiven p i) ∧
      (∀ n, (n < p.param 4 4 ∨ p.param 4 4 + p.param 8 4 ≤ n) → Tab.look t.relay.peers n = Tab.look s.relay.peers n) ∧
      t.relay.local_ = s.relay.local_ ∧ t.mem = s.mem ∧ t.host = s.host ∧ t.running = s.running ∧ t.job = s.job ∧
      t.sec = s.sec := by
  obtain ⟨u, hu, hstart⟩ := Command.start_enters h
  have heff : relayPeerSetModulesCommand.effect p u = ((u.setPeers p).complete p Status.ok 0 0 0).pump := by
    have hpoison : u.poisonedIn [peerEntries p] = none := by rw [hu.frame]; exact hclean
    simp only [relayPeerSetModulesCommand, State.orPoisoned, hpoison]
  rw [State.setPeers_eq] at heff
  obtain ⟨t, ht, howes, hframe⟩ := hu.complete_pump
    (v := u.setRelay { u.relay with peers := u.peersAfter p (p.param 8 4) }) {} p
  refine ⟨t, congrArg Host.Outcome.next ((if_pos hkind).trans (hstart.trans (heff.trans ht))), howes, ?_⟩
  rw [hframe]
  refine ⟨fun i hi => (u.look_peersAfter_given p hi).trans ?_, fun n hn => (u.look_peersAfter_other p hn).trans ?_, ?_⟩
  all_goals
    rw [hu.frame]
  · rfl
  · rfl
  · simp only [State.pumped, State.bookkept, State.setRelay, and_self]

/-! ## RELAY_QP_CREATE and RELAY_QP_DESTROY (R414, R438) -/

/-- The queue pair that a packet enters: its parameter block and its first packet numbers (R414). -/
def Packet.newQp (p : Packet) : QueuePair :=
  ⟨p.paramBytes 0 128, p.param 8 4, p.param 12 4, 0, false, 0, 0, 0, false, false, 0, false, 0, [], []⟩

theorem State.qp_setQp_same (s : State) (n : Nat) (q : QueuePair) : (s.setQp n q).qp n = some q :=
  Tab.look_put_same s.relay.qps n q

theorem State.qp_setQp_ne (s : State) {n m : Nat} (q : QueuePair) (h : m ≠ n) : (s.setQp n q).qp m = s.qp m :=
  Tab.look_put_ne s.relay.qps q h

theorem relayQpCreate_enters {p : Packet} {s : State} (h : s.accepts relayQpCreateCommand p = true) :
    ∃ t, exec (.relayQpCreate p) s = .next t ∧ t.owes s p Status.ok 0 = true ∧ t.qp (p.param 0 2) = some p.newQp ∧
      (∀ n, n ≠ p.param 0 2 → t.qp n = s.qp n) ∧ t = { s.bookkept t with relay := { s.relay with qps := t.relay.qps } } := by
  obtain ⟨u, hu, hstart⟩ := Command.start_enters h
  have heff : relayQpCreateCommand.effect p u = (u.setQp (p.param 0 2) p.newQp).complete p Status.ok 0 0 0 := rfl
  obtain ⟨howes, hframe⟩ := hu.complete (v := u.setQp (p.param 0 2) p.newQp) {} p State.countStatus_ok 0 0 0
  refine ⟨_, congrArg Host.Outcome.next (hstart.trans heff), howes, ?_⟩
  rw [hframe]
  refine ⟨u.qp_setQp_same _ _, fun n hn => (u.qp_setQp_ne _ hn).trans ?_, ?_⟩
  · rw [hu.frame]
    rfl
  · rw [hu.frame]
    rfl

/-- A queue pair without outstanding work enters its error state and nothing completes. -/
theorem State.failQp_idle {s : State} {n : Nat} {q : QueuePair} (syndrome : Nat) (hq : s.qp n = some q) (hwork : q.work = []) :
    ∃ q', s.failQp n syndrome = s.setQp n q' := by
  simp only [State.failQp, hq, hwork, List.foldl_nil]
  exact ⟨_, rfl⟩

theorem relayQpDestroy_removes {p : Packet} {q : QueuePair} {s : State} (h : s.accepts relayQpDestroyCommand p = true)
    (hq : s.qp (p.param 0 2) = some q) (hwork : q.work = []) :
    ∃ t, exec (.relayQpDestroy p) s = .next t ∧ t.owes s p Status.ok 0 = true ∧ t.qp (p.param 0 2) = none ∧
      (∀ n, n ≠ p.param 0 2 → t.qp n = s.qp n) ∧ t = { s.bookkept t with relay := { s.relay with qps := t.relay.qps } } := by
  obtain ⟨u, hu, hstart⟩ := Command.start_enters h
  obtain ⟨q', hfail⟩ := u.failQp_idle (n := p.param 0 2) Config.silentSyndrome (by rw [hu.frame]; exact hq) hwork
  have heff : relayQpDestroyCommand.effect p u = (u.setRelay { u.relay with
      qps := Tab.del (Tab.put u.relay.qps (p.param 0 2) q') (p.param 0 2) }).complete p Status.ok 0 0 0 := by
    simp only [relayQpDestroyCommand, hfail]
    rfl
  obtain ⟨howes, hframe⟩ := hu.complete (v := u.setRelay { u.relay with
      qps := Tab.del (Tab.put u.relay.qps (p.param 0 2) q') (p.param 0 2) }) {} p State.countStatus_ok 0 0 0
  refine ⟨_, congrArg Host.Outcome.next (hstart.trans heff), howes, ?_⟩
  rw [hframe]
  refine ⟨Tab.look_del_same _ _, fun n hn => (Tab.look_del_ne _ hn).trans ((Tab.look_put_ne _ _ hn).trans ?_), ?_⟩
  · rw [hu.frame]
    rfl
  · rw [hu.frame]
    rfl

/-- Settles O41: each command changes the part of the relay's state that the lemmas above name, and sending what may go then
touches neither the LOCAL record, peers nor queue pairs. -/
theorem peersAndQueuePairs : Obligations.PeersAndQueuePairs := by
  unfold Obligations.PeersAndQueuePairs
  refine ⟨⟨?localRecord, ?modules⟩, ?create, ?destroy⟩
  case localRecord => exact fun p s hkind h hclean => relayPeerSetLocal_accepts hkind h hclean
  case modules => exact fun p s hkind h hclean => relayPeerSetModules_accepts hkind h hclean
  case create =>
    intro p s h
    obtain ⟨t, hexec, howes, hqp, hrest⟩ := relayQpCreate_enters h
    exact ⟨t, p.newQp, hexec, howes, hqp, rfl, rfl, rfl, rfl, rfl, hrest⟩
  case destroy => exact fun p q s h hq hwork => relayQpDestroy_removes h hq hwork

end Sys2Proof.Machine
end

section
/-! SUPPORT. What the end of operations leaves of rings, held records and running commands, when no command is left running. -/

namespace Sys2Proof.Machine

/-! ## Rings, held records and running commands -/

/-- Rings, held records and running commands are as before. -/
structure State.SameCommands (s t : State) : Prop where
  rings : t.rings = s.rings := by rfl
  held : t.held = s.held := by rfl
  running : t.running = s.running := by rfl

namespace State.SameCommands

theorem refl (s : State) : SameCommands s s := {}

theorem trans {s t u : State} (h : SameCommands s t) (k : SameCommands t u) : SameCommands s u where
  rings := k.rings.trans h.rings
  held := k.held.trans h.held
  running := k.running.trans h.running

theorem owes {s t : State} (h : SameCommands s t) {s' : State} {p : Packet} {st : Status} {detail : Nat}
    (hs : s.owes s' p st detail = true) : t.owes s' p st detail = true := by
  rw [State.owes, State.dues_congr h.held (fun n => by rw [State.ring_congr h.rings n])]
  exact hs

end State.SameCommands

theorem State.Undisturbed.sameCommands {s t : State} (h : s.Undisturbed t) : s.SameCommands t := ⟨h.rings, h.held, h.running⟩

theorem State.sameCommands_of_pumped {s t : State} (h : t = s.pumped t) : s.SameCommands t := by
  rw [h]
  exact {}

theorem State.setRelay_sameCommands (s : State) (r : RelayState) : s.SameCommands (s.setRelay r) := {}

/-! ## Commands that end (R87, R438) -/

/-- The only command running completes, and nothing waits for its end. -/
theorem State.finish_wake_of_single {s : State} {o : RunOp} (h : s.running = [o]) (st : Status) (detail : Nat) :
    (s.finish o st detail).wake = ({ s with running := [] } : State).complete o.pkt st detail o.position o.total := by
  have hleft : s.withdraw o = { s with running := [] } := by simp [State.withdraw, h]
  rw [State.finish, hleft]
  exact State.wake_of_idle (State.complete_running _ _ _ _ _ _)

/-- The operations of a RELAY_POST, which its end drops. -/
def postOwns (ring : Nat) (seq : Word) (_ : Nat) (o : RelayOp) : Bool := o.owner == .post ring seq

/-- The only command running is a RELAY_POST that ends: its record is owed, its operations are dropped, and nothing waits for its
end. -/
structure State.EndsPost (s : State) (o : RunOp) (ring : Nat) (seq : Word) (st : Status) (detail : Nat) (t : State) : Prop where
  owes : t.owes s o.pkt st detail = true
  running : t.running = []
  relay : t.relay = (s.dropOps (postOwns ring seq)).relay
  mem : t.mem = s.mem
  host : t.host = s.host
  job : t.job = s.job

theorem State.endPost_ends {s : State} {o : RunOp} {ring : Nat} {seq : Word} (hrun : s.running = [o])
    (hpost : s.postCommand ring seq = some o) (st : Status) (detail : Nat) :
    s.EndsPost o ring seq st detail (s.endPost ring seq st detail) := by
  have hend : s.endPost ring seq st detail = ((s.dropOps (postOwns ring seq)).finish o st detail).wake := by
    unfold State.endPost
    extract_lets t
    rw [show t.postCommand ring seq = some o from hpost]
    rfl
  rw [hend, State.finish_wake_of_single (s := s.dropOps (postOwns ring seq)) hrun]
  exact ⟨State.complete_owes _ _ _ _ _ rfl rfl fun _ => rfl, State.complete_running _ _ _ _ _ _, State.complete_relay _ _ _ _ _ _,
    State.complete_mem _ _ _ _ _ _, State.complete_host _ _ _ _ _ _, State.complete_job _ _ _ _ _ _⟩

theorem State.endPost_of_idle {s : State} (h : s.running = []) (ring : Nat) (seq : Word) (st : Status) (detail : Nat) :
    s.endPost ring seq st detail = s.dropOps (postOwns ring seq) := by
  have hnone : (s.dropOps (postOwns ring seq)).postCommand ring seq = none := by
    have hrun : (s.dropOps (postOwns ring seq)).running = [] := h
    rw [State.postCommand, hrun]
    rfl
  unfold State.endPost
  extract_lets t
  rw [show t.postCommand ring seq = none from hnone]
  rfl

/-! ## What follows a change of the relay, when no command runs (R425 to R431, R446) -/

theorem State.retire'_undisturbed (s : State) (granule : Bool) (a : Nat) (poison : List Nat) :
    s.Undisturbed (s.retire' granule a poison) := by
  unfold State.retire'
  extract_lets die p used cap _ _ _ _ _ marked logged
  split
  · exact s.placeFence_undisturbed _ _ _
  have hlogged : s.Undisturbed logged := .trans (t := marked) {} (State.log_undisturbed _ _ _ _ _ _ _ _)
  split
  · exact hlogged.trans (State.log_undisturbed _ _ _ _ _ _ _ _)
  · exact hlogged

theorem State.repaired_sameCommands (s : State) (slot page : Nat) : s.SameCommands (s.repaired slot page) := by
  unfold State.repaired
  extract_lets _ _ landed gone retired
  have hlanded : s.SameCommands landed := {}
  have hretired : landed.SameCommands retired := by
    unfold retired
    split
    · exact .refl landed
    · exact (landed.retire'_undisturbed _ _ _).sameCommands
  refine (hlanded.trans hretired).trans ?_
  rw [State.onJob_frame]
  exact {}

theorem State.opEnded_sameCommands {s : State} (h : s.running = []) (o : RelayOp) : s.SameCommands (s.opEnded o) := by
  unfold State.opEnded
  split
  · rw [State.endPost_of_idle h]
    exact {}
  · exact s.repaired_sameCommands _ _
  · exact .refl s

theorem State.retireOps_sameCommands {s : State} (h : s.running = []) : s.SameCommands s.retireOps :=
  State.foldl_keeps (P := s.SameCommands) _ _
    (fun t e k => by
      refine .trans (k.trans (t.setRelay_sameCommands _)) (State.opEnded_sameCommands ?_ e.2)
      exact k.running.trans h) (.refl s)

theorem State.drainEarly_of_empty {s : State} (h : s.relay.early = []) : s.drainEarly = s := by
  unfold State.drainEarly
  rw [h]
  unfold State.drainEarlyN
  rw [h]
  rfl

theorem State.releaseFences_sameCommands (s : State) : s.SameCommands s.releaseFences := by
  unfold State.releaseFences
  extract_lets _ ready kept
  exact State.foldl_keeps (P := s.SameCommands) _ _
    (fun _ _ h => (h.trans {}).trans (State.sameCommands_of_pumped (State.sendAck_pumped _ _ _ _ _ _ _))) {}

theorem State.settleExchanges_of_idle {s : State} (h : s.running = []) : s.settleExchanges = s := by
  rw [State.settleExchanges, State.exchanges, h]
  rfl

theorem State.settleGathers_of_idle {s : State} (h : s.running = []) : s.settleGathers = s :=
  State.foldl_keeps (P := fun t => t = s) _ _ (fun t e ht => by
    subst ht
    rw [h]
    split
    case h_1 hfind => exact absurd hfind (by simp)
    case h_2 => rfl) rfl

theorem State.grantN_sameCommands (cls k : Nat) (s : State) : s.SameCommands (State.grantN cls k s) := by
  induction k generalizing s with
  | zero => exact .refl s
  | succ k ih =>
    unfold State.grantN
    split
    · exact .refl s
    split
    · exact .refl s
    · exact .trans (.trans {} (State.sameCommands_of_pumped (State.sendAck_pumped _ _ _ _ _ _ _))) (ih _)

/-- When no command runs and no packet waits for its step, what follows a change of the relay completes no command. -/
theorem State.settleRelay_sameCommands {s : State} (hrun : s.running = []) (hearly : s.relay.early = []) :
    s.SameCommands s.settleRelay := by
  have hreleased := s.releaseFences_sameCommands
  have hretired := State.retireOps_sameCommands (hreleased.running.trans hrun)
  have hidle : s.releaseFences.retireOps.running = [] := (hreleased.trans hretired).running.trans hrun
  rw [State.settleRelay, State.drainEarly_of_empty hearly, State.settleExchanges_of_idle hidle, State.settleGathers_of_idle hidle]
  exact (((hreleased.trans hretired).trans (State.grantN_sameCommands 1 64 _)).trans (State.grantN_sameCommands 2 32 _)).trans
    (State.sameCommands_of_pumped (State.pump_pumped _))

end Sys2Proof.Machine
end

section
/-! PROOFS. Requests from foreign peers, and operations whose retries or time are spent. -/

namespace Sys2Proof.Machine

/-! ## Work that a queue pair sends (R413) -/

/-- Queue pair n may have given packet numbers to its work and sent packets: nothing else has changed, and it expects the same
packet in the same condition. -/
structure State.Issues (s : State) (n : Nat) (t : State) : Prop where
  frame : t = { s with relay := { s.relay with qps := t.relay.qps }, sent := t.sent, wide := t.wide } := by rfl
  expects : (t.qp n).map (fun q => (q.expectPsn, q.failed)) = (s.qp n).map fun q => (q.expectPsn, q.failed) := by rfl

namespace State.Issues

theorem refl (s : State) (n : Nat) : Issues s n s := {}

theorem trans {s t u : State} {n : Nat} (h : Issues s n t) (k : Issues t n u) : Issues s n u where
  frame := by
    rw [k.frame, h.frame]
  expects := k.expects.trans h.expects

end State.Issues

theorem State.sendRoce_frame (s : State) (n : Nat) (q : QueuePair) (b : List Byte) : s.sendRoce n q b =
    { s with sent := (s.sendRoce n q b).sent, wide := (s.sendRoce n q b).wide } := by
  unfold State.sendRoce
  split
  · rw [State.bumpWide_frame]
    rfl
  · rfl

theorem State.sendRoce_issues (s : State) (n : Nat) (q : QueuePair) (b : List Byte) : s.Issues n (s.sendRoce n q b) := by
  rw [State.sendRoce_frame]
  exact {}

theorem State.sendWork_issues (s : State) (n : Nat) (q : QueuePair) (w : QpWork) (from_ : Nat) :
    s.Issues n (s.sendWork n q w from_) :=
  State.foldl_keeps (P := s.Issues n) _ _ (fun t x h => h.trans (t.sendRoce_issues n q x.2)) (.refl s n)

theorem State.setQp_issues {s : State} {n : Nat} {q q' : QueuePair} (hq : s.qp n = some q)
    (h : (q'.expectPsn, q'.failed) = (q.expectPsn, q.failed)) : s.Issues n (s.setQp n q') where
  expects := by rw [State.qp_setQp_same, hq, Option.map_some, Option.map_some, h]

theorem State.issueWork_issues (k : Nat) (s : State) (n : Nat) : s.Issues n (s.issueWork n k) := by
  induction k generalizing s with
  | zero => exact .refl s n
  | succ k ih =>
    unfold State.issueWork
    split
    · exact .refl s n
    next q hq =>
      split
      · exact .refl s n
      extract_lets open_ w' q'
      split
      · exact .refl s n
      · exact ((State.setQp_issues (q' := q') hq rfl).trans (State.sendWork_issues _ _ _ _ _)).trans (ih _)

theorem State.issueQp_issues (s : State) (n : Nat) : s.Issues n (s.issueQp n) := by
  unfold State.issueQp
  split
  · exact s.issueWork_issues _ n
  · exact .refl s n

/-! ## ROCE_PACKET_RECEIVED with a fetch-and-add (R413) -/

theorem slice_drop {l : List Byte} (k off n : Nat) : slice (l.drop k) off n = slice l (k + off) n := by
  simp only [slice, List.drop_drop]

theorem psnFrom_self (n : Nat) : psnFrom n n = 0 := by
  unfold psnFrom
  omega

/-- A packet from the queue pair's peer on its plane goes to the queue pair, and work that waits goes out (R413). -/
theorem exec_rocePacketReceived {f : Frame} {n : Nat} {q : QueuePair} {s : State} (hlen : 12 ≤ f.bytes.length)
    (hdest : beNat (slice f.bytes 5 3) = 0x1000 + n) (hn : n < 4096) (hq : s.qp n = some q) (hfailed : q.failed = false)
    (hplane : f.port = q.plane) (hce : f.ce = false) (hipv6 : q.allows 0 = true) (hsrc : f.src = slice q.params 16 16) :
    exec (.rocePacketReceived f) s = .next (((s.bumpWide Reg.rlyRxPktsLo 1).roceIn n q (leField f.bytes 0 1)
      (beNat (slice f.bytes 9 3)) (bitOf (leField f.bytes 8 1) 7)
      ((f.bytes.drop 12).take (f.bytes.length - 12 - leField f.bytes 1 1 / 16 % 4))).issueQp n) := by
  have hnamed : 0x1000 ≤ 0x1000 + n ∧ 0x1000 + n < 0x2000 ∧ 12 ≤ f.bytes.length := by omega
  simp only [exec, execRocePacketReceived, hdest, Nat.add_sub_cancel_left, hnamed, and_self, if_true, hq, hfailed, hplane, hce,
    hipv6, hsrc, beq_self_eq_true, Bool.not_true, Bool.false_eq_true, if_false, ne_eq, not_true_eq_false, or_self]

/-- A fetch-and-add with the packet number expected is an atomic of the responder. -/
theorem State.roceIn_fetchAdd {s : State} {n : Nat} {q : QueuePair} {psn : Nat} (ack : Bool) (b : List Byte)
    (h : psn = q.expectPsn) : s.roceIn n q 0x14 psn ack b = s.atomicIn n q psn false b := by
  subst h
  simp only [State.roceIn, psnFrom_self]
  rfl

/-- A queue pair that has taken packets: it expects the number after them. -/
def QueuePair.taken (q : QueuePair) (k : Nat) (message : Bool) : QueuePair :=
  { q with
    expectPsn := (q.expectPsn + k) % 2 ^ 24
    nakSent := false
    msn := if message then (q.msn + 1) % 2 ^ 24 else q.msn }

theorem State.expectNext_eq {s : State} {n : Nat} {q : QueuePair} (hq : s.qp n = some q) (k : Nat) (message : Bool) :
    s.expectNext n k message = s.setQp n (q.taken k message) := by
  simp only [State.expectNext, hq]
  rfl

/-- The state in which a fetch-and-add has added to its word (R413). -/
def State.addedAt (s : State) (va x : Nat) : State := s.store va (leBytes 8 ((s.loadNat va 8 + x) % 2 ^ 64))

theorem State.loadNat_addedAt (s : State) (va x : Nat) : (s.addedAt va x).loadNat va 8 = (s.loadNat va 8 + x) % 2 ^ 64 := by
  have hback := s.load_store_same va (leBytes 8 ((s.loadNat va 8 + x) % 2 ^ 64))
  rw [leBytes_length] at hback
  rw [State.loadNat, State.addedAt, hback, leNat_leBytes]
  exact Nat.mod_mod _ _

theorem State.load_addedAt_apart (s : State) {va a k : Nat} (x : Nat) (h : apart a k va 8 = true) :
    (s.addedAt va x).load a k = s.load a k :=
  s.load_store_apart (by rw [leBytes_length]; exact h)

/-- An atomic that the peer may make: the word is stored, the next packet is expected, and the answer goes back. -/
theorem State.atomicIn_add {s : State} {n : Nat} {q : QueuePair} {psn : Nat} {b : List Byte} (hq : s.qp n = some q)
    (hw : q.writing = false) (halign : beNat (slice b 0 8) % 8 = 0)
    (hrange : (s.foreignRange q 3 (beNat (slice b 8 4)) (beNat (slice b 0 8)) 8).isSome = true) :
    ((s.addedAt (beNat (slice b 0 8)) (beNat (slice b 12 8))).setQp n (q.taken 1 true)).Issues n (s.atomicIn n q psn false b) := by
  have hidle : ¬ (q.writing = true ∨ beNat (slice b 0 8) % 8 ≠ 0) := by simp [hw, halign]
  have hreach : ¬ (s.foreignRange q 3 (beNat (slice b 8 4)) (beNat (slice b 0 8)) 8).isNone = true := by
    simp [Option.isSome_iff_ne_none.mp hrange]
  have hstored : (s.addedAt (beNat (slice b 0 8)) (beNat (slice b 12 8))).qp n = some q := by
    rw [State.qp, State.addedAt, State.store_relay]
    exact hq
  have heq := State.expectNext_eq hstored 1 true
  unfold State.addedAt at heq
  simp only [State.atomicIn, hidle, hreach, Bool.false_eq_true, if_false, heq, State.qp_setQp_same]
  refine .trans ?_ (State.sendRoce_issues _ n _ _)
  exact State.setQp_issues (State.qp_setQp_same _ _ _) rfl

theorem rocePacketReceived_adds {f : Frame} {n : Nat} {q : QueuePair} {s : State} (hlen : f.bytes.length = 40)
    (hdest : beNat (slice f.bytes 5 3) = 0x1000 + n) (hn : n < 4096) (hop : leField f.bytes 0 1 = 0x14)
    (hpad : leField f.bytes 1 1 / 16 % 4 = 0) (hq : s.qp n = some q) (hfailed : q.failed = false) (hw : q.writing = false)
    (hplane : f.port = q.plane) (hce : f.ce = false) (hipv6 : q.allows 0 = true) (hsrc : f.src = slice q.params 16 16)
    (hpsn : beNat (slice f.bytes 9 3) = q.expectPsn) (halign : beNat (slice f.bytes 12 8) % 8 = 0)
    (hrange : (s.foreignRange q 3 (beNat (slice f.bytes 20 4)) (beNat (slice f.bytes 12 8)) 8).isSome = true) :
    ∃ t, exec (.rocePacketReceived f) s = .next t ∧
      t.loadNat (beNat (slice f.bytes 12 8)) 8 =
        (s.loadNat (beNat (slice f.bytes 12 8)) 8 + beNat (slice f.bytes 24 8)) % 2 ^ 64 ∧
      (∀ a k, apart a k (beNat (slice f.bytes 12 8)) 8 = true → t.load a k = s.load a k) ∧
      (t.qp n).map (fun q => (q.expectPsn, q.failed)) = some ((q.expectPsn + 1) % 2 ^ 24, false) ∧
      t.rings = s.rings ∧ t.job = s.job ∧ t.sec = s.sec := by
  have hbody : (f.bytes.drop 12).take (f.bytes.length - 12 - leField f.bytes 1 1 / 16 % 4) = f.bytes.drop 12 :=
    List.take_of_length_le (by rw [List.length_drop, hpad, Nat.sub_zero])
  have hexec := exec_rocePacketReceived (by omega) hdest hn hq hfailed hplane hce hipv6 hsrc
  rw [hop, hbody, State.roceIn_fetchAdd _ _ hpsn] at hexec
  have hcounted : s.bumpWide Reg.rlyRxPktsLo 1 = { s with wide := (s.bumpWide Reg.rlyRxPktsLo 1).wide } := s.bumpWide_frame _ _
  generalize s.bumpWide Reg.rlyRxPktsLo 1 = u at hexec hcounted
  have hanswered := State.atomicIn_add (s := u) (n := n) (q := q) (psn := beNat (slice f.bytes 9 3)) (b := f.bytes.drop 12)
    (by rw [hcounted]; exact hq) hw (by rw [slice_drop]; exact halign) (by rw [slice_drop, slice_drop, hcounted]; exact hrange)
  have hissued := hanswered.trans (State.issueQp_issues _ n)
  rw [slice_drop, slice_drop] at hissued
  generalize State.issueQp _ n = t at hexec hissued
  have huload (a k : Nat) : u.load a k = s.load a k := by rw [hcounted]; rfl
  have htload (a k : Nat) : t.load a k = (u.addedAt (beNat (slice f.bytes 12 8)) (beNat (slice f.bytes 24 8))).load a k :=
    State.load_congr (by rw [hissued.frame]; rfl) (by rw [hissued.frame]; rfl) a k
  refine ⟨t, hexec, ?word, fun a k h => ?others, ?expects, ?_⟩
  case word => rw [State.loadNat, htload, ← State.loadNat, State.loadNat_addedAt, State.loadNat, huload]; rfl
  case others => rw [htload, State.load_addedAt_apart _ _ h, huload]
  case expects => rw [hissued.expects, State.qp_setQp_same, ← hfailed]; rfl
  rw [hissued.frame, hcounted]
  simp only [State.setQp, State.setRelay, State.addedAt, State.store_rings, State.store_job, State.store_sec, and_self]

/-! ## LOCAL_ACK_TIMEOUT (R413, R438) -/

theorem localAckTimeout_fails {n : Nat} {q : QueuePair} {w : QpWork} {o : RunOp} {s : State} (hq : s.qp n = some q)
    (hwork : q.work = [w]) (hsent : w.first.isSome = true) (hwait : q.rnrWait = false) (htimeout : q.timeout ≠ 0)
    (hspent : q.retryCnt ≤ w.retries) (hrun : s.running = [o]) (hpost : s.postCommand w.ring w.seq = some o) :
    ∃ t, exec (.localAckTimeout n) s = .next t ∧ (t.qp n).map (fun q => (q.failed, q.work)) = some (true, []) ∧
      t.owes s o.pkt Status.qpError Config.silentSyndrome = true ∧ t.running = [] ∧ (∀ m, m ≠ n → t.qp m = s.qp m) ∧
      t.mem = s.mem ∧ t.host = s.host ∧ t.job = s.job := by
  have hhead : q.head = some w := by rw [QueuePair.head, hwork, List.find?_cons, hsent]
  generalize hq' : ({ q with
    failed := true, syndrome := Config.silentSyndrome, work := [], rnrWait := false, writing := false } : QueuePair) = q'
  have hfail : s.failQp n Config.silentSyndrome =
      (s.setQp n q').endPost w.ring w.seq Status.qpError Config.silentSyndrome := by
    simp only [State.failQp, hq, hwork, List.foldl_cons, List.foldl_nil, hq']
  have hexec : exec (.localAckTimeout n) s = .next (s.failQp n Config.silentSyndrome) := by
    simp only [exec, execLocalAckTimeout, hq, hhead, hwait, htimeout, Bool.false_eq_true, if_false, State.retryQp, hspent, if_true]
  have hend := State.endPost_ends (s := s.setQp n q') hrun hpost Status.qpError Config.silentSyndrome
  rw [hfail] at hexec
  refine ⟨_, hexec, ?failed, hend.owes, hend.running, fun m hm => ?others, hend.mem, hend.host, hend.job⟩
  case failed =>
    rw [State.qp, hend.relay]
    refine (congrArg (Option.map _) (s.qp_setQp_same n q')).trans ?_
    rw [← hq']
    rfl
  case others =>
    rw [State.qp, hend.relay]
    exact s.qp_setQp_ne q' hm

/-! ## RELAY_POST_TIMEOUT (R438) -/

/-- A RELAY_POST between modules ends when its time has passed; what follows completes no other command. -/
theorem relayPostTimeout_ends {ring : Nat} {seq : Word} {o : RunOp} {s : State} (hrun : s.running = [o])
    (hpost : s.postCommand ring seq = some o) (hpeer : postPeer o.pkt < 65536) (hearly : s.relay.early = []) :
    ∃ t, exec (.relayPostTimeout ring seq) s = .next t ∧ t.owes s o.pkt Status.peerUnreachable 0 = true ∧ t.running = [] := by
  have hexec : exec (.relayPostTimeout ring seq) s =
      .next (((s.endPost ring seq Status.peerUnreachable 0).issueQp (postPeer o.pkt - 65536)).settleRelay) := by
    have hmodule : ¬ 65536 ≤ postPeer o.pkt := by omega
    simp only [exec, execRelayPostTimeout, hpost, hmodule, if_false]
    split <;> rfl
  have hend := State.endPost_ends hrun hpost Status.peerUnreachable 0
  have hissued := (s.endPost ring seq Status.peerUnreachable 0).issueQp_issues (postPeer o.pkt - 65536)
  generalize s.endPost ring seq Status.peerUnreachable 0 = u at hexec hend hissued
  have hsame : u.SameCommands (u.issueQp (postPeer o.pkt - 65536)) := by
    rw [hissued.frame]
    exact {}
  have hwaits : (u.issueQp (postPeer o.pkt - 65536)).relay.early = [] := by
    rw [hissued.frame]
    exact (congrArg RelayState.early hend.relay).trans hearly
  have hsettled := hsame.trans (State.settleRelay_sameCommands (hsame.running.trans hend.running) hwaits)
  exact ⟨_, hexec, hsettled.owes hend.owes, hsettled.running.trans hend.running⟩

/-- Settles O46: a fetch-and-add stores its word and answers, spent retries put the queue pair in its error state, and a command
whose time has passed ends alone. -/
theorem foreignRequests : Obligations.ForeignRequests := by
  unfold Obligations.ForeignRequests
  refine ⟨?fetchAdd, ?retries, ?timeout⟩
  case fetchAdd =>
    intro f n q s hlen hdest hn hop hpad hq hfailed hw hplane hce hipv6 hsrc hpsn va halign hrange
    exact rocePacketReceived_adds hlen hdest hn hop hpad hq hfailed hw hplane hce hipv6 hsrc hpsn halign hrange
  case retries =>
    exact fun n q w o s hq hwork hsent hwait htimeout hspent hrun hpost =>
      localAckTimeout_fails hq hwork hsent hwait htimeout hspent hrun hpost
  case timeout => exact fun ring seq o s hrun hpost hpeer _ hearly => relayPostTimeout_ends hrun hpost hpeer hearly

end Sys2Proof.Machine
end

section
/-! PROOFS. The step's front command, the memories at reset, and the throttle. -/

namespace Sys2Proof.Machine

/-- A tick counts one period of the timer clock; module time moves with it and nothing else does. -/
theorem State.tick_frame (s : State) : s.tick = { s with clk := s.clk + 1, mgt := s.tick.mgt } := by
  unfold State.tick State.advanceTime
  split <;> rfl

theorem State.step_of_empty {s : State} (h : s.pending = []) : step s = .next s.tick := by
  unfold step
  rw [h]

/-- Settles O1: a step of a non-empty queue is the front command's meaning; on an empty queue it is a tick. -/
theorem stepRunsFront : Obligations.StepRunsFront := by
  refine ⟨fun c rest s => rfl, fun s h => ⟨State.step_of_empty h, ?_⟩⟩
  rw [s.tick_frame]
  exact ⟨rfl, rfl, rfl, rfl, rfl, rfl⟩

/-- Settles O3: no memory lists a byte at reset. -/
theorem canonicalAtReset : Obligations.CanonicalAtReset :=
  ⟨State.canonical_iff _ |>.mpr ⟨rfl, rfl, rfl⟩, rfl, rfl, rfl⟩

theorem State.throttle_of_capLevel {s : State} (h : s.pwr.capLevel = 63) : 63 ≤ s.throttle := by
  simp [State.throttle, h]

theorem State.throttle_of_fastLimit {s : State} (h : s.pwr.fastLimit = true) : 63 ≤ s.throttle := by
  simp [State.throttle, h]

/-- Settles O8: the brake and the fast limiter set their own fields of the power block, and the level and the effective
cap follow from those. -/
theorem throttlingAtLevel63 : Obligations.ThrottlingAtLevel63 := by
  refine ⟨⟨?assert, ?release⟩, ⟨?trip, fun s => rfl⟩, fun s => rfl⟩
  case assert =>
    intro s hbrk
    refine ⟨_, congrArg Host.Outcome.next (if_neg (by simp [hbrk])), by simp, ?cap, ?level, ?_⟩
    case cap => simp [State.effectiveCap]
    case level => exact State.throttle_of_capLevel (by simp)
    simp
  case release =>
    intro s hbrk
    refine ⟨_, congrArg Host.Outcome.next (if_pos hbrk), by simp, ?cap, ?_⟩
    case cap => simp [State.effectiveCap]
    simp
  case trip =>
    intro s hfast
    refine ⟨_, congrArg Host.Outcome.next (if_neg (by simp [hfast])), by simp, ?level, ?count, ?_⟩
    case level => exact State.throttle_of_fastLimit (by simp)
    case count => exact State.reg_bump_same _ _ Nat.one_pos
    simp

end Sys2Proof.Machine
end

section
/-! PROOFS. Every function of the model that answers a state keeps the three memories in canonical form: one lemma for
each, named after it, in the order of the files of the model. -/

namespace Sys2Proof.Machine

variable {s : State}

/-- The three memories of a state are in canonical form. -/
def State.Canon (s : State) : Prop := s.canonical = true

namespace State.Canon

theorem mem (h : s.Canon) : Memory.wf s.mem = true := (s.canonical_iff.mp h).1
theorem host (h : s.Canon) : Memory.wf s.host = true := (s.canonical_iff.mp h).2.1
theorem bar2 (h : s.Canon) : Memory.wf s.bar2 = true := (s.canonical_iff.mp h).2.2

theorem of_memories (hm : Memory.wf s.mem = true) (hh : Memory.wf s.host = true)
    (hb : Memory.wf s.bar2 = true) :
    s.Canon :=
  s.canonical_iff.mpr ⟨hm, hh, hb⟩

/-- An update of other fields leaves the three memories as they are. -/
theorem same {clk free regs wide published rings held progress shown msix pba running starts job memory ingest
    samples emb dir graph relay integrity sec mgt meter mirror pwr glb irqs sent hostRead pending} (h : s.Canon) :
    State.Canon ⟨clk, free, s.mem, s.host, s.bar2, regs, wide, published, rings, held, progress, shown, msix, pba,
      running, starts, job, memory, ingest, samples, emb, dir, graph, relay, integrity, sec, mgt, meter, mirror, pwr,
      glb, irqs, sent, hostRead, pending⟩ := h

theorem ite {c : Prop} [Decidable c] {t u : State} (ht : t.Canon)
    (hu : u.Canon) : (if c then t else u).Canon := by
  split
  · exact ht
  · exact hu

theorem ite_fst {α : Type} {c : Prop} [Decidable c] {r q : State × α} (hr : r.1.Canon) (hq : q.1.Canon) :
    (if c then r else q).1.Canon := by
  split
  · exact hr
  · exact hq

theorem of_fst {α : Type} {r : State × α} {x : α} (e : r = (s, x)) (h : r.1.Canon) : s.Canon := by
  rw [e] at h
  exact h

theorem foldl {α : Type} {l : List α} {f : State → α → State} (h : s.Canon)
    (hf : ∀ {t x}, t.Canon → (f t x).Canon) :
    (l.foldl f s).Canon :=
  State.foldl_keeps l f (fun _ _ => hf) h

theorem foldl_pair {α β : Type} {l : List α} {f : State × β → α → State × β} {r : State × β} (h : r.1.Canon)
    (hf : ∀ {q x}, q.1.Canon → (f q x).1.Canon) : (l.foldl f r).1.Canon :=
  List.foldlRecOn (motive := fun q => q.1.Canon) l f h fun _ hq _ _ => hf hq

theorem foldl_fst {α β : Type} {l : List α} {f : State × β → α → State × β} {b : β} (h : s.Canon)
    (hf : ∀ {q x}, q.1.Canon → (f q x).1.Canon) : (l.foldl f (s, b)).1.Canon :=
  foldl_pair h hf

end State.Canon

/-- The outcome is a next state whose memories are in canonical form. -/
inductive CanonNext : Host.Outcome State Fault Refusal → Prop where
  | next {s : State} (h : s.Canon) : CanonNext (.next s)

/-- The memories of the state that an optional result carries, read off it by `st`, are in canonical form. -/
inductive CanonSome {α : Type} (st : α → State) : Option α → Prop where
  | none : CanonSome st none
  | some {x : α} (h : (st x).Canon) : CanonSome st (.some x)

/-- The memories of the state that a result without an error carries, read off it by `st`, are in canonical form. -/
inductive CanonOk {ε α : Type} (st : α → State) : Except ε α → Prop where
  | error {e : ε} : CanonOk st (.error e)
  | ok {x : α} (h : (st x).Canon) : CanonOk st (Except.ok x)

theorem CanonSome.get {α : Type} {st : α → State} {r : Option α} {x : α}
    (h : CanonSome st r) (e : r = .some x) :
    (st x).Canon := by
  cases h with
  | none => cases e
  | some h => exact Option.some.inj e ▸ h

theorem CanonSome.state {r : Option State} (h : CanonSome id r) (e : r = .some s) : s.Canon := h.get e

theorem CanonSome.fst {α : Type} {r : Option (State × α)} {x : α}
    (h : CanonSome Prod.fst r) (e : r = .some (s, x)) :
    s.Canon := h.get e

theorem CanonSome.map {α β : Type} {st : α → State} {st' : β → State} {r : Option α} {f : α → β}
    (h : CanonSome st r)
    (hf : ∀ {x}, (st x).Canon → (st' (f x)).Canon) : CanonSome st' (r.map f) := by
  cases h with
  | none => exact .none
  | some h => exact .some (hf h)

theorem CanonSome.of_map {α β : Type} {st : β → State} {r : Option α} {f : α → β}
    (hf : ∀ {x}, (st (f x)).Canon) :
    CanonSome st (r.map f) := by
  cases r with
  | none => exact .none
  | some x => exact .some hf

theorem CanonOk.ite {ε α : Type} {st : α → State} {c : Prop} [Decidable c] {q r : Except ε α}
    (hq : CanonOk st q)
    (hr : CanonOk st r) : CanonOk st (if c then q else r) := by
  split
  · exact hq
  · exact hr

theorem CanonOk.get {ε α : Type} {st : α → State} {r : Except ε α} {x : α} (h : CanonOk st r) (e : r = .ok x) :
    (st x).Canon := by
  cases h with
  | error => cases e
  | ok h => exact Except.ok.inj e ▸ h

theorem CanonOk.state {ε : Type} {r : Except ε State} (h : CanonOk id r) (e : r = .ok s) : s.Canon := h.get e

theorem CanonOk.fst {ε α : Type} {r : Except ε (State × α)} {x : α}
    (h : CanonOk Prod.fst r) (e : r = .ok (s, x)) :
    s.Canon := h.get e

theorem CanonOk.map {ε α β : Type} {st : α → State} {st' : β → State} {r : Except ε α} {f : α → β}
    (h : CanonOk st r)
    (hf : ∀ {x}, (st x).Canon → (st' (f x)).Canon) : CanonOk st' (r.map f) := by
  cases h with
  | error => exact .error
  | ok h => exact .ok (hf h)

theorem CanonOk.foldl {ε α β : Type} {st : α → State} {l : List β} {f : Except ε α → β → Except ε α}
    {r : Except ε α} (h : CanonOk st r) (hf : ∀ {q x}, CanonOk st q → CanonOk st (f q x)) :
    CanonOk st (l.foldl f r) :=
  List.foldlRecOn (motive := CanonOk st) l f h fun _ hq _ _ => hf hq

/-! ## Machine/Memory -/

theorem State.Canon.store {a b} (h : s.Canon) : (s.store a b).Canon := State.store_canonical h a b

theorem State.Canon.scramble {a n} (h : s.Canon) : (s.scramble a n).Canon := State.scramble_canonical h a n

theorem State.Canon.zero {a n} (h : s.Canon) : (s.zero a n).Canon := State.zero_canonical h a n

theorem State.Canon.guard {k id r hidden} (h : s.Canon) : (s.guard k id r hidden).Canon := h.same

theorem State.Canon.unguard {k id} (h : s.Canon) : (s.unguard k id).Canon := h.same

/-! ## Machine/Ops -/

theorem State.Canon.setReg {off v} (h : s.Canon) : (s.setReg off v).Canon := h.same

theorem State.Canon.bump {off n} (h : s.Canon) : (s.bump off n).Canon := .ite h h.setReg

theorem State.Canon.bumpWide {off n} (h : s.Canon) : (s.bumpWide off n).Canon := .ite h h.same

theorem State.Canon.raise {v} (h : s.Canon) : (s.raise v).Canon := .ite h.same h.same

theorem State.Canon.setRing {n r} (h : s.Canon) : (s.setRing n r).Canon := h.same

theorem State.Canon.moderate {n now} (h : s.Canon) : (s.moderate n now).Canon := .ite h.setRing.raise h

theorem State.Canon.setEntry {n e} (h : s.Canon) : (s.setEntry n e).Canon := h.same

theorem State.Canon.claim {p unit total} (h : s.Canon) : (s.claim p unit total).Canon := .ite h h.setEntry

theorem State.Canon.advance {p position total} (h : s.Canon) : (s.advance p position total).Canon := .ite h h.setEntry

theorem State.Canon.closeEntry {p st position total} (h : s.Canon) : (s.closeEntry p st position total).Canon :=
  .ite h h.setEntry

theorem State.Canon.fallDue {r} (h : s.Canon) : (s.fallDue r).Canon := .ite h.same h.setRing

theorem State.Canon.countStatus {st} (h : s.Canon) : (s.countStatus st).Canon := .ite h.bump (.ite h.bump h)

theorem State.Canon.complete {p st detail position total} (h : s.Canon) :
    (s.complete p st detail position total).Canon :=
  h.closeEntry.countStatus.fallDue

theorem State.Canon.unstage {p} (h : s.Canon) : (s.unstage p).Canon := h.setRing

theorem State.Canon.refuse {p f} (h : s.Canon) : (s.refuse p f).Canon := h.setRing.countStatus.fallDue

theorem State.Canon.run {c p} (h : s.Canon) (hc : ∀ {p u}, u.Canon → (c.effect p u).Canon) :
    (Command.run c p s).Canon := by
  unfold Command.run
  extract_lets s1 _
  have h1 : s1.Canon := h.unstage
  split
  · exact h1.refuse
  · exact hc h1.claim.same

theorem State.Canon.start {c p} (h : s.Canon) (hc : ∀ {p u}, u.Canon → (c.effect p u).Canon) :
    (Command.start c p s).Canon :=
  .ite h (.ite (h.run hc) (.ite h.unstage.fallDue h))

theorem State.Canon.enroll {p k uses total} (h : s.Canon) : (s.enroll p k uses total).Canon := h.same

theorem State.Canon.withdraw {o} (h : s.Canon) : (s.withdraw o).Canon := h.same

theorem State.Canon.finish {o st detail} (h : s.Canon) : (s.finish o st detail).Canon := h.withdraw.complete

theorem State.Canon.finishAll {f st detail} (h : s.Canon) : (s.finishAll f st detail).Canon :=
  h.foldl fun ht => ht.finish

/-! ## Machine/Ledger -/

theorem State.Canon.alert {bit} (h : s.Canon) : (s.alert bit).Canon := h.setReg.raise

theorem State.Canon.error {bit} (h : s.Canon) : (s.error bit).Canon := h.setReg.raise

theorem State.Canon.log {cls severity code unit job step data} (h : s.Canon) :
    (s.log cls severity code unit job step data).Canon := by
  unfold State.log
  extract_lets _ _ _ _ s1
  have h1 : s1.Canon := h.same
  split
  · exact h.same.bump
  · split
    · exact h1.alert
    · exact h1

theorem State.Canon.logPlain {cls severity code data} (h : s.Canon) : (s.logPlain cls severity code data).Canon :=
  h.log

/-! ## Machine/Operands -/

theorem State.Canon.setElem {d idx v} (h : s.Canon) : (s.setElem d idx v).Canon := by
  unfold State.setElem
  split
  · exact h
  · exact h.store

theorem State.Canon.countWrap {cls d idx} (h : s.Canon) : (s.countWrap cls d idx).Canon := .ite h.bump h

/-! ## Machine/Directory -/

theorem State.Canon.setBank {b x} (h : s.Canon) : (s.setBank b x).Canon := h.same

theorem State.Canon.countSearch {f} (h : s.Canon) : (s.countSearch f).Canon := h.bumpWide.bump

theorem State.Canon.dirInsert {table die e} (h : s.Canon) : CanonSome id (s.dirInsert table die e) := by
  unfold State.dirInsert
  split
  · exact .none
  · split
    · exact .none
    · exact .of_map h.setBank.bump

theorem State.Canon.dirDelete {table die key f} (h : s.Canon) : (s.dirDelete table die key f).1.Canon := by
  unfold State.dirDelete
  split
  · exact h
  · split
    · exact h
    · exact h.setBank.bump

theorem State.Canon.mapHot {die f} (h : s.Canon) : (s.mapHot die f).Canon := h.same

theorem State.Canon.dropReplicas (h : s.Canon) : s.dropReplicas.Canon := h.same

theorem State.Canon.copyHot {die e} (h : s.Canon) : (s.copyHot die e).Canon := by
  unfold State.copyHot
  split
  · exact h
  · split
    · exact h
    · exact h.store

theorem State.Canon.hotSwitch {die} (h : s.Canon) : (s.hotSwitch die).Canon :=
  .ite (h.foldl fun ht => ht.copyHot).bump.bump.mapHot.same (h.foldl fun ht => ht.copyHot).bump.bump.mapHot

theorem State.Canon.hotRebuild {die sliceKey vslot} (h : s.Canon) : (s.hotRebuild die sliceKey vslot).Canon :=
  .ite h.bump.mapHot.same h.bump.mapHot

theorem State.Canon.drainHot {die epoch} (h : s.Canon) : (s.drainHot die epoch).Canon := h.bump.mapHot.dropReplicas

theorem State.Canon.hotDirty {sliceKey row} (h : s.Canon) : (s.hotDirty sliceKey row).Canon :=
  h.foldl fun ht => ht.mapHot

theorem State.Canon.moveEntry {r target e} (h : r.1.Canon) : (moveEntry r target e).1.Canon := by
  unfold Machine.moveEntry
  extract_lets _ s1
  have h1 : s1.Canon := h.same
  split
  · exact h1
  · split
    · exact h1
    · split
      · exact h1
      · exact h1.setBank.bump

theorem State.Canon.loseEntries {b die} (h : s.Canon) : (s.loseEntries b die).Canon := .ite h.dropReplicas h.same

theorem State.Canon.moveBank {n} (h : s.Canon) : (s.moveBank n).Canon := by
  unfold State.moveBank
  split
  · exact h
  · extract_lets s1
    have h1 : s1.Canon := h.setBank
    split
    · exact h
    · split
      · exact h1.loseEntries
      · extract_lets r2 s3 _ _ s4
        have h2 : r2.1.Canon := h1.foldl_fst fun hu => hu.moveEntry
        have h3 : s3.Canon := h2.bump
        have h4 : s4.Canon := h3.same
        exact .ite h4.loseEntries h4

theorem State.Canon.restoreBank {n indices} (h : s.Canon) : (s.restoreBank n indices).Canon := by
  unfold State.restoreBank
  split
  · extract_lets _ s1 r2 s3 _ _ s4
    have h1 : s1.Canon := h.setBank
    have h2 : r2.1.Canon := h1.foldl_fst fun hu => hu.moveEntry
    have h3 : s3.Canon := h2.bump
    have h4 : s4.Canon := h3.same
    exact .ite h4.loseEntries h4
  · exact h

/-! ## Machine/Wake -/

theorem State.Canon.destroySlices {n} (h : s.Canon) : (s.destroySlices n).Canon := h.same.mapHot.mapHot.dropReplicas

theorem State.Canon.dropBatch {o step} (h : s.Canon) : (s.dropBatch o step).Canon := h.same

theorem State.Canon.dropPrepares {slot} (h : s.Canon) : (s.dropPrepares slot).Canon := h.same

theorem State.Canon.closeJob {slot} (h : s.Canon) : (s.closeJob slot).Canon := by
  unfold State.closeJob
  split
  · exact h
  · exact (h.foldl fun ht => ht.zero).dropPrepares.log.same

theorem State.Canon.drainEffect {o} (h : s.Canon) : (s.drainEffect o).Canon := by
  unfold State.drainEffect
  extract_lets
  split
  · exact .ite h.zero h
  · exact h.unguard.same
  · exact h.unguard
  · exact h.unguard.same
  · exact h.closeJob
  · exact h.destroySlices
  · exact h

theorem State.Canon.wakeN {k} (h : s.Canon) : (State.wakeN k s).Canon := by
  induction k generalizing s with
  | zero => exact h
  | succ k ih =>
    unfold State.wakeN
    split
    · exact h
    · exact ih h.drainEffect.finish

theorem State.Canon.wake (h : s.Canon) : s.wake.Canon := h.wakeN

/-! ## Machine/Fences -/

theorem State.Canon.setJob {slot j} (h : s.Canon) : (s.setJob slot j).Canon := h.same

theorem State.Canon.onJob {slot f} (h : s.Canon) : (s.onJob slot f).Canon := by
  unfold State.onJob
  split
  · exact h.setJob
  · exact h

theorem State.Canon.requeue {run task} (h : s.Canon) : (s.requeue run task).Canon := by
  unfold State.requeue
  extract_lets
  split
  · exact h
  · split
    · exact h
    · extract_lets
      split
      · split
        · exact h.onJob
        · exact h
      · exact h.same.bump

theorem State.Canon.migrateOne {e} (h : s.Canon) : (s.migrateOne e).Canon := by
  unfold State.migrateOne
  extract_lets
  split
  · exact h
  · split
    · exact h.requeue
    · split
      · exact h
      · exact h.same.requeue.bump

theorem State.Canon.dropStripes {lane} (h : s.Canon) : (s.dropStripes lane).Canon := h.same.bump

theorem State.Canon.dropSample {lane} (h : s.Canon) : (s.dropSample lane).Canon := h.same.bump

theorem State.Canon.evict {unit} (h : s.Canon) : (s.evict unit).Canon := by
  unfold State.evict
  extract_lets _ _ _ _ s1 s2
  have h1 : s1.Canon := h.same
  have h2 : s2.Canon := h1.foldl fun hu => hu.migrateOne
  exact .ite h2.dropStripes (.ite h2.dropSample h2)

theorem State.Canon.clearLocal {unit} (h : s.Canon) : (s.clearLocal unit).Canon := .ite h.zero h

theorem State.Canon.fencePackage {cause} (h : s.Canon) : (s.fencePackage cause).Canon :=
  .ite h (h.foldl fun ht => ht.evict).same.log.alert

theorem State.Canon.escalate (h : s.Canon) : s.escalate.Canon := .ite h.fencePackage h

theorem State.Canon.placeFence {f unit data} (h : s.Canon) : (s.placeFence f unit data).Canon := by
  unfold State.placeFence
  extract_lets _ s1 s2 _ s3 s4 s5 _ s6
  have h1 : s1.Canon := h.foldl fun ht => ht.evict
  have h2 : s2.Canon := .ite (h1.foldl fun hu => hu.clearLocal) h1
  have h3 : s3.Canon := h2.same
  have h4 : s4.Canon := h3.foldl fun h4 => h4.moveBank
  have h5 : s5.Canon := h4.log.alert
  have h6 : s6.Canon := by unfold s6; split; exacts [h5.error, h5.same.error, h5]
  exact .ite h h6.escalate

theorem State.Canon.fenceUnit {unit} (h : s.Canon) : (s.fenceUnit unit).Canon := h.placeFence

theorem State.Canon.setDivider {unit d} (h : s.Canon) : (s.setDivider unit d).Canon :=
  .ite h.same (.ite h.same h.same)

theorem State.Canon.remedyArray {unit} (h : s.Canon) : (s.remedyArray unit).Canon := .ite h h.setDivider

theorem State.Canon.remedies (h : s.Canon) : s.remedies.Canon := h.foldl fun ht => ht.remedyArray

theorem State.Canon.strike {c cause} (h : s.Canon) : (s.strike c cause).Canon := by
  unfold State.strike
  extract_lets _ _ _ s1 s2 s3
  have h1 : s1.Canon := h.same
  have h2 : s2.Canon := h1.log
  have h3 : s3.Canon := h2.remedies
  split
  · split
    · exact h3.fenceUnit
    · exact h3.placeFence
    · exact h3
  · exact h3

theorem State.Canon.parity {c} (h : s.Canon) : (s.parity c).Canon := by
  unfold State.parity
  extract_lets s1
  have h1 : s1.Canon := h.bump
  split
  · exact h1.error.strike
  · exact h1.strike
  · exact h1

theorem State.Canon.readTwice {x1} (h : s.Canon) : (s.readTwice x1).Canon := h.parity.parity

theorem State.Canon.orPoisoned {p reads spoil go} (h : s.Canon) (hspoil : ∀ {u}, u.Canon → (spoil u).Canon)
    (hgo : ∀ {u}, u.Canon → (go u).Canon) :
    (s.orPoisoned p reads spoil go).Canon := by
  unfold State.orPoisoned
  split
  · exact (hspoil h.readTwice).complete
  · exact hgo h

/-! ## Machine/Rings -/

theorem State.Canon.hostAccess {tee f} (h : s.Canon) (hf : ∀ {u}, u.Canon → (f u).Canon) :
    (s.hostAccess tee f).Canon :=
  .ite h (.ite h.bump (hf h))

theorem State.Canon.storeBar2 {ring stores} (h : s.Canon) : (s.storeBar2 ring stores).Canon := by
  refine .of_memories h.mem h.host (Memory.wf_foldl _ _ _ (fun m e hm => ?_) h.bar2)
  split
  · exact Memory.wf_write _ _ _ hm
  · exact hm

theorem State.Canon.consume {n} (h : s.Canon) : (s.consume n).Canon := h.setRing

theorem State.Canon.refuseUnknown {n k} (h : s.Canon) : (s.refuseUnknown n k).Canon := by
  induction k generalizing s with
  | zero => exact h
  | succ k ih =>
    unfold State.refuseUnknown
    split
    · exact h
    · exact .ite h (.ite (ih h.unstage.refuse) (.ite (ih h.unstage.fallDue) h))

theorem State.Canon.settle (h : s.Canon) : s.settle.Canon := h.foldl fun ht => ht.refuseUnknown

theorem State.Canon.storeHost {stores} (h : s.Canon) : (s.storeHost stores).Canon :=
  .of_memories h.mem (Memory.wf_foldl _ _ _ (fun _ _ => Memory.wf_write _ _ _) h.host) h.bar2

theorem State.Canon.execPacketConsumed {ring stores hostStores tee} (h : s.Canon) :
    CanonNext (execPacketConsumed ring stores hostStores tee s) :=
  .next (h.storeHost.hostAccess fun ht => .ite ht (.ite ht.storeBar2.consume.settle ht.storeBar2))

theorem State.Canon.retire {r} (h : s.Canon) : (s.retire r).Canon := .ite h.setRing h

theorem State.Canon.writeRecord {n r} (h : s.Canon) : (s.writeRecord n r).Canon :=
  (Canon.ite h.store h).setRing.retire.moderate

theorem State.Canon.writeDue {n} (h : s.Canon) : (s.writeDue n).Canon := by
  unfold State.writeDue
  extract_lets
  split
  · exact h
  · exact .ite (.ite h.setRing.same h) (.ite h h.writeRecord)

theorem State.Canon.writeDues {n k} (h : s.Canon) : (s.writeDues n k).Canon := by
  induction k generalizing s with
  | zero => exact h
  | succ k ih => exact ih h.writeDue

theorem State.Canon.execStatusRecordWrite {ring} (h : s.Canon) : CanonNext (execStatusRecordWrite ring s) :=
  .next (.ite h h.writeDue.settle)

theorem State.Canon.execInterruptModerationTimeout {ring} (h : s.Canon) :
    CanonNext (execInterruptModerationTimeout ring s) :=
  .next (.ite h h.moderate)

theorem State.Canon.writeCtrl {n v} (h : s.Canon) : (s.writeCtrl n v).Canon := h.setRing.moderate

theorem State.Canon.execCmdRingEnable {ring v tee} (h : s.Canon) : CanonNext (execCmdRingEnable ring v tee s) := by
  refine .next (h.hostAccess fun ht => .ite ht (.setRing ?_))
  refine .of_memories ht.mem ht.host ?_
  dsimp only
  exact Memory.wf_keep _ _ ht.bar2

theorem State.Canon.execRingClearComplete {ring} (h : s.Canon) : CanonNext (execRingClearComplete ring s) :=
  .next (.ite h h.same.setRing.writeDues.settle)

theorem State.Canon.execCmdRingDisable {ring v tee} (h : s.Canon) : CanonNext (execCmdRingDisable ring v tee s) :=
  .next (h.hostAccess fun ht => .ite ht ht.setRing)

theorem State.Canon.execCmdCqHeadWrite {ring v tee} (h : s.Canon) : CanonNext (execCmdCqHeadWrite ring v tee s) :=
  .next (h.hostAccess fun ht => .ite ht ht.setRing)

theorem State.Canon.execCmdCqBaseWrite {ring hi v tee} (h : s.Canon) :
    CanonNext (execCmdCqBaseWrite ring hi v tee s) :=
  .next (h.hostAccess fun ht => .ite ht ht.setRing)

theorem State.Canon.abortStaged {p} (h : s.Canon) : (s.abortStaged p).Canon := h.unstage.fallDue

theorem State.Canon.disableRings {st} (h : s.Canon) : (s.disableRings st).Canon :=
  (of_memories (s := { s with bar2 := [] }) h.mem h.host rfl).foldl fun ht => ht.setRing

/-! ## Machine/Power -/

theorem State.Canon.retire' {granule x2 poison} (h : s.Canon) : (s.retire' granule x2 poison).Canon :=
  .ite h.placeFence (.ite h.same.log.log h.same.log)

theorem State.Canon.execPageRetirement {granule addr poison} (h : s.Canon) :
    CanonNext (execPageRetirement granule addr poison s) :=
  .next (.ite h h.retire')

theorem State.Canon.execStrikeExpiry (h : s.Canon) : CanonNext (execStrikeExpiry s) := .next (.ite h h.same.remedies)

theorem State.Canon.execPowerCapSet {p} (h : s.Canon) : CanonNext (execPowerCapSet p s) :=
  .next (h.start fun ht => ht.same.logPlain.enroll)

theorem State.Canon.capUsed (h : s.Canon) : s.capUsed.Canon := h.foldl fun ht => ht.finish

theorem State.Canon.execCapLoopTick {want unmet} (h : s.Canon) : CanonNext (execCapLoopTick want unmet s) := by
  unfold Machine.execCapLoopTick
  refine .next ?_
  extract_lets _ _ _ _ s1 s2 s3
  have h1 : s1.Canon := h.same
  have h2 : s2.Canon := .ite h1.logPlain.error h1
  have h3 : s3.Canon := .ite h2.bump h2
  exact .ite h h3.capUsed

theorem State.Canon.execFastLimiterTrip (h : s.Canon) : CanonNext (execFastLimiterTrip s) :=
  .next (.ite h h.same.bump)

theorem State.Canon.execFastLimiterRelease (h : s.Canon) : CanonNext (execFastLimiterRelease s) := .next h.same

theorem State.Canon.execPwrBrkAssert (h : s.Canon) : CanonNext (execPwrBrkAssert s) := .next (.ite h h.same.logPlain)

theorem State.Canon.execPwrBrkRelease (h : s.Canon) : CanonNext (execPwrBrkRelease s) :=
  .next (.ite h.same.logPlain h)

theorem State.Canon.execThrottleWindow (h : s.Canon) : CanonNext (execThrottleWindow s) := .next h

theorem State.Canon.execRailStepComplete {rail} (h : s.Canon) : CanonNext (execRailStepComplete rail s) :=
  .next (.ite h (.ite (h.same.foldl fun ht => ht.remedyArray) (.ite h.same h)))

theorem State.Canon.execRailOutOfRegulation {rail} (h : s.Canon) : CanonNext (execRailOutOfRegulation rail s) := by
  unfold Machine.execRailOutOfRegulation
  refine .next ?_
  extract_lets s1
  have h1 : s1.Canon := h.error.logPlain
  split
  · exact h
  · split
    · exact h1.placeFence
    · split
      · exact h1.foldl fun hu => hu.fenceUnit
      · exact .ite h1.placeFence (.ite h1.fencePackage h1.placeFence)

theorem State.Canon.crossings {i old new} (h : s.Canon) : (s.crossings i old new).Canon :=
  h.foldl fun ht => .ite ht (.ite ht.logPlain.error ht.logPlain)

theorem State.Canon.sample {i v} (h : s.Canon) : (s.sample i v).Canon := h.same.crossings

theorem State.Canon.execSensorSample {values} (h : s.Canon) : CanonNext (execSensorSample values s) :=
  .next (.ite h (h.foldl fun ht => ht.sample).same)

theorem State.Canon.execThermalLoopTick (h : s.Canon) : CanonNext (execThermalLoopTick s) :=
  .next (.ite h (.ite h.same.bump.logPlain h.same))

theorem State.Canon.loseMemory (h : s.Canon) : s.loseMemory.Canon := .of_memories rfl h.host h.bar2

theorem State.Canon.execThermalTrip (h : s.Canon) : CanonNext (execThermalTrip s) :=
  .next (.ite h h.fencePackage.loseMemory.same.bump.logPlain)

theorem State.Canon.execPllLossOfLock (h : s.Canon) : CanonNext (execPllLossOfLock s) := .next h.fencePackage

theorem State.Canon.execClockTreeOrResetDomainFault {region} (h : s.Canon) :
    CanonNext (execClockTreeOrResetDomainFault region s) :=
  .next (.ite h h.placeFence)

theorem State.Canon.execPortDieFault (h : s.Canon) : CanonNext (execPortDieFault s) := .next h.fencePackage

theorem State.Canon.afterPowerLoss {cause} (h : s.Canon) : (s.afterPowerLoss cause).Canon :=
  .of_memories rfl h.host rfl

theorem State.Canon.execPowerFail (h : s.Canon) : CanonNext (execPowerFail s) := .next (.ite h.afterPowerLoss h)

theorem State.Canon.execOvervoltage (h : s.Canon) : CanonNext (execOvervoltage s) := .next (.ite h.afterPowerLoss h)

theorem State.Canon.showStage {state status} (h : s.Canon) : (s.showStage state status).Canon := h.setEntry

theorem State.Canon.begin (h : s.Canon) : s.begin.Canon := h.same.showStage

theorem State.Canon.execInputReaches40v (h : s.Canon) : CanonNext (execInputReaches40v s) := .next (.ite h h.begin)

theorem State.Canon.execRestartDelayExpiry (h : s.Canon) : CanonNext (execRestartDelayExpiry s) :=
  .next (.ite h h.begin)

theorem State.Canon.failWaiting (h : s.Canon) : s.failWaiting.Canon :=
  h.foldl fun ht => ht.foldl fun hu => hu.unstage.fallDue

theorem State.Canon.startFaults {cause ms} (h : s.Canon) : (s.startFaults cause ms).Canon :=
  h.fencePackage.same.showStage.failWaiting

theorem State.Canon.powerLossEntry (h : s.Canon) : s.powerLossEntry.Canon := .ite h h.logPlain

theorem State.Canon.stageWork {n failed ms} (h : s.Canon) : (s.stageWork n failed ms).Canon := by
  unfold State.stageWork
  extract_lets _ _ _ s1 s2 _
  have h1 : s1.Canon := h.same
  have h2 : s2.Canon := h1.powerLossEntry
  split
  · exact h.same
  · exact h.same
  · exact h2.logPlain.logPlain
  · exact h.same.foldl fun hv => hv.placeFence
  · exact h.zero.zero
  · exact h.foldl fun hv => hv.placeFence
  · exact h.foldl fun hv => hv.fenceUnit
  · exact h.same.logPlain
  · exact h

theorem State.Canon.execStartUpStageComplete {failed ms} (h : s.Canon) :
    CanonNext (execStartUpStageComplete failed ms s) :=
  .next (.ite h (.ite h.startFaults (.ite h.stageWork.startFaults h.stageWork.same.showStage)))

theorem State.Canon.execStartUpStageTimeout {ms} (h : s.Canon) : CanonNext (execStartUpStageTimeout ms s) :=
  .next (.ite h h.startFaults)

theorem State.Canon.leaveRun {t} (h : s.Canon) : (s.leaveRun t).Canon := .ite h.same.logPlain h.same

theorem State.Canon.resetSeen {bit} (h : s.Canon) : (s.resetSeen bit).Canon := h.setReg

theorem State.Canon.resetFunction (h : s.Canon) : s.resetFunction.Canon := h.same

theorem State.Canon.resetTdi (h : s.Canon) : s.resetTdi.Canon := .ite h.same h.same.leaveRun

theorem State.Canon.execPerstAssert (h : s.Canon) : CanonNext (execPerstAssert s) :=
  .next (.ite h h.disableRings.resetFunction.resetTdi.resetSeen.same)

theorem State.Canon.execPerstDeassert (h : s.Canon) : CanonNext (execPerstDeassert s) := .next h.same

theorem State.Canon.execFlr (h : s.Canon) : CanonNext (execFlr s) :=
  .next (.ite h h.disableRings.resetFunction.resetTdi.resetSeen.same)

theorem State.Canon.execD3hotEntry (h : s.Canon) : CanonNext (execD3hotEntry s) := .next (.ite h h.disableRings.same)

theorem State.Canon.execD3hotExit (h : s.Canon) : CanonNext (execD3hotExit s) := .next (.ite h.same.resetSeen h)

theorem State.Canon.execConfigurationRequest {write off v early} (h : s.Canon) :
    CanonNext (execConfigurationRequest write off v early s) :=
  .next (.ite h (.ite h.same (.ite h.same h.same)))

/-! ## Machine/Lock -/

theorem State.Canon.publish (h : s.Canon) : s.publish.Canon := h.same

theorem State.Canon.lock (h : s.Canon) : s.lock.Canon := .ite h.publish.same.logPlain h

/-! ## Machine/Meter -/

theorem State.Canon.ifMetered {f} (h : s.Canon) (hf : ∀ {u}, u.Canon → (f u).Canon) : (s.ifMetered f).Canon :=
  .ite (hf h) h

theorem State.Canon.setMeter {m} (h : s.Canon) : (s.setMeter m).Canon := h.same

theorem State.Canon.execMeterStart {sealOpen version checksum failed} (h : s.Canon) :
    CanonNext (execMeterStart sealOpen version checksum failed s) :=
  .next (h.ifMetered fun ht => ht.setMeter)

theorem State.Canon.execCounterRecordWrite (h : s.Canon) : CanonNext (execCounterRecordWrite s) :=
  .next (h.ifMetered fun ht => .ite ht.setMeter ht)

theorem State.Canon.execMeterPowerFail (h : s.Canon) : CanonNext (execMeterPowerFail s) :=
  .next (h.ifMetered fun ht => .ite ht.setMeter ht)

theorem State.Canon.execSealSample {isOpen} (h : s.Canon) : CanonNext (execSealSample isOpen s) :=
  .next (h.ifMetered fun ht => .ite ht.setMeter ht)

theorem State.Canon.execMeterSelfTest {failed} (h : s.Canon) : CanonNext (execMeterSelfTest failed s) :=
  .next (h.ifMetered fun ht => .ite ht.setMeter ht)

theorem State.Canon.execMtrPulse (h : s.Canon) : CanonNext (execMtrPulse s) :=
  .next (h.ifMetered fun ht => .ite ht ht.setMeter)

theorem State.Canon.execReverse (h : s.Canon) : CanonNext (execReverse s) :=
  .next (h.ifMetered fun ht => .ite ht.setMeter ht)

theorem State.Canon.execOverrange (h : s.Canon) : CanonNext (execOverrange s) :=
  .next (h.ifMetered fun ht => .ite ht.setMeter ht)

theorem State.Canon.execReverification {version checksum} (h : s.Canon) :
    CanonNext (execReverification version checksum s) :=
  .next (h.ifMetered fun ht => .ite ht ht.setMeter)

theorem State.Canon.execMeterLinkPoll (h : s.Canon) : CanonNext (execMeterLinkPoll s) :=
  .next (h.ifMetered fun ht => ht.same)

theorem State.Canon.execMeterReadRequest {f crcGood} (h : s.Canon) :
    CanonNext (execMeterReadRequest f crcGood s) := by
  unfold Machine.execMeterReadRequest
  refine .next (h.ifMetered fun ht => ?_)
  extract_lets
  split
  · exact ht
  · split
    · exact ht.setMeter
    · split
      · exact ht.setMeter
      · exact ht.setMeter
      · exact ht.setMeter

theorem State.Canon.execMeterLinkFrame {f crcGood} (h : s.Canon) : CanonNext (execMeterLinkFrame f crcGood s) := by
  unfold Machine.execMeterLinkFrame
  refine .next (h.ifMetered fun ht => ?_)
  extract_lets
  split
  · exact ht
  · split
    · exact ht.same
    · exact ht.same
    · exact ht

theorem State.Canon.execWghLogSelWrite {v tee} (h : s.Canon) : CanonNext (execWghLogSelWrite v tee s) :=
  .next (h.hostAccess fun ht => ht.ifMetered fun hu => hu.same.setReg)

/-! ## Machine/Columns -/

theorem State.Canon.writeBuffers {b addrs} (h : s.Canon) : (s.writeBuffers b addrs).Canon := by
  unfold State.writeBuffers
  exact h.foldl fun ht => ht.foldl fun hu => (by split; exacts [hu.store, hu])

theorem State.Canon.placeTable {id x2 schema batches} (h : s.Canon) :
    CanonOk Prod.fst (s.placeTable id x2 schema batches) := by
  unfold State.placeTable
  extract_lets
  split
  · exact .error
  · split
    · exact .error
    · exact .ok ((h.foldl fun ht => ht.writeBuffers).store)

theorem State.Canon.defineTable {id x2 extra} (h : s.Canon) : (s.defineTable id x2 extra).Canon :=
  h.same.foldl fun ht => ht.guard

/-! ## Machine/Ingest -/

theorem State.Canon.spoilAllocs {x1} (h : s.Canon) : (s.spoilAllocs x1).Canon := h.scramble.scramble

theorem State.Canon.loadFails {p st detail} (h : s.Canon) : (s.loadFails p st detail).Canon :=
  (Canon.ite h.bump h).complete

theorem State.Canon.loadDone {p extra used rows} (h : s.Canon) : (s.loadDone p extra used rows).Canon :=
  h.defineTable.bumpWide.complete

theorem State.Canon.arrowCopy {v p} (h : s.Canon) : (s.arrowCopy v p).Canon := by
  unfold State.arrowCopy
  extract_lets
  split
  · exact h.loadFails
  · split
    · exact h.loadFails
    · extract_lets _ s1
      have h1 : s1.Canon := h.foldl fun hu => hu.writeBuffers
      split
      · exact h.spoilAllocs.loadFails
      · exact h1.store.loadDone

theorem State.Canon.arrowInPlace {p} (h : s.Canon) : (s.arrowInPlace p).Canon := by
  unfold State.arrowInPlace
  extract_lets _ _ _ _ _ _ _ _ s1
  have h1 : s1.Canon := h.store
  split
  · exact h.loadFails
  · split
    · exact h.scramble.loadFails
    · exact h1.loadDone

theorem State.Canon.parquetLoad {v p} (h : s.Canon) : (s.parquetLoad v p).Canon := by
  unfold State.parquetLoad
  extract_lets _ _ s1 _
  have h1 : s1.Canon := .ite h h.store
  split
  · exact (Canon.ite h1.spoilAllocs h1.spoilAllocs.scramble).loadFails
  · exact (Canon.ite h1.spoilAllocs h1.spoilAllocs.scramble).loadFails
  · extract_lets
    split
    · exact (Canon.ite h1.spoilAllocs h1.spoilAllocs.scramble).loadFails
    · exact (h1.placeTable.fst ‹_›).loadDone

theorem State.Canon.execTableLoad {p fetched} (h : s.Canon) : CanonNext (execTableLoad p fetched s) := by
  refine .next (h.start fun ht => .ite ht.spoilAllocs.loadFails ?_)
  exact ht.orPoisoned (fun hu => hu.spoilAllocs) fun hu => .ite hu.parquetLoad (.ite hu.arrowInPlace hu.arrowCopy)

theorem State.Canon.execTableRelease {p} (h : s.Canon) : CanonNext (execTableRelease p s) := by
  unfold Machine.execTableRelease
  refine .next (h.start fun ht => ?_)
  dsimp -zeta only [tableReleaseCommand]
  extract_lets _ _ s1
  have h1 : s1.Canon := ht.same
  split
  · exact ht
  · exact h1.enroll.wake

/-! ## Machine/Manifest -/

theorem State.Canon.execManifestLoad {p} (h : s.Canon) : CanonNext (execManifestLoad p s) :=
  .next (h.start fun ht => ht.orPoisoned id fun hu => hu.same.complete)

theorem State.Canon.execManifestStage {p} (h : s.Canon) : CanonNext (execManifestStage p s) := by
  unfold Machine.execManifestStage
  refine .next (h.start fun ht => ?_)
  dsimp -zeta only [manifestStageCommand]
  split
  · exact ht.setJob.complete
  · exact ht

theorem State.Canon.execManifestQuery {p} (h : s.Canon) : CanonNext (execManifestQuery p s) := by
  unfold Machine.execManifestQuery
  refine .next (h.start fun ht => ?_)
  dsimp -zeta only [manifestQueryCommand]
  split
  · exact ht.store.complete
  · exact ht

/-! ## Machine/Arith -/

theorem State.Canon.storeRow {d i0 outer l} (h : s.Canon) : (s.storeRow d i0 outer l).1.Canon := by
  unfold State.storeRow
  extract_lets
  split
  · exact h.foldl_fst fun ht => ht.store.foldl_fst fun hu => .ite hu.setElem.bump hu.setElem
  · exact h.foldl_fst fun ht => .ite ht.setElem.bump ht.setElem

theorem State.Canon.storeIntElem {d idx v} (h : s.Canon) : (s.storeIntElem d idx v).Canon :=
  .ite h.setElem.bump h.setElem

/-! ## Machine/MemCommands -/

theorem State.Canon.execRegionDefine {p} (h : s.Canon) : CanonNext (execRegionDefine p s) :=
  .next (h.start fun ht => ht.same.complete)

theorem State.Canon.execRegionRelease {p} (h : s.Canon) : CanonNext (execRegionRelease p s) := by
  unfold Machine.execRegionRelease
  refine .next (h.start fun ht => ?_)
  dsimp -zeta only [regionReleaseCommand]
  extract_lets
  split
  · exact ht
  · exact ht.same.enroll.wake

theorem State.Canon.transposeRow {src dst r} (h : s.Canon) : (s.transposeRow src dst r).Canon :=
  h.foldl fun ht => ht.setElem

theorem State.Canon.copyRow {src dst r} (h : s.Canon) : (s.copyRow src dst r).Canon := .ite h.store.store h.store

theorem State.Canon.copyTensor {transpose src dst} (h : s.Canon) : (s.copyTensor transpose src dst).Canon :=
  h.foldl fun ht => .ite ht.transposeRow ht.copyRow

theorem State.Canon.scrambleDesc {d} (h : s.Canon) : (s.scrambleDesc d).Canon := h.foldl fun ht => ht.scramble

theorem State.Canon.execMemCopy {p} (h : s.Canon) : CanonNext (execMemCopy p s) := by
  unfold Machine.execMemCopy
  refine .next (h.start fun ht => ?_)
  dsimp -zeta only [memCopyCommand]
  extract_lets
  split
  · exact ht.readTwice.scrambleDesc.complete
  · exact ht.copyTensor.complete

theorem State.Canon.execMemFill {p} (h : s.Canon) : CanonNext (execMemFill p s) :=
  .next (h.start fun ht => (ht.foldl fun hu => hu.store).complete)

theorem State.Canon.readPiece {x1 n} (h : s.Canon) : (s.readPiece x1 n).1.Canon := by
  unfold State.readPiece
  split
  · exact h.bump
  · exact h.bump
  · exact h

theorem State.Canon.writePiece {x1 b} (h : s.Canon) : (s.writePiece x1 b).Canon := by
  unfold State.writePiece
  split
  · exact h.bump
  · exact h.store
  · exact h.bump

theorem State.Canon.execBar4Access {write off len data _tee} (h : s.Canon) :
    CanonNext (execBar4Access write off len data _tee s) := by
  refine .next (.ite h (.ite (h.foldl fun ht => ht.writePiece) (same ?_)))
  refine h.foldl_fst fun {q x} ht => ?_
  dsimp only
  exact ht.readPiece

/-! ## Machine/Relay -/

theorem State.Canon.setRelay {r} (h : s.Canon) : (s.setRelay r).Canon := h.same

theorem State.Canon.setSend {peer serial cls x} (h : s.Canon) : (s.setSend peer serial cls x).Canon := h.setRelay

theorem State.Canon.setRecv {peer serial cls x} (h : s.Canon) : (s.setRecv peer serial cls x).Canon := h.setRelay

theorem State.Canon.countSent {cls pkey} (h : s.Canon) : (s.countSent cls pkey).Canon :=
  .ite h.bumpWide.bump h.bumpWide

theorem State.Canon.emit {x} (h : s.Canon) : (s.emit x).Canon := h.same

theorem State.Canon.sendAck {peer serial cls nak nakSeq detail} (h : s.Canon) :
    (s.sendAck peer serial cls nak nakSeq detail).Canon := by
  unfold State.sendAck
  extract_lets _ _ _ _ _ _ s1 s2 s3
  have h1 : s1.Canon := h.setSend
  have h2 : s2.Canon := h1.setRecv
  have h3 : s3.Canon := h2.setSend
  split
  · exact h3.emit.countSent
  · exact h

theorem State.Canon.trySend {peer b} (h : s.Canon) : CanonSome id (s.trySend peer b) := by
  unfold State.trySend
  split
  · exact .none
  · split
    · extract_lets _ _ _ _ _ s1 _ _ s2
      have h1 : s1.Canon := h.setSend
      have h2 : s2.Canon := h1.same
      split
      · exact .none
      · exact .some h2.emit.countSent
    · exact .none

theorem State.Canon.pumpList {kept l} (h : s.Canon) : (s.pumpList kept l).Canon := by
  induction l generalizing s kept with
  | nil => exact h.setRelay
  | cons w l ih =>
    unfold State.pumpList
    split
    · exact ih h
    · split
      · exact ih (h.trySend.state ‹_›)
      · exact ih h

theorem State.Canon.reportDemand {key} (h : s.Canon) : (s.reportDemand key).Canon := .ite (.ite h h.sendAck) h

theorem State.Canon.pump (h : s.Canon) : s.pump.Canon := h.pumpList.foldl fun ht => ht.reportDemand

theorem State.Canon.post {peer bodies} (h : s.Canon) : (s.post peer bodies).Canon := h.setRelay.pump

theorem State.Canon.newOp {o} (h : s.Canon) : (s.newOp o).Canon := h.setRelay

theorem State.Canon.sealedPut {owner peer cls region offset g data} (h : s.Canon) :
    (s.sealedPut owner peer cls region offset g data).Canon :=
  h.newOp.post

theorem State.Canon.slotPut {owner peer cls slot g data} (h : s.Canon) :
    (s.slotPut owner peer cls slot g data).Canon :=
  h.newOp.post

theorem State.Canon.signal {owner peer slot g kind cause value} (h : s.Canon) :
    (s.signal owner peer slot g kind cause value).Canon :=
  h.newOp.post

theorem State.Canon.fenceOp {owner peer g} (h : s.Canon) : (s.fenceOp owner peer g).Canon := h.newOp.post

theorem State.Canon.scatterTo {l b} (h : s.Canon) : (s.scatterTo l b).Canon := by
  induction l generalizing s b with
  | nil => exact h
  | cons r l ih => exact ih h.store

theorem State.Canon.sealedGet {owner peer cls region offset length g target} (h : s.Canon) :
    (s.sealedGet owner peer cls region offset length g target).Canon :=
  h.newOp.setRelay.post

theorem State.Canon.dropOps {f} (h : s.Canon) : (s.dropOps f).Canon := h.setRelay

theorem State.Canon.grantN {cls k} (h : s.Canon) : (State.grantN cls k s).Canon := by
  induction k generalizing s with
  | zero => exact h
  | succ k ih =>
    unfold State.grantN
    split
    · exact h
    · split
      · exact h
      · exact ih h.setRecv.setRelay.sendAck

theorem State.Canon.grant (h : s.Canon) : s.grant.Canon := h.grantN.grantN

theorem State.Canon.accept {o} (h : s.Canon) : (s.accept o).Canon := h.setRecv

theorem State.Canon.ackIfDue {peer serial cls now} (h : s.Canon) : (s.ackIfDue peer serial cls now).Canon :=
  .ite h.sendAck h

theorem State.Canon.releaseFences (h : s.Canon) : s.releaseFences.Canon :=
  h.setRelay.foldl fun ht => ht.setRecv.sendAck

theorem State.Canon.nakPacket {o n detail} (h : s.Canon) : (s.nakPacket o n detail).Canon :=
  (Canon.ite h.bump h.accept).sendAck

/-! ## Machine/Select -/

theorem State.Canon.writeList {x src dst row r} (h : s.Canon) : (s.writeList x src dst row r).Canon :=
  h.store.bumpWide.bump.bump

theorem State.Canon.selectRows {s0 : State} {x src dst l n} (h : s.Canon) :
    (s0.selectRows x src dst l s n).1.Canon := by
  induction l generalizing s n with
  | nil => exact h
  | cons row l ih =>
    unfold State.selectRows
    split
    · exact h
    · exact ih h.writeList

theorem State.Canon.selectEffect {p} (h : s.Canon) : (selectEffect p s).Canon := by
  unfold Machine.selectEffect
  extract_lets
  refine h.orPoisoned (fun ht => ht.scrambleDesc) fun ht => ?_
  split
  · exact (Canon.of_fst ‹_› (ht.selectRows)).bump.complete
  · exact (Canon.of_fst ‹_› (ht.selectRows)).complete

theorem State.Canon.execSelectTopk {p} (h : s.Canon) : CanonNext (execSelectTopk p s) :=
  .next (h.start fun ht => ht.selectEffect)

theorem State.Canon.execSelectMerge {p} (h : s.Canon) : CanonNext (execSelectMerge p s) :=
  .next (h.start fun ht => ht.selectEffect)

/-! ## Machine/Graphs -/

theorem State.Canon.execGraphLoad {p} (h : s.Canon) : CanonNext (execGraphLoad p s) := by
  unfold Machine.execGraphLoad
  refine .next (h.start fun ht => ?_)
  dsimp -zeta only [graphLoadCommand]
  refine ht.orPoisoned id fun hu => ?_
  extract_lets _ _ _ s1
  have h1 : s1.Canon := hu.same
  split
  · exact hu.complete
  · exact h1.guard.complete

theorem State.Canon.execGraphUnload {p} (h : s.Canon) : CanonNext (execGraphUnload p s) :=
  .next (h.start fun ht => ht.enroll.wake)

theorem State.Canon.spoilGraph {img} (h : s.Canon) : (s.spoilGraph img).Canon := h.foldl fun ht => .ite ht.scramble ht

/-! ## Machine/Compute -/

theorem State.Canon.storeTile {g t array x4} (h : s.Canon) : (s.storeTile g t array x4).Canon := by
  unfold State.storeTile
  extract_lets _ s1 _ _ _
  have h1 : s1.Canon := h.bump
  split
  · extract_lets r2
    have h2 : r2.1.Canon :=
      (Canon.ite_fst (h1.foldl_fst fun hu => hu.foldl_fst fun hv => hv.storeRow) (h1.foldl_fst fun hu => hu.storeRow))
    exact .ite h2.bump h2
  · extract_lets s2
    have h2 : s2.Canon := .ite (h1.foldl fun hu => hu.foldl fun hv => hv.storeIntElem)
      (h1.foldl fun hu => hu.foldl fun hv => hv.storeIntElem)
    exact .ite h2.bump h2

theorem State.Canon.storeVector {g t array d} (h : s.Canon) : (s.storeVector g t array d).Canon :=
  h.bump.foldl fun ht => ht.storeRow

theorem State.Canon.reportWords {g t array} (h : s.Canon) : (s.reportWords g t array).1.Canon :=
  .of_memories h.mem h.storeVector.host h.storeVector.bar2

/-! ## Machine/Gather -/

theorem State.Canon.setGraphRun {k g} (h : s.Canon) : (s.setGraphRun k g).Canon := h.same

theorem State.Canon.onGraphRun {k f} (h : s.Canon) : (s.onGraphRun k f).Canon := by
  unfold State.onGraphRun
  split
  · exact h.setGraphRun
  · exact h

theorem State.Canon.blameRun {run cause named} (h : s.Canon) : (s.blameRun run cause named).Canon := by
  unfold State.blameRun
  split
  · exact h.onJob
  · exact h

theorem State.Canon.retireVersions (h : s.Canon) : s.retireVersions.Canon := h.same.foldl fun ht => ht.unguard

theorem State.Canon.countWindow {key x v b w} (h : s.Canon) : (s.countWindow key x v b w).1.Canon :=
  (Canon.ite h.bumpWide h).bump.bump.bumpWide.bumpWide

theorem State.Canon.landSlice {key slice data} (h : s.Canon) : (s.landSlice key slice data).Canon := by
  unfold State.landSlice
  split
  · exact h
  · exact .ite h.bump (h.foldl fun ht => ht.store).same

theorem State.Canon.contribute {slot table l} (h : s.Canon) : (s.contribute slot table l).Canon := by
  unfold State.contribute
  extract_lets _ s1
  have h1 : s1.Canon := h.same
  split
  · exact h
  · exact .ite h.onJob h1

theorem State.Canon.finishRequest {id q} (h : s.Canon) : (s.finishRequest id q).Canon := by
  unfold State.finishRequest
  extract_lets _ s1 _
  have h1 : s1.Canon := h.same
  split
  · exact h1
  · extract_lets s2 _ _ _
    have h2 : s2.Canon := by unfold s2; split; exacts [h1.contribute, h1]
    split
    · split
      · split
        · exact h2.same
        · exact h2
      · exact h2
    · split
      · exact h1.landSlice
      · split
        · exact h1
        · exact h1.slotPut

theorem State.Canon.serveWindow {id w} (h : s.Canon) : (s.serveWindow id w).Canon := by
  unfold State.serveWindow
  split
  · exact h
  · extract_lets
    split
    · exact h
    · split
      · exact h
      · extract_lets r1 s2 _ s3 _ s4
        have h1 : r1.1.Canon := Canon.ite_fst h h.countWindow
        have h2 : s2.Canon := h1
        have h3 : s3.Canon := by unfold s3; split; exacts [(by split; exacts [h2.same, h2]), h2]
        have h4 : s4.Canon := h3.same
        exact .ite h4.finishRequest h4

theorem State.Canon.queueRequest {q} (h : s.Canon) : (s.queueRequest q).Canon := h.same

theorem State.Canon.askSlices {key x2 elems group g slot peerOf} (h : s.Canon) :
    (s.askSlices key x2 elems group g slot peerOf).Canon :=
  (h.foldl fun ht => ht.queueRequest).foldl fun ht => ht.slotPut

theorem State.Canon.newGather {o} (h : s.Canon) : (s.newGather o).Canon := h.same

theorem State.Canon.startGatherTask {run task gen} (h : s.Canon) : (s.startGatherTask run task gen).Canon := by
  unfold State.startGatherTask
  extract_lets
  split
  · exact h
  · extract_lets job _ _ _ slice0 entry _ _ _ _ _ _ _ _ _ _ _ _ s1 s2
    clear_value job slice0 entry
    have h1 : s1.Canon := h.bump.bump
    have h2 : s2.Canon := h1.newGather
    split
    · exact h2.askSlices
    · exact h2.askSlices

theorem State.Canon.dropGather {key} (h : s.Canon) : (s.dropGather key).Canon := h.same.dropOps

theorem State.Canon.applyRow {key row number l} (h : s.Canon) : (s.applyRow key row number l).Canon := by
  unfold State.applyRow
  split
  · exact h
  · extract_lets
    split
    · exact h
    · exact (h.store.hotDirty.foldl fun ht => ht.foldl fun hu => hu.store).bump

/-! ## Machine/Engine -/

theorem State.Canon.setGraph {g} (h : s.Canon) : (s.setGraph g).Canon := h.same

theorem State.Canon.setTask {run task t} (h : s.Canon) : (s.setTask run task t).Canon := h.onGraphRun

theorem State.Canon.makeReady {run task} (h : s.Canon) : (s.makeReady run task).Canon := by
  unfold State.makeReady
  extract_lets _ _ _ s1
  have h1 : s1.Canon := h.setGraph
  split
  · split
    · exact h.setTask
    · exact .ite h1.setTask h.setGraph
  · exact h

theorem State.Canon.arrive {k} (h : s.Canon) : (s.arrive k).Canon := by
  unfold State.arrive
  extract_lets
  split
  · exact h.bump
  · extract_lets s1 _
    have h1 : s1.Canon := h.setGraphRun
    split
    · split
      · exact .ite h.onJob h.bump
      · exact h.bump
    · split
      · exact .ite h1 h1.setGraph
      · exact .ite h.bump.blameRun (.ite h.setTask.makeReady h.setTask)

theorem State.Canon.token {k} (h : s.Canon) : (s.token k).Canon := h.setGraph

theorem State.Canon.tokensFor {run source f} (h : s.Canon) : (s.tokensFor run source f).Canon := by
  unfold State.tokensFor
  split
  · exact h
  · exact h.foldl fun ht => ht.foldl fun hu => .ite hu.token hu

theorem State.Canon.enter {run task} (h : s.Canon) : (s.enter run task).Canon := by
  unfold State.enter
  split
  · exact h
  · exact (Canon.ite h.setGraphRun.setGraph.makeReady h.setGraphRun.setGraph).foldl fun ht => ht.arrive

theorem State.Canon.execTaskAdmission {run die} (h : s.Canon) : CanonNext (execTaskAdmission run die s) := by
  unfold Machine.execTaskAdmission
  refine .next ?_
  split
  · exact h
  · split
    · exact h
    · exact .ite h.enter h

theorem State.Canon.execTokenArrival {n} (h : s.Canon) : CanonNext (execTokenArrival n s) := by
  unfold Machine.execTokenArrival
  refine .next ?_
  extract_lets
  split
  · exact h
  · exact h.setGraph.arrive

theorem State.Canon.fillHalves {u run attempt t img} (h : s.Canon) : (s.fillHalves u run attempt t img).1.Canon :=
  h.foldl_fst fun ht => (Canon.ite_fst ht.bump ht.setGraph)

theorem State.Canon.startTransfers {u n} (h : s.Canon) : (s.startTransfers u n).Canon := h.setGraph

theorem State.Canon.execEngineTransferComplete {unit} (h : s.Canon) :
    CanonNext (execEngineTransferComplete unit s) := by
  unfold Machine.execEngineTransferComplete
  refine .next ?_
  extract_lets
  split
  · exact h
  · exact h.setGraph

theorem State.Canon.execQueueSpaceReleased {die prio} (h : s.Canon) :
    CanonNext (execQueueSpaceReleased die prio s) := by
  unfold Machine.execQueueSpaceReleased
  extract_lets
  refine .next ?_
  split
  · split
    · exact h.setGraph.makeReady
    · exact h
  · exact h

theorem State.Canon.startRelayTask {run task here} (h : s.Canon)
    (hhere : ∀ {x0 x1 x2 u}, u.Canon → (here x0 x1 x2 u).Canon) :
    (s.startRelayTask run task here).Canon := by
  unfold State.startRelayTask
  extract_lets
  split
  · exact h
  · extract_lets
    split
    · exact h
    · split
      · exact h.blameRun
      · exact h.foldl fun hu => hu.foldl fun hv => .ite (hhere hv)
          (by split; exacts [hv.slotPut, hv.sealedPut, hv.sealedGet, hv.signal, hv.fenceOp])

theorem State.Canon.forsake {run task} (h : s.Canon) : (s.forsake run task).Canon := by
  unfold State.forsake
  extract_lets _ s1 _ _
  have h1 : s1.Canon := by unfold s1; split; exacts [h.same, h]
  exact h1.setRelay

theorem State.Canon.grantTo {run task unit here} (h : s.Canon)
    (hhere : ∀ {x0 x1 x2 u}, u.Canon → (here x0 x1 x2 u).Canon) :
    (s.grantTo run task unit here).Canon := by
  unfold State.grantTo
  split
  · extract_lets _ _ s1 _ s2 r3 s4 s5
    have h1 : s1.Canon := h.setTask
    have h2 : s2.Canon := h1.setGraph
    have h3 : r3.1.Canon := Canon.ite_fst h2.fillHalves h2
    have h4 : s4.Canon := h3.startTransfers
    have h5 : s5.Canon := h4.forsake
    exact .ite h5.startGatherTask (.ite (h5.startRelayTask hhere) h5)
  · exact h

theorem State.Canon.holdDirect {run task} (h : s.Canon) : CanonSome id (s.holdDirect run task) := by
  unfold State.holdDirect
  split
  · exact .some h
  · extract_lets
    split
    · split
      · exact .some h
      · extract_lets
        split
        · exact .none
        · exact .some h.setGraphRun.setGraph
    · exact .some h

theorem State.Canon.flowFault {run} (h : s.Canon) : (s.flowFault run).Canon := by
  unfold State.flowFault
  split
  · exact h
  · split
    · exact h.blameRun
    · exact h.onGraphRun

theorem State.Canon.clearRun {run} (h : s.Canon) : (s.clearRun run).Canon :=
  (h.setGraph.foldl fun ht => ht.dropGather).dropOps

theorem State.Canon.dropRun {run} (h : s.Canon) : (s.dropRun run).Canon := h.clearRun.setGraph.retireVersions

theorem State.Canon.endRun {run st detail} (h : s.Canon) : (s.endRun run st detail).Canon := by
  unfold State.endRun
  split
  · exact h.dropRun.finish.wake
  · exact h

theorem State.Canon.settleRun {run} (h : s.Canon) : (s.settleRun run).Canon := by
  unfold State.settleRun
  split
  · exact .ite h.endRun (.ite (.ite h.spoilGraph.endRun h.endRun) h)
  · exact h

/-! ## Machine/Landing -/

theorem State.Canon.takeRequests {x peer} (h : s.Canon) : (s.takeRequests x peer).1.Canon := by
  unfold State.takeRequests
  extract_lets
  split
  · exact h.bump
  · exact h.foldl fun ht => ht.queueRequest

theorem State.Canon.takeResponse {x task run} (h : s.Canon) : (s.takeResponse x task run).Canon := by
  unfold State.takeResponse
  extract_lets key
  clear_value key
  split
  · exact h.landSlice
  · exact h

theorem State.Canon.planeFault {slot} (h : s.Canon) : (s.planeFault slot).Canon := h.bump.onJob

theorem State.Canon.putPayload {k x off bytes} (h : s.Canon) : (s.putPayload k x off bytes).1.Canon := by
  unfold State.putPayload
  extract_lets
  split
  · exact h.scatterTo
  · exact h

theorem State.Canon.planeComplete {k x run peer} (h : s.Canon) : (s.planeComplete k x run peer).1.Canon := by
  unfold State.planeComplete
  split
  · exact h.tokensFor
  · exact h.takeRequests
  · exact h.takeResponse

theorem State.Canon.land {jobSlot k run peer b} (h : s.Canon) : (s.land jobSlot k run peer b).1.Canon := by
  unfold State.land
  extract_lets _ _ _ _ _ _ _ r1 _ _ s2
  have h1 : r1.1.Canon := h.putPayload
  have h2 : s2.Canon := h1.setRelay
  split
  · exact h.planeFault
  · split
    · split; exacts [.ite h.bump h, h]
    · exact Canon.ite_fst h (Canon.ite_fst h (Canon.ite_fst h2.planeComplete h2))

theorem State.Canon.serveHere {run task rank _dest d} (h : s.Canon) :
    (State.serveHere run task rank _dest d s).Canon := by
  unfold State.serveHere
  split
  · exact h
  · extract_lets
    split
    · exact h
    · extract_lets
      split
      · split
        · exact h.land
        · exact h.planeFault
      · split
        · exact h.store
        · exact h.blameRun
      · split
        · exact h.scatterTo
        · exact h.blameRun
      · exact h.tokensFor
      · exact h

/-! ## Machine/Results -/

theorem State.Canon.unready {run task} (h : s.Canon) : (s.unready run task).Canon := h.setGraph

theorem State.Canon.grantReady {run task unit} (h : s.Canon) : (s.grantReady run task unit).Canon := by
  unfold State.grantReady
  split
  · exact h
  · extract_lets
    split
    · exact h.unready.flowFault.settleRun
    · split
      · exact h
      · exact (h.unready.holdDirect.state ‹_›).onGraphRun.grantTo fun ht => ht.serveHere

theorem State.Canon.grantDup {die} (h : s.Canon) : (s.grantDup die).Canon := by
  unfold State.grantDup
  split
  · exact h
  · split
    · exact h
    · exact h.setGraphRun.setGraph.fillHalves.startTransfers

theorem State.Canon.execTaskGrant {die ty dup} (h : s.Canon) : CanonNext (execTaskGrant die ty dup s) := by
  unfold Machine.execTaskGrant
  refine .next ?_
  extract_lets
  split
  · exact h.grantDup
  · split
    · exact h.grantReady
    · exact h

theorem State.Canon.jobParity {slot x2} (h : s.Canon) : (s.jobParity slot x2).Canon := by
  unfold State.jobParity
  extract_lets
  split
  · exact h
  · extract_lets
    split
    · exact h.setJob
    · split
      · exact .ite h h.sealedGet
      · exact h.setJob

theorem State.Canon.chargeAll {l unit die} (h : s.Canon) : (s.chargeAll l unit die).Canon :=
  h.foldl fun ht => ht.parity

theorem State.Canon.refuseResult {run task l} (h : s.Canon) : (s.refuseResult run task l).Canon := by
  unfold State.refuseResult
  extract_lets s1
  have h1 : s1.Canon := by unfold s1; split; exacts [h.setTask, h]
  split
  · exact h
  · extract_lets again _
    clear_value again
    split
    · exact .ite h.onGraphRun.requeue (.ite h1.onJob (h1.foldl fun hu => hu.jobParity))
    · split
      · exact h.endRun
      · exact h.onGraphRun.requeue

theorem State.Canon.journal {slot lo len} (h : s.Canon) : (s.journal slot lo len).Canon := by
  unfold State.journal
  extract_lets
  split
  · exact h
  · exact .ite h (.ite h.setJob (.ite h.setJob h.setJob))

theorem State.Canon.dividerTurn {unit} (h : s.Canon) : (s.dividerTurn unit).Canon := by
  unfold State.dividerTurn
  extract_lets
  split
  · exact h
  · exact h.setGraph

theorem State.Canon.endEntry {unit} (h : s.Canon) : (s.endEntry unit).Canon := h.setGraph.dividerTurn

theorem State.Canon.staleResult {g} (h : s.Canon) : (s.staleResult g).Canon := by
  unfold State.staleResult
  split
  · exact h.onJob
  · exact h.bump

theorem State.Canon.keepDigest {run task array d} (h : s.Canon) : (s.keepDigest run task array d).Canon :=
  h.onGraphRun

theorem State.Canon.taskEffect {run g o} (h : s.Canon) : (s.taskEffect run g o).Canon := by
  unfold State.taskEffect
  extract_lets _ _ _ _ s1 r2 _ _
  have h1 : s1.Canon := .ite h.keepDigest h
  have h2 : r2.1.Canon := h.reportWords
  split
  · exact h1.storeTile
  · split
    · split
      · exact h2.onJob
      · exact h2
    · exact h.storeVector
  · split
    · exact h.same
    · exact h
  · split
    · exact Canon.of_fst ‹_› (h.selectRows)
    · exact (Canon.of_fst ‹_› (h.selectRows)).bump.blameRun
  · exact h

theorem State.Canon.acceptResult {run o} (h : s.Canon) : (s.acceptResult run o).Canon := by
  unfold State.acceptResult
  split
  · extract_lets _ _ s1 s2 _ s3 s4
    have h1 : s1.Canon := h.setTask
    have h2 : s2.Canon := h1.foldl fun hu => hu.token
    have h3 : s3.Canon := .ite h2.setGraph h2
    have h4 : s4.Canon := .ite h3.onGraphRun h3
    split
    · exact h4.advance.same.settleRun
    · exact h4
  · exact h

theorem State.Canon.spoiledCommit {run g o x4} (h : s.Canon) : (s.spoiledCommit run g o x4).Canon := by
  unfold State.spoiledCommit
  extract_lets _ _ s1 s2
  have h1 : s1.Canon := h.foldl fun ht => ht.scramble
  have h2 : s2.Canon := by unfold s2; split; exacts [h1.onJob, h1]
  exact h2.acceptResult

theorem State.Canon.takeResult {run g o} (h : s.Canon) : (s.takeResult run g o).Canon := by
  unfold State.takeResult
  extract_lets _ _ _ _ s1 s2
  have h1 : s1.Canon := h.chargeAll
  have h2 : s2.Canon := by unfold s2; split; exacts [h1.foldl fun hu => hu.journal, h1]
  split
  · exact .ite h1.spoiledCommit h1.refuseResult
  · exact .ite h1.refuseResult h2.taskEffect.acceptResult

theorem State.Canon.takeDup {run g o} (h : s.Canon) : (s.takeDup run g o).Canon := by
  unfold State.takeDup
  extract_lets _ _ _ s1 s2 _ _
  have h1 : s1.Canon := h.chargeAll
  have h2 : s2.Canon := h1.onGraphRun
  split
  · exact h2.keepDigest.bump
  · split
    · exact h2
    · exact .ite h2.onJob (h2.foldl fun hv => hv.jobParity)

theorem State.Canon.execTaskResultOffered {r} (h : s.Canon) : CanonNext (execTaskResultOffered r s) := by
  unfold Machine.execTaskResultOffered
  refine .next ?_
  extract_lets
  split
  · exact h
  · extract_lets
    split
    · exact .ite h h.staleResult
    · split
      · exact h
      · split
        · exact .ite h.endEntry.takeDup h.endEntry
        · exact .ite h.endEntry.staleResult (.ite (.ite h.endEntry.takeResult h) h)

theorem State.Canon.execPrefetchCopyComplete {n} (h : s.Canon) : CanonNext (execPrefetchCopyComplete n s) := by
  unfold Machine.execPrefetchCopyComplete
  refine .next ?_
  extract_lets
  split
  · exact h
  · split
    · exact h
    · extract_lets _ _ _ _ _ s1
      have h1 : s1.Canon := h.setGraph.copyTensor
      split
      · exact h
      · split
        · extract_lets s2 _
          have h2 : s2.Canon := h.parity
          split
          · exact h2.setGraph.jobParity
          · exact .ite h2.endRun h2.onGraphRun
        · exact h1.token

theorem State.Canon.windowParity {q x2} (h : s.Canon) : (s.windowParity q x2).Canon := by
  unfold State.windowParity
  extract_lets s1 _
  have h1 : s1.Canon := h.parity
  split
  · split
    · exact h1.parity.dropGather.finish.retireVersions
    · exact h1
  · split
    · exact h1.jobParity
    · exact h1.parity.endRun
  · split
    · exact h1.jobParity
    · exact h1

theorem State.Canon.settleGathers (h : s.Canon) : s.settleGathers.Canon := by
  unfold State.settleGathers
  exact h.foldl fun ht => (by split; exacts [.ite ht.dropGather.finish.retireVersions.wake ht, ht])

theorem State.Canon.execGatherWindowServed {id w} (h : s.Canon) : CanonNext (execGatherWindowServed id w s) := by
  unfold Machine.execGatherWindowServed
  refine .next ?_
  split
  · exact h
  · split
    · exact h
    · split
      · exact h.windowParity
      · exact h.serveWindow.settleGathers

theorem State.Canon.newRun {g} (h : s.Canon) : (s.newRun g).Canon := h.setGraph

theorem State.Canon.execGraphRun {p} (h : s.Canon) : CanonNext (execGraphRun p s) :=
  .next (h.start fun ht => ht.newRun.enroll)

/-! ## Machine/Embeddings -/

theorem State.Canon.execEmbTableCreate {p} (h : s.Canon) : CanonNext (execEmbTableCreate p s) :=
  .next (h.start fun ht => ht.same.complete)

theorem State.Canon.copyRows {v p x} (h : s.Canon) : (s.copyRows v p x).Canon := h.foldl fun hu => hu.store

theorem State.Canon.execEmbVersionLoad {p fetched} (h : s.Canon) : CanonNext (execEmbVersionLoad p fetched s) := by
  unfold Machine.execEmbVersionLoad
  refine .next (h.start fun ht => ?_)
  dsimp -zeta only [embVersionLoadCommand]
  extract_lets
  split
  · exact ht
  · extract_lets
    split
    · exact ht.scramble.complete
    · exact ht.orPoisoned (fun hu => hu.scramble) fun hu => hu.copyRows.same.guard.complete

theorem State.Canon.makeCurrent {table number} (h : s.Canon) : (s.makeCurrent table number).Canon := by
  unfold State.makeCurrent
  extract_lets _ _ _ s1 s2
  have h1 : s1.Canon := h.same
  have h2 : s2.Canon := h1.foldl fun hu => (by split; exacts [.ite hu.hotRebuild.hotRebuild hu, hu])
  exact h2.retireVersions

theorem State.Canon.execEmbVersionPublish {p} (h : s.Canon) : CanonNext (execEmbVersionPublish p s) := by
  unfold Machine.execEmbVersionPublish
  refine .next (h.start fun ht => ?_)
  dsimp -zeta only [embVersionPublishCommand]
  extract_lets _ _ s1
  have h1 : s1.Canon := by unfold s1; split; exacts [ht.makeCurrent, .ite ht.makeCurrent ht.same]
  exact h1.complete.wake

theorem State.Canon.askStores {p key x3 elems} (h : s.Canon) : (s.askStores p key x3 elems).Canon :=
  (h.foldl fun ht => ht.queueRequest).foldl fun ht => ht.slotPut

theorem State.Canon.startEmbGather {p number x} (h : s.Canon) : (s.startEmbGather p number x).Canon :=
  h.bump.bump.newGather.enroll.askStores

theorem State.Canon.execEmbGather {p} (h : s.Canon) : CanonNext (execEmbGather p s) := by
  unfold Machine.execEmbGather
  refine .next (h.start fun ht => ?_)
  dsimp -zeta only [embGatherCommand]
  refine ht.orPoisoned (fun hu => hu.scrambleDesc) fun hu => ?_
  split
  · exact hu.startEmbGather.settleGathers
  · exact hu.complete

theorem State.Canon.execEmbTableDestroy {p} (h : s.Canon) : CanonNext (execEmbTableDestroy p s) :=
  .next (h.start fun ht => ht.enroll.wake)

/-! ## Machine/Jobs -/

theorem State.Canon.openJob {p next mustered} (h : s.Canon) : (s.openJob p next mustered).Canon := by
  unfold State.openJob
  extract_lets
  split
  · exact h
  · exact (Canon.ite h.same.lock h.same).setJob.log.remedies

theorem State.Canon.execJobOpen {p} (h : s.Canon) : CanonNext (execJobOpen p s) :=
  .next (h.start fun ht => ht.openJob.complete)

theorem State.Canon.moveRecords {job ring} (h : s.Canon) : (s.moveRecords job ring).Canon :=
  h.same.foldl fun ht => ht.fallDue

theorem State.Canon.execJobAttach {p} (h : s.Canon) : CanonNext (execJobAttach p s) := by
  unfold Machine.execJobAttach
  refine .next (h.start fun ht => ?_)
  dsimp -zeta only [jobAttachCommand]
  split
  · exact ht
  · exact ht.setJob.moveRecords.complete

theorem State.Canon.execStepRun {p} (h : s.Canon) : CanonNext (execStepRun p s) := by
  unfold Machine.execStepRun
  refine .next (h.start fun ht => ?_)
  dsimp -zeta only [stepRunCommand]
  extract_lets
  split
  · exact ht
  · exact ht.setJob.enroll

theorem State.Canon.endStepRun {r st detail} (h : s.Canon) : (s.endStepRun r st detail).Canon := by
  unfold State.endStepRun
  split
  · exact h.finish
  · exact h

theorem State.Canon.execJobClose {p} (h : s.Canon) : CanonNext (execJobClose p s) := by
  unfold Machine.execJobClose
  refine .next (h.start fun ht => ?_)
  dsimp -zeta only [jobCloseCommand]
  split
  · exact ht
  · exact (ht.foldl fun hu => hu.endStepRun).setJob.enroll.wake.remedies

/-! ## Machine/Samples -/

theorem State.Canon.execDatasetOpen {p} (h : s.Canon) : CanonNext (execDatasetOpen p s) :=
  .next (h.start fun ht => ht.same.complete)

theorem State.Canon.execDatasetClose {p} (h : s.Canon) : CanonNext (execDatasetClose p s) :=
  .next (h.start fun ht => ht.same.complete)

theorem State.Canon.setPipe {slot x} (h : s.Canon) : (s.setPipe slot x).Canon := h.same

theorem State.Canon.execPipelineConfig {p} (h : s.Canon) : CanonNext (execPipelineConfig p s) := by
  unfold Machine.execPipelineConfig
  refine .next (h.start fun ht => ?_)
  dsimp -zeta only [pipelineConfigCommand]
  extract_lets
  split
  · exact ht
  · exact ht.same.setPipe.complete

theorem State.Canon.execEpochSet {p} (h : s.Canon) : CanonNext (execEpochSet p s) := by
  unfold Machine.execEpochSet
  refine .next (h.start fun ht => ?_)
  dsimp -zeta only [epochSetCommand]
  split
  · exact ht
  · extract_lets s1
    have h1 : s1.Canon := by unfold s1; split; exacts [ht, ht.setPipe]
    exact h1.complete

theorem State.Canon.deal {o rank step} (h : s.Canon) : (s.deal o rank step).Canon := by
  unfold State.deal
  extract_lets
  split
  · exact h
  · exact h.same.zero

theorem State.Canon.execBatchPrepare {p} (h : s.Canon) : CanonNext (execBatchPrepare p s) :=
  .next (h.start fun ht => ht.enroll.deal)

theorem State.Canon.execCorrectionLoad {p} (h : s.Canon) : CanonNext (execCorrectionLoad p s) := by
  unfold Machine.execCorrectionLoad
  refine .next (h.start fun ht => ?_)
  dsimp -zeta only [correctionLoadCommand]
  extract_lets
  split
  · exact ht.unguard.same.complete
  · refine ht.orPoisoned id fun hu => ?_
    extract_lets _ _ s1 _ _ _ s2 s3
    have h1 : s1.Canon := hu.store
    have h2 : s2.Canon := h1.unguard.same
    have h3 : s3.Canon := h2.guard.guard
    split
    · exact hu.complete
    · exact h3.complete

/-! ## Machine/Lanes -/

theorem State.Canon.sampleFault {o step cause detail} (h : s.Canon) : (s.sampleFault o step cause detail).Canon := by
  unfold State.sampleFault
  extract_lets
  split
  · exact h.dropBatch.same
  · split
    · exact h.dropBatch.scramble.finish.wake
    · exact h.dropBatch

theorem State.Canon.sampleParity {o step x3} (h : s.Canon) : (s.sampleParity o step x3).Canon :=
  h.readTwice.sampleFault

theorem State.Canon.setQueue {die l} (h : s.Canon) : (s.setQueue die l).Canon := h.same

theorem State.Canon.setWindow {die l} (h : s.Canon) : (s.setWindow die l).Canon := h.same

theorem State.Canon.passBlocks {die} (h : s.Canon) : (s.passBlocks die).Canon := .ite h h.setQueue.setQueue

theorem State.Canon.issueNext {die lane fetched} (h : s.Canon) : (s.issueNext die lane fetched).Canon := by
  unfold State.issueNext
  split
  · exact h
  · split
    · exact h.dropBatch
    · split
      · exact h.sampleFault
      · extract_lets
        split
        · exact h.sampleParity
        · split
          · exact h
          · extract_lets
            split
            · exact h.sampleFault
            · exact h.setQueue.setWindow.bump

theorem State.Canon.execSampleIssue {die fetched} (h : s.Canon) : CanonNext (execSampleIssue die fetched s) := by
  unfold Machine.execSampleIssue
  refine .next ?_
  extract_lets s1 _
  have h1 : s1.Canon := h.passBlocks
  split
  · exact h
  · split
    · exact h1
    · exact .ite h1.setWindow (.ite h1 h1.issueNext)

theorem State.Canon.execSampleDecodeComplete {lane fetched} (h : s.Canon) :
    CanonNext (execSampleDecodeComplete lane fetched s) := by
  unfold Machine.execSampleDecodeComplete
  refine .next ?_
  extract_lets
  split
  · exact h
  · split
    · exact h
    · extract_lets
      split
      · exact h.same
      · split
        · exact h.sampleParity
        · split
          · exact h
          · exact h.bump.bumpWide.bump.same

theorem State.Canon.writeSlot {st base e r} (h : s.Canon) : (s.writeSlot st base e r).Canon :=
  (Canon.ite h.store h.store.store).store.store

theorem State.Canon.sampleTokens {slot step} (h : s.Canon) : (s.sampleTokens slot step).Canon := by
  unfold State.sampleTokens
  split
  · exact h
  · split
    · exact h
    · split
      · exact h.tokensFor
      · exact h

theorem State.Canon.batchDone {o rank step} (h : s.Canon) : (s.batchDone o rank step).Canon := by
  unfold State.batchDone
  extract_lets
  split
  · exact h.same.sampleTokens
  · split
    · exact h
    · exact .ite h.deal h.finish.wake

theorem State.Canon.slotDone {o rank step} (h : s.Canon) : (s.slotDone o rank step).Canon := by
  unfold State.slotDone
  extract_lets
  split
  · exact h
  · exact .ite h.same.batchDone h.same

theorem State.Canon.showSample {o} (h : s.Canon) : (s.showSample o).Canon := by
  unfold State.showSample
  split
  · exact h
  · split
    · exact h
    · exact h.same.advance

theorem State.Canon.execSlotHandOn {die} (h : s.Canon) : CanonNext (execSlotHandOn die s) := by
  unfold Machine.execSlotHandOn
  refine .next ?_
  split
  · exact h
  · extract_lets s1
    have h1 : s1.Canon := h.setWindow
    split
    · exact h
    · split
      · exact h1
      · extract_lets s2 s3
        have h2 : s2.Canon := h1.writeSlot
        have h3 : s3.Canon := by unfold s3; split; exacts [h2.bump, h2]
        exact h3.bumpWide.showSample.slotDone

theorem State.Canon.execSampleSourceTimeout {die lane} (h : s.Canon) :
    CanonNext (execSampleSourceTimeout die lane s) := by
  unfold Machine.execSampleSourceTimeout
  refine .next ?_
  extract_lets
  split
  · split
    · exact h
    · split
      · exact .ite h.sampleFault h
      · exact h
  · split
    · exact h
    · split
      · exact .ite h.sampleFault h
      · exact h

/-! ## Machine/Phases -/

theorem State.Canon.absorbEnded {slot step} (h : s.Canon) : (s.absorbEnded slot step).Canon :=
  h.foldl fun ht => ht.onJob

theorem State.Canon.preparedTokens {slot step run} (h : s.Canon) : (s.preparedTokens slot step run).Canon :=
  (h.foldl fun ht => ht.tokensFor).sampleTokens

theorem State.Canon.dropAttempt {slot j} (h : s.Canon) : (s.dropAttempt slot j).Canon := h.same.setRelay

theorem State.Canon.startAttempt {slot attempt} (h : s.Canon) : (s.startAttempt slot attempt).Canon := by
  unfold State.startAttempt
  split
  · exact h
  · extract_lets _ s1 s2
    have h1 : s1.Canon := h.dropAttempt.setJob
    have h2 : s2.Canon := h1.absorbEnded
    split
    · exact h2
    · exact h2.clearRun.setGraphRun.preparedTokens

theorem State.Canon.holdJob {slot cause known} (h : s.Canon) : (s.holdJob slot cause known).Canon := by
  unfold State.holdJob
  extract_lets s1
  have h1 : s1.Canon := by unfold s1; split; exacts [h.dropRun, h]
  split
  · exact h
  · exact (h1.dropAttempt.setJob.log.foldl fun hu => hu.endStepRun).wake.remedies

theorem State.Canon.moveRank {j r m} (h : s.Canon) : (s.moveRank j r m).Canon := h.store

theorem State.Canon.adoptRank {slot r} (h : s.Canon) : (s.adoptRank slot r).Canon := by
  unfold State.adoptRank
  split
  · exact h
  · extract_lets s1
    have h1 : s1.Canon := h.setJob
    split
    · exact h1
    · split
      · exact h1.holdJob
      · exact h1.setPipe.foldl fun hu => .ite hu hu.deal

theorem State.Canon.loseRank {slot r} (h : s.Canon) : (s.loseRank slot r).Canon := by
  unfold State.loseRank
  split
  · exact h
  · extract_lets _ s1 s2
    have h1 : s1.Canon := h.setJob
    have h2 : s2.Canon := by unfold s2; split; exacts [h1.setPipe, h1]
    exact .ite h2.holdJob h2

theorem State.Canon.rehostRank {slot r dead} (h : s.Canon) : (s.rehostRank slot r dead).Canon := by
  unfold State.rehostRank
  split
  · exact h
  · extract_lets
    split
    · exact h
    · split
      · exact h.holdJob
      · extract_lets s1 s2 s3 s4
        have h1 : s1.Canon := h.moveRank
        have h2 : s2.Canon := .ite h1 h1.dropOps
        have h3 : s3.Canon := .ite h2.loseRank h2
        have h4 : s4.Canon := .ite h3.adoptRank h3
        exact h4.onJob

theorem State.Canon.rehostModules {slot dead} (h : s.Canon) : (s.rehostModules slot dead).Canon := by
  unfold State.rehostModules
  split
  · exact h
  · exact h.foldl fun ht => ht.rehostRank

theorem State.Canon.rehostModuleOf {slot r} (h : s.Canon) : (s.rehostModuleOf slot r).Canon := by
  unfold State.rehostModuleOf
  split
  · exact h
  · exact h.rehostModules

theorem State.Canon.unjournal {l} (h : s.Canon) : (s.unjournal l).Canon := h.foldl fun ht => ht.store

theorem State.Canon.dropHotOf {job} (h : s.Canon) : (s.dropHotOf job).Canon := h.mapHot.mapHot.dropReplicas

theorem State.Canon.noteExpelled {j named} (h : s.Canon) : (s.noteExpelled j named).Canon := .ite h.bump.log.alert h

theorem State.Canon.rollback {slot named} (h : s.Canon) : (s.rollback slot named).Canon := by
  unfold State.rollback
  split
  · exact h
  · extract_lets s1 s2 s3 s4 s5 _ s6 _ _ _ s7
    have h1 : s1.Canon := h.noteExpelled
    have h2 : s2.Canon := by unfold s2; split; exacts [h1.dropRun, h1]
    have h3 : s3.Canon := h2.dropAttempt
    have h4 : s4.Canon := h3.unjournal.dropHotOf.dropPrepares
    have h5 : s5.Canon := h4.dropBatch
    have h6 : s6.Canon := h5.same
    have h7 : s7.Canon := h6.setJob.bump.log
    exact .ite h.holdJob h7.rehostRank

/-! ## Machine/Agree -/

theorem State.Canon.sendSignal {j step attempt src dst kind cause value} (h : s.Canon) :
    (s.sendSignal j step attempt src dst kind cause value).Canon :=
  .ite h h.signal

theorem State.Canon.forward {slot step attempt kind cause value} (h : s.Canon) :
    (s.forward slot step attempt kind cause value).Canon := by
  unfold State.forward
  split
  · exact h
  · exact h.foldl fun ht => ht.foldl fun hu => hu.sendSignal

theorem State.Canon.openCommit {slot} (h : s.Canon) : (s.openCommit slot).Canon := by
  unfold State.openCommit
  split
  · exact h
  · extract_lets s1
    have h1 : s1.Canon := h.setJob
    split
    · exact h
    · split
      · exact h1.onGraphRun
      · exact h1

theorem State.Canon.takeCommit {slot} (h : s.Canon) : (s.takeCommit slot).Canon := h.onJob.openCommit

theorem State.Canon.endHead {slot} (h : s.Canon) : (s.endHead slot).Canon := by
  unfold State.endHead
  split
  · exact h
  · split
    · exact h
    · exact (Canon.ite (h.foldl fun ht => ht.endStepRun) h).setJob.endStepRun.wake.remedies

theorem State.Canon.musterPassed {slot} (h : s.Canon) : (s.musterPassed slot).Canon := h.onJob.endHead

theorem State.Canon.newRound {slot round} (h : s.Canon) : (s.newRound slot round).Canon := h.onJob

theorem State.Canon.decideRollback {slot named missing} (h : s.Canon) :
    (s.decideRollback slot named missing).Canon := by
  unfold State.decideRollback
  extract_lets s1
  have h1 : s1.Canon := by unfold s1; split; exacts [h.rehostModuleOf, h]
  split
  · exact h
  · exact .ite h.holdJob h1.forward.rollback

theorem State.Canon.takeReplay {slot step attempt} (h : s.Canon) : (s.takeReplay slot step attempt).Canon := by
  unfold State.takeReplay
  extract_lets s1
  have h1 : s1.Canon := h.onJob
  split
  · exact h
  · exact .ite h (.ite h1.onJob h1.startAttempt)

theorem State.Canon.resolve {slot b v l} (h : s.Canon) : (s.resolve slot b v l).Canon := by
  unfold State.resolve
  extract_lets
  split
  · exact .ite h.forward.musterPassed h.forward.takeCommit
  · split
    · exact h.holdJob
    · split
      · exact h.decideRollback
      · split
        · exact h.rehostModuleOf.forward.newRound
        · exact .ite h.rehostModuleOf.forward.takeReplay h.forward.takeReplay

theorem State.Canon.castVote {slot b r} (h : s.Canon) : (s.castVote slot b r).Canon := by
  unfold State.castVote
  split
  · exact h
  · extract_lets v
    clear_value v
    split
    · exact h
    · split
      · exact h
      · exact .ite h.setJob h.setJob.sendSignal

theorem State.Canon.tally {slot} (h : s.Canon) : (s.tally slot).Canon := by
  unfold State.tally
  split
  · exact h
  · extract_lets _ s1
    have h1 : s1.Canon := h.foldl fun ht => ht.castVote
    split
    · exact h1
    · split
      · exact h1.resolve
      · split
        · exact h1.holdJob
        · exact h1

theorem State.Canon.failNext {slot cause detail} (h : s.Canon) : (s.failNext slot cause detail).Canon := by
  unfold State.failNext
  split
  · exact h
  · exact (h.foldl fun ht => .ite ht ht.sendSignal).holdJob

theorem State.Canon.actingReplay {slot} (h : s.Canon) : (s.actingReplay slot).Canon := by
  unfold State.actingReplay
  extract_lets
  split
  · exact h
  · extract_lets
    split
    · exact h
    · extract_lets second s1 s2 _
      clear_value second
      have h1 : s1.Canon := h.rehostModules
      have h2 : s2.Canon := by unfold s2; split; exacts [h1.rehostModuleOf, h1]
      split
      · exact h2
      · exact .ite h2 (.ite h2.forward.takeReplay h2.sendSignal)

theorem State.Canon.actingDone {slot} (h : s.Canon) : (s.actingDone slot).Canon := by
  unfold State.actingDone
  split
  · exact .ite h.actingReplay h
  · exact h

theorem State.Canon.actingAnswer {slot j v} (h : s.Canon) : (s.actingAnswer slot j v).Canon := by
  unfold State.actingAnswer
  split
  · exact h
  · exact .ite h.setJob.sendSignal h.setJob.actingDone

theorem State.Canon.takeVote {slot step attempt rank cause value} (h : s.Canon) :
    (s.takeVote slot step attempt rank cause value).Canon := by
  unfold State.takeVote
  extract_lets
  split
  · exact h
  · extract_lets
    split
    · exact h
    · split
      · split
        · exact .ite h.setJob.tally h
        · exact h
      · split
        · exact h
        · exact .ite h.actingAnswer (.ite h.failNext (.ite h (.ite h.setJob.tally (.ite h.holdJob h))))

theorem State.Canon.commitSignal {slot step attempt value} (h : s.Canon) :
    (s.commitSignal slot step attempt value).Canon := by
  unfold State.commitSignal
  split
  · exact h
  · extract_lets s1
    have h1 : s1.Canon := by unfold s1; split; exacts [h.foldl fun ht => ht.sendSignal, h]
    exact .ite (.ite h.forward.musterPassed h) (.ite h1.forward.takeCommit h)

theorem State.Canon.replaySignal {slot step attempt cause value} (h : s.Canon) :
    (s.replaySignal slot step attempt cause value).Canon := by
  unfold State.replaySignal
  extract_lets _ _ second s1 _ s2 s3 s4
  clear_value second
  have h1 : s1.Canon := by unfold s1; split; exacts [h.rehostModuleOf, h]
  have h2 : s2.Canon := .ite h.rehostModuleOf h
  have h3 : s3.Canon := by unfold s3; split; exacts [.ite h2.rehostModuleOf h2, h2]
  have h4 : s4.Canon := h3.forward
  split
  · exact h
  · split
    · exact h
    · split
      · exact .ite h1.forward.rollback h
      · exact .ite (.ite h.rehostModuleOf.forward.newRound h) (.ite h (.ite h (.ite h4 h4.takeReplay)))

theorem State.Canon.replayNotice {slot attempt} (h : s.Canon) : (s.replayNotice slot attempt).Canon := by
  unfold State.replayNotice
  split
  · exact h
  · exact .ite h.forward.takeReplay h

theorem State.Canon.queryVote {j step attempt rank} (h : s.Canon) : (s.queryVote j step attempt rank).Canon := by
  unfold State.queryVote
  extract_lets
  split
  · exact .ite h.sendSignal h
  · split
    · exact h
    · split
      · exact h.sendSignal
      · exact h

theorem State.Canon.takeQuery {slot step attempt rank} (h : s.Canon) :
    (s.takeQuery slot step attempt rank).Canon := by
  unfold State.takeQuery
  split
  · exact h
  · extract_lets
    split
    · split
      · split
        · exact h.sendSignal
        · split
          · exact h.sendSignal
          · exact h.sendSignal
      · exact .ite (.ite h.sendSignal h.sendSignal) h.queryVote
    · exact .ite (.ite h.sendSignal h.sendSignal) h.queryVote

/-! ## Machine/Grouping -/

theorem State.Canon.mergeStats {v rows m} (h : s.Canon) : (s.mergeStats v rows m).Canon := h.store

theorem State.Canon.writeRow {d transposed j x} (h : s.Canon) : (s.writeRow d transposed j x).Canon :=
  h.foldl fun ht => ht.setElem

theorem State.Canon.appendRows {d transposed from_ l} (h : s.Canon) : (s.appendRows d transposed from_ l).Canon :=
  h.foldl fun ht => ht.writeRow

theorem State.Canon.densifyRow {v m e} (h : s.Canon) : (s.densifyRow v m e).Canon := by
  unfold State.densifyRow
  extract_lets
  split
  · exact .ite h (.ite h.countWrap.setElem.setElem h.countWrap.setElem)
  · exact h

theorem State.Canon.partition {v rows m fail counts} (h : s.Canon) :
    CanonOk Prod.fst (Ev.partition v rows m fail s counts) := by
  unfold Ev.partition
  refine CanonOk.foldl (.ok h) fun ht => ?_
  split
  · exact .error
  · dsimp only
    split
    · exact .error
    · exact .ok (ht.fst rfl).store

theorem State.Canon.clearBucket {x1} (h : s.Canon) : (s.clearBucket x1).Canon := h.store

theorem State.Canon.clearBuckets {base log2} (h : s.Canon) : (s.clearBuckets base log2).Canon :=
  h.foldl fun ht => ht.clearBucket

theorem State.Canon.addSlot {x1 x2 index} (h : s.Canon) : (s.addSlot x1 x2 index).Canon := h.store.store

theorem State.Canon.startBuild {v n} (h : s.Canon) : (s.startBuild v n).Canon := h.store.clearBuckets

theorem State.Canon.addField {x1 n} (h : s.Canon) : (s.addField x1 n).Canon := h.store

theorem State.Canon.buildRow {v n row} (h : s.Canon) : CanonSome id (s.buildRow v n row) := by
  unfold State.buildRow
  extract_lets _ _ _ s1 _ _ _ _ _ _ _ s2 _ s3
  have h1 : s1.Canon := h.addField
  have h2 : s2.Canon := h1.bump
  have h3 : s3.Canon := h2.clearBucket.store.store
  split
  · exact .some h1.addField.bump
  · extract_lets
    split
    · exact .none
    · split
      · exact .some h2.addSlot.store.store
      · split
        · exact .none
        · exact .some h3.addSlot.store.store

theorem State.Canon.buildStripe {v n rows} (h : s.Canon) : CanonOk id (s.buildStripe v n rows) := by
  unfold State.buildStripe
  refine CanonOk.foldl (.ok h) fun ht => ?_
  split
  · exact .error
  · split
    · exact .ok ((ht.state rfl).buildRow.state ‹_›)
    · exact .error

theorem State.Canon.writeGroup {x1 keyWidth kinds tys g} (h : s.Canon) :
    (s.writeGroup x1 keyWidth kinds tys g).Canon :=
  h.store.foldl_fst fun ht => .ite ht ht.store

theorem State.Canon.startGroup {v n} (h : s.Canon) : (s.startGroup v n).Canon := h.store.clearBuckets

theorem State.Canon.newGroup {v n i g} (h : s.Canon) : CanonSome id (s.newGroup v n i g) := by
  unfold State.newGroup
  extract_lets _ _ _ _ _ _ _ _ _ _ _ s1 _ _ _ s2 s3 _ _ _ s4 _ s5
  have h1 : s1.Canon := h.store
  have h2 : s2.Canon := h1.writeGroup.store
  have h3 : s3.Canon := .ite h2 h2.bump
  have h4 : s4.Canon := h3.clearBucket.store.store
  have h5 : s5.Canon := h3.clearBucket.store.store
  split
  · exact .none
  · split
    · exact .some h3.addSlot
    · split
      · exact .some h4.addSlot
      · split
        · exact .some h5.addSlot
        · exact .none

theorem CanonOk.mergeGroup {v m fail r p} (h : CanonOk Prod.fst r) :
    CanonOk Prod.fst (State.mergeGroup v m fail r p) := by
  unfold State.mergeGroup
  extract_lets
  split
  · exact .error
  · extract_lets _ _ s1
    have h1 : s1.Canon := (h.fst rfl).bump
    split
    · exact .ok h1.bump.writeGroup
    · split
      · exact .ok (h1.bump.newGroup.state ‹_›)
      · exact .error

theorem State.Canon.mergeGroups {v rows m fail gs} (h : s.Canon) :
    CanonOk Prod.fst (s.mergeGroups v rows m fail gs) :=
  (CanonOk.foldl (.ok h) fun ht => ht.mergeGroup).map fun ht => ht.addField

/-! ## Machine/Runs -/

theorem State.Canon.startNode {v b n} (h : s.Canon) : (s.startNode v b n).Canon :=
  .ite h.store (.ite (.ite h.zero.zero h.zero) (.ite h.startBuild (.ite h.startGroup h)))

theorem State.Canon.startPass {v b pass} (h : s.Canon) : (s.startPass v b pass).Canon :=
  h.foldl fun ht => ht.startNode

theorem State.Canon.countProbes {v rows m} (h : s.Canon) : (s.countProbes v rows m).Canon := by
  unfold State.countProbes
  extract_lets
  refine .ite (h.foldl fun ht => ht.bump.bump) (.ite (h.foldl fun ht => ?_) h)
  split
  · exact ht
  · dsimp only
    split
    · exact .ite ht.countSearch.bump ht.countSearch
    · exact ht.countSearch

theorem CanonOk.placeNode {v b rows fail r x} (h : CanonOk Prod.fst r) :
    CanonOk Prod.fst (placeNode v b rows fail r x) := by
  unfold Machine.placeNode
  extract_lets
  split
  · exact .error
  · extract_lets s1 s2 _ _
    have h1 : s1.Canon := (h.fst rfl).bump
    have h2 : s2.Canon := h1.countProbes
    split
    · exact .error
    · split
      · exact .error
      · split
        · exact .ok h2.mergeStats
        · split
          · exact .ok (h2.foldl fun hv => hv.densifyRow)
          · split
            · exact h2.partition.map id
            · split
              · exact h2.mergeGroups.map id
              · split
                · exact .ok h2
                · split
                  · exact .ok h2
                  · exact .ite .error (.ok h2.appendRows)

theorem State.Canon.placeItem {v b g x} (h : s.Canon) : CanonOk Prod.fst (placeItem v b s g x) := by
  unfold Machine.placeItem
  split
  · exact h.buildStripe.map id
  · extract_lets
    split
    · exact .error
    · split
      · exact .ok ((CanonOk.foldl (.ok h) fun ht => ht.placeNode).fst ‹_›)
      · exact .error

theorem CanonOk.endNode {v b r x} (h : CanonOk Prod.fst r) : CanonOk Prod.fst (endNode v b r x) := by
  unfold Machine.endNode
  extract_lets
  split
  · exact .error
  · extract_lets
    split
    · exact .ok ((h.fst rfl).store)
    · split
      · split
        · exact .ok (((h.fst rfl).placeTable.fst ‹_›).defineTable)
        · exact .error
      · exact .ok (h.fst rfl)

theorem State.Canon.placeOutputs {v b g} (h : s.Canon) : (s.placeOutputs v b g).Canon := by
  unfold State.placeOutputs
  refine h.foldl fun ht => ?_
  split
  · refine .ite ?_ ht
    dsimp only
    split
    · exact (ht.placeTable.fst ‹_›).defineTable
    · exact ht
  · exact ht

theorem State.Canon.spoilRun {img b} (h : s.Canon) : (s.spoilRun img b).Canon :=
  ((h.foldl fun ht => ht.foldl fun hu => hu.scramble).foldl fun ht => ht.same.unguard.spoilAllocs).scramble

theorem State.Canon.endProgram {slot st detail} (h : s.Canon) : (s.endProgram slot st detail).Canon := by
  unfold State.endProgram
  split
  · exact h
  · split
    · exact h
    · extract_lets s1 _ _ s2 _
      have h1 : s1.Canon := .ite h h.spoilRun
      have h2 : s2.Canon := h1.same
      split
      · exact h2.same
      · exact h2.finishAll.wake

theorem State.Canon.startRun {b step} (h : s.Canon) : (s.startRun b step).Canon := by
  unfold State.startRun
  split
  · exact h
  · exact h.startPass.same

/-! ## Machine/Stripes -/

theorem State.Canon.execFprogLoad {p} (h : s.Canon) : CanonNext (execFprogLoad p s) := by
  unfold Machine.execFprogLoad
  refine .next (h.start fun ht => ?_)
  dsimp -zeta only [fprogLoadCommand]
  refine ht.orPoisoned id fun hu => ?_
  extract_lets _ _ _ s1
  have h1 : s1.Canon := hu.same
  split
  · exact hu.complete
  · exact h1.guard.complete

theorem State.Canon.execFprogUnload {p} (h : s.Canon) : CanonNext (execFprogUnload p s) :=
  .next (h.start fun ht => ht.enroll.wake)

theorem State.Canon.execFprogQuery {p} (h : s.Canon) : CanonNext (execFprogQuery p s) :=
  .next (h.start fun ht => ht.store.complete)

theorem State.Canon.execFprogStart {p} (h : s.Canon) : CanonNext (execFprogStart p s) :=
  .next (h.start fun ht => ht.startRun.enroll)

theorem State.Canon.setProgram {slot g} (h : s.Canon) : (s.setProgram slot g).Canon := h.same

theorem State.Canon.stripeStart {slot} (h : s.Canon) : (s.stripeStart slot).Canon := by
  unfold State.stripeStart
  split
  · exact h
  · extract_lets
    split
    · exact h
    · extract_lets
      split
      · exact h
      · extract_lets s1
        have h1 : s1.Canon := h.scramble
        split
        · exact h
        · split
          · exact h
          · split
            · exact h
            · exact h1.setProgram

theorem State.Canon.execStripeStart {slot} (h : s.Canon) : CanonNext (execStripeStart slot s) := .next h.stripeStart

theorem State.Canon.runProgress {slot r passes} (h : s.Canon) : (s.runProgress slot r passes).Canon := by
  unfold State.runProgress
  extract_lets _ s1
  have h1 : s1.Canon := h.same
  split
  · exact h1.advance
  · exact h1

theorem State.Canon.endPass {slot g r v} (h : s.Canon) : (s.endPass slot g r v).Canon := by
  unfold State.endPass
  split
  · exact h.setProgram.endProgram
  · extract_lets s1 s2
    have h1 : s1.Canon := ((CanonOk.foldl (.ok h) fun ht => ht.endNode).fst ‹_›).placeOutputs
    have h2 : s2.Canon := h1.startPass
    exact .ite h2.setProgram h1.setProgram.endProgram

theorem State.Canon.endPasses {k slot} (h : s.Canon) : (State.endPasses k slot s).Canon := by
  induction k generalizing s with
  | zero => exact h
  | succ k ih =>
    unfold State.endPasses
    split
    · exact h
    · split
      · exact h
      · exact .ite h (ih h.endPass)

theorem State.Canon.stripePlacement {slot} (h : s.Canon) : (s.stripePlacement slot).Canon := by
  unfold State.stripePlacement
  extract_lets
  split
  · exact h
  · split
    · exact h
    · split
      · exact h.endPasses
      · extract_lets
        split
        · exact h
        · split
          · exact h.endProgram
          · exact (h.placeItem.fst ‹_›).setProgram.runProgress.endPasses

theorem State.Canon.tellPrepared {e} (h : s.Canon) : (s.tellPrepared e).Canon := by
  unfold State.tellPrepared
  split
  · exact h
  · split
    · exact h.tokensFor
    · exact h

theorem State.Canon.startPrepare {e} (h : s.Canon) : (s.startPrepare e).Canon := by
  unfold State.startPrepare
  extract_lets
  split
  · exact h
  · split
    · exact h.startRun
    · exact h.same

theorem State.Canon.startQueuedN {k} (h : s.Canon) : (State.startQueuedN k s).Canon := by
  induction k generalizing s with
  | zero => exact h
  | succ k ih =>
    unfold State.startQueuedN
    split
    · exact h
    · exact ih h.same.startPrepare

theorem State.Canon.startQueued (h : s.Canon) : s.startQueued.Canon := h.startQueuedN

theorem State.Canon.execStripePlacement {slot} (h : s.Canon) : CanonNext (execStripePlacement slot s) :=
  .next ((h.stripePlacement.foldl fun ht => ht.tellPrepared).startQueued)

/-! ## Machine/Exchange -/

theorem State.Canon.countImage {p rank} (h : s.Canon) : (s.countImage p rank).Canon := by
  unfold State.countImage
  split
  · exact .ite h.bump h
  · exact h

theorem State.Canon.landImage {slot o b} (h : s.Canon) : (s.landImage slot o b).1.Canon :=
  .ite h.land h.land.countImage

theorem State.Canon.landHere {j slot dst rank data} (h : s.Canon) : (s.landHere j slot dst rank data).Canon :=
  .ite h h.landImage

theorem State.Canon.closeLanding {p} (h : s.Canon) : (s.closeLanding p).Canon := h.setRelay

theorem State.Canon.failExchange {o st detail} (h : s.Canon) : (s.failExchange o st detail).Canon :=
  h.dropOps.closeLanding.scramble.scramble.finish.wake

theorem State.Canon.placeExchange {o} (h : s.Canon) : (s.placeExchange o).Canon := by
  unfold State.placeExchange
  extract_lets
  split
  · exact (h.placeTable.fst ‹_›).defineTable.closeLanding.finish.wake
  · exact h.failExchange

theorem State.Canon.settleExchange {o} (h : s.Canon) : (s.settleExchange o).Canon :=
  .ite h (.ite (.ite h.same.advance.placeExchange h.same.advance) (.ite h.placeExchange h))

theorem State.Canon.settleExchanges (h : s.Canon) : s.settleExchanges.Canon := h.foldl fun ht => ht.settleExchange

theorem State.Canon.sendImages {p key} (h : s.Canon) : (s.sendImages p key).Canon := by
  unfold State.sendImages
  extract_lets
  split
  · exact h
  · extract_lets s1
    have h1 : s1.Canon := h.foldl fun ht => .ite (by split; exacts [ht.bump.landHere, ht]) ht.bump.slotPut
    split
    · exact h1
    · exact h1.foldl fun hu => hu.bump.landHere

theorem State.Canon.execPartitionExchange {p} (h : s.Canon) : CanonNext (execPartitionExchange p s) := by
  unfold Machine.execPartitionExchange
  refine .next (h.start fun ht => ?_)
  dsimp -zeta only [partitionExchangeCommand]
  extract_lets
  refine ht.orPoisoned (fun hu => hu.scramble.scramble) fun hu => ?_
  extract_lets
  split
  · exact hu.complete
  · exact hu.enroll.sendImages.settleExchanges

theorem State.Canon.execExchangeIncompleteTimeout {key} (h : s.Canon) :
    CanonNext (execExchangeIncompleteTimeout key s) := by
  unfold Machine.execExchangeIncompleteTimeout
  refine .next ?_
  split
  · exact h
  · split
    · exact h
    · split
      · exact h.failExchange
      · exact h

/-! ## Machine/Receive -/

theorem State.Canon.sealedPutIn {slot j e} (h : s.Canon) : (s.sealedPutIn slot j e).1.Canon := by
  unfold State.sealedPutIn
  extract_lets
  split
  · exact h.setJob
  · split
    · exact Canon.ite_fst h.store h
    · exact h

theorem State.Canon.getRequestIn {_slot j e} (h : s.Canon) : (s.getRequestIn _slot j e).1.Canon := by
  unfold State.getRequestIn
  extract_lets
  split
  · exact h
  · exact Canon.ite_fst h h.newOp.post

theorem State.Canon.getResponseIn {e} (h : s.Canon) : (s.getResponseIn e).Canon := by
  unfold State.getResponseIn
  extract_lets
  split
  · exact h
  · extract_lets _ _ s1 _
    have h1 : s1.Canon := h.scatterTo
    split
    · exact h1.setRelay
    · exact h1

theorem State.Canon.slotPutIn {slot _j e} (h : s.Canon) : (s.slotPutIn slot _j e).1.Canon := by
  unfold State.slotPutIn
  extract_lets
  split
  · split
    · exact h.landImage
    · exact Canon.ite_fst h.land (Canon.ite_fst h h)
  · split
    · exact h
    · split
      · exact h.planeFault
      · exact Canon.ite_fst h.land h

theorem State.Canon.userIn {slot b} (h : s.Canon) : (s.userIn slot b).Canon := by
  unfold State.userIn
  split
  · exact h
  · exact .ite h.tokensFor h.planeFault

theorem State.Canon.signalIn {slot b} (h : s.Canon) : (s.signalIn slot b).Canon := by
  unfold State.signalIn
  split
  · exact h.takeVote
  · exact h.commitSignal
  · exact h.replaySignal
  · exact h.userIn
  · exact h.takeQuery
  · exact h

theorem State.Canon.perform {slot j e} (h : s.Canon) : (s.perform slot j e).1.Canon := by
  unfold State.perform
  extract_lets
  split
  · exact h.sealedPutIn
  · exact Canon.ite_fst h.getRequestIn (Canon.ite_fst h.slotPutIn (Canon.ite_fst h.signalIn h))

theorem State.Canon.takeEarly {e} (h : s.Canon) : (s.takeEarly e).Canon := by
  unfold State.takeEarly
  split
  · exact h
  · split
    · split
      · exact Canon.of_fst ‹_› (h.perform)
      · exact (Canon.of_fst ‹_› (h.perform)).setRelay
      · exact (Canon.of_fst ‹_› (h.perform)).sendAck
    · exact h.onJob
    · exact h

theorem State.Canon.drainEarlyN {k} (h : s.Canon) : (State.drainEarlyN k s).Canon := by
  induction k generalizing s with
  | zero => exact h
  | succ k ih =>
    unfold State.drainEarlyN
    split
    · exact h
    · exact ih h.setRelay.takeEarly

theorem State.Canon.drainEarly (h : s.Canon) : s.drainEarly.Canon := h.drainEarlyN

theorem State.Canon.endPost {ring seq st detail} (h : s.Canon) : (s.endPost ring seq st detail).Canon := by
  unfold State.endPost
  extract_lets s1
  have h1 : s1.Canon := h.dropOps
  split
  · exact h1.finish.wake
  · exact h1

theorem State.Canon.repaired {slot page} (h : s.Canon) : (s.repaired slot page).Canon :=
  (Canon.ite h.same h.same.retire').onJob

theorem State.Canon.opEnded {o} (h : s.Canon) : (s.opEnded o).Canon := by
  unfold State.opEnded
  split
  · exact h.endPost
  · exact h.repaired
  · exact h

theorem State.Canon.retireOps (h : s.Canon) : s.retireOps.Canon := h.foldl fun ht => ht.setRelay.opEnded

theorem State.Canon.settleRelay (h : s.Canon) : s.settleRelay.Canon :=
  h.drainEarly.releaseFences.retireOps.settleExchanges.settleGathers.grant.pump

theorem State.Canon.congestion {peer plane} (h : s.Canon) : (s.congestion peer plane).Canon := .ite h.setRelay.emit h

theorem State.Canon.noteSerial {o pkey} (h : s.Canon) : (s.noteSerial o pkey).Canon := .ite h.setRelay h

theorem State.Canon.refuseTag {o slot j} (h : s.Canon) : (s.refuseTag o slot j).Canon :=
  (Canon.ite h.onJob h.onJob.setRelay.log).nakPacket

theorem State.Canon.useNow {o slot j} (h : s.Canon) : (s.useNow o slot j).Canon := by
  unfold State.useNow
  split
  · exact (Canon.of_fst ‹_› (h.perform)).accept.ackIfDue
  · exact (Canon.of_fst ‹_› (h.perform)).nakPacket

theorem State.Canon.fenceIn {o} (h : s.Canon) : (s.fenceIn o).Canon := h.setRelay

theorem State.Canon.takePacket {o} (h : s.Canon) : (s.takePacket o).Canon := by
  unfold State.takePacket
  extract_lets
  split
  · exact h.getResponseIn.accept.ackIfDue
  · split
    · exact h.nakPacket
    · extract_lets s1 _
      have h1 : s1.Canon := .ite h.replayNotice h
      split
      · exact h.refuseTag
      · split
        · exact h1
        · split
          · exact h1.fenceIn
          · split
            · exact h1.useNow
            · exact h1.onJob.accept.ackIfDue
            · exact .ite h1.nakPacket h1.setRelay.accept.ackIfDue

theorem State.Canon.resend {f} (h : s.Canon) : (s.resend f).Canon := by
  unfold State.resend
  extract_lets
  split
  · exact h
  · exact h.setRelay.emit.countSent.bump

theorem State.Canon.failGather {key job st detail} (h : s.Canon) : (s.failGather key job st detail).Canon := by
  unfold State.failGather
  split
  · exact h.dropGather.finish.wake
  · split
    · exact .ite h.onJob h
    · exact h

theorem State.Canon.opRefused {f st detail} (h : s.Canon) : (s.opRefused f st detail).Canon := by
  unfold State.opRefused
  split
  · exact h.endPost
  · split
    · exact h.failExchange
    · exact h
  · exact h.failGather
  · exact h.blameRun
  · exact h.dropOps.onJob
  · split
    · exact .ite h.onJob h
    · exact h

theorem State.Canon.takeNak {f nak detail} (h : s.Canon) : (s.takeNak f nak detail).Canon := by
  unfold State.takeNak
  extract_lets
  split
  · exact h.setRelay
  · exact h.setRelay
  · exact h.opRefused
  · exact h.opRefused
  · exact h.opRefused
  · exact h

theorem State.Canon.acked {f} (h : s.Canon) : (s.acked f).Canon := h.setRelay

theorem State.Canon.dropOldKeys {peer} (h : s.Canon) : (s.dropOldKeys peer).Canon := by
  unfold State.dropOldKeys
  extract_lets
  split
  · exact h
  · exact .ite h.same h

theorem State.Canon.takeDemand {peer serial cls demand used} (h : s.Canon) :
    (s.takeDemand peer serial cls demand used).Canon :=
  .ite (.ite h.setRecv.sendAck h.setRecv) h

theorem State.Canon.takeAck {o} (h : s.Canon) : (s.takeAck o).Canon := by
  unfold State.takeAck
  extract_lets _ _ _ _ _ _ _ _ _ _ _ s1 s2 _ s3 _ s4 s5 _ s6 _ _ s7
  have h1 : s1.Canon := .ite h.setRecv h
  have h2 : s2.Canon := .ite h1 (by split; exacts [h1.takeNak, h1])
  have h3 : s3.Canon := h2.foldl fun hv => hv.acked
  have h4 : s4.Canon := h3.setSend
  have h5 : s5.Canon := .ite h4.takeDemand h3
  have h6 : s6.Canon := h5.foldl fun h6 => h6.resend
  have h7 : s7.Canon := h6.setRelay
  exact h7.dropOldKeys

theorem State.Canon.takeOpened {f o} (h : s.Canon) : (s.takeOpened f o).Canon := by
  unfold State.takeOpened
  extract_lets s1 s2 _ _
  have h1 : s1.Canon := .ite h.congestion h
  have h2 : s2.Canon := h1.noteSerial
  exact .ite h2.takeAck (.ite h2.bump (.ite h2 (.ite h2.sendAck h2.takePacket)))

theorem State.Canon.receive {opcode want f} (h : s.Canon) : (s.receive opcode want f).Canon := by
  unfold State.receive
  split
  · exact h
  · split
    · exact .ite h h.bumpWide.bump
    · exact .ite h.bumpWide.takeOpened.settleRelay h

theorem State.Canon.execSlotPutReceived {f} (h : s.Canon) : CanonNext (execSlotPutReceived f s) := .next h.receive

theorem State.Canon.execSealedPutReceived {f} (h : s.Canon) : CanonNext (execSealedPutReceived f s) :=
  .next h.receive

theorem State.Canon.execSealedGetRequestReceived {f} (h : s.Canon) : CanonNext (execSealedGetRequestReceived f s) :=
  .next h.receive

theorem State.Canon.execSealedGetResponseReceived {f} (h : s.Canon) : CanonNext (execSealedGetResponseReceived f s) :=
  .next h.receive

theorem State.Canon.execUserSignalReceived {f} (h : s.Canon) : CanonNext (execUserSignalReceived f s) :=
  .next h.receive

theorem State.Canon.execVoteReceived {f} (h : s.Canon) : CanonNext (execVoteReceived f s) := .next h.receive

theorem State.Canon.execCommitReceived {f} (h : s.Canon) : CanonNext (execCommitReceived f s) := .next h.receive

theorem State.Canon.execReplayReceived {f} (h : s.Canon) : CanonNext (execReplayReceived f s) := .next h.receive

theorem State.Canon.execQueryReceived {f} (h : s.Canon) : CanonNext (execQueryReceived f s) := .next h.receive

theorem State.Canon.execFenceReceived {f} (h : s.Canon) : CanonNext (execFenceReceived f s) := .next h.receive

theorem State.Canon.execAckReceived {f} (h : s.Canon) : CanonNext (execAckReceived f s) := .next h.receive

theorem State.Canon.execCnpReceived {peer plane} (h : s.Canon) : CanonNext (execCnpReceived peer plane s) :=
  .next (.ite h (.ite h.bump.setRelay h.bump.setRelay))

theorem State.Canon.execRateLevelDecay {peer plane} (h : s.Canon) : CanonNext (execRateLevelDecay peer plane s) :=
  .next (.ite h h.setRelay)

theorem State.Canon.execAckTimerExpiry {peer serial cls} (h : s.Canon) :
    CanonNext (execAckTimerExpiry peer serial cls s) :=
  .next h.ackIfDue

theorem State.Canon.execRetransmissionTimeout {peer serial cls seq} (h : s.Canon) :
    CanonNext (execRetransmissionTimeout peer serial cls seq s) := by
  unfold Machine.execRetransmissionTimeout
  refine .next ?_
  extract_lets
  split
  · exact h
  · extract_lets _ _ s1
    have h1 : s1.Canon := h.setRelay
    split
    · exact h1.resend
    · exact h1

theorem State.Canon.execNotReadyResend {peer serial cls seq} (h : s.Canon) :
    CanonNext (execNotReadyResend peer serial cls seq s) := by
  unfold Machine.execNotReadyResend
  refine .next ?_
  extract_lets _ s1
  have h1 : s1.Canon := h.setRelay
  split
  · split
    · exact h1.resend
    · exact h1
  · exact h

theorem State.Canon.execPlaneProbe {peer plane} (h : s.Canon) : CanonNext (execPlaneProbe peer plane s) :=
  .next (.ite h.setRelay.pump h)

theorem State.Canon.execLinkStateChange {port up} (h : s.Canon) : CanonNext (execLinkStateChange port up s) :=
  .next (.ite h h.setRelay.pump)

theorem State.Canon.execDiscardedFrame (h : s.Canon) : CanonNext (execDiscardedFrame s) := .next h.bump

/-! ## Machine/Secure -/

theorem State.Canon.installPair {peer key peerSession confidential} (h : s.Canon) :
    (s.installPair peer key peerSession confidential).Canon :=
  h.same.settleRelay

theorem State.Canon.installJobKey {slot generation key} (h : s.Canon) : (s.installJobKey slot generation key).Canon :=
  h.same.settleRelay

theorem State.Canon.newSession (h : s.Canon) : s.newSession.Canon := h.same.logPlain

theorem State.Canon.execSecSessionOpenNew {p} (h : s.Canon) : CanonNext (execSecSessionOpenNew p s) :=
  .next (.ite h (h.start fun ht => .ite ht.complete ht.newSession.complete))

theorem State.Canon.execSecSessionOpenCertify {p} (h : s.Canon) : CanonNext (execSecSessionOpenCertify p s) :=
  .next (.ite (h.start fun ht => ht.store.complete) h)

theorem State.Canon.refuseKey {p reason} (h : s.Canon) : (s.refuseKey p reason).Canon := h.complete

theorem State.Canon.makeOffer {p x2 cert} (h : s.Canon) : (s.makeOffer p x2 cert).Canon :=
  h.same.store.installPair.complete

theorem State.Canon.execSecSessionOpenPairOffer {p} (h : s.Canon) : CanonNext (execSecSessionOpenPairOffer p s) := by
  unfold Machine.execSecSessionOpenPairOffer
  refine .next ?_
  split
  · refine h.start fun ht => ?_
    dsimp -zeta only [secSessionOpenPairOfferCommand]
    extract_lets
    split
    · exact ht.complete
    · split
      · exact ht.refuseKey
      · split
        · exact ht.refuseKey
        · exact .ite ht.makeOffer ht.refuseKey
  · exact h

theorem State.Canon.issueJobKey {p slot j} (h : s.Canon) : (s.issueJobKey p slot j).Canon := by
  unfold State.issueJobKey
  extract_lets _ _ _ _ _ s1
  have h1 : s1.Canon := h.same
  split
  · exact h.refuseKey
  · split
    · exact h.refuseKey
    · exact h1.store.installJobKey.complete

theorem State.Canon.execSecSessionOpenJobKeyIssue {p} (h : s.Canon) :
    CanonNext (execSecSessionOpenJobKeyIssue p s) := by
  unfold Machine.execSecSessionOpenJobKeyIssue
  refine .next ?_
  split
  · refine h.start fun ht => ?_
    dsimp -zeta only [secSessionOpenJobKeyIssueCommand]
    split
    · exact ht.complete
    · split
      · exact ht
      · exact ht.issueJobKey
  · exact h

theorem State.Canon.refuseImport {p reason} (h : s.Canon) : (s.refuseImport p reason).Canon := h.logPlain.refuseKey

theorem State.Canon.execSecKeyImportModelKey {p} (h : s.Canon) : CanonNext (execSecKeyImportModelKey p s) := by
  unfold Machine.execSecKeyImportModelKey
  refine .next ?_
  split
  · exact h
  · refine h.start fun ht => ?_
    dsimp -zeta only [secKeyImportModelKeyCommand]
    extract_lets
    split
    · exact ht.refuseImport
    · exact ht.same.lock.complete

theorem State.Canon.execSecKeyImportPair {p} (h : s.Canon) : CanonNext (execSecKeyImportPair p s) := by
  unfold Machine.execSecKeyImportPair
  refine .next ?_
  split
  · refine h.start fun ht => ?_
    dsimp -zeta only [secKeyImportPairCommand]
    extract_lets
    split
    · exact ht.refuseImport
    · exact ht.installPair.complete
  · exact h

theorem State.Canon.execSecKeyImportJobKey {p} (h : s.Canon) : CanonNext (execSecKeyImportJobKey p s) := by
  unfold Machine.execSecKeyImportJobKey
  refine .next ?_
  split
  · refine h.start fun ht => ?_
    dsimp -zeta only [secKeyImportJobKeyCommand]
    extract_lets
    split
    · exact ht.refuseImport
    · exact ht.installJobKey.complete
  · exact h

theorem State.Canon.execSecWeightsImport {p} (h : s.Canon) : CanonNext (execSecWeightsImport p s) := by
  unfold Machine.execSecWeightsImport
  refine .next (h.start fun ht => ?_)
  dsimp -zeta only [secWeightsImportCommand]
  extract_lets
  refine ht.orPoisoned (fun hu => hu.zero) fun hu => ?_
  extract_lets
  split
  · exact hu
  · split
    · exact hu.zero.complete
    · exact hu.store.bump.complete

theorem State.Canon.execSecWeightsExport {p} (h : s.Canon) : CanonNext (execSecWeightsExport p s) := by
  unfold Machine.execSecWeightsExport
  refine .next (h.start fun ht => ?_)
  dsimp -zeta only [secWeightsExportCommand]
  extract_lets
  refine ht.orPoisoned (fun hu => hu.scramble) fun hu => ?_
  extract_lets _ s1
  have h1 : s1.Canon := hu.same
  split
  · exact hu
  · exact h1.store.bump.complete

theorem State.Canon.execSecRegionProtect {p} (h : s.Canon) : CanonNext (execSecRegionProtect p s) := by
  unfold Machine.execSecRegionProtect
  refine .next (h.start fun ht => ?_)
  dsimp -zeta only [secRegionProtectCommand]
  extract_lets
  split
  · exact ht
  · exact ht.same.zero.lock.complete

/-! ## Machine/Attest -/

theorem State.Canon.execEntropyHealthFailure (h : s.Canon) : CanonNext (execEntropyHealthFailure s) := .next h.same

theorem State.Canon.doe {f} (h : s.Canon) (hf : ∀ {u}, u.Canon → (f u).Canon) : (s.doe f).Canon := .ite (hf h) h

theorem State.Canon.respond {code body} (h : s.Canon) : (s.respond code body).Canon := h.emit

theorem State.Canon.spdmError {code} (h : s.Canon) : (s.spdmError code).Canon := h.respond

theorem State.Canon.negotiated {f} (h : s.Canon) (hf : ∀ {u}, u.Canon → (f u).Canon) : (s.negotiated f).Canon :=
  h.doe fun hu => .ite (hf hu) hu.spdmError

theorem State.Canon.inSession {f} (h : s.Canon) (hf : ∀ {u}, u.Canon → (f u).Canon) : (s.inSession f).Canon :=
  h.negotiated fun hu => .ite (hf hu) hu.spdmError

theorem State.Canon.execGetVersion (h : s.Canon) : CanonNext (execGetVersion s) :=
  .next (h.doe fun ht => ht.same.respond)

theorem State.Canon.execGetCapabilities (h : s.Canon) : CanonNext (execGetCapabilities s) :=
  .next (h.doe fun ht => .ite ht.same.respond ht.spdmError)

theorem State.Canon.execNegotiateAlgorithms {offered} (h : s.Canon) : CanonNext (execNegotiateAlgorithms offered s) :=
  .next (h.doe fun ht => .ite ht.spdmError (.ite ht.same.respond ht.spdmError))

theorem State.Canon.execGetDigests (h : s.Canon) : CanonNext (execGetDigests s) :=
  .next (h.negotiated fun ht => ht.respond)

theorem State.Canon.execGetCertificate {slot off len} (h : s.Canon) : CanonNext (execGetCertificate slot off len s) :=
  .next (h.negotiated fun ht => .ite ht.spdmError ht.respond)

theorem State.Canon.execChallenge {slot nonce} (h : s.Canon) : CanonNext (execChallenge slot nonce s) :=
  .next (h.negotiated fun ht => .ite ht.spdmError ht.same.respond)

theorem State.Canon.execGetMeasurements {index nonce} (h : s.Canon) :
    CanonNext (execGetMeasurements index nonce s) := by
  unfold Machine.execGetMeasurements
  refine .next ?_
  extract_lets
  refine h.negotiated fun ht => ?_
  extract_lets
  split
  · exact ht.spdmError
  · split
    · exact ht.respond
    · exact ht.same.respond

theorem State.Canon.execKeyExchange {key} (h : s.Canon) : CanonNext (execKeyExchange key s) :=
  .next (h.negotiated fun ht => .ite ht.spdmError (.ite ht.spdmError ht.same.respond))

theorem State.Canon.execFinish {verified} (h : s.Canon) : CanonNext (execFinish verified s) :=
  .next (h.negotiated fun ht => .ite ht.spdmError (.ite ht.same.respond ht.same.spdmError))

theorem State.Canon.execEndSession (h : s.Canon) : CanonNext (execEndSession s) :=
  .next (h.inSession fun ht => ht.same.respond)

theorem State.Canon.tdisp {code body} (h : s.Canon) : (s.tdisp code body).Canon := h.respond

theorem State.Canon.tdispError {code} (h : s.Canon) : (s.tdispError code).Canon := h.tdisp

theorem State.Canon.execVendorDefinedRequest {m} (h : s.Canon) : CanonNext (execVendorDefinedRequest m s) := by
  unfold Machine.execVendorDefinedRequest
  refine .next (h.inSession fun ht => ?_)
  split
  · exact ht.tdisp
  · exact ht.tdisp
  · exact .ite ht.tdisp ht.tdispError
  · exact ht.tdisp
  · exact ht.respond
  · exact ht.spdmError

theorem State.Canon.noteInterface (h : s.Canon) : s.noteInterface.Canon := h.logPlain

theorem State.Canon.execIdeKmKeyProgram {stream go} (h : s.Canon) : CanonNext (execIdeKmKeyProgram stream go s) :=
  .next (h.inSession fun ht => .ite ht.spdmError (.ite ht.spdmError ht.same.noteInterface.respond))

theorem State.Canon.execIdeStreamLoss {stream} (h : s.Canon) : CanonNext (execIdeStreamLoss stream s) :=
  .next (.ite h (.ite h.same.leaveRun.noteInterface h.same.noteInterface))

theorem State.Canon.execLockInterfaceRequest (h : s.Canon) : CanonNext (execLockInterfaceRequest s) :=
  .next (h.inSession fun ht => .ite ht.tdispError ht.lock.same.noteInterface.tdisp)

theorem State.Canon.execStartInterfaceRequest (h : s.Canon) : CanonNext (execStartInterfaceRequest s) := by
  unfold Machine.execStartInterfaceRequest
  refine .next (h.inSession fun ht => ?_)
  exact .ite ht.tdispError (.ite ht.tdispError ht.lock.same.logPlain.noteInterface.tdisp)

theorem State.Canon.execStopInterfaceRequest (h : s.Canon) : CanonNext (execStopInterfaceRequest s) :=
  .next (h.inSession fun ht => ht.leaveRun.noteInterface.tdisp)

/-! ## Machine/Integrity -/

theorem State.Canon.adoptPatterns {b} (h : s.Canon) : (s.adoptPatterns b).Canon := h.same.logPlain

theorem State.Canon.requestTest {unit why unfence} (h : s.Canon) : (s.requestTest unit why unfence).Canon := h.same

theorem State.Canon.setOp {o n} (h : s.Canon) : (s.setOp o n).Canon := h.same

theorem State.Canon.askTests {w l} (h : s.Canon) : (s.askTests w l).1.Canon := by
  induction l generalizing s with
  | nil => exact h
  | cons u l ih =>
    unfold State.askTests
    split
    · exact ih h
    · split
      · exact ih h
      · exact ih h.requestTest

theorem State.Canon.passOn {o left failed position} (h : s.Canon) : (s.passOn o left failed position).Canon :=
  .ite h.askTests.setOp.finish h.askTests.setOp.advance

theorem State.Canon.answerTest {q result} (h : s.Canon) : (s.answerTest q result).Canon := by
  unfold State.answerTest
  extract_lets
  split
  · exact h
  · extract_lets _ s1
    have h1 : s1.Canon := h.setOp
    split
    · exact h.passOn
    · split
      · exact h1.setOp.finish
      · split
        · exact h1.finish
        · split
          · exact h1.finish
          · exact h1.finish

theorem State.Canon.clearBank {unit} (h : s.Canon) : (s.clearBank unit).Canon := .ite h h.moveBank

theorem State.Canon.beginTest {q} (h : s.Canon) : (s.beginTest q).Canon := by
  unfold State.beginTest
  extract_lets _ _ _ s1 s2
  have h1 : s1.Canon := h.same
  have h2 : s2.Canon := (h1.foldl fun hu => hu.evict).clearBank
  exact .ite (h2.foldl fun hv => hv.clearLocal) h2

theorem State.Canon.execTestFenceStart (h : s.Canon) : CanonNext (execTestFenceStart s) := by
  unfold Machine.execTestFenceStart
  refine .next ?_
  extract_lets
  split
  · exact h
  · extract_lets s1
    have h1 : s1.Canon := h.same
    split
    · split
      · split
        · exact h1.passOn.wake
        · exact h1
      · exact h1
    · exact .ite h1.answerTest.wake h1.beginTest

theorem State.Canon.unfenceUnit {unit} (h : s.Canon) : (s.unfenceUnit unit).Canon := h.same.log.remedies

theorem State.Canon.failUnit {unit pattern} (h : s.Canon) : (s.failUnit unit pattern).Canon :=
  .ite (.ite h.log.alert.same h.log.alert) (Canon.ite h.log.alert.same h.log.alert).placeFence

theorem State.Canon.passUnit {q} (h : s.Canon) : (s.passUnit q).Canon := by
  unfold State.passUnit
  extract_lets s1 _ s2 s3
  have h1 : s1.Canon := h.log
  have h2 : s2.Canon := .ite h1.same h1
  have h3 : s3.Canon := .ite h2.unfenceUnit h2
  exact .ite h3.restoreBank h3

theorem State.Canon.execStructuralTestComplete {unit failed} (h : s.Canon) :
    CanonNext (execStructuralTestComplete unit failed s) := by
  unfold Machine.execStructuralTestComplete
  refine .next ?_
  extract_lets
  split
  · exact h
  · extract_lets s1 s2 s3
    have h1 : s1.Canon := h.same
    have h2 : s2.Canon := h1.bump.bump
    have h3 : s3.Canon := by unfold s3; split; exacts [h2.failUnit, h2.passUnit]
    exact h3.answerTest.wake

theorem State.Canon.dropTest {w} (h : s.Canon) : (s.dropTest w).Canon := h.same.foldl fun ht => ht.placeFence

theorem State.Canon.execRotationTestDue {watched} (h : s.Canon) : CanonNext (execRotationTestDue watched s) := by
  unfold Machine.execRotationTestDue
  refine .next ?_
  extract_lets _ _ _ s1
  have h1 : s1.Canon := h.same
  split
  · exact .ite h.requestTest h
  · exact .ite h1 h1.requestTest

theorem State.Canon.execIntTestUnit {p} (h : s.Canon) : CanonNext (execIntTestUnit p s) :=
  .next (h.start fun ht => ht.enroll.requestTest)

theorem State.Canon.execIntTestAll {p} (h : s.Canon) : CanonNext (execIntTestAll p s) := by
  unfold Machine.execIntTestAll
  refine .next (h.start fun ht => ?_)
  dsimp -zeta only [intTestAllCommand]
  extract_lets _ _ _ s1
  have h1 : s1.Canon := ht.enroll
  split
  · exact ht.same.complete
  · split
    · exact h1
    · exact h1.passOn

theorem State.Canon.execIntStrikesQuery {p} (h : s.Canon) : CanonNext (execIntStrikesQuery p s) :=
  .next (h.start fun ht => ht.store.complete)

theorem State.Canon.execIntFence {p} (h : s.Canon) : CanonNext (execIntFence p s) :=
  .next (h.start fun ht => ht.fenceUnit.complete.wake)

theorem State.Canon.execIntUnfence {p} (h : s.Canon) : CanonNext (execIntUnfence p s) :=
  .next (h.start fun ht => ht.enroll.requestTest)

theorem State.Canon.execPatternSetStage {p} (h : s.Canon) : CanonNext (execPatternSetStage p s) := by
  refine .next (h.start fun ht => ?_)
  dsimp only [patternSetStageCommand]
  exact ht.orPoisoned id fun hu => hu.adoptPatterns.complete

/-! ## Machine/Records -/

theorem State.Canon.execLedgerFlush (h : s.Canon) : CanonNext (execLedgerFlush s) :=
  .next (.ite h.same h.same.logPlain.alert)

theorem State.Canon.execLedgerRead {p} (h : s.Canon) : CanonNext (execLedgerRead p s) :=
  .next (h.start fun ht => ht.store.complete)

theorem State.Canon.execLogWindowRefillDone (h : s.Canon) : CanonNext (execLogWindowRefillDone s) := .next h.same

/-! ## Machine/Time -/

theorem State.Canon.advanceTime (h : s.Canon) : s.advanceTime.Canon := .ite h h.same

theorem State.Canon.tick (h : s.Canon) : s.tick.Canon := h.same.advanceTime

theorem State.Canon.execMgtTimeCtrlWrite {v tee} (h : s.Canon) : CanonNext (execMgtTimeCtrlWrite v tee s) :=
  .next (h.hostAccess fun ht => ht.same)

theorem State.Canon.discipline (h : s.Canon) : s.discipline.Canon := h.same

theorem State.Canon.execPtpMessageReceived {port domain kind sequence origin} (h : s.Canon) :
    CanonNext (execPtpMessageReceived port domain kind sequence origin s) :=
  .next (.ite h (.ite (Canon.ite h.same h).discipline.same (.ite h.same h)))

theorem State.Canon.execReferenceLost (h : s.Canon) : CanonNext (execReferenceLost s) := .next (.ite h h.same)

theorem State.Canon.execPpsEdge {off} (h : s.Canon) : CanonNext (execPpsEdge off s) :=
  .next (.ite h h.discipline.same)

theorem State.Canon.countPps (h : s.Canon) : s.countPps.Canon := .ite h.same h.same

theorem State.Canon.applyTimeMode (h : s.Canon) : s.applyTimeMode.Canon := .ite h (.ite h.same h.same)

theorem State.Canon.meanSamples (h : s.Canon) : s.meanSamples.Canon := .ite h h.same

theorem State.Canon.execSecondBoundary (h : s.Canon) : CanonNext (execSecondBoundary s) :=
  .next h.publish.same.meanSamples.countPps.applyTimeMode

/-! ## Machine/Firmware -/

theorem State.Canon.setInactive {b} (h : s.Canon) : (s.setInactive b).Canon := h.same

theorem State.Canon.noteFirmware {severity code version bank} (h : s.Canon) :
    (s.noteFirmware severity code version bank).Canon :=
  h.logPlain

theorem State.Canon.programBank {image} (h : s.Canon) : (s.programBank image).1.Canon :=
  (Canon.ite_fst h.same.setInactive h.same.setInactive.noteFirmware)

theorem State.Canon.execFwStage {p} (h : s.Canon) : CanonNext (execFwStage p s) := by
  unfold Machine.execFwStage
  refine .next (h.start fun ht => ?_)
  dsimp -zeta only [fwStageCommand]
  extract_lets
  refine ht.orPoisoned (fun hu => hu.setInactive) fun hu => ?_
  exact .ite hu.programBank.complete hu.programBank.complete

theorem State.Canon.endActivation {st detail} (h : s.Canon) : (s.endActivation st detail).Canon := h.same.finishAll

theorem State.Canon.enterStage {n} (h : s.Canon) : (s.enterStage n).Canon := h.same.foldl fun ht => ht.advance.setOp

theorem State.Canon.checkStaged {n} (h : s.Canon) : (s.checkStaged n).Canon :=
  .ite h.same.endActivation (.ite h.same.endActivation h.same.enterStage)

theorem State.Canon.switchBanks (h : s.Canon) : s.switchBanks.Canon :=
  .ite h.same.noteFirmware.logPlain h.same.noteFirmware

theorem State.Canon.execFwActivate {p} (h : s.Canon) : CanonNext (execFwActivate p s) :=
  .next (h.start fun ht => ht.same.enroll)

theorem State.Canon.execActivationStageStart (h : s.Canon) : CanonNext (execActivationStageStart s) := by
  unfold Machine.execActivationStageStart
  refine .next ?_
  extract_lets s1 _
  have h1 : s1.Canon := h.switchBanks
  split
  · exact h
  · exact .ite (.ite h.checkStaged h) (.ite h.checkStaged (.ite h.enterStage h1.same.endActivation))

theorem State.Canon.execProcessorReadyTimeout (h : s.Canon) : CanonNext (execProcessorReadyTimeout s) := by
  unfold Machine.execProcessorReadyTimeout
  refine .next ?_
  extract_lets s1 _
  have h1 : s1.Canon := h.noteFirmware
  split
  · exact h
  · exact .ite h h1.same.endActivation

theorem State.Canon.execWaitMsExpiry (h : s.Canon) : CanonNext (execWaitMsExpiry s) := by
  unfold Machine.execWaitMsExpiry
  refine .next ?_
  split
  · exact h
  · split
    · exact .ite h.endActivation h
    · exact h

theorem State.Canon.managed {f} (h : s.Canon) (hf : ∀ {u}, u.Canon → (f u).Canon) : (s.managed f).Canon :=
  .ite (hf h) h

theorem State.Canon.answer {smbus type command code body} (h : s.Canon) :
    (s.answer smbus type command code body).Canon :=
  h.same

theorem State.Canon.execSetEndpointId {smbus eid} (h : s.Canon) : CanonNext (execSetEndpointId smbus eid s) :=
  .next (h.managed fun ht => .ite ht.answer ht.same.answer)

theorem State.Canon.execPldmSensorRequest {smbus q} (h : s.Canon) : CanonNext (execPldmSensorRequest smbus q s) := by
  unfold Machine.execPldmSensorRequest
  refine .next (h.managed fun ht => ?_)
  split
  · exact ht.answer
  · exact .ite ht.answer ht.answer
  · exact .ite ht.answer ht.answer
  · exact ht.answer

theorem State.Canon.updateAgent {smbus f} (h : s.Canon) (hf : ∀ {u}, u.Canon → (f u).Canon) :
    (s.updateAgent smbus f).Canon :=
  .ite (.ite (hf h) h) (h.managed hf)

theorem State.Canon.setPldm {m} (h : s.Canon) : (s.setPldm m).Canon := h.same

theorem State.Canon.update5 {smbus command code body} (h : s.Canon) : (s.update5 smbus command code body).Canon :=
  h.answer

theorem State.Canon.inMode {smbus command m f} (h : s.Canon) (hf : ∀ {u}, u.Canon → (f u).Canon) :
    (s.inMode smbus command m f).Canon :=
  h.updateAgent fun hu => .ite hu.update5 (.ite (hf hu) hu.update5)

theorem State.Canon.execRequestUpdate {smbus} (h : s.Canon) : CanonNext (execRequestUpdate smbus s) :=
  .next (h.updateAgent fun ht => .ite ht.update5 ht.setPldm.update5)

theorem State.Canon.execPassComponentTable {smbus last} (h : s.Canon) :
    CanonNext (execPassComponentTable smbus last s) :=
  .next (h.inMode fun ht => (Canon.ite ht.setPldm ht).update5)

theorem State.Canon.execUpdateComponent {smbus component size} (h : s.Canon) :
    CanonNext (execUpdateComponent smbus component size s) :=
  .next (h.inMode fun ht => .ite ht.same.update5 ht.update5)

theorem State.Canon.execRequestFirmwareData {smbus data} (h : s.Canon) :
    CanonNext (execRequestFirmwareData smbus data s) :=
  .next (h.updateAgent fun ht => .ite ht ht.same.update5)

theorem State.Canon.execTransferComplete {smbus} (h : s.Canon) : CanonNext (execTransferComplete smbus s) :=
  .next (h.updateAgent fun ht => .ite ht ht.setPldm.update5)

theorem State.Canon.execVerifyComplete {smbus} (h : s.Canon) : CanonNext (execVerifyComplete smbus s) := by
  unfold Machine.execVerifyComplete
  refine .next (h.updateAgent fun ht => ?_)
  split
  · exact ht
  · split
    · exact ht.setPldm.update5
    · exact ht.setPldm.update5

theorem State.Canon.recover (h : s.Canon) : s.recover.Canon := h.same.begin

theorem State.Canon.execApplyComplete {smbus} (h : s.Canon) : CanonNext (execApplyComplete smbus s) := by
  unfold Machine.execApplyComplete
  refine .next (h.updateAgent fun ht => ?_)
  extract_lets r1
  have h1 : r1.1.Canon := ht.programBank
  exact .ite ht (.ite ht.recover (.ite h1.setPldm.update5 ht.adoptPatterns.setPldm.update5))

theorem State.Canon.execActivateFirmware {smbus} (h : s.Canon) : CanonNext (execActivateFirmware smbus s) :=
  .next (h.inMode fun ht => .ite ht.update5 ht.same.update5)

theorem State.Canon.execGetStatus {smbus} (h : s.Canon) : CanonNext (execGetStatus smbus s) :=
  .next (h.updateAgent fun ht => ht.update5)

theorem State.Canon.execCancelUpdate {smbus} (h : s.Canon) : CanonNext (execCancelUpdate smbus s) :=
  .next (h.updateAgent fun ht => .ite ht.update5 (.ite ht.update5 ht.same.update5))

theorem State.Canon.execJtagAccess {extest connector} (h : s.Canon) : CanonNext (execJtagAccess extest connector s) :=
  .next (.ite h h.same)

/-! ## Machine/Control -/

theorem State.Canon.execNop {p} (h : s.Canon) : CanonNext (execNop p s) := .next (h.start fun ht => ht.complete)

theorem State.Canon.abortStep {slot o} (h : s.Canon) : (s.abortStep slot o).1.Canon := by
  unfold State.abortStep
  split
  · exact h
  · split
    · exact h
    · exact Canon.ite_fst h h.setJob
    · exact h.setJob.finish.foldl fun ht => ht.endStepRun

theorem State.Canon.abortGraph {run o} (h : s.Canon) : (s.abortGraph run o).1.Canon :=
  (Canon.ite_fst h h.setOp.onGraphRun.settleRun)

theorem State.Canon.abortActivation (h : s.Canon) : (s.abortActivation).1.Canon := by
  unfold State.abortActivation
  split
  · exact Canon.ite_fst h.endActivation h
  · exact h

theorem State.Canon.abortOp {o} (h : s.Canon) : (s.abortOp o).1.Canon := by
  unfold State.abortOp
  split
  · exact h
  · split
    · exact h.abortStep
    · exact h.endProgram.startQueued
    · exact h.failExchange
    · exact h.sampleFault
    · exact h.abortGraph
    · exact h.dropTest.finish.wake
    · exact h.dropTest.finish.wake
    · exact h.abortActivation
    all_goals exact h

theorem State.Canon.abortAll {p} (h : s.Canon) : (s.abortAll p).1.Canon := by
  refine foldl (h.foldl_fst fun ht => ?_) fun ht => ht.abortStaged
  dsimp only
  exact ht.abortOp

theorem State.Canon.execAbort {p} (h : s.Canon) : CanonNext (execAbort p s) :=
  .next (.ite h (.ite (h.run fun ht => ht.abortAll.complete).settle (.ite h.unstage.fallDue h)))

theorem State.Canon.writeRingReg {n o v} (h : s.Canon) : (s.writeRingReg n o v).Canon := by
  unfold State.writeRingReg
  extract_lets
  split
  · exact .ite h.writeCtrl h
  · exact h.setRing
  · exact h.setRing.moderate
  · exact h.setRing
  · exact h

theorem State.Canon.writeMsix {o v} (h : s.Canon) : (s.writeMsix o v).Canon := .ite h.same h.same

theorem State.Canon.clearJobCounter {off v} (h : s.Canon) : (s.clearJobCounter off v).Canon := h.onJob

theorem State.Canon.writeReg {off v} (h : s.Canon) : (s.writeReg off v).Canon := by
  unfold State.writeReg
  split
  · exact h.writeRingReg
  · split
    · exact h.writeMsix
    · split
      · exact h.setReg
      · split
        · exact h
        · split
          · exact h.setReg
          · exact h.clearJobCounter

theorem State.Canon.execRegisterWrite {off v tee} (h : s.Canon) : CanonNext (execRegisterWrite off v tee s) :=
  .next (h.hostAccess fun ht => .ite ht.writeReg ht)

theorem State.Canon.execLogWindowSeqWrite {v tee} (h : s.Canon) : CanonNext (execLogWindowSeqWrite v tee s) :=
  .next (h.hostAccess fun ht => ht.setReg.same)

theorem State.Canon.latch {off} (h : s.Canon) : (s.latch off).Canon :=
  .ite h.same (.ite h.same (.ite h.same (.ite h.same h)))

theorem State.Canon.execLatchingRegisterRead {off tee} (h : s.Canon) :
    CanonNext (execLatchingRegisterRead off tee s) :=
  .next (.ite h.same h.same.latch)

/-! ## Machine/DirCommands -/

theorem State.Canon.execDirBankConfig {p} (h : s.Canon) : CanonNext (execDirBankConfig p s) :=
  .next (h.start fun ht => ht.same.dropReplicas.complete)

theorem State.Canon.insertAll {p die w k i} (h : s.Canon) : (s.insertAll p die w k i).1.Canon := by
  induction k generalizing s i with
  | zero => exact h
  | succ k ih =>
    unfold State.insertAll
    split
    · exact h.bump
    · exact ih (h.dirInsert.state ‹_›)

theorem State.Canon.insertDies {p w l} (h : s.Canon) : (s.insertDies p w l).1.Canon := by
  induction l generalizing s with
  | nil => exact h
  | cons d l ih =>
    unfold State.insertDies
    extract_lets
    split
    · exact h.insertAll
    · exact ih h.insertAll

theorem State.Canon.execDirInsert {p} (h : s.Canon) : CanonNext (execDirInsert p s) := by
  unfold Machine.execDirInsert
  refine .next (h.start fun ht => ?_)
  dsimp -zeta only [dirInsertCommand]
  refine ht.orPoisoned id fun hu => ?_
  extract_lets r1
  have h1 : r1.1.Canon := hu.insertDies
  split
  · exact h1.complete
  · exact h1.complete

theorem State.Canon.deleteAll {p w die} (h : s.Canon) : (s.deleteAll p w die).1.Canon :=
  h.foldl_fst fun ht => ht.dirDelete

theorem State.Canon.execDirDelete {p} (h : s.Canon) : CanonNext (execDirDelete p s) := by
  refine .next (h.start fun ht => ?_)
  dsimp only [dirDeleteCommand]
  refine ht.orPoisoned id fun hu => complete (hu.foldl_fst fun hv => ?_)
  dsimp only
  exact hv.deleteAll

theorem State.Canon.execDirSearch {p} (h : s.Canon) : CanonNext (execDirSearch p s) := by
  unfold Machine.execDirSearch
  refine .next (h.start fun ht => ?_)
  dsimp -zeta only [dirSearchCommand]
  extract_lets
  split
  · exact ht.complete
  · refine ht.orPoisoned (fun hu => hu.scramble) fun hu => ?_
    exact (hu.foldl_fst fun hv => hv.countSearch.store).complete

theorem State.Canon.execDirCompact {p} (h : s.Canon) : CanonNext (execDirCompact p s) := by
  unfold Machine.execDirCompact
  refine .next (h.start fun ht => ?_)
  dsimp -zeta only [dirCompactCommand]
  extract_lets _ s1
  have h1 : s1.Canon := ht.foldl fun hu => (by split; exacts [hu.setBank.bump, hu])
  exact h1.complete

theorem State.Canon.promoteRow {p x vslot die n} (h : s.Canon) :
    CanonSome Prod.fst (s.promoteRow p x vslot die n) := by
  unfold State.promoteRow
  extract_lets
  split
  · exact .some h
  · exact h.dirInsert.map id

theorem State.Canon.promoteAll {p x vslot die k n} (h : s.Canon) : (s.promoteAll p x vslot die k n).1.Canon := by
  induction k generalizing s n with
  | zero => exact h
  | succ k ih =>
    unfold State.promoteAll
    split
    · exact h.bump
    · exact ih (h.promoteRow.fst ‹_›)

theorem State.Canon.promoteOn {p x vslot l} (h : s.Canon) : (s.promoteOn p x vslot l).1.Canon := by
  induction l generalizing s with
  | nil => exact h
  | cons d l ih =>
    unfold State.promoteOn
    extract_lets
    split
    · exact h.promoteAll
    · exact ih h.promoteAll

theorem State.Canon.countRows {p x} (h : s.Canon) : (s.countRows p x).Canon := h.bump

theorem State.Canon.execDirHotPromote {p} (h : s.Canon) : CanonNext (execDirHotPromote p s) := by
  unfold Machine.execDirHotPromote
  refine .next (h.start fun ht => ?_)
  dsimp -zeta only [dirHotPromoteCommand]
  split
  · exact ht
  · split
    · exact ht
    · refine ht.orPoisoned id fun hu => ?_
      extract_lets s1 _ s2 r3 s4
      have h1 : s1.Canon := hu.countRows
      have h2 : s2.Canon := h1.foldl fun h4 => h4.guard
      have h3 : r3.1.Canon := h2.promoteOn
      have h4 : s4.Canon := h3.dropReplicas
      split
      · exact h4.complete
      · exact h4.complete

theorem State.Canon.demoteRow {x key die} (h : s.Canon) : (s.demoteRow x key die).1.Canon := by
  unfold State.demoteRow
  extract_lets s1 _ _ s2 _
  have h1 : s1.Canon := h.bump
  have h2 : s2.Canon := h1.mapHot
  split
  · exact h
  · exact Canon.ite_fst h1.dirDelete h2.same

theorem State.Canon.execDirHotDemote {p} (h : s.Canon) : CanonNext (execDirHotDemote p s) := by
  refine .next (h.start fun ht => ?_)
  dsimp only [dirHotDemoteCommand]
  split
  · exact ht
  · refine ht.orPoisoned id fun hu => ?_
    refine complete (dropReplicas (foldl_fst hu.countRows fun hv => ?_))
    refine foldl_pair hv fun hw => ?_
    dsimp only
    exact hw.demoteRow

theorem State.Canon.hotCopied {die sliceKey row} (h : s.Canon) : (s.hotCopied die sliceKey row).Canon := by
  unfold State.hotCopied
  extract_lets
  split
  · exact h.copyHot.bump.mapHot
  · exact h

theorem State.Canon.execHotRowCopyComplete {die table slice row} (h : s.Canon) :
    CanonNext (execHotRowCopyComplete die table slice row s) :=
  .next (.ite h.hotCopied h)

theorem State.Canon.execDrainEpochDrained {die epoch} (h : s.Canon) : CanonNext (execDrainEpochDrained die epoch s) :=
  .next (.ite h.drainHot h)

/-! ## Machine/RelayCommands -/

theorem State.Canon.acceptLocal {r} (h : s.Canon) : (s.acceptLocal r).Canon := h.unguard.guard.setRelay

theorem State.Canon.execRelayPeerSetLocal {p} (h : s.Canon) : CanonNext (execRelayPeerSetLocal p s) :=
  .next (.ite h (h.start fun ht => ht.orPoisoned id fun hu => hu.acceptLocal.complete.pump))

theorem State.Canon.setPeers {p} (h : s.Canon) : (s.setPeers p).Canon := h.foldl fun ht => ht.setRelay

theorem State.Canon.execRelayPeerSetModules {p} (h : s.Canon) : CanonNext (execRelayPeerSetModules p s) :=
  .next (.ite (h.start fun ht => ht.orPoisoned id fun hu => hu.setPeers.complete.pump) h)

theorem State.Canon.sealedPostEffect {op p} (h : s.Canon) : ((sealedPostCommand op).effect p s).Canon := by
  dsimp -zeta only [sealedPostCommand]
  split
  · exact h
  · extract_lets _ _ go
    have hgo {u : State} (hu : u.Canon) : (go u).Canon :=
      settleRelay (.ite hu.enroll.sealedPut (.ite hu.enroll.sealedGet hu.enroll.fenceOp))
    exact .ite (h.orPoisoned id hgo) (hgo h)

theorem State.Canon.execRelayPostSealedPut {p} (h : s.Canon) : CanonNext (execRelayPostSealedPut p s) :=
  .next (.ite (h.start fun ht => ht.sealedPostEffect) h)

theorem State.Canon.execRelayPostSealedGet {p} (h : s.Canon) : CanonNext (execRelayPostSealedGet p s) :=
  .next (.ite (h.start fun ht => ht.sealedPostEffect) h)

theorem State.Canon.execRelayPostFence {p} (h : s.Canon) : CanonNext (execRelayPostFence p s) :=
  .next (.ite (h.start fun ht => ht.sealedPostEffect) h)

theorem State.Canon.execArpRequest {port ipv6 target asker} (h : s.Canon) :
    CanonNext (execArpRequest port ipv6 target asker s) := by
  unfold Machine.execArpRequest
  refine .next ?_
  split
  · exact h
  · exact .ite h.emit h

/-! ## Machine/QueuePairs -/

theorem State.Canon.setQp {n q} (h : s.Canon) : (s.setQp n q).Canon := h.setRelay

theorem State.Canon.execRelayQpCreate {p} (h : s.Canon) : CanonNext (execRelayQpCreate p s) :=
  .next (h.start fun ht => ht.setQp.complete)

theorem State.Canon.failQp {n syndrome} (h : s.Canon) : (s.failQp n syndrome).Canon := by
  unfold State.failQp
  split
  · exact h
  · exact h.setQp.foldl fun ht => ht.endPost

theorem State.Canon.execRelayQpDestroy {p} (h : s.Canon) : CanonNext (execRelayQpDestroy p s) :=
  .next (h.start fun ht => ht.failQp.setRelay.complete)

theorem State.Canon.sendRoce {n q b} (h : s.Canon) : (s.sendRoce n q b).Canon := .ite h.emit.bumpWide h

theorem State.Canon.sendWork {n q w from_} (h : s.Canon) : (s.sendWork n q w from_).Canon :=
  h.foldl fun ht => ht.sendRoce

theorem State.Canon.issueWork {n k} (h : s.Canon) : (s.issueWork n k).Canon := by
  induction k generalizing s with
  | zero => exact h
  | succ k ih =>
    unfold State.issueWork
    split
    · exact h
    · split
      · exact h
      · exact .ite h (ih h.setQp.sendWork)

theorem State.Canon.issueQp {n} (h : s.Canon) : (s.issueQp n).Canon := by
  unfold State.issueQp
  split
  · exact h.issueWork
  · exact h

theorem State.Canon.qpPostEffect {op p} (h : s.Canon) : ((qpPostCommand op).effect p s).Canon := by
  dsimp only [qpPostCommand]
  split
  · exact h
  · split
    · exact h.orPoisoned id fun ht => .ite ht.complete ht.enroll.setQp.issueQp
    · exact .ite h.complete h.enroll.setQp.issueQp

theorem State.Canon.execRelayPostWrite {p} (h : s.Canon) : CanonNext (execRelayPostWrite p s) :=
  .next (.ite h (h.start fun ht => ht.qpPostEffect))

theorem State.Canon.execRelayPostWriteImm {p} (h : s.Canon) : CanonNext (execRelayPostWriteImm p s) :=
  .next (.ite (h.start fun ht => ht.qpPostEffect) h)

theorem State.Canon.execRelayPostRead {p} (h : s.Canon) : CanonNext (execRelayPostRead p s) :=
  .next (.ite (h.start fun ht => ht.qpPostEffect) h)

theorem State.Canon.execRelayPostFetchAdd {p} (h : s.Canon) : CanonNext (execRelayPostFetchAdd p s) :=
  .next (.ite (h.start fun ht => ht.qpPostEffect) h)

theorem State.Canon.execRelayPostCmpSwap {p} (h : s.Canon) : CanonNext (execRelayPostCmpSwap p s) :=
  .next (.ite (h.start fun ht => ht.qpPostEffect) h)

theorem State.Canon.execRelayPostTimeout {ring seq} (h : s.Canon) : CanonNext (execRelayPostTimeout ring seq s) := by
  unfold Machine.execRelayPostTimeout
  refine .next ?_
  split
  · exact h
  · extract_lets _ s1
    have h1 : s1.Canon := by unfold s1; split; exacts [.ite h.setQp h, h]
    exact h1.endPost.issueQp.settleRelay

theorem State.Canon.workDoneAt {n w} (h : s.Canon) : (s.workDoneAt n w).Canon := by
  unfold State.workDoneAt
  split
  · exact h.setQp.endPost
  · exact h

theorem State.Canon.retryQp {n psn syndrome} (h : s.Canon) : (s.retryQp n psn syndrome).Canon := by
  unfold State.retryQp
  split
  · exact h
  · split
    · exact h
    · exact .ite h.failQp (h.setQp.foldl fun ht => ht.sendWork)

theorem State.Canon.ackThrough {n psn k} (h : s.Canon) : (s.ackThrough n psn k).Canon := by
  induction k generalizing s with
  | zero => exact h
  | succ k ih =>
    unfold State.ackThrough
    split
    · exact h
    · split
      · exact h
      · exact .ite h (.ite (.ite h h.retryQp) (ih h.workDoneAt))

theorem State.Canon.ackQp {n psn} (h : s.Canon) : (s.ackQp n psn).Canon := by
  unfold State.ackQp
  split
  · exact h.ackThrough
  · exact h

theorem State.Canon.nakQp {n psn syndrome} (h : s.Canon) : (s.nakQp n psn syndrome).Canon := by
  unfold State.nakQp
  extract_lets s1
  have h1 : s1.Canon := h.ackQp
  split
  · exact h1
  · split
    · exact h1
    · exact .ite (.ite h1.failQp h1.setQp) (.ite h1.retryQp (.ite h1.setQp.endPost.failQp h1.failQp))

theorem State.Canon.readResponse {n psn data} (h : s.Canon) : (s.readResponse n psn data).Canon := by
  unfold State.readResponse
  extract_lets s1
  have h1 : s1.Canon := h.ackQp
  split
  · exact h1
  · split
    · exact h1
    · exact .ite h1 (.ite h1.retryQp (.ite h1.store.setQp.workDoneAt h1.store.setQp))

theorem State.Canon.atomicResponse {n psn value} (h : s.Canon) : (s.atomicResponse n psn value).Canon := by
  unfold State.atomicResponse
  extract_lets s1
  have h1 : s1.Canon := h.ackQp
  split
  · exact h1
  · split
    · exact h1
    · exact .ite h1 h1.store.workDoneAt

theorem State.Canon.ackOut {n syndrome psn} (h : s.Canon) : (s.ackOut n syndrome psn).Canon := by
  unfold State.ackOut
  split
  · exact h.sendRoce
  · exact h

theorem State.Canon.refuseRequest {n syndrome psn} (h : s.Canon) : (s.refuseRequest n syndrome psn).Canon :=
  h.ackOut.failQp

theorem State.Canon.expectNext {n k message} (h : s.Canon) : (s.expectNext n k message).Canon := by
  unfold State.expectNext
  split
  · exact h.setQp
  · exact h

theorem State.Canon.writeIn {n q psn ack first last imm rethB data} (h : s.Canon) :
    (s.writeIn n q psn ack first last imm rethB data).Canon := by
  unfold State.writeIn
  extract_lets _ _ _ _ _ s1 _ s2 s3
  have h1 : s1.Canon := h.store
  have h2 : s2.Canon := by unfold s2; split; exacts [h1.store.setQp, h1.setQp]
  have h3 : s3.Canon := h2.expectNext
  exact .ite h.refuseRequest (.ite h.refuseRequest (.ite h.ackOut (.ite h3.ackOut h3)))

theorem State.Canon.readAnswer {n q psn va len} (h : s.Canon) : (s.readAnswer n q psn va len).Canon :=
  h.foldl fun ht => ht.sendRoce

theorem State.Canon.readIn {n q psn again b} (h : s.Canon) : (s.readIn n q psn again b).Canon := by
  unfold State.readIn
  extract_lets _ _ s1
  have h1 : s1.Canon := .ite h h.expectNext
  split
  · exact h.refuseRequest
  · split
    · exact h.refuseRequest
    · split
      · exact h1.readAnswer
      · exact h1

theorem State.Canon.atomicIn {n q psn swap b} (h : s.Canon) : (s.atomicIn n q psn swap b).Canon := by
  unfold State.atomicIn
  extract_lets _ _ _ _ s1
  have h1 : s1.Canon := h.store.expectNext
  split
  · exact h.refuseRequest
  · split
    · exact h.refuseRequest
    · split
      · exact h1
      · exact h1.setQp.sendRoce

theorem State.Canon.repeated {n q opcode psn b} (h : s.Canon) : (s.repeated n q opcode psn b).Canon := by
  unfold State.repeated
  split
  · exact h.readIn
  · split
    · split
      · exact h.sendRoce
      · exact h
    · exact h.ackOut

theorem State.Canon.requestIn {n q opcode psn ack b} (h : s.Canon) : (s.requestIn n q opcode psn ack b).Canon := by
  unfold State.requestIn
  split
  · exact h.writeIn
  · exact h.writeIn
  · exact h.writeIn
  · exact h.writeIn
  · exact h.writeIn
  · exact h.writeIn
  · exact h.readIn
  · exact h.atomicIn
  · exact h.atomicIn
  · exact h.refuseRequest

theorem State.Canon.roceIn {n q opcode psn ack b} (h : s.Canon) : (s.roceIn n q opcode psn ack b).Canon := by
  unfold State.roceIn
  extract_lets
  split
  · exact .ite h.ackQp h.nakQp
  · split
    · exact h.atomicResponse
    · exact .ite h.readResponse (.ite h.requestIn (.ite h.repeated (.ite h h.setQp.ackOut)))

theorem State.Canon.execRocePacketReceived {f} (h : s.Canon) : CanonNext (execRocePacketReceived f s) := by
  unfold Machine.execRocePacketReceived
  refine .next ?_
  extract_lets _ _ s1 s2 _ _
  have h1 : s1.Canon := h.bumpWide
  have h2 : s2.Canon := .ite h1.congestion h1
  split
  · exact h
  · exact .ite h (.ite h2 h2.roceIn.issueQp)

theorem State.Canon.execLocalAckTimeout {n} (h : s.Canon) : CanonNext (execLocalAckTimeout n s) := by
  unfold Machine.execLocalAckTimeout
  refine .next ?_
  split
  · exact h
  · extract_lets
    split
    · exact h
    · exact .ite (h.setQp.foldl fun ht => ht.sendWork).issueQp (.ite h h.retryQp)

/-! ## Machine/Snapshots -/

theorem State.Canon.writeSnapshot {p slot j} (h : s.Canon) : (s.writeSnapshot p slot j).Canon :=
  .ite h.scramble.complete (h.store.foldl fun ht => ht.store).bump.same.complete

theorem State.Canon.execJobSnapshot {p} (h : s.Canon) : CanonNext (execJobSnapshot p s) := by
  unfold Machine.execJobSnapshot
  refine .next (h.start fun ht => ?_)
  dsimp -zeta only [jobSnapshotCommand]
  extract_lets
  split
  · exact ht
  · exact ht.orPoisoned (fun hu => hu.scramble) fun hu => hu.writeSnapshot

theorem State.Canon.restoreEntry {p e plain} (h : s.Canon) : (s.restoreEntry p e plain).Canon := by
  unfold State.restoreEntry
  extract_lets
  split
  · split
    · exact h.store
    · exact h
  · split
    · exact h.store.same.guard
    · exact h
  · exact h

theorem State.Canon.restoreJob {p l} (h : s.Canon) : (s.restoreJob p l).Canon :=
  (h.foldl fun ht => ht.restoreEntry).same.openJob.complete

theorem State.Canon.execJobRestore {p} (h : s.Canon) : CanonNext (execJobRestore p s) := by
  unfold Machine.execJobRestore
  refine .next (h.start fun ht => ?_)
  dsimp -zeta only [jobRestoreCommand]
  extract_lets
  refine ht.orPoisoned (fun hu => hu.foldl fun hv => hv.scramble) fun hu => ?_
  extract_lets
  split
  · exact hu.restoreJob
  · exact (hu.foldl fun hv => hv.scramble).complete

/-! ## Machine/Steps -/

theorem State.Canon.preparePhase {slot step} (h : s.Canon) : (s.preparePhase slot step).Canon := by
  unfold State.preparePhase
  split
  · exact h
  · exact .ite h (Canon.ite (h.setJob.same.foldl fun ht => ht.deal) h.setJob.same).startQueued

theorem State.Canon.execPreparePhaseStart {slot step} (h : s.Canon) : CanonNext (execPreparePhaseStart slot step s) :=
  .next h.preparePhase

theorem State.Canon.runPhase {slot} (h : s.Canon) : (s.runPhase slot).Canon := by
  unfold State.runPhase
  split
  · exact h
  · extract_lets
    split
    · exact h
    · split
      · exact h.startAttempt
      · exact h.startAttempt.onJob
      · exact .ite h h.newRun.startAttempt

theorem State.Canon.execRunPhaseStart {slot} (h : s.Canon) : CanonNext (execRunPhaseStart slot s) :=
  .next h.runPhase.settleRelay

theorem State.Canon.strikeDisputed {g task} (h : s.Canon) : (s.strikeDisputed g task).Canon := by
  unfold State.strikeDisputed
  extract_lets
  split
  · exact h
  · exact h.foldl fun ht => ht.strike

theorem State.Canon.compareTiles {slot run g} (h : s.Canon) : (s.compareTiles slot run g).Canon :=
  (h.foldl fun ht => ht.strikeDisputed).bump.onGraphRun.foldl fun ht => ht.onJob

theorem State.Canon.checkPhase {slot} (h : s.Canon) : (s.checkPhase slot).Canon := by
  unfold State.checkPhase
  split
  · exact h
  · extract_lets s1 s2
    have h1 : s1.Canon := h.absorbEnded
    have h2 : s2.Canon := by unfold s2; split; exacts [.ite h1.compareTiles h1, h1]
    split
    · exact h
    · split
      · exact h1
      · exact .ite h1 h2.onJob.tally

theorem State.Canon.execCheckPhaseEnd {slot} (h : s.Canon) : CanonNext (execCheckPhaseEnd slot s) :=
  .next h.checkPhase.settleRelay

theorem State.Canon.applyGroup {slot bound x} (h : s.Canon) : (s.applyGroup slot bound x).Canon := by
  unfold State.applyGroup
  split
  · split
    · exact h
    · extract_lets
      split
      · exact h.parity.parity.scramble.onJob
      · exact h.journal.applyRow
  · exact h

theorem State.Canon.applyScatter {slot bound} (h : s.Canon) : (s.applyScatter slot bound).Canon :=
  (h.foldl fun ht => ht.applyGroup).same

theorem State.Canon.switchVersions {slot j} (h : s.Canon) : (s.switchVersions slot j).Canon :=
  h.foldl fun ht => ht.makeCurrent.same.onJob

theorem State.Canon.switchManifest {slot} (h : s.Canon) : (s.switchManifest slot).Canon := h.onJob

theorem State.Canon.showStep {slot} (h : s.Canon) : (s.showStep slot).Canon := by
  unfold State.showStep
  split
  · exact h
  · split
    · exact h
    · extract_lets _ s1
      have h1 : s1.Canon := h.setJob
      split
      · exact h1.same.advance
      · exact h1

theorem State.Canon.advanceStep {slot} (h : s.Canon) : (s.advanceStep slot).Canon := by
  unfold State.advanceStep
  split
  · exact h
  · extract_lets _ _ _ s1 _ _ _ s2 _ s3
    have h1 : s1.Canon := h.setJob
    have h2 : s2.Canon := h1.same
    have h3 : s3.Canon := h2.setRelay
    split
    · exact h3.setPipe
    · exact h3

theorem State.Canon.actingCommitted {slot} (h : s.Canon) : (s.actingCommitted slot).Canon := by
  unfold State.actingCommitted
  extract_lets
  split
  · exact h
  · exact .ite h.onJob (h.foldl fun ht => ht.sendSignal).rehostModules.onJob

theorem State.Canon.afterStep {slot} (h : s.Canon) : (s.afterStep slot).Canon := by
  unfold State.afterStep
  split
  · exact h
  · split
    · exact h.failNext
    · split
      · exact h.failNext
      · split
        · exact h
        · exact .ite h (.ite h.endHead h)

theorem State.Canon.commitPhase {slot} (h : s.Canon) : (s.commitPhase slot).Canon := by
  unfold State.commitPhase
  extract_lets run s1 s2
  clear_value run
  have h1 : s1.Canon := h.applyScatter
  have h2 : s2.Canon := h1.hotSwitch.hotSwitch
  split
  · exact h
  · extract_lets _ s3
    have h3 : s3.Canon := h2.switchVersions.switchManifest
    split
    · exact h
    · split
      · exact h3
      · extract_lets _ s4 s5 s6
        have h4 : s4.Canon := by unfold s4; split; exacts [h3.store, h3]
        have h5 : s5.Canon := h4.advanceStep
        have h6 : s6.Canon := by unfold s6; split; exacts [h5.dropRun, h5.retireVersions]
        exact h6.showStep.actingCommitted.afterStep.wake.remedies

theorem State.Canon.execCommitApplyComplete {slot} (h : s.Canon) : CanonNext (execCommitApplyComplete slot s) :=
  .next h.commitPhase.settleRelay

theorem State.Canon.sendDigests {slot j m d r} (h : s.Canon) : (s.sendDigests slot j m d r).Canon :=
  .ite h.onJob h.sealedPut

theorem State.Canon.musterFormed {slot} (h : s.Canon) : (s.musterFormed slot).Canon := by
  unfold State.musterFormed
  split
  · exact h
  · exact .ite h (h.foldl fun ht => ht.sendDigests).onJob.openCommit.tally

theorem State.Canon.execMusterDigestFormed {slot} (h : s.Canon) : CanonNext (execMusterDigestFormed slot s) :=
  .next h.musterFormed.settleRelay

theorem State.Canon.musterCompare {slot rank} (h : s.Canon) : (s.musterCompare slot rank).Canon := by
  unfold State.musterCompare
  split
  · exact h
  · exact .ite h h.onJob.tally

theorem State.Canon.execMusterCompare {slot rank} (h : s.Canon) : CanonNext (execMusterCompare slot rank s) :=
  .next h.musterCompare.settleRelay

theorem State.Canon.execVoteTimeout {slot} (h : s.Canon) : CanonNext (execVoteTimeout slot s) := by
  unfold Machine.execVoteTimeout
  refine .next ?_
  split
  · exact h
  · exact .ite h.setJob.tally.settleRelay h

theorem State.Canon.execDecisionTimeout {slot} (h : s.Canon) : CanonNext (execDecisionTimeout slot s) := by
  unfold Machine.execDecisionTimeout
  refine .next ?_
  split
  · exact h
  · exact .ite h.setJob.sendSignal.settleRelay h

theorem State.Canon.rootLost {slot j} (h : s.Canon) : (s.rootLost slot j).Canon :=
  .ite (h.setJob.foldl fun ht => ht.sendSignal).actingDone h.setJob

theorem State.Canon.execQueryTimeout {slot} (h : s.Canon) : CanonNext (execQueryTimeout slot s) := by
  unfold Machine.execQueryTimeout
  refine .next ?_
  split
  · exact h
  · split
    · exact h
    · split
      · exact h.rootLost.settleRelay
      · exact .ite h.setJob.actingDone.settleRelay h.holdJob.settleRelay

/-! ## A step -/

/-- Whatever the command, it leaves the memories in canonical form. -/
theorem State.Canon.exec {i : Instr} (h : s.Canon) : CanonNext (exec i s) :=
  match i with
  | .jobOpen _ => h.execJobOpen
  | .jobAttach _ => h.execJobAttach
  | .stepRun _ => h.execStepRun
  | .jobSnapshot _ => h.execJobSnapshot
  | .jobRestore _ => h.execJobRestore
  | .jobClose _ => h.execJobClose
  | .regionDefine _ => h.execRegionDefine
  | .regionRelease _ => h.execRegionRelease
  | .memCopy _ => h.execMemCopy
  | .memFill _ => h.execMemFill
  | .tableLoad _ _ => h.execTableLoad
  | .tableRelease _ => h.execTableRelease
  | .fprogLoad _ => h.execFprogLoad
  | .fprogStart _ => h.execFprogStart
  | .fprogQuery _ => h.execFprogQuery
  | .fprogUnload _ => h.execFprogUnload
  | .partitionExchange _ => h.execPartitionExchange
  | .datasetOpen _ => h.execDatasetOpen
  | .pipelineConfig _ => h.execPipelineConfig
  | .epochSet _ => h.execEpochSet
  | .batchPrepare _ => h.execBatchPrepare
  | .correctionLoad _ => h.execCorrectionLoad
  | .datasetClose _ => h.execDatasetClose
  | .graphLoad _ => h.execGraphLoad
  | .graphUnload _ => h.execGraphUnload
  | .graphRun _ => h.execGraphRun
  | .embTableCreate _ => h.execEmbTableCreate
  | .embVersionLoad _ _ => h.execEmbVersionLoad
  | .embVersionPublish _ => h.execEmbVersionPublish
  | .embGather _ => h.execEmbGather
  | .embTableDestroy _ => h.execEmbTableDestroy
  | .dirBankConfig _ => h.execDirBankConfig
  | .dirInsert _ => h.execDirInsert
  | .dirDelete _ => h.execDirDelete
  | .dirSearch _ => h.execDirSearch
  | .dirCompact _ => h.execDirCompact
  | .dirHotPromote _ => h.execDirHotPromote
  | .dirHotDemote _ => h.execDirHotDemote
  | .selectTopk _ => h.execSelectTopk
  | .selectMerge _ => h.execSelectMerge
  | .relayPeerSetLocal _ => h.execRelayPeerSetLocal
  | .relayPeerSetModules _ => h.execRelayPeerSetModules
  | .relayQpCreate _ => h.execRelayQpCreate
  | .relayQpDestroy _ => h.execRelayQpDestroy
  | .relayPostWrite _ => h.execRelayPostWrite
  | .relayPostWriteImm _ => h.execRelayPostWriteImm
  | .relayPostRead _ => h.execRelayPostRead
  | .relayPostFetchAdd _ => h.execRelayPostFetchAdd
  | .relayPostCmpSwap _ => h.execRelayPostCmpSwap
  | .relayPostSealedPut _ => h.execRelayPostSealedPut
  | .relayPostSealedGet _ => h.execRelayPostSealedGet
  | .relayPostFence _ => h.execRelayPostFence
  | .intTestUnit _ => h.execIntTestUnit
  | .intTestAll _ => h.execIntTestAll
  | .intStrikesQuery _ => h.execIntStrikesQuery
  | .intFence _ => h.execIntFence
  | .intUnfence _ => h.execIntUnfence
  | .patternSetStage _ => h.execPatternSetStage
  | .secSessionOpenNew _ => h.execSecSessionOpenNew
  | .secSessionOpenCertify _ => h.execSecSessionOpenCertify
  | .secSessionOpenPairOffer _ => h.execSecSessionOpenPairOffer
  | .secSessionOpenJobKeyIssue _ => h.execSecSessionOpenJobKeyIssue
  | .secKeyImportModelKey _ => h.execSecKeyImportModelKey
  | .secKeyImportPair _ => h.execSecKeyImportPair
  | .secKeyImportJobKey _ => h.execSecKeyImportJobKey
  | .secWeightsImport _ => h.execSecWeightsImport
  | .secWeightsExport _ => h.execSecWeightsExport
  | .secRegionProtect _ => h.execSecRegionProtect
  | .nop _ => h.execNop
  | .abort _ => h.execAbort
  | .fwStage _ => h.execFwStage
  | .fwActivate _ => h.execFwActivate
  | .powerCapSet _ => h.execPowerCapSet
  | .ledgerRead _ => h.execLedgerRead
  | .manifestLoad _ => h.execManifestLoad
  | .manifestStage _ => h.execManifestStage
  | .manifestQuery _ => h.execManifestQuery
  | .packetConsumed _ _ _ _ => h.execPacketConsumed
  | .statusRecordWrite _ => h.execStatusRecordWrite
  | .interruptModerationTimeout _ => h.execInterruptModerationTimeout
  | .cmdRingEnable _ _ _ => h.execCmdRingEnable
  | .ringClearComplete _ => h.execRingClearComplete
  | .cmdRingDisable _ _ _ => h.execCmdRingDisable
  | .cmdCqHeadWrite _ _ _ => h.execCmdCqHeadWrite
  | .cmdCqBaseWrite _ _ _ _ => h.execCmdCqBaseWrite
  | .registerWrite _ _ _ => h.execRegisterWrite
  | .bar4Access _ _ _ _ tee => h.execBar4Access (_tee := tee)
  | .latchingRegisterRead _ _ => h.execLatchingRegisterRead
  | .logWindowSeqWrite _ _ => h.execLogWindowSeqWrite
  | .logWindowRefillDone => h.execLogWindowRefillDone
  | .wghLogSelWrite _ _ => h.execWghLogSelWrite
  | .mgtTimeCtrlWrite _ _ => h.execMgtTimeCtrlWrite
  | .preparePhaseStart _ _ => h.execPreparePhaseStart
  | .runPhaseStart _ => h.execRunPhaseStart
  | .taskAdmission _ _ => h.execTaskAdmission
  | .tokenArrival _ => h.execTokenArrival
  | .taskGrant _ _ _ => h.execTaskGrant
  | .taskResultOffered _ => h.execTaskResultOffered
  | .engineTransferComplete _ => h.execEngineTransferComplete
  | .queueSpaceReleased _ _ => h.execQueueSpaceReleased
  | .prefetchCopyComplete _ => h.execPrefetchCopyComplete
  | .checkPhaseEnd _ => h.execCheckPhaseEnd
  | .voteReceived _ => h.execVoteReceived
  | .commitReceived _ => h.execCommitReceived
  | .commitApplyComplete _ => h.execCommitApplyComplete
  | .replayReceived _ => h.execReplayReceived
  | .queryReceived _ => h.execQueryReceived
  | .voteTimeout _ => h.execVoteTimeout
  | .decisionTimeout _ => h.execDecisionTimeout
  | .queryTimeout _ => h.execQueryTimeout
  | .musterDigestFormed _ => h.execMusterDigestFormed
  | .musterCompare _ _ => h.execMusterCompare
  | .stripeStart _ => h.execStripeStart
  | .stripePlacement _ => h.execStripePlacement
  | .sampleIssue _ _ => h.execSampleIssue
  | .sampleDecodeComplete _ _ => h.execSampleDecodeComplete
  | .slotHandOn _ => h.execSlotHandOn
  | .sampleSourceTimeout _ _ => h.execSampleSourceTimeout
  | .gatherWindowServed _ _ => h.execGatherWindowServed
  | .hotRowCopyComplete _ _ _ _ => h.execHotRowCopyComplete
  | .drainEpochDrained _ _ => h.execDrainEpochDrained
  | .exchangeIncompleteTimeout _ => h.execExchangeIncompleteTimeout
  | .slotPutReceived _ => h.execSlotPutReceived
  | .sealedPutReceived _ => h.execSealedPutReceived
  | .sealedGetRequestReceived _ => h.execSealedGetRequestReceived
  | .sealedGetResponseReceived _ => h.execSealedGetResponseReceived
  | .userSignalReceived _ => h.execUserSignalReceived
  | .fenceReceived _ => h.execFenceReceived
  | .ackReceived _ => h.execAckReceived
  | .cnpReceived _ _ => h.execCnpReceived
  | .rocePacketReceived _ => h.execRocePacketReceived
  | .arpRequest _ _ _ _ => h.execArpRequest
  | .discardedFrame => h.execDiscardedFrame
  | .ackTimerExpiry _ _ _ => h.execAckTimerExpiry
  | .retransmissionTimeout _ _ _ _ => h.execRetransmissionTimeout
  | .notReadyResend _ _ _ _ => h.execNotReadyResend
  | .rateLevelDecay _ _ => h.execRateLevelDecay
  | .planeProbe _ _ => h.execPlaneProbe
  | .linkStateChange _ _ => h.execLinkStateChange
  | .relayPostTimeout _ _ => h.execRelayPostTimeout
  | .pageRetirement _ _ _ => h.execPageRetirement
  | .strikeExpiry => h.execStrikeExpiry
  | .testFenceStart => h.execTestFenceStart
  | .structuralTestComplete _ _ => h.execStructuralTestComplete
  | .rotationTestDue _ => h.execRotationTestDue
  | .railStepComplete _ => h.execRailStepComplete
  | .railOutOfRegulation _ => h.execRailOutOfRegulation
  | .sensorSample _ => h.execSensorSample
  | .capLoopTick _ _ => h.execCapLoopTick
  | .thermalLoopTick => h.execThermalLoopTick
  | .fastLimiterTrip => h.execFastLimiterTrip
  | .fastLimiterRelease => h.execFastLimiterRelease
  | .pwrBrkAssert => h.execPwrBrkAssert
  | .pwrBrkRelease => h.execPwrBrkRelease
  | .thermalTrip => h.execThermalTrip
  | .pllLossOfLock => h.execPllLossOfLock
  | .inputReaches40v => h.execInputReaches40v
  | .restartDelayExpiry => h.execRestartDelayExpiry
  | .startUpStageComplete _ _ => h.execStartUpStageComplete
  | .startUpStageTimeout _ => h.execStartUpStageTimeout
  | .powerFail => h.execPowerFail
  | .overvoltage => h.execOvervoltage
  | .perstAssert => h.execPerstAssert
  | .perstDeassert => h.execPerstDeassert
  | .flr => h.execFlr
  | .d3hotEntry => h.execD3hotEntry
  | .d3hotExit => h.execD3hotExit
  | .configurationRequest _ _ _ _ => h.execConfigurationRequest
  | .entropyHealthFailure => h.execEntropyHealthFailure
  | .getVersion => h.execGetVersion
  | .getCapabilities => h.execGetCapabilities
  | .negotiateAlgorithms _ => h.execNegotiateAlgorithms
  | .getDigests => h.execGetDigests
  | .getCertificate _ _ _ => h.execGetCertificate
  | .challenge _ _ => h.execChallenge
  | .getMeasurements _ _ => h.execGetMeasurements
  | .keyExchange _ => h.execKeyExchange
  | .finish _ => h.execFinish
  | .endSession => h.execEndSession
  | .vendorDefinedRequest _ => h.execVendorDefinedRequest
  | .ideKmKeyProgram _ _ => h.execIdeKmKeyProgram
  | .ideStreamLoss _ => h.execIdeStreamLoss
  | .lockInterfaceRequest => h.execLockInterfaceRequest
  | .startInterfaceRequest => h.execStartInterfaceRequest
  | .stopInterfaceRequest => h.execStopInterfaceRequest
  | .setEndpointId _ _ => h.execSetEndpointId
  | .pldmSensorRequest _ _ => h.execPldmSensorRequest
  | .requestUpdate _ => h.execRequestUpdate
  | .passComponentTable _ _ => h.execPassComponentTable
  | .updateComponent _ _ _ => h.execUpdateComponent
  | .requestFirmwareData _ _ => h.execRequestFirmwareData
  | .transferComplete _ => h.execTransferComplete
  | .verifyComplete _ => h.execVerifyComplete
  | .applyComplete _ => h.execApplyComplete
  | .activateFirmware _ => h.execActivateFirmware
  | .getStatus _ => h.execGetStatus
  | .cancelUpdate _ => h.execCancelUpdate
  | .activationStageStart => h.execActivationStageStart
  | .processorReadyTimeout => h.execProcessorReadyTimeout
  | .ledgerFlush => h.execLedgerFlush
  | .secondBoundary => h.execSecondBoundary
  | .ppsEdge _ => h.execPpsEdge
  | .ptpMessageReceived _ _ _ _ _ => h.execPtpMessageReceived
  | .meterLinkPoll => h.execMeterLinkPoll
  | .meterLinkFrame _ _ => h.execMeterLinkFrame
  | .meterReadRequest _ _ => h.execMeterReadRequest
  | .meterStart _ _ _ _ => h.execMeterStart
  | .counterRecordWrite => h.execCounterRecordWrite
  | .meterPowerFail => h.execMeterPowerFail
  | .sealSample _ => h.execSealSample
  | .meterSelfTest _ => h.execMeterSelfTest
  | .mtrPulse => h.execMtrPulse
  | .reverse => h.execReverse
  | .overrange => h.execOverrange
  | .waitMsExpiry => h.execWaitMsExpiry
  | .localAckTimeout _ => h.execLocalAckTimeout
  | .referenceLost => h.execReferenceLost
  | .throttleWindow => h.execThrottleWindow
  | .reverification _ _ => h.execReverification
  | .clockTreeOrResetDomainFault _ => h.execClockTreeOrResetDomainFault
  | .portDieFault => h.execPortDieFault
  | .jtagAccess _ _ => h.execJtagAccess

theorem State.Canon.step (h : s.Canon) : CanonNext (step s) := by
  unfold Machine.step
  split
  · exact .next h.tick
  · exact h.same.exec

/-- Settles O4: every function by which a command or a tick reaches its next state keeps the three memories in
canonical form, as its lemma above says; what touches them is a store, a fill or a scramble, which the laws of memory
cover. -/
theorem canonicalKept : Obligations.CanonicalKept := by
  intro s t h e
  have ht := State.Canon.step h
  rw [e] at ht
  cases ht with
  | next ht => exact ht

end Sys2Proof.Machine
end

section
/-! PROOFS. Keys are imported. -/

namespace Sys2Proof.Machine

/-! ## What an effect may rely on after the start of its packet -/

/-- Whatever a start does not write, the effect finds as it was. -/
theorem State.Enters.same {α : Type} {s u : State} (h : s.Enters u) (f : State → α) (hf : ∀ t, f (s.bookkept t) = f s) :
    f u = f s := by
  rw [h.frame, hf]

/-- A completion at the end of an effect owes the packet's record, whatever its status. -/
theorem State.Enters.complete_owes {s u v : State} (hu : s.Enters u) (hv : u.SameRecords v) (p : Packet) (st : Status)
    (detail position total : Nat) : (v.complete p st detail position total).owes s p st detail = true :=
  State.complete_owes p st detail position total (hv.job.trans (hu.same State.job fun _ => rfl))
    (hv.clk.trans (hu.same State.clk fun _ => rfl)) fun r =>
      (State.dues_congr hv.held (fun n => by rw [State.ring_congr hv.rings]) r).trans (hu.dues r)

theorem State.SameRecords.trans {s t u : State} (h : s.SameRecords t) (k : t.SameRecords u) : s.SameRecords u where
  rings := k.rings.trans h.rings
  held := k.held.trans h.held
  job := k.job.trans h.job
  clk := k.clk.trans h.clk

theorem State.logPlain_sameRecords (s : State) (cls severity code : Nat) (data : List Byte) :
    s.SameRecords (s.logPlain cls severity code data) := by
  rw [State.logPlain_frame]
  exact {}

/-! ## Counters a ledger entry and a completion change -/

theorem State.reg_congr {s t : State} (h : t.regs = s.regs) (o : Nat) : t.reg o = s.reg o := by
  simp only [State.reg, h]

theorem State.reg_logPlain_ne (s : State) (cls severity code : Nat) (data : List Byte) {o : Nat}
    (hsup : o ≠ Reg.logSuppressed) (halert : o ≠ Reg.mgtAlerts) : (s.logPlain cls severity code data).reg o = s.reg o := by
  unfold State.logPlain State.log
  extract_lets _ _ _ _ logged
  split
  · exact State.reg_bump_ne _ 1 hsup
  split
  · rw [State.alert, State.reg_congr (State.raise_regs _ _), State.reg_setReg_ne _ _ halert]
    rfl
  · rfl

theorem State.reg_complete (s : State) (p : Packet) (st : Status) (detail position total o : Nat) :
    (s.complete p st detail position total).reg o = (s.countStatus st).reg o := by
  rw [State.complete, State.reg_congr (State.fallDue_regs _ _), State.closeEntry_frame]
  unfold State.countStatus
  split_ifs <;> rfl

theorem State.reg_complete_of_uncounted {st : Status} (h : ∀ t : State, t.countStatus st = t) (s : State) (p : Packet)
    (detail position total o : Nat) : (s.complete p st detail position total).reg o = s.reg o := by
  rw [State.reg_complete, h]

/-! ## The lock of the module (R479) -/

/-- The lock sets the mode alone of the security state. -/
theorem State.lock_frame (s : State) : s.lock = { s with
    published := s.lock.published
    sec := { s.sec with mode := s.lock.sec.mode }
    mgt := s.lock.mgt
    regs := s.lock.regs
    pba := s.lock.pba
    irqs := s.lock.irqs } := by
  unfold State.lock
  split
  · rw [State.logPlain_frame]
    rfl
  · rfl

theorem State.lock_mode_ne_opened (s : State) : s.lock.sec.mode ≠ .opened := by
  unfold State.lock
  split
  · simp
  · assumption

theorem State.lock_sameRecords (s : State) : s.SameRecords s.lock := by
  rw [State.lock_frame]
  exact {}

/-! ## MODEL_KEY (R491, R502) -/

theorem State.refuseImport_ends {s u : State} (hu : s.Enters u) (p : Packet) (r : Nat) :
    (u.refuseImport p r).owes s p Status.keyRefused r = true ∧ (u.refuseImport p r).sec = s.sec ∧
      (u.refuseImport p r).reg Reg.secKeyRefused = satAdd (s.reg Reg.secKeyRefused) 1 ∧
      (u.refuseImport p r).mem = s.mem ∧ (u.refuseImport p r).host = s.host ∧ (u.refuseImport p r).job = s.job := by
  refine ⟨hu.complete_owes (u.logPlain_sameRecords _ _ _ _) p _ _ _ _, ?sec, ?count, ?_⟩
  case sec => simpa [State.refuseImport, State.refuseKey] using hu.same State.sec fun _ => rfl
  case count =>
    have hcount (t : State) : t.countStatus Status.keyRefused = t.bump Reg.secKeyRefused 1 := rfl
    rw [State.refuseImport, State.refuseKey, State.reg_complete, hcount, State.reg_bump_same _ _ Nat.one_pos,
      State.reg_logPlain_ne _ _ _ _ _ (by decide) (by decide), State.reg_congr (hu.same State.regs fun _ => rfl)]
  simp only [State.refuseImport, State.refuseKey, State.complete_mem, State.complete_host, State.complete_job,
    State.logPlain_mem, State.logPlain_host, State.logPlain_job]
  exact ⟨hu.same State.mem fun _ => rfl, hu.same State.host fun _ => rfl, hu.same State.job fun _ => rfl⟩

/-- The blob, its chain and what opens it are read from the memories and the security state. -/
theorem State.Enters.blob {s u : State} (hu : s.Enters u) (p : Packet) : u.blob p = s.blob p :=
  State.load_congr (hu.same State.mem fun _ => rfl) (hu.same State.host fun _ => rfl) _ _

theorem State.Enters.blobChain {s u : State} (hu : s.Enters u) (p : Packet) : u.blobChain p = s.blobChain p :=
  State.load_congr (hu.same State.mem fun _ => rfl) (hu.same State.host fun _ => rfl) _ _

theorem State.Enters.openBlob {s u : State} (hu : s.Enters u) (slot : Nat) (b : List Byte) :
    u.openBlob slot b = s.openBlob slot b := by
  simp only [State.openBlob, hu.same State.sec fun _ => rfl]

theorem keyImportModelKey_refuses {p : Packet} {s : State} {r : Nat} (hkind : importKind p = 1)
    (h : s.accepts secKeyImportModelKeyCommand p = true) (hblob : s.openBlob (importSlot p) (s.blob p) = .error r) :
    ∃ t, exec (.secKeyImportModelKey p) s = .next t ∧ t.owes s p Status.keyRefused r = true ∧ t.sec = s.sec ∧
      t.reg Reg.secKeyRefused = satAdd (s.reg Reg.secKeyRefused) 1 ∧ t.mem = s.mem ∧ t.host = s.host ∧ t.job = s.job := by
  obtain ⟨u, hu, hstart⟩ := Command.start_enters h
  have hopen : u.openBlob (importSlot p) (u.blob p) = .error r := by
    rw [hu.openBlob, hu.blob, hblob]
  have heff : secKeyImportModelKeyCommand.effect p u = u.refuseImport p r := by
    simp only [secKeyImportModelKeyCommand, hopen]
  exact ⟨_, congrArg Host.Outcome.next ((if_neg (by simp [hkind])).trans (hstart.trans heff)), State.refuseImport_ends hu p r⟩

/-- The state with a model key in a slot. -/
def State.holdKey (s : State) (slot : Nat) (k : ModelKey) : State :=
  { s with sec := { s.sec with keys := Tab.put s.sec.keys slot k } }

theorem keyImportModelKey_holds {p : Packet} {s : State} {k : ModelKey} (hkind : importKind p = 1)
    (h : s.accepts secKeyImportModelKeyCommand p = true) (hblob : s.openBlob (importSlot p) (s.blob p) = .ok k) :
    ∃ t, exec (.secKeyImportModelKey p) s = .next t ∧ t.owes s p Status.ok 0 = true ∧
      Tab.look t.sec.keys (importSlot p) = some k ∧
      (∀ n, n ≠ importSlot p → Tab.look t.sec.keys n = Tab.look s.sec.keys n) ∧ t.sec.mode ≠ .opened ∧
      t.mem = s.mem ∧ t.host = s.host ∧ t.running = s.running ∧ t.job = s.job := by
  obtain ⟨u, hu, hstart⟩ := Command.start_enters h
  have hopen : u.openBlob (importSlot p) (u.blob p) = .ok k := by
    rw [hu.openBlob, hu.blob, hblob]
  have heff : secKeyImportModelKeyCommand.effect p u = ((u.holdKey (importSlot p) k).lock).complete p Status.ok 0 0 0 := by
    simp only [secKeyImportModelKeyCommand, hopen]
    rfl
  have hlock := (u.holdKey (importSlot p) k).lock_frame
  have hkeys : (u.holdKey (importSlot p) k).lock.sec.keys = Tab.put s.sec.keys (importSlot p) k := by
    rw [hlock, ← hu.same State.sec fun _ => rfl]
    rfl
  refine ⟨_, congrArg Host.Outcome.next ((if_neg (by simp [hkind])).trans (hstart.trans heff)),
    hu.complete_owes (.trans {} (State.lock_sameRecords _)) p _ _ _ _, ?_⟩
  simp only [State.complete_sec, State.complete_mem, State.complete_host, State.complete_running, State.complete_job, hkeys]
  refine ⟨Tab.look_put_same _ _ _, fun n hn => Tab.look_put_ne _ _ hn, State.lock_mode_ne_opened _, ?_⟩
  rw [hlock]
  exact ⟨hu.same State.mem fun _ => rfl, hu.same State.host fun _ => rfl, hu.same State.running fun _ => rfl,
    hu.same State.job fun _ => rfl⟩

/-! ## What follows a change of the relay without operations (R425 to R431) -/

/-- A state with the parts that the relay's work writes taken from another: the relay but its operations, its counters, what has
been sent and the drawn numbers. -/
def State.relayed (s t : State) : State :=
  { s with relay := { t.relay with ops := s.relay.ops }, regs := t.regs, wide := t.wide, sent := t.sent, free := t.free }

theorem State.relayed_trans {s t u : State} (h : t = s.relayed t) (k : u = t.relayed u) : u = s.relayed u := by
  rw [k, h]
  rfl

theorem State.relayed_of_pumped {s t : State} (h : t = s.pumped t) : t = s.relayed t := by
  rw [h]
  rfl

theorem State.releaseFences_relayed (s : State) : s.releaseFences = s.relayed s.releaseFences := by
  unfold State.releaseFences
  extract_lets _ ready kept
  exact State.foldl_keeps (P := fun t => t = s.relayed t) _ _
    (fun t e h => State.relayed_trans h (State.relayed_trans rfl (State.relayed_of_pumped (State.sendAck_pumped _ _ _ _ _ _ _))))
    rfl

theorem State.grantN_relayed (cls k : Nat) (s : State) : State.grantN cls k s = s.relayed (State.grantN cls k s) := by
  induction k generalizing s with
  | zero => rfl
  | succ k ih =>
    unfold State.grantN
    split
    · rfl
    split
    · rfl
    · refine State.relayed_trans (State.relayed_trans ?_ (State.relayed_of_pumped (State.sendAck_pumped _ _ _ _ _ _ _))) (ih _)
      split <;> rfl

theorem State.retireOps_of_none {s : State} (h : s.relay.ops = []) : s.retireOps = s := by
  rw [State.retireOps, h]
  rfl

/-- When no command runs, no packet waits for its step and no operation is under way, what follows a change of the relay is
the relay's own work. -/
theorem State.settleRelay_relayed {s : State} (hrun : s.running = []) (hearly : s.relay.early = []) (hops : s.relay.ops = []) :
    s.settleRelay = s.relayed s.settleRelay := by
  have hreleased := s.releaseFences_relayed
  have hnone : s.releaseFences.relay.ops = [] := by rw [hreleased]; exact hops
  have hidle : s.releaseFences.running = [] := by rw [hreleased]; exact hrun
  rw [State.settleRelay, State.drainEarly_of_empty hearly, State.retireOps_of_none hnone, State.settleExchanges_of_idle hidle,
    State.settleGathers_of_idle hidle]
  exact State.relayed_trans (State.relayed_trans (State.relayed_trans hreleased (State.grantN_relayed 1 64 _))
    (State.grantN_relayed 2 32 _)) (State.relayed_of_pumped (State.pump_pumped _))

/-! ## PAIR and JOB_KEY (R495, R496, R502) -/

/-- The state with a pairwise key of a peer, before what follows a change of the relay. -/
def State.pairInstalled (s : State) (peer : Nat) (key : List Byte) (peerSession : Nat) (confidential : Bool) : State :=
  let held := s.sec.pairs.filter fun k => k.peer == peer
  let serial := held.foldl (fun n k => max n (k.serial + 1)) 0
  let keep := fun (n : Nat) => decide (serial ≤ n + 1)
  let stale := fun (k : Nat) => k / 4 / 2 ^ 32 == peer && !keep (k / 4 % 2 ^ 32)
  { s with
    sec := { s.sec with
      pairs := (s.sec.pairs.filter fun k => k.peer != peer || keep k.serial) ++
        [⟨peer, key, s.sec.session, peerSession, serial, confidential⟩] }
    relay := { s.relay with
      sends := s.relay.sends.filter fun e => !stale e.1
      recvs := s.relay.recvs.filter fun e => !stale e.1
      flights := s.relay.flights.filter fun f => f.peer != peer || keep f.serial } }

theorem State.installPair_eq (s : State) (peer : Nat) (key : List Byte) (peerSession : Nat) (confidential : Bool) :
    s.installPair peer key peerSession confidential = (s.pairInstalled peer key peerSession confidential).settleRelay := rfl

/-- The state with a job key generation of a slot, before what follows a change of the relay. -/
def State.jobKeyInstalled (s : State) (slot generation : Nat) (key : List Byte) : State :=
  let mine := s.sec.jobKeys.filter fun k => k.slot == slot
  let newest := mine.foldl (fun n k => max n k.generation) 0
  { s with sec := { s.sec with
    jobKeys := (s.sec.jobKeys.filter fun k => k.slot != slot) ++ (mine.filter fun k => k.generation == newest) ++
      [⟨slot, generation, key⟩]
    generations := Tab.put s.sec.generations slot (generation + 1) } }

theorem State.installJobKey_eq (s : State) (slot generation : Nat) (key : List Byte) :
    s.installJobKey slot generation key = (s.jobKeyInstalled slot generation key).settleRelay := rfl

theorem State.Enters.offerReason {s u : State} (hu : s.Enters u) (b chain : List Byte) :
    u.offerReason b chain = s.offerReason b chain := by
  unfold State.offerReason State.moduleId
  rw [hu.same State.sec fun _ => rfl, hu.same State.relay fun _ => rfl]

theorem State.Enters.openGrant {s u : State} (hu : s.Enters u) (b chain : List Byte) :
    u.openGrant b chain = s.openGrant b chain := by
  unfold State.openGrant State.moduleId State.findJob State.freshGeneration
  rw [hu.same State.sec fun _ => rfl, hu.same State.relay fun _ => rfl, hu.same State.job fun _ => rfl]

theorem State.relayed_sameRecords {s t : State} (h : t = s.relayed t) : s.SameRecords t := by
  rw [h]
  exact {}

theorem State.relayed_keeps {s t : State} (h : t = s.relayed t) : t.sec = s.sec ∧ t.mem = s.mem ∧ t.job = s.job := by
  rw [h]
  exact ⟨rfl, rfl, rfl⟩

/-- An effect that changes the keys held and the relay's streams, lets the relay do what follows, and completes. -/
theorem State.Enters.settle_complete {s u v : State} (hu : s.Enters u) (hv : u.SameRecords v) (hrun : v.running = [])
    (hearly : v.relay.early = []) (hops : v.relay.ops = []) (p : Packet) :
    (v.settleRelay.complete p Status.ok 0 0 0).owes s p Status.ok 0 = true ∧
      (v.settleRelay.complete p Status.ok 0 0 0).sec = v.sec ∧ (v.settleRelay.complete p Status.ok 0 0 0).mem = v.mem ∧
      (v.settleRelay.complete p Status.ok 0 0 0).job = v.job := by
  have hsettled := State.settleRelay_relayed hrun hearly hops
  refine ⟨hu.complete_owes (hv.trans (State.relayed_sameRecords hsettled)) p _ _ _ _, ?_⟩
  rw [State.complete_sec, State.complete_mem, State.complete_job]
  exact State.relayed_keeps hsettled

section
variable {p : Packet} {s : State}

theorem keyImportPair_holds (hkind : importKind p = 2) (h : s.accepts secKeyImportPairCommand p = true)
    (hrun : s.running = []) (hearly : s.relay.early = []) (hops : s.relay.ops = [])
    (hoffer : s.offerReason (s.blob p) (s.blobChain p) = none) :
    ∃ t, exec (.secKeyImportPair p) s = .next t ∧ t.owes s p Status.ok 0 = true ∧
      (t.sec.pairs.getLast?.map fun k => (k.peer, k.key)) = some (leField (s.blob p) 8 2,
        pairKey (kemOpen s.sec.kem (slice (s.blob p) 64 1568)) (leField (s.blob p) 8 2) (leField (s.blob p) 10 2)
          (leField (s.blob p) 16 8) (leField (s.blob p) 24 8)) ∧ t.sec.keys = s.sec.keys ∧ t.mem = s.mem ∧ t.job = s.job := by
  obtain ⟨u, hu, hstart⟩ := Command.start_enters h
  have hsec : u.sec = s.sec := hu.same State.sec fun _ => rfl
  have hrelay : u.relay = s.relay := hu.same State.relay fun _ => rfl
  have hnone : u.offerReason (s.blob p) (s.blobChain p) = none := (hu.offerReason _ _).trans hoffer
  have heff : secKeyImportPairCommand.effect p u = ((u.pairInstalled (leField (s.blob p) 8 2)
      (pairKey (kemOpen s.sec.kem (slice (s.blob p) 64 1568)) (leField (s.blob p) 8 2) (leField (s.blob p) 10 2)
        (leField (s.blob p) 16 8) (leField (s.blob p) 24 8)) (leField (s.blob p) 16 8) false).settleRelay).complete p
          Status.ok 0 0 0 := by
    simp only [secKeyImportPairCommand, hu.blob, hu.blobChain, hnone, hsec, State.installPair_eq]
  generalize pairKey _ _ _ _ _ = key at heff ⊢
  obtain ⟨howes, htsec, htmem, htjob⟩ := hu.settle_complete (v := u.pairInstalled (leField (s.blob p) 8 2) key
    (leField (s.blob p) 16 8) false) {} ((hu.same State.running fun _ => rfl).trans hrun)
    ((congrArg RelayState.early hrelay).trans hearly) ((congrArg RelayState.ops hrelay).trans hops) p
  refine ⟨_, congrArg Host.Outcome.next ((if_pos hkind).trans (hstart.trans heff)), howes, ?_⟩
  rw [htsec, htmem, htjob]
  refine ⟨?_, hu.same (fun t => t.sec.keys) fun _ => rfl, hu.same State.mem fun _ => rfl, hu.same State.job fun _ => rfl⟩
  simp [State.pairInstalled]

theorem keyImportPair_refuses {r : Nat} (hkind : importKind p = 2) (h : s.accepts secKeyImportPairCommand p = true)
    (hoffer : s.offerReason (s.blob p) (s.blobChain p) = some r) :
    ∃ t, exec (.secKeyImportPair p) s = .next t ∧ t.owes s p Status.keyRefused r = true ∧ t.sec = s.sec ∧ t.mem = s.mem := by
  obtain ⟨u, hu, hstart⟩ := Command.start_enters h
  have heff : secKeyImportPairCommand.effect p u = u.refuseImport p r := by
    simp only [secKeyImportPairCommand, hu.blob, hu.blobChain, hu.offerReason, hoffer]
  obtain ⟨howes, hsec, -, hmem, -⟩ := State.refuseImport_ends hu p r
  exact ⟨_, congrArg Host.Outcome.next ((if_pos hkind).trans (hstart.trans heff)), howes, hsec, hmem⟩

theorem keyImportJobKey_holds {slot : Nat} {key : List Byte} (hkind : importKind p = 3)
    (h : s.accepts secKeyImportJobKeyCommand p = true) (hrun : s.running = []) (hearly : s.relay.early = [])
    (hops : s.relay.ops = []) (hgrant : s.openGrant (s.blob p) (s.blobChain p) = .ok (slot, key)) :
    ∃ t, exec (.secKeyImportJobKey p) s = .next t ∧ t.owes s p Status.ok 0 = true ∧
      (⟨slot, leField (s.blob p) 8 1, key⟩ : JobKey) ∈ t.sec.jobKeys ∧ t.sec.keys = s.sec.keys ∧ t.mem = s.mem ∧
      t.job = s.job := by
  obtain ⟨u, hu, hstart⟩ := Command.start_enters h
  have hrelay : u.relay = s.relay := hu.same State.relay fun _ => rfl
  have heff : secKeyImportJobKeyCommand.effect p u =
      ((u.jobKeyInstalled slot (leField (s.blob p) 8 1) key).settleRelay).complete p Status.ok 0 0 0 := by
    simp only [secKeyImportJobKeyCommand, hu.blob, hu.blobChain, hu.openGrant, hgrant, State.installJobKey_eq]
  obtain ⟨howes, htsec, htmem, htjob⟩ := hu.settle_complete (v := u.jobKeyInstalled slot (leField (s.blob p) 8 1) key) {}
    ((hu.same State.running fun _ => rfl).trans hrun) ((congrArg RelayState.early hrelay).trans hearly)
    ((congrArg RelayState.ops hrelay).trans hops) p
  refine ⟨_, congrArg Host.Outcome.next ((if_pos hkind).trans (hstart.trans heff)), howes, ?_⟩
  rw [htsec, htmem, htjob]
  refine ⟨?_, hu.same (fun t => t.sec.keys) fun _ => rfl, hu.same State.mem fun _ => rfl,
    hu.same State.job fun _ => rfl⟩
  simp [State.jobKeyInstalled]

theorem keyImportJobKey_refuses {r : Nat} (hkind : importKind p = 3) (h : s.accepts secKeyImportJobKeyCommand p = true)
    (hgrant : s.openGrant (s.blob p) (s.blobChain p) = .error r) :
    ∃ t, exec (.secKeyImportJobKey p) s = .next t ∧ t.owes s p Status.keyRefused r = true ∧ t.sec = s.sec ∧ t.mem = s.mem := by
  obtain ⟨u, hu, hstart⟩ := Command.start_enters h
  have heff : secKeyImportJobKeyCommand.effect p u = u.refuseImport p r := by
    simp only [secKeyImportJobKeyCommand, hu.blob, hu.blobChain, hu.openGrant, hgrant]
  obtain ⟨howes, hsec, -, hmem, -⟩ := State.refuseImport_ends hu p r
  exact ⟨_, congrArg Host.Outcome.next ((if_pos hkind).trans (hstart.trans heff)), howes, hsec, hmem⟩

end

/-- Settles O50: a blob that opens puts its key where its kind says, and one that does not is refused with its reason. -/
theorem keysImported : Obligations.KeysImported :=
  ⟨fun _ _ hkind h => ⟨fun _ hblob => keyImportModelKey_holds hkind h hblob, fun _ hblob => keyImportModelKey_refuses hkind h hblob⟩,
    fun _ _ hkind h hrun hearly hops =>
      ⟨keyImportPair_holds hkind h hrun hearly hops, fun _ hoffer => keyImportPair_refuses hkind h hoffer⟩,
    fun _ _ hkind h hrun hearly hops =>
      ⟨fun _ _ hgrant => keyImportJobKey_holds hkind h hrun hearly hops hgrant,
        fun _ hgrant => keyImportJobKey_refuses hkind h hgrant⟩⟩

end Sys2Proof.Machine
end

section
/-! PROOFS. AES-256-GCM opens what it sealed, and a package opens to its plaintext. -/

namespace Sys2Proof.Machine

/-! ## Lengths of AES blocks (FIPS 197) -/

theorem xorBytes_length (a b : List Byte) : (xorBytes a b).length = min a.length b.length := List.length_zipWith

/-- The expanded key is a list of words of four bytes, at least the eight that it starts from. -/
theorem expandKey_words (n : Nat) {w : List (List Byte)} (rc : Byte) (hw : ∀ x ∈ w, x.length = 4) (hlen : 8 ≤ w.length) :
    (∀ x ∈ expandKey n w rc, x.length = 4) ∧ (expandKey n w rc).length = n + w.length := by
  induction n generalizing w rc with
  | zero => exact ⟨hw, (Nat.zero_add _).symm⟩
  | succ n ih =>
    have hlast : (w.headD []).length = 4 := by
      cases w with
      | nil => simp at hlen
      | cons x t => exact hw x (by simp)
    have hold : (w.getD 7 []).length = 4 := by
      rw [List.getD_eq_getElem w [] (by omega)]
      exact hw _ (List.getElem_mem _)
    unfold expandKey
    extract_lets i last t
    have hnext : last.length = 4 := hlast
    have ht : t.length = 4 := by
      unfold t
      split
      · have hrot : ((last.drop 1 ++ last.take 1).map subByte).length = 4 := by
          rw [List.length_map, List.length_append, List.length_drop, List.length_take, hnext]
          rfl
        split
        next h =>
          rw [h] at hrot
          exact absurd hrot (by decide)
        next x r h => exact (congrArg List.length h).symm.trans hrot
      split
      · rw [List.length_map, hnext]
      · exact hnext
    have hword : (xorBytes (w.getD 7 []) t).length = 4 := by rw [xorBytes_length, hold, ht, Nat.min_self]
    obtain ⟨hwords, hcount⟩ := ih (if i % 8 = 0 then xtime rc else rc) (List.forall_mem_cons.mpr ⟨hword, hw⟩)
      (Nat.le_succ_of_le hlen)
    exact ⟨hwords, hcount.trans (by rw [List.length_cons]; omega)⟩

/-- The last round key has 16 bytes. -/
theorem roundKeys_last_length {key : List Byte} (h : key.length = 32) : ((roundKeys key).getD 14 []).length = 16 := by
  have hstart : ∀ x ∈ ((List.range 8).map fun i => (key.drop (4 * i)).take 4).reverse, x.length = 4 := by
    intro x hx
    obtain ⟨i, hi, rfl⟩ := List.mem_map.mp (List.mem_reverse.mp hx)
    have := List.mem_range.mp hi
    simp
    omega
  obtain ⟨hwords, hcount⟩ := expandKey_words 52 1 hstart (by simp)
  unfold roundKeys
  extract_lets w0 w
  have hw : ∀ x ∈ (w.drop 56).take 4, x.length = 4 := fun x hx =>
    hwords x (List.mem_reverse.mp (List.mem_of_mem_drop (List.mem_of_mem_take hx)))
  have hall : w.length = 60 := (List.length_reverse).trans (hcount.trans (by simp))
  have hlen : ((w.drop 56).take 4).length = 4 := by rw [List.length_take, List.length_drop, hall]; rfl
  have hget : ((List.range 15).map fun i => ((w.drop (4 * i)).take 4).flatten).getD 14 [] = ((w.drop 56).take 4).flatten := rfl
  rw [hget, List.length_flatten, List.map_congr_left hw, List.map_const', hlen]
  rfl

/-- A block under the round keys of a 256-bit key has 16 bytes. -/
theorem aesBlock_length {key : List Byte} (h : key.length = 32) (b : List Byte) : (aesBlock (roundKeys key) b).length = 16 := by
  unfold aesBlock
  extract_lets _ t
  rw [xorBytes_length, roundKeys_last_length h, shiftRows, List.length_map, List.length_range, Nat.min_self]

/-! ## The keystream (SP 800-38D) -/

theorem xorBytes_append_right (d a b : List Byte) :
    xorBytes d (a ++ b) = xorBytes (d.take a.length) a ++ xorBytes (d.drop a.length) b := by
  induction a generalizing d with
  | nil => simp [xorBytes]
  | cons x a ih =>
    cases d with
    | nil => simp [xorBytes]
    | cons y d => simpa [xorBytes] using ih d

theorem xorBytes_twice {d k : List Byte} (h : d.length ≤ k.length) : xorBytes (xorBytes d k) k = d := by
  induction d generalizing k with
  | nil => rfl
  | cons x d ih =>
    cases k with
    | nil => simp at h
    | cons y k =>
      have hrest := ih (k := k) (by simpa using h)
      simp only [xorBytes, List.zipWith_cons_cons] at hrest ⊢
      rw [hrest, BitVec.xor_assoc, BitVec.xor_self, BitVec.xor_zero]

/-- Blocks of 16 bytes combined one after the other with a block each are combined with the blocks' concatenation. -/
theorem flatMap_xorBytes (ks : Nat → List Byte) (hks : ∀ i, (ks i).length = 16) (n : Nat) (d : List Byte) :
    ((List.range n).flatMap fun i => xorBytes ((d.drop (16 * i)).take 16) (ks i)) = xorBytes d ((List.range n).flatMap ks) := by
  induction n generalizing d ks with
  | zero => simp [xorBytes]
  | succ n ih =>
    have hrest := ih (fun i => ks (i + 1)) (fun i => hks (i + 1)) (d.drop 16)
    simp only [List.range_succ_eq_map, List.flatMap_cons, List.flatMap_map, xorBytes_append_right, hks 0]
    rw [← hrest]
    simp [List.drop_drop, Nat.mul_add, Nat.add_comm]

/-- The keystream of n blocks, from counter 2 on. -/
def gcmKeystream (rk : List (List Byte)) (iv : List Byte) (n : Nat) : List Byte :=
  (List.range n).flatMap fun i => aesBlock rk (iv ++ beBytes 4 (i + 2))

section
variable {key : List Byte} (hkey : key.length = 32)
include hkey

theorem gcmKeystream_length (iv : List Byte) (n : Nat) : (gcmKeystream (roundKeys key) iv n).length = 16 * n := by
  simp [gcmKeystream, aesBlock_length hkey, Nat.mul_comm]

theorem gcmStream_eq (iv d : List Byte) :
    gcmStream (roundKeys key) iv d = xorBytes d (gcmKeystream (roundKeys key) iv (ceilDiv d.length 16)) :=
  flatMap_xorBytes _ (fun _ => aesBlock_length hkey _) _ _

theorem length_le_keystream (iv d : List Byte) :
    d.length ≤ (gcmKeystream (roundKeys key) iv (ceilDiv d.length 16)).length := by
  rw [gcmKeystream_length hkey, ceilDiv]
  omega

theorem gcmStream_length (iv d : List Byte) : (gcmStream (roundKeys key) iv d).length = d.length := by
  rw [gcmStream_eq hkey, xorBytes_length, Nat.min_eq_left (length_le_keystream hkey iv d)]

/-- The keystream applied twice gives the data back. -/
theorem gcmStream_gcmStream (iv d : List Byte) :
    gcmStream (roundKeys key) iv (gcmStream (roundKeys key) iv d) = d := by
  rw [gcmStream_eq hkey iv (gcmStream _ _ _), gcmStream_length hkey, gcmStream_eq hkey iv d,
    xorBytes_twice (length_le_keystream hkey iv d)]

theorem gcmTag_length (iv aad cipher : List Byte) : (gcmTag key iv aad cipher).length = 16 := by
  simp [gcmTag, xorBytes_length, aesBlock_length hkey, beBytes]

/-- What is sealed under a key of 32 bytes opens to its plaintext. -/
theorem gcmOpen_gcmSeal (iv aad plain : List Byte) :
    gcmOpen key iv aad (gcmSeal key iv aad plain).1 (gcmSeal key iv aad plain).2 = some plain := by
  simp only [gcmOpen, gcmSeal, if_true, gcmStream_gcmStream hkey]

end

end Sys2Proof.Machine
end

section
/-! PROOFS. A package opens to the plaintext that it seals. -/

namespace Sys2Proof.Machine

/-! ## Slices of concatenations -/

@[simp] theorem slice_length (l : List Byte) (off n : Nat) : (slice l off n).length = n := by
  simp only [slice, List.length_append, List.length_replicate, List.length_take]
  omega

theorem slice_append_skip {a b : List Byte} {off n : Nat} (h : a.length ≤ off) :
    slice (a ++ b) off n = slice b (off - a.length) n := by
  simp only [slice, List.drop_append, List.drop_eq_nil_of_le h, List.nil_append]

theorem slice_append_front {a b : List Byte} {n : Nat} (h : a.length = n) : slice (a ++ b) 0 n = a :=
  slice_middle (pre := []) rfl h

/-- A slice within the bytes of a list is a part of it. -/
theorem slice_eq_take {l : List Byte} {off n : Nat} (h : off + n ≤ l.length) : slice l off n = (l.drop off).take n := by
  have hlen : ((l.drop off).take n).length = n := by rw [List.length_take, List.length_drop]; omega
  rw [slice, hlen, Nat.sub_self, List.replicate_zero, List.append_nil]

/-! ## The header of a package (R492) -/

theorem sha3_length (m : List Byte) : (sha3 m).length = 64 := leBytes_length _ _

theorem packageKey_length (model salt : List Byte) : (packageKey model salt).length = 32 := by
  rw [packageKey, List.length_take, sha3_length]
  rfl

/-- The first 128 bytes of a package. -/
def packHead (keyId salt : List Byte) (chunk n : Nat) : List Byte :=
  leBytes 4 0x4B505753 ++ leBytes 2 1 ++ leBytes 2 0 ++ keyId ++ salt ++ leBytes 4 chunk ++ leBytes 4 0 ++ leBytes 8 n ++ leBytes 56 0

/-- Bytes of the plaintext in chunk i. -/
def chunkPart (chunk : Nat) (plain : List Byte) (i : Nat) : List Byte :=
  slice plain (i * 2 ^ chunk) (min (2 ^ chunk) (plain.length - i * 2 ^ chunk))

/-- Chunk i of a package under its key and header. -/
def sealedChunk (key head : List Byte) (chunk : Nat) (plain : List Byte) (i : Nat) : List Byte :=
  (gcmSeal key (chunkIv i) head (chunkPart chunk plain i)).1 ++ (gcmSeal key (chunkIv i) head (chunkPart chunk plain i)).2

theorem sealPackage_eq (k : ModelKey) (salt : List Byte) (chunk : Nat) (plain : List Byte) :
    let key := packageKey k.key salt
    let head := packHead k.keyId salt chunk plain.length
    sealPackage k salt chunk plain = head ++ ((gcmTag key headerIv head []) ++ (leBytes 112 0 ++
      (List.range (chunkCount plain.length chunk)).flatMap (sealedChunk key head chunk plain))) := by
  simp only [← List.append_assoc]
  rfl

section
variable {keyId salt : List Byte} (hid : keyId.length = 16) (hsalt : salt.length = 32)
include hid hsalt

theorem packHead_length (chunk n : Nat) : (packHead keyId salt chunk n).length = 128 := by
  simp [packHead, hid, hsalt]

/-- What the fields of a header read, whatever follows it. -/
theorem packHead_fields {chunk n : Nat} (hchunk : chunk < 2 ^ 32) (hn : n < 2 ^ 64) {b rest : List Byte}
    (hb : b = packHead keyId salt chunk n ++ rest) :
    leField b 0 4 = 0x4B505753 ∧ leField b 4 2 = 1 ∧ leField b 6 2 = 0 ∧ packKeyId b = keyId ∧ packSalt b = salt ∧
      packChunk b = chunk ∧ leField b 60 4 = 0 ∧ packLength b = n ∧ slice b 72 56 = leBytes 56 0 := by
  subst hb
  simp [packHead, leField, packKeyId, packSalt, packChunk, packLength, slice_append_skip, slice_append_front, hid, hsalt,
    leNat_leBytes]
  exact ⟨hchunk, hn⟩

end

/-! ## The chunks of a package (R492) -/

theorem chunkPart_eq (chunk : Nat) (plain : List Byte) (i : Nat) :
    chunkPart chunk plain i = (plain.drop (i * 2 ^ chunk)).take (2 ^ chunk) := by
  have hlen : ((plain.drop (i * 2 ^ chunk)).take (2 ^ chunk)).length = min (2 ^ chunk) (plain.length - i * 2 ^ chunk) := by
    rw [List.length_take, List.length_drop]
  rw [chunkPart, slice, ← List.length_drop, ← List.take_eq_take_min, hlen, List.length_drop, Nat.sub_self, List.replicate_zero,
    List.append_nil]

theorem length_le_chunks (chunk n : Nat) : n ≤ chunkCount n chunk * 2 ^ chunk := by
  have hpos : 0 < 2 ^ chunk := Nat.two_pow_pos chunk
  have hdiv := Nat.div_add_mod (n + (2 ^ chunk - 1)) (2 ^ chunk)
  have hmod := Nat.mod_lt (n + (2 ^ chunk - 1)) hpos
  rw [chunkCount, ceilDiv, Nat.mul_comm]
  omega

/-- The parts of all chunks are the plaintext. -/
theorem chunkParts_flatMap (chunk : Nat) (plain : List Byte) :
    (List.range (chunkCount plain.length chunk)).flatMap (chunkPart chunk plain) = plain := by
  have hparts (n : Nat) : (List.range n).flatMap (chunkPart chunk plain) = plain.take (n * 2 ^ chunk) := by
    induction n with
    | zero => simp
    | succ n ih => rw [List.range_succ, List.flatMap_append, ih, List.flatMap_singleton, chunkPart_eq, Nat.succ_mul, List.take_add]
  rw [hparts, List.take_of_length_le (length_le_chunks chunk plain.length)]

/-- A chunk before the last is full. -/
theorem chunk_full {chunk n i j : Nat} (hi : i < chunkCount n chunk) (hj : j < i) : (j + 1) * 2 ^ chunk ≤ n := by
  have hpos : 0 < 2 ^ chunk := Nat.two_pow_pos chunk
  have hlast : (chunkCount n chunk) * 2 ^ chunk ≤ n + (2 ^ chunk - 1) := Nat.div_mul_le_self _ _
  have hle : (j + 2) * 2 ^ chunk ≤ chunkCount n chunk * 2 ^ chunk := Nat.mul_le_mul_right _ (by omega)
  rw [Nat.add_mul] at hle ⊢
  omega

/-- Of pieces whose first i have one length, piece i stands behind those. -/
theorem flatMap_range_at {f : Nat → List Byte} {count i len : Nat} (hi : i < count) (hlen : ∀ j < i, (f j).length = len) :
    ∃ pre post, (List.range count).flatMap f = pre ++ (f i ++ post) ∧ pre.length = i * len := by
  obtain ⟨m, rfl⟩ : ∃ m, count = i + (1 + m) := ⟨count - i - 1, by omega⟩
  refine ⟨(List.range i).flatMap f, ((List.range m).map fun x => i + (1 + x)).flatMap f, ?_, ?_⟩
  · rw [List.range_add, List.range_add, List.flatMap_append, List.map_append, List.flatMap_append, List.map_map]
    simp [Function.comp_def]
  · rw [List.length_flatMap, List.map_congr_left fun j hj => hlen j (List.mem_range.mp hj), List.map_const']
    simp

section
variable {key : List Byte} (hkey : key.length = 32) (head : List Byte) (chunk : Nat) (plain : List Byte)
include hkey

theorem gcmSeal_lengths (iv aad data : List Byte) :
    (gcmSeal key iv aad data).1.length = data.length ∧ (gcmSeal key iv aad data).2.length = 16 :=
  ⟨gcmStream_length hkey iv data, gcmTag_length hkey iv aad _⟩

theorem sealedChunk_length (i : Nat) :
    (sealedChunk key head chunk plain i).length = (chunkPart chunk plain i).length + 16 := by
  obtain ⟨hcipher, htag⟩ := gcmSeal_lengths hkey (chunkIv i) head (chunkPart chunk plain i)
  rw [sealedChunk, List.length_append, hcipher, htag]

theorem sealedChunks_length : ((List.range (chunkCount plain.length chunk)).flatMap (sealedChunk key head chunk plain)).length =
    plain.length + 16 * chunkCount plain.length chunk := by
  have hsum := congrArg List.length (chunkParts_flatMap chunk plain)
  rw [List.length_flatMap] at hsum ⊢
  simp only [sealedChunk_length hkey, List.sum_map_add, hsum]
  simp [Nat.mul_comm]

end

/-! ## A package opens (R492, R493) -/

/-- A fold that appends a piece for each number collects the pieces. -/
theorem foldl_collects {f : Except Nat (List Byte) → Nat → Except Nat (List Byte)} {g : Nat → List Byte} {n : Nat}
    (hf : ∀ l, ∀ i < n, f (.ok l) i = .ok (l ++ g i)) : (List.range n).foldl f (.ok []) = .ok ((List.range n).flatMap g) := by
  induction n with
  | zero => rfl
  | succ n ih =>
    rw [List.range_succ, List.foldl_append, ih fun l i hi => hf l i (by omega), List.flatMap_append, List.flatMap_singleton]
    exact hf _ n (Nat.lt_succ_self n)

section
variable {k : ModelKey} {salt : List Byte} {chunk : Nat} (hid : k.keyId.length = 16) (hsalt : salt.length = 32)
include hid hsalt

theorem sealPackage_length (plain : List Byte) :
    (sealPackage k salt chunk plain).length = packageBytes plain.length chunk := by
  have hkey := packageKey_length k.key salt
  simp only [sealPackage_eq, List.length_append, packHead_length hid hsalt, gcmTag_length hkey, leBytes_length,
    sealedChunks_length hkey, packageBytes]
  omega

/-- What a package of a plaintext reads in its first 256 bytes. -/
structure PackageFields (k : ModelKey) (salt : List Byte) (chunk n : Nat) (b : List Byte) : Prop where
  magic : leField b 0 4 = 0x4B505753
  version : leField b 4 2 = 1
  flags : leField b 6 2 = 0
  keyId : packKeyId b = k.keyId
  salted : packSalt b = salt
  chunked : packChunk b = chunk
  spare : leField b 60 4 = 0
  length : packLength b = n
  zeros : slice b 72 56 = leBytes 56 0
  head : b.take 128 = packHead k.keyId salt chunk n
  tag : slice b 128 16 = gcmTag (packageKey k.key salt) headerIv (packHead k.keyId salt chunk n) []
  pad : slice b 144 112 = leBytes 112 0

theorem sealPackage_fields (hchunk : chunk < 2 ^ 32) {plain : List Byte} (hplain : plain.length < 2 ^ 64) :
    PackageFields k salt chunk plain.length (sealPackage k salt chunk plain) := by
  have htag := gcmTag_length (packageKey_length k.key salt) headerIv (packHead k.keyId salt chunk plain.length) []
  have hhead := packHead_length hid hsalt chunk plain.length
  obtain ⟨rest, heq⟩ : ∃ rest, sealPackage k salt chunk plain = packHead k.keyId salt chunk plain.length ++
      (gcmTag (packageKey k.key salt) headerIv (packHead k.keyId salt chunk plain.length) [] ++ (leBytes 112 0 ++ rest)) :=
    ⟨_, sealPackage_eq k salt chunk plain⟩
  obtain ⟨hmagic, hversion, hflags, hkeyId, hsalted, hchunked, hspare, hlength, hzeros⟩ :=
    packHead_fields hid hsalt hchunk hplain heq
  refine ⟨hmagic, hversion, hflags, hkeyId, hsalted, hchunked, hspare, hlength, hzeros, ?_, ?_, ?_⟩ <;> rw [heq]
  · exact List.take_left' hhead
  · exact slice_middle hhead htag
  rw [slice_append_skip (by omega), hhead, slice_append_skip (by omega), htag]
  exact slice_append_front (leBytes_length _ _)

/-- Where chunk i stands in a package. -/
theorem sealPackage_chunk_at {plain : List Byte} {i : Nat} (hi : i < chunkCount plain.length chunk) :
    let c := gcmSeal (packageKey k.key salt) (chunkIv i) (packHead k.keyId salt chunk plain.length) (chunkPart chunk plain i)
    ∃ pre post, sealPackage k salt chunk plain = pre ++ (c.1 ++ (c.2 ++ post)) ∧ pre.length = 256 + i * (2 ^ chunk + 16) := by
  have hkey := packageKey_length k.key salt
  have hfull : ∀ j < i, (sealedChunk (packageKey k.key salt) (packHead k.keyId salt chunk plain.length) chunk plain j).length =
      2 ^ chunk + 16 := by
    intro j hj
    have hbytes := chunk_full hi hj
    rw [Nat.add_mul, Nat.one_mul] at hbytes
    rw [sealedChunk_length hkey, chunkPart, slice_length]
    omega
  obtain ⟨pre, post, hchunks, hpre⟩ := flatMap_range_at hi hfull
  refine ⟨packHead k.keyId salt chunk plain.length ++ (gcmTag (packageKey k.key salt) headerIv
    (packHead k.keyId salt chunk plain.length) [] ++ (leBytes 112 0 ++ pre)), post, ?_, ?_⟩
  · rw [sealPackage_eq, hchunks, sealedChunk]
    simp only [List.append_assoc]
  · simp only [List.length_append, packHead_length hid hsalt, gcmTag_length hkey, leBytes_length, hpre]
    omega

variable (hlo : 16 ≤ chunk) (hhi : chunk ≤ 24) {plain : List Byte} (hplain : plain.length < 2 ^ 64)
include hlo hhi hplain

theorem sealPackage_headerOk : packageHeaderOk k (sealPackage k salt chunk plain) = true := by
  have h := sealPackage_fields hid hsalt (chunk := chunk) (by omega) hplain
  have hlen := sealPackage_length hid hsalt (chunk := chunk) plain
  have hzeros (n : Nat) : (leBytes n 0).all (· == 0#8) = true := by
    induction n with
    | zero => rfl
    | succ n ih => simpa [leBytes] using ih
  have hlong : 256 ≤ (sealPackage k salt chunk plain).length := by rw [hlen, packageBytes]; omega
  have hopen : (gcmOpen (packageKey k.key salt) headerIv (packHead k.keyId salt chunk plain.length) []
      (gcmTag (packageKey k.key salt) headerIv (packHead k.keyId salt chunk plain.length) [])).isSome = true := by
    rw [gcmOpen, if_pos rfl]
    rfl
  unfold packageHeaderOk
  rw [h.magic, h.version, h.flags, h.keyId, h.salted, h.chunked, h.spare, h.length, h.zeros, h.pad, h.head, h.tag, hlen, hzeros,
    hzeros]
  rw [hlen] at hlong
  simp [hlo, hhi, hlong, hopen]

theorem openChunk_sealPackage {i : Nat} (hi : i < chunkCount plain.length chunk) :
    openChunk k (sealPackage k salt chunk plain) i = some (chunkPart chunk plain i) := by
  have h := sealPackage_fields hid hsalt (chunk := chunk) (by omega) hplain
  obtain ⟨pre, post, hpackage, hpre⟩ := sealPackage_chunk_at hid hsalt hi
  obtain ⟨hcipher, htag⟩ := gcmSeal_lengths (packageKey_length k.key salt) (chunkIv i)
    (packHead k.keyId salt chunk plain.length) (chunkPart chunk plain i)
  rw [chunkPart, slice_length, ← chunkPart] at hcipher
  unfold openChunk
  rw [h.chunked, h.length, h.salted, h.head, hpackage]
  extract_lets size n at_
  rw [slice_middle hpre hcipher, ← List.append_assoc pre, slice_middle (List.length_append.trans (congrArg₂ _ hpre hcipher)) htag]
  exact gcmOpen_gcmSeal (packageKey_length k.key salt) _ _ _

/-- A sealed package opens to its plaintext. -/
theorem openPackage_sealPackage : openPackage k (sealPackage k salt chunk plain) = .ok plain := by
  have h := sealPackage_fields hid hsalt (chunk := chunk) (by omega) hplain
  unfold openPackage
  rw [sealPackage_headerOk hid hsalt hlo hhi hplain, h.chunked, h.length]
  refine (foldl_collects fun l i hi => ?_).trans (congrArg Except.ok (chunkParts_flatMap chunk plain))
  rw [openChunk_sealPackage hid hsalt hlo hhi hplain hi]

end

end Sys2Proof.Machine
end

section
/-! PROOFS. Weights are imported and exported, and regions protected. -/

namespace Sys2Proof.Machine

/-! ## A range of zeros -/

theorem Tab.look_keep_key {α : Type} (f : Nat → Bool) (t : Tab α) (x : Nat) :
    Tab.look (Tab.keep (fun k _ => f k) t) x = if f x then Tab.look t x else none := by
  induction t with
  | nil => simp [Tab.keep, Tab.look]
  | cons e t ih =>
    have hrest : Tab.look (t.filter fun e => f e.1) x = if f x then Tab.look t x else none := ih
    by_cases hx : x = e.1
    · subst hx
      cases hf : f e.1 <;> simp [Tab.keep, Tab.look, hf, hrest]
    · cases hf : f e.1 <;> simp [Tab.keep, Tab.look, hf, hrest, hx]

/-- A memory without the bytes of a range. -/
def Memory.without (m : Tab Byte) (a n : Nat) : Tab Byte := Tab.keep (fun k _ => decide (k < a ∨ a + n ≤ k)) m

theorem Memory.read_without (m : Tab Byte) (a n x : Nat) :
    Memory.read (Memory.without m a n) x = if x < a ∨ a + n ≤ x then Memory.read m x else blankByte := by
  rw [Memory.read, Memory.without, Tab.look_keep_key]
  by_cases h : x < a ∨ a + n ≤ x <;> simp [h, Memory.read]

theorem Memory.readN_without_inside (m : Tab Byte) {a n x k : Nat} (hlo : a ≤ x) (hhi : x + k ≤ a + n) :
    Memory.readN (Memory.without m a n) x k = List.replicate k 0 := by
  induction k generalizing x with
  | zero => rfl
  | succ k ih =>
    rw [Memory.readN, ih (by omega) (by omega), Memory.read_without, if_neg (by omega)]
    rfl

theorem Memory.readN_without_outside (m : Tab Byte) {a n x k : Nat} (h : x + k ≤ a ∨ a + n ≤ x) :
    Memory.readN (Memory.without m a n) x k = Memory.readN m x k := by
  induction k generalizing x with
  | zero => rfl
  | succ k ih => rw [Memory.readN, Memory.readN, ih (by omega), Memory.read_without, if_pos (by omega)]

theorem State.load_zero_same (s : State) (a n : Nat) : (s.zero a n).load a n = List.replicate n 0 := by
  unfold State.zero State.load
  split
  · exact Memory.readN_without_inside _ (Nat.le_refl _) (Nat.le_refl _)
  · exact Memory.readN_without_inside _ (Nat.le_refl _) (Nat.le_refl _)

/-- A zeroed range leaves alone what lies apart from it, whether in its own space or in the other (R107). -/
theorem State.load_zero_apart (s : State) {a n lo len : Nat} (h : apart a n lo len = true) :
    (s.zero lo len).load a n = s.load a n := by
  have hapart : a + n ≤ lo ∨ lo + len ≤ a := of_decide_eq_true h
  unfold State.zero State.load
  by_cases hlo : lo < hostWindow
  · by_cases ha : a < hostWindow
    · simp only [if_pos hlo, if_pos ha]
      exact Memory.readN_without_outside _ hapart
    · simp only [if_pos hlo, if_neg ha]
  · by_cases ha : a < hostWindow
    · simp only [if_neg hlo, if_pos ha]
    · simp only [if_neg hlo, if_neg ha]
      exact Memory.readN_without_outside _ (by omega)

/-! ## What an accepted packet's parameters meet -/

theorem firstFail_none {l : List (Option Fail)} (h : firstFail l = none) : ∀ f ∈ l, f = none := by
  induction l with
  | nil => simp
  | cons f l ih =>
    cases f with
    | none => exact List.forall_mem_cons.mpr ⟨rfl, ih h⟩
    | some f => cases h

theorem State.accepts_params {c : Command} {p : Packet} {s : State} (h : s.accepts c p = true) : c.params s p = none := by
  have hfail : c.fail s p = none := by
    simp only [State.accepts, Bool.and_eq_true, Option.isNone_iff_eq_none] at h
    exact h.2
  exact firstFail_none hfail _ (by simp)

theorem need_none {c : Bool} {off : Nat} (h : need c off = none) : c = true := by
  unfold need at h
  split at h
  · assumption
  · cases h

theorem leNat_lt (l : List Byte) : leNat l < 256 ^ l.length := by
  induction l with
  | nil => exact Nat.one_pos
  | cons b t ih =>
    have hb := b.isLt
    rw [leNat, List.length_cons, Nat.pow_succ']
    omega

theorem Packet.param_lt (p : Packet) (off n : Nat) : p.param off n < 256 ^ n := by
  have h := leNat_lt (slice p.bytes (64 + off) n)
  rw [slice_length] at h
  exact h

/-! ## SEC_WEIGHTS_IMPORT (R493, R503) -/

theorem State.Enters.load {s u : State} (hu : s.Enters u) (a n : Nat) : u.load a n = s.load a n :=
  State.load_congr (hu.same State.mem fun _ => rfl) (hu.same State.host fun _ => rfl) a n

theorem State.Enters.reg {s u : State} (hu : s.Enters u) (o : Nat) : u.reg o = s.reg o :=
  State.reg_congr (hu.same State.regs fun _ => rfl) o

theorem State.load_complete (s : State) (p : Packet) (st : Status) (detail position total a n : Nat) :
    (s.complete p st detail position total).load a n = s.load a n :=
  State.load_congr (State.complete_mem _ _ _ _ _ _) (State.complete_host _ _ _ _ _ _) a n

theorem State.load_bump (s : State) (off k a n : Nat) : (s.bump off k).load a n = s.load a n :=
  State.load_congr (State.bump_mem _ _ _) (State.bump_host _ _ _) a n

/-- A read that is not poisoned goes on (R128). -/
theorem State.orPoisoned_of_clean {s : State} {reads : List Range} (h : s.poisonedIn reads = none) (p : Packet)
    (spoil go : State → State) : s.orPoisoned p reads spoil go = go s := by
  rw [State.orPoisoned, h]

/-- A command that stores bytes, with numbers drawn for them or not, counts them and completes with OK. -/
theorem State.Enters.store_counted {s u : State} (hu : s.Enters u) (p : Packet) (lo : Nat) (b : List Byte) (off n free : Nat)
    {t : State} (ht : t = ((State.store { u with free := free } lo b).bump off 1).complete p Status.ok 0 n n) :
    t.owes s p Status.ok 0 = true ∧ t.load lo b.length = b ∧
      (∀ a k, apart a k lo b.length = true → t.load a k = s.load a k) ∧ t.reg off = satAdd (s.reg off) 1 ∧ t.sec = s.sec ∧
      t.running = s.running ∧ t.job = s.job := by
  subst ht
  refine ⟨hu.complete_owes ⟨by simp, by simp, by simp, by simp⟩ p _ _ _ _, ?load, fun a k hapart => ?apart, ?count, ?_⟩
  case load => rw [State.load_complete, State.load_bump, State.load_store_same]
  case apart =>
    rw [State.load_complete, State.load_bump, State.load_store_apart _ hapart]
    exact hu.load a k
  case count =>
    rw [State.reg_complete_of_uncounted State.countStatus_ok, State.reg_bump_same _ _ Nat.one_pos,
      State.reg_congr (State.store_regs _ _ _)]
    exact congrArg (satAdd · 1) (hu.reg off)
  simp only [State.complete_sec, State.complete_running, State.complete_job, State.bump_sec, State.bump_running, State.bump_job,
    State.store_sec, State.store_running, State.store_job]
  exact ⟨hu.same State.sec fun _ => rfl, hu.same State.running fun _ => rfl, hu.same State.job fun _ => rfl⟩

section
variable {p : Packet} {k : ModelKey} {s : State}

theorem weightsImport_opens {plain : List Byte} (h : s.accepts secWeightsImportCommand p = true)
    (hclean : s.poisonedIn [weightsSrc p] = none) (hkey : Tab.look s.sec.keys (weightsSlot p) = some k)
    (hopen : openPackage k (s.load (weightsSrc p).lo (weightsSrc p).len) = .ok plain) :
    ∃ t, exec (.secWeightsImport p) s = .next t ∧ t.owes s p Status.ok 0 = true ∧
      t.load (weightsDst p).lo plain.length = plain ∧
      (∀ a n, apart a n (weightsDst p).lo plain.length = true → t.load a n = s.load a n) ∧
      t.reg Reg.secImports = satAdd (s.reg Reg.secImports) 1 ∧ t.sec = s.sec ∧ t.running = s.running ∧ t.job = s.job := by
  obtain ⟨u, hu, hstart⟩ := Command.start_enters h
  have hsec : u.sec = s.sec := hu.same State.sec fun _ => rfl
  have hread : u.poisonedIn [weightsSrc p] = none := (hu.same (fun t => t.poisonedIn [weightsSrc p]) fun _ => rfl).trans hclean
  have heff : secWeightsImportCommand.effect p u =
      ((u.store (weightsDst p).lo plain).bump Reg.secImports 1).complete p Status.ok 0 plain.length plain.length := by
    simp only [secWeightsImportCommand, State.orPoisoned_of_clean hread, hsec, hkey, hu.load, hopen]
  exact ⟨_, congrArg Host.Outcome.next (hstart.trans heff), hu.store_counted p _ _ _ _ u.free rfl⟩

theorem weightsImport_zeros {i : Nat} (h : s.accepts secWeightsImportCommand p = true)
    (hclean : s.poisonedIn [weightsSrc p] = none) (hkey : Tab.look s.sec.keys (weightsSlot p) = some k)
    (hopen : openPackage k (s.load (weightsSrc p).lo (weightsSrc p).len) = .error i) :
    ∃ t, exec (.secWeightsImport p) s = .next t ∧ t.owes s p Status.packageInvalid i = true ∧
      t.load (weightsDst p).lo (weightsDst p).len = List.replicate (weightsDst p).len 0 ∧
      t.sec = s.sec ∧ t.running = s.running ∧ t.job = s.job := by
  obtain ⟨u, hu, hstart⟩ := Command.start_enters h
  have hsec : u.sec = s.sec := hu.same State.sec fun _ => rfl
  have hread : u.poisonedIn [weightsSrc p] = none := (hu.same (fun t => t.poisonedIn [weightsSrc p]) fun _ => rfl).trans hclean
  obtain ⟨position, heff⟩ : ∃ position, secWeightsImportCommand.effect p u =
      (u.zero (weightsDst p).lo (weightsDst p).len).complete p Status.packageInvalid i position 0 := by
    simp only [secWeightsImportCommand, State.orPoisoned_of_clean hread, hsec, hkey, hu.load, hopen]
    exact ⟨_, rfl⟩
  refine ⟨_, congrArg Host.Outcome.next (hstart.trans heff),
    hu.complete_owes ⟨by simp, by simp, by simp, by simp⟩ p _ _ _ _, ?_, ?_⟩
  · rw [State.load_complete, State.load_zero_same]
  · simp only [State.complete_sec, State.complete_running, State.complete_job, State.zero_sec, State.zero_running, State.zero_job]
    exact ⟨hsec, hu.same State.running fun _ => rfl, hu.same State.job fun _ => rfl⟩

/-! ## SEC_WEIGHTS_EXPORT (R494, R503) -/

/-- A package that is sealed has a chunk size of 2^16 to 2^24 bytes. -/
theorem weightsExport_chunk (h : s.accepts secWeightsExportCommand p = true) : 16 ≤ p.param 5 1 ∧ p.param 5 1 ≤ 24 := by
  have hparams := firstFail_none (State.accepts_params h)
  simpa using need_none (hparams (need (decide (16 ≤ p.param 5 1) && decide (p.param 5 1 ≤ 24)) 69) (by simp))

theorem weightsExport_seals (h : s.accepts secWeightsExportCommand p = true)
    (hclean : s.poisonedIn [weightsSrc p] = none) (hkey : Tab.look s.sec.keys (weightsSlot p) = some k)
    (hid : k.keyId.length = 16) :
    let n := packageBytes (p.param 16 8) (p.param 5 1)
    ∃ t, exec (.secWeightsExport p) s = .next t ∧ t.owes s p Status.ok 0 = true ∧
      openPackage k (t.load (weightsDst p).lo n) = .ok (s.load (weightsSrc p).lo (p.param 16 8)) ∧
      (∀ a m, apart a m (weightsDst p).lo n = true → t.load a m = s.load a m) ∧
      t.reg Reg.secExports = satAdd (s.reg Reg.secExports) 1 ∧ t.sec = s.sec ∧ t.running = s.running ∧ t.job = s.job := by
  obtain ⟨u, hu, hstart⟩ := Command.start_enters h
  have hsec : u.sec = s.sec := hu.same State.sec fun _ => rfl
  have hread : u.poisonedIn [weightsSrc p] = none := (hu.same (fun t => t.poisonedIn [weightsSrc p]) fun _ => rfl).trans hclean
  obtain ⟨hlo, hhi⟩ := weightsExport_chunk h
  have hsalt : (drawBytes u.free 32).length = 32 := slice_length _ _ _
  have hplain : (s.load (weightsSrc p).lo (p.param 16 8)).length = p.param 16 8 := State.load_length _ _ _
  have hlen := sealPackage_length hid hsalt (chunk := p.param 5 1) (s.load (weightsSrc p).lo (p.param 16 8))
  rw [hplain] at hlen
  have hopens := openPackage_sealPackage hid hsalt hlo hhi (hplain.trans_lt (p.param_lt 16 8))
  generalize hplainOf : s.load (weightsSrc p).lo (p.param 16 8) = plain at hplain hlen hopens ⊢
  generalize hsealed : sealPackage k (drawBytes u.free 32) (p.param 5 1) plain = b at hlen hopens
  have heff : secWeightsExportCommand.effect p u =
      ((State.store { u with free := u.free + 1 } (weightsDst p).lo b).bump Reg.secExports 1).complete p Status.ok 0
        plain.length plain.length := by
    have hsource : u.load (weightsSrc p).lo (weightsSrc p).len = plain := (hu.load _ _).trans hplainOf
    simp only [secWeightsExportCommand, State.orPoisoned_of_clean hread, hsec, hkey, hsource, hsealed]
  obtain ⟨howes, hload, hapart, hrest⟩ := hu.store_counted p (weightsDst p).lo b Reg.secExports plain.length (u.free + 1) rfl
  rw [hlen] at hload hapart
  refine ⟨_, congrArg Host.Outcome.next (hstart.trans heff), howes, ?_, hapart, hrest⟩
  rw [hload, hopens]

end

/-! ## SEC_REGION_PROTECT (R504) -/

/-- The state with a region of a number. -/
def State.putRegion (s : State) (n : Nat) (r : Region) : State :=
  { s with memory := { s.memory with regions := Tab.put s.memory.regions n r } }

theorem State.load_lock (s : State) (a n : Nat) : s.lock.load a n = s.load a n := by
  rw [s.lock_frame]
  rfl

/-- What the lock of a module with a zeroed region leaves. -/
theorem State.lock_keeps (s : State) : s.lock.memory = s.memory ∧ s.lock.sec.keys = s.sec.keys ∧
    s.lock.running = s.running ∧ s.lock.job = s.job := by
  rw [s.lock_frame]
  exact ⟨rfl, rfl, rfl, rfl⟩

theorem regionProtect_binds {p : Packet} {r : Region} {s : State} (h : s.accepts secRegionProtectCommand p = true)
    (hregion : s.protectRegion p = some r) :
    ∃ t, exec (.secRegionProtect p) s = .next t ∧ t.owes s p Status.ok 0 = true ∧
      t.protectRegion p = some { r with key := some (p.param 4 1) } ∧ t.load r.base r.size = List.replicate r.size 0 ∧
      (∀ a n, apart a n r.base r.size = true → t.load a n = s.load a n) ∧ t.sec.mode ≠ .opened ∧ t.sec.keys = s.sec.keys ∧
      t.running = s.running ∧ t.job = s.job := by
  obtain ⟨u, hu, hstart⟩ := Command.start_enters h
  have hfound : u.protectRegion p = some r := (hu.same (fun t => t.protectRegion p) fun _ => rfl).trans hregion
  obtain ⟨v, hv⟩ : ∃ v, v = (u.putRegion (p.param 0 4) { r with key := some (p.param 4 1) }).zero r.base r.size := ⟨_, rfl⟩
  have heff : secRegionProtectCommand.effect p u = v.lock.complete p Status.ok 0 0 0 := by
    simp only [secRegionProtectCommand, hfound, hv]
    rfl
  have hrecords : u.SameRecords v := by
    rw [hv]
    exact ⟨by simp [State.putRegion], by simp [State.putRegion], by simp [State.putRegion], by simp [State.putRegion]⟩
  obtain ⟨hmemory, hkeys, hrunning, hjob⟩ := v.lock_keeps
  refine ⟨_, congrArg Host.Outcome.next (hstart.trans heff), hu.complete_owes (hrecords.trans v.lock_sameRecords) p _ _ _ _,
    ?region, ?zeros, fun a n hapart => ?apart, ?_⟩
  case region =>
    rw [State.protectRegion, State.complete_memory, hmemory, hv, State.zero_memory]
    exact Tab.look_put_same _ _ _
  case zeros => rw [State.load_complete, State.load_lock, hv, State.load_zero_same]
  case apart =>
    rw [State.load_complete, State.load_lock, hv, State.load_zero_apart _ hapart]
    exact hu.load a n
  simp only [State.complete_sec, State.complete_running, State.complete_job, hkeys, hrunning, hjob]
  refine ⟨v.lock_mode_ne_opened, ?_⟩
  simp only [hv, State.zero_sec, State.zero_running, State.zero_job]
  exact ⟨hu.same (fun t => t.sec.keys) fun _ => rfl, hu.same State.running fun _ => rfl, hu.same State.job fun _ => rfl⟩

/-- Settles O51: a package that opens is written, one that does not zeros its destination, what is sealed opens to its source, and a
protected region is zeroed and bound. -/
theorem weightsSealedOpened : Obligations.WeightsSealedOpened :=
  ⟨fun _ _ _ h hclean hkey => ⟨fun _ hopen => weightsImport_opens h hclean hkey hopen,
      fun _ hopen => weightsImport_zeros h hclean hkey hopen⟩,
    fun _ _ _ h hclean hkey hid => weightsExport_seals h hclean hkey hid,
    fun _ _ _ h hregion => regionProtect_binds h hregion⟩

end Sys2Proof.Machine
end

section
/-! PROOFS. The attestation responder answers in the order of the negotiation. -/

namespace Sys2Proof.Machine

/-! ## The guards of the responder (R482) -/

section
variable {s : State} (hstage : 3 ≤ s.glb.stage) (hlink : s.glb.linkUp = true)
include hstage hlink

theorem State.doe_of_up (f : State → State) : s.doe f = f s := if_pos ⟨hstage, hlink⟩

variable (hspdm : s.sec.spdm = .negotiated)
include hspdm

theorem State.negotiated_of_spdm (f : State → State) : s.negotiated f = f s :=
  (State.doe_of_up hstage hlink _).trans (if_pos hspdm)

theorem State.inSession_of_secured (hsecured : s.sec.secured = 2) (f : State → State) : s.inSession f = f s :=
  (State.negotiated_of_spdm hstage hlink hspdm _).trans (if_pos hsecured)

theorem State.inSession_of_unsecured (hsecured : s.sec.secured ≠ 2) (f : State → State) :
    s.inSession f = s.spdmError spdmSession :=
  (State.negotiated_of_spdm hstage hlink hspdm _).trans (if_neg hsecured)

end

/-! ## Requests of the connection (R482, R483) -/

section
variable {s : State} (hstage : 3 ≤ s.glb.stage) (hlink : s.glb.linkUp = true)
include hstage hlink

theorem getVersion_answers : exec .getVersion s =
    .next { s with sec := { s.sec with spdm := .version, secured := 0 }, sent := s.sent ++ [.spdm 0x04 (leBytes 1 0x14)] } :=
  congrArg Host.Outcome.next (State.doe_of_up hstage hlink _)

theorem getCapabilities_answers (h : s.sec.spdm = .version) : exec .getCapabilities s =
    .next { s with sec := { s.sec with spdm := .capabilities }, sent := s.sent ++ [.spdm 0x61 []] } :=
  congrArg Host.Outcome.next ((State.doe_of_up hstage hlink _).trans (if_pos h))

theorem negotiateAlgorithms_answers (h : s.sec.spdm = .capabilities) : exec (.negotiateAlgorithms true) s =
    .next { s with sec := { s.sec with spdm := .negotiated }, sent := s.sent ++ [.spdm 0x63 []] } :=
  congrArg Host.Outcome.next ((State.doe_of_up hstage hlink _).trans (if_neg (not_not.mpr h)))

variable (hspdm : s.sec.spdm = .negotiated)
include hspdm

theorem getDigests_answers : exec .getDigests s = .next { s with sent := s.sent ++ [.spdm 0x01 (sha3 s.chain)] } :=
  congrArg Host.Outcome.next (State.negotiated_of_spdm hstage hlink hspdm _)

/-- The part asked for is as long as asked, or as the chain allows. -/
theorem getCertificate_answers {off : Nat} (len : Nat) (hoff : off < s.chain.length) :
    ∃ n, n = min len (s.chain.length - off) ∧ exec (.getCertificate 0 off len) s = .next { s with sent := s.sent ++
      [.spdm 0x02 (leBytes 4 n ++ leBytes 4 (s.chain.length - off - n) ++ (s.chain.drop off).take n)] } := by
  refine ⟨_, rfl, congrArg Host.Outcome.next ((State.negotiated_of_spdm hstage hlink hspdm _).trans ?_)⟩
  have hpart : slice s.chain off (min len (s.chain.length - off)) = (s.chain.drop off).take (min len (s.chain.length - off)) :=
    slice_eq_take (by omega)
  dsimp only
  rw [if_neg (by omega), slice_length, hpart]
  rfl

theorem challenge_answers (nonce : List Byte) :
    ∃ sig, exec (.challenge 0 nonce) s = .next { s with free := s.free + 1, sent := s.sent ++
      [.spdm 0x03 (sha3 s.chain ++ drawBytes s.free 32 ++ s.measurementDigest ++ sig)] } ∧
      sig = aliasSignature s.sec.measured (nonce ++ (sha3 s.chain ++ drawBytes s.free 32 ++ s.measurementDigest)) :=
  ⟨_, congrArg Host.Outcome.next (State.negotiated_of_spdm hstage hlink hspdm _), rfl⟩

theorem getMeasurements_all : exec (.getMeasurements 255 none) s = .next { s with sent := s.sent ++
    [.spdm 0x60 (leBytes 1 11 ++ blockIndices.flatMap s.blockEntry)] } :=
  congrArg Host.Outcome.next (State.negotiated_of_spdm hstage hlink hspdm _)

theorem getMeasurements_one {n : Nat} (hlo : 1 ≤ n) (hhi : n ≤ 11) : exec (.getMeasurements n none) s =
    .next { s with sent := s.sent ++ [.spdm 0x60 (leBytes 1 1 ++ s.blockEntry n)] } := by
  have hone : ∀ n < 12, 1 ≤ n → (blockIndices.filter fun m => m == n) = [n] := by decide
  refine congrArg Host.Outcome.next ((State.negotiated_of_spdm hstage hlink hspdm _).trans ?_)
  have hn0 : n ≠ 0 := by omega
  have hn255 : n ≠ 255 := by omega
  simp only [if_neg hn0, if_neg hn255, hone n (by omega) hlo, reduceCtorEq, and_false, if_false, List.flatMap_singleton]
  rfl

/-! ## Secure sessions (R478, R482, R484) -/

theorem keyExchange_answers (key : List Byte) (hentropy : s.sec.entropyFault = false) (hsecured : s.sec.secured = 0) :
    ∃ c, c.length = 1568 ∧ exec (.keyExchange key) s = .next { s with
      free := s.free + 1
      sec := { s.sec with secured := 1 }
      sent := s.sent ++ [.spdm 0x64 (c ++ aliasSignature s.sec.measured c)] } := by
  refine ⟨(kemSeal key s.free).1, slice_length _ _ _,
    congrArg Host.Outcome.next ((State.negotiated_of_spdm hstage hlink hspdm _).trans ?_)⟩
  dsimp only
  rw [if_neg (by simp [hentropy]), if_neg (by simp [hsecured])]
  rfl

theorem keyExchange_refused (key : List Byte) (hentropy : s.sec.entropyFault = true) :
    exec (.keyExchange key) s = .next { s with sent := s.sent ++ [.spdm 0x7F (leBytes 1 5)] } :=
  congrArg Host.Outcome.next ((State.negotiated_of_spdm hstage hlink hspdm _).trans (if_pos hentropy))

theorem finish_verified (hsecured : s.sec.secured = 1) : exec (.finish true) s =
    .next { s with sec := { s.sec with secured := 2 }, sent := s.sent ++ [.spdm 0x65 []] } :=
  congrArg Host.Outcome.next ((State.negotiated_of_spdm hstage hlink hspdm _).trans (if_neg (not_not.mpr hsecured)))

theorem finish_unverified (hsecured : s.sec.secured = 1) : exec (.finish false) s =
    .next { s with sec := { s.sec with secured := 0 }, sent := s.sent ++ [.spdm 0x7F (leBytes 1 6)] } :=
  congrArg Host.Outcome.next ((State.negotiated_of_spdm hstage hlink hspdm _).trans (if_neg (not_not.mpr hsecured)))

theorem endSession_ends (hsecured : s.sec.secured = 2) : exec .endSession s =
    .next { s with sec := { s.sec with secured := 0 }, sent := s.sent ++ [.spdm 0x6C []] } :=
  congrArg Host.Outcome.next (State.inSession_of_secured hstage hlink hspdm hsecured _)

theorem vendorDefinedRequest_state (hsecured : s.sec.secured = 2) : exec (.vendorDefinedRequest .tdispState) s =
    .next { s with sent := s.sent ++ [.spdm 0x7E (leBytes 1 0x05 ++ leBytes 1 s.sec.tdi.code)] } :=
  congrArg Host.Outcome.next (State.inSession_of_secured hstage hlink hspdm hsecured _)

theorem vendorDefinedRequest_refused (m : VendorMessage) (hsecured : s.sec.secured ≠ 2) :
    exec (.vendorDefinedRequest m) s = .next { s with sent := s.sent ++ [.spdm 0x7F (leBytes 1 0x0B)] } :=
  congrArg Host.Outcome.next (State.inSession_of_unsecured hstage hlink hspdm hsecured _)

end

/-- Settles O52: each request is answered in its place in the negotiation, and a session needs healthy entropy and a verified
FINISH. -/
theorem attestationAnswers : Obligations.AttestationAnswers :=
  ⟨⟨fun _ hstage hlink => getVersion_answers hstage hlink, fun _ hstage hlink h => getCapabilities_answers hstage hlink h,
      fun _ hstage hlink h => negotiateAlgorithms_answers hstage hlink h,
      fun _ hstage hlink hspdm => ⟨getDigests_answers hstage hlink hspdm,
        fun _ len hoff => getCertificate_answers hstage hlink hspdm len hoff, challenge_answers hstage hlink hspdm,
        getMeasurements_all hstage hlink hspdm, fun _ hlo hhi => getMeasurements_one hstage hlink hspdm hlo hhi⟩⟩,
    ⟨fun _ => rfl, fun _ hstage hlink hspdm => ⟨keyExchange_answers hstage hlink hspdm, keyExchange_refused hstage hlink hspdm,
      finish_verified hstage hlink hspdm, finish_unverified hstage hlink hspdm, endSession_ends hstage hlink hspdm,
      vendorDefinedRequest_state hstage hlink hspdm, vendorDefinedRequest_refused hstage hlink hspdm⟩⟩⟩

end Sys2Proof.Machine
end

section
/-! PROOFS. The interface is locked, started and stopped, and its streams are keyed and lost. -/

namespace Sys2Proof.Machine

/-! ## Streams (R484) -/

theorem SecState.stream_setStream_same (x : SecState) (n : Nat) (v : IdeStream) : (x.setStream n v).stream n = v := by
  unfold SecState.setStream SecState.stream
  split <;> rfl

theorem SecState.stream_setStream_other (x : SecState) {n : Nat} (v : IdeStream) (h : n < 2) :
    (x.setStream n v).stream (1 - n) = x.stream (1 - n) := by
  obtain rfl | rfl : n = 0 ∨ n = 1 := by omega
  · rfl
  · rfl

theorem SecState.setStream_keeps (x : SecState) (n : Nat) (v : IdeStream) :
    (x.setStream n v).tdi = x.tdi ∧ (x.setStream n v).mode = x.mode ∧ (x.setStream n v).keys = x.keys := by
  unfold SecState.setStream
  split <;> exact ⟨rfl, rfl, rfl⟩

/-! ## What a change of the interface leaves (R481, R521) -/

/-- The security state is one given, and memory and jobs are as before. -/
structure State.Secures (s : State) (x : SecState) (t : State) : Prop where
  sec : t.sec = x := by rfl
  mem : t.mem = s.mem := by rfl
  job : t.job = s.job := by rfl

theorem State.Secures.logPlain {s t : State} {x : SecState} (h : s.Secures x t) (cls severity code : Nat) (data : List Byte) :
    s.Secures x (t.logPlain cls severity code data) :=
  ⟨(State.logPlain_sec _ _ _ _ _).trans h.sec, (State.logPlain_mem _ _ _ _ _).trans h.mem, (State.logPlain_job _ _ _ _ _).trans h.job⟩

theorem State.Secures.noteInterface {s t : State} {x : SecState} (h : s.Secures x t) : s.Secures x t.noteInterface :=
  h.logPlain _ _ _ _

theorem State.Secures.respond {s t : State} {x : SecState} (h : s.Secures x t) (code : Nat) (body : List Byte) :
    s.Secures x (t.respond code body) := ⟨h.sec, h.mem, h.job⟩

/-- Leaving RUN takes the module from ATTESTED to LOCKED. -/
def SecState.left (x : SecState) (t : TdiState) : SecState :=
  { x with tdi := t, mode := if x.mode = .attested then .locked else x.mode }

theorem SecState.left_mode_ne (x : SecState) (t : TdiState) : (x.left t).mode ≠ .attested := by
  unfold SecState.left
  dsimp only
  split
  · decide
  · assumption

theorem State.leaveRun_secures (s : State) (t : TdiState) : s.Secures (s.sec.left t) (s.leaveRun t) := by
  unfold State.leaveRun
  extract_lets _ u
  have hu : s.Secures (s.sec.left t) u := {}
  split
  · exact hu.logPlain _ _ _ _
  · exact hu

/-- The lock takes an OPEN module to LOCKED and leaves every other mode. -/
theorem State.lock_secures (s : State) :
    s.Secures { s.sec with mode := if s.sec.mode = .opened then .locked else s.sec.mode } s.lock := by
  unfold State.lock
  by_cases h : s.sec.mode = .opened
  · rw [if_pos h, if_pos h]
    exact State.Secures.logPlain {} _ _ _ _
  · rw [if_neg h, if_neg h]
    exact {}

/-! ## Requests in a session (R479, R481, R484, R485) -/

section
variable {s : State} (hstage : 3 ≤ s.glb.stage) (hlink : s.glb.linkUp = true) (hspdm : s.sec.spdm = .negotiated)
  (hsecured : s.sec.secured = 2)
include hstage hlink hspdm hsecured

theorem ideKmKeyProgram_keys {stream : Nat} (h : stream < 2) :
    ∃ t, exec (.ideKmKeyProgram stream false) s = .next t ∧
      s.Secures (s.sec.setStream stream ⟨true, (s.sec.stream stream).enabled⟩) t :=
  ⟨_, congrArg Host.Outcome.next ((State.inSession_of_secured hstage hlink hspdm hsecured _).trans (if_neg (by omega))),
    (State.Secures.noteInterface {}).respond _ _⟩

theorem ideKmKeyProgram_enables {stream : Nat} (h : stream < 2) (hkeyed : (s.sec.stream stream).keyed = true) :
    ∃ t, exec (.ideKmKeyProgram stream true) s = .next t ∧ s.Secures (s.sec.setStream stream ⟨true, true⟩) t := by
  refine ⟨_, congrArg Host.Outcome.next ((State.inSession_of_secured hstage hlink hspdm hsecured _).trans
    ((if_neg (by omega)).trans (if_neg (by simp [hkeyed])))), ?_⟩
  exact (State.Secures.noteInterface {}).respond _ _

theorem lockInterface_locks (htdi : s.sec.tdi = .unlocked) : ∃ t, exec .lockInterfaceRequest s = .next t ∧
    s.Secures { s.sec with tdi := .locked, mode := if s.sec.mode = .opened then .locked else s.sec.mode } t := by
  obtain ⟨hsec, hmem, hjob⟩ := s.lock_secures
  refine ⟨_, congrArg Host.Outcome.next ((State.inSession_of_secured hstage hlink hspdm hsecured _).trans
    (if_neg (not_not.mpr htdi))), ?_⟩
  refine State.Secures.respond (State.Secures.noteInterface ?_) _ _
  refine ⟨?_, hmem, hjob⟩
  dsimp only
  rw [hsec]

theorem startInterface_attests (htdi : s.sec.tdi = .locked) (hlive : s.sec.liveStreams ≠ 0) :
    ∃ t, exec .startInterfaceRequest s = .next t ∧ s.Secures { s.sec with tdi := .run, mode := .attested } t := by
  obtain ⟨hsec, hmem, hjob⟩ := s.lock_secures
  refine ⟨_, congrArg Host.Outcome.next ((State.inSession_of_secured hstage hlink hspdm hsecured _).trans
    ((if_neg (not_not.mpr htdi)).trans (if_neg hlive))), ?_⟩
  refine State.Secures.respond (State.Secures.noteInterface (State.Secures.logPlain ?_ _ _ _ _)) _ _
  refine ⟨?_, hmem, hjob⟩
  dsimp only
  rw [hsec]

theorem startInterface_refused (htdi : s.sec.tdi = .locked) (hlive : s.sec.liveStreams = 0) :
    ∃ t, exec .startInterfaceRequest s = .next t ∧ s.Secures s.sec t :=
  ⟨_, congrArg Host.Outcome.next ((State.inSession_of_secured hstage hlink hspdm hsecured _).trans
    ((if_neg (not_not.mpr htdi)).trans (if_pos hlive))), State.Secures.respond {} _ _⟩

theorem stopInterface_unlocks : ∃ t, exec .stopInterfaceRequest s = .next t ∧ s.Secures (s.sec.left .unlocked) t :=
  ⟨_, congrArg Host.Outcome.next (State.inSession_of_secured hstage hlink hspdm hsecured _),
    (s.leaveRun_secures .unlocked).noteInterface.respond _ _⟩

end

/-! ## IDE_STREAM_LOSS (R485) -/

section
variable {s : State} {stream : Nat} (h : stream < 2)
include h

theorem ideStreamLoss_last (htdi : s.sec.tdi = .run) (hlive : (s.sec.setStream stream ⟨false, false⟩).liveStreams = 0) :
    ∃ t, exec (.ideStreamLoss stream) s = .next t ∧ s.Secures ((s.sec.setStream stream ⟨false, false⟩).left .error) t := by
  obtain ⟨hkept, -, -⟩ := s.sec.setStream_keeps stream ⟨false, false⟩
  obtain ⟨hsec, hmem, hjob⟩ := State.leaveRun_secures { s with sec := s.sec.setStream stream ⟨false, false⟩ } .error
  exact ⟨_, congrArg Host.Outcome.next ((if_neg (by omega)).trans (if_pos ⟨hkept.trans htdi, hlive⟩)),
    State.Secures.noteInterface ⟨hsec, hmem, hjob⟩⟩

theorem ideStreamLoss_idle (htdi : s.sec.tdi ≠ .run) :
    ∃ t, exec (.ideStreamLoss stream) s = .next t ∧ s.Secures (s.sec.setStream stream ⟨false, false⟩) t := by
  obtain ⟨hkept, -, -⟩ := s.sec.setStream_keeps stream ⟨false, false⟩
  exact ⟨_, congrArg Host.Outcome.next ((if_neg (by omega)).trans (if_neg fun hrun => htdi (hkept.symm.trans hrun.1))),
    State.Secures.noteInterface {}⟩

end

/-- Settles O53: each request and loss gives the security state named by its lemma, from which modes and streams are read. -/
theorem interfaceLocksModule : Obligations.InterfaceLocksModule := by
  refine ⟨fun s hstage hlink hspdm hsecured => ⟨fun stream hstream => ?keys, fun stream hstream hkeyed => ?enables,
    fun htdi => ?locks, fun htdi hlive => ?starts, fun htdi hlive => ?refused, ?stops⟩,
    fun stream s hstream htdi hlive => ?last, fun stream s hstream htdi => ?idle⟩
  case keys =>
    obtain ⟨t, hexec, hsec, hmem, hjob⟩ := ideKmKeyProgram_keys hstage hlink hspdm hsecured hstream
    refine ⟨t, hexec, ?_, ?_, hmem, hjob⟩
    · rw [hsec, SecState.stream_setStream_same]
    · rw [hsec, SecState.stream_setStream_other _ _ hstream]
  case enables =>
    obtain ⟨t, hexec, hsec, hmem, hjob⟩ := ideKmKeyProgram_enables hstage hlink hspdm hsecured hstream hkeyed
    refine ⟨t, hexec, ?_, ?_, hmem, hjob⟩
    · rw [hsec, SecState.stream_setStream_same]
    · rw [hsec, SecState.stream_setStream_other _ _ hstream]
  case locks =>
    obtain ⟨t, hexec, hsec, hmem, hjob⟩ := lockInterface_locks hstage hlink hspdm hsecured htdi
    exact ⟨t, hexec, by rw [hsec], by rw [hsec], by rw [hsec], hmem, hjob⟩
  case starts =>
    obtain ⟨t, hexec, hsec, hmem, hjob⟩ := startInterface_attests hstage hlink hspdm hsecured htdi hlive
    exact ⟨t, hexec, by rw [hsec], by rw [hsec], by rw [hsec], hmem, hjob⟩
  case refused =>
    obtain ⟨t, hexec, hsec, hmem, -⟩ := startInterface_refused hstage hlink hspdm hsecured htdi hlive
    exact ⟨t, hexec, hsec, hmem⟩
  case stops =>
    obtain ⟨t, hexec, hsec, hmem, hjob⟩ := stopInterface_unlocks hstage hlink hspdm hsecured
    exact ⟨t, hexec, by rw [hsec]; rfl, by rw [hsec]; exact s.sec.left_mode_ne _, hmem, hjob⟩
  case last =>
    obtain ⟨t, hexec, hsec, hmem, hjob⟩ := ideStreamLoss_last hstream htdi hlive
    obtain ⟨-, hmode, hkeys⟩ := s.sec.setStream_keeps stream ⟨false, false⟩
    refine ⟨t, hexec, by rw [hsec]; rfl, ?_, fun hattested => ?_, by rw [hsec]; exact hkeys, hmem, hjob⟩
    · rw [hsec]
      exact SecState.stream_setStream_same s.sec stream _
    · rw [hsec]
      exact if_pos (hmode.trans hattested)
  case idle =>
    obtain ⟨t, hexec, hsec, hmem, hjob⟩ := ideStreamLoss_idle hstream htdi
    obtain ⟨hkept, hmode, -⟩ := s.sec.setStream_keeps stream ⟨false, false⟩
    exact ⟨t, hexec, by rw [hsec, SecState.stream_setStream_same], by rw [hsec, hkept], by rw [hsec, hmode], hmem, hjob⟩

end Sys2Proof.Machine
end

section
/-! PROOFS. Firmware is staged, activated by stages and updated by the agent. -/

namespace Sys2Proof.Machine

/-! ## What a ledger entry leaves of the management block (R518) -/

/-- An entry changes the ledger alone of the management block. -/
theorem State.logPlain_mgt (s : State) (cls severity code : Nat) (data : List Byte) :
    ∃ l, (s.logPlain cls severity code data).mgt = { s.mgt with ledger := l } := by
  unfold State.logPlain State.log
  extract_lets _ _ _ _ logged
  split
  · exact ⟨_, by rw [State.bump_mgt]⟩
  split
  · refine ⟨logged.mgt.ledger, ?_⟩
    rw [State.alert, State.raise_mgt, State.setReg_mgt]
  · exact ⟨logged.mgt.ledger, rfl⟩

/-- Ledger entries are made: but for the ledger, the management block, records, running commands and memory are as before. -/
structure State.Logs (s t : State) : Prop where
  records : s.SameRecords t
  running : t.running = s.running
  mem : t.mem = s.mem
  mgt : ∃ l, t.mgt = { s.mgt with ledger := l }

theorem State.logPlain_logs (s : State) (cls severity code : Nat) (data : List Byte) : s.Logs (s.logPlain cls severity code data) :=
  ⟨s.logPlain_sameRecords _ _ _ _, State.logPlain_running _ _ _ _ _, State.logPlain_mem _ _ _ _ _, s.logPlain_mgt _ _ _ _⟩

theorem State.noteFirmware_logs (s : State) (severity code version bank : Nat) :
    s.Logs (s.noteFirmware severity code version bank) := s.logPlain_logs _ _ _ _

theorem State.Logs.trans {s t u : State} (h : s.Logs t) (k : t.Logs u) : s.Logs u := by
  obtain ⟨l, hl⟩ := h.mgt
  obtain ⟨l', hl'⟩ := k.mgt
  exact ⟨h.records.trans k.records, k.running.trans h.running, k.mem.trans h.mem, l', by rw [hl', hl]⟩

/-! ## Banks (R526) -/

theorem MgtState.setInactive_banks (m : MgtState) (b : Bank) : (m.setInactive b).inactiveBank = b ∧
    (m.setInactive b).activeBank = m.activeBank ∧ (m.setInactive b).active = m.active ∧ (m.setInactive b).floor = m.floor := by
  by_cases h : m.active = 0 <;> simp [MgtState.setInactive, MgtState.inactiveBank, MgtState.activeBank, h]

/-- What programming the inactive bank leaves: the bank, and beside it free values, the ledger and the alert of its entry. -/
structure State.Programs (s : State) (b : Bank) (t : State) : Prop where
  records : s.SameRecords t
  inactive : t.mgt.inactiveBank = b
  activeBank : t.mgt.activeBank = s.mgt.activeBank
  active : t.mgt.active = s.mgt.active
  floor : t.mgt.floor = s.mgt.floor
  mem : t.mem = s.mem
  running : t.running = s.running

theorem State.setInactive_programs (s : State) (b : Bank) (free : Nat) :
    s.Programs b (State.setInactive { s with free := free } b) := by
  obtain ⟨hinactive, hactiveBank, hactive, hfloor⟩ := s.mgt.setInactive_banks b
  exact ⟨{}, hinactive, hactiveBank, hactive, hfloor, rfl, rfl⟩

theorem State.Programs.logs {s t u : State} {b : Bank} (h : s.Programs b t) (k : t.Logs u) : s.Programs b u := by
  obtain ⟨l, hl⟩ := k.mgt
  refine ⟨h.records.trans k.records, ?_, ?_, ?_, ?_, k.mem.trans h.mem, k.running.trans h.running⟩ <;> rw [hl]
  · exact h.inactive
  · exact h.activeBank
  · exact h.active
  · exact h.floor

/-- A read-back that matches leaves the image in the inactive bank, which is bootable. -/
theorem State.programBank_holds {s : State} {image : List Byte} (hread : Config.flashFails s.free = false)
    (hdigests : (⟨s.mgt.inactiveBank.count, true, image⟩ : Bank).digestsOk = true) :
    ∃ t, s.programBank image = (t, true) ∧ s.Programs ⟨s.mgt.inactiveBank.count, true, image⟩ t := by
  refine ⟨_, if_neg (by simp [hread, hdigests]), ?_⟩
  exact (s.setInactive_programs _ (s.free + 1)).logs (State.noteFirmware_logs _ _ _ _ _)

/-- A read-back that fails leaves the inactive bank EMPTY. -/
theorem State.programBank_fails {s : State} (image : List Byte) (hread : Config.flashFails s.free = true) :
    ∃ t, s.programBank image = (t, false) ∧ s.Programs ⟨s.mgt.inactiveBank.count, false, []⟩ t :=
  ⟨_, if_pos (by simp [hread]), s.setInactive_programs _ (s.free + 1)⟩

/-! ## FW_STAGE (R526) -/

section
variable {p : Packet} {s : State}

theorem fwStage_stages (h : s.accepts fwStageCommand p = true) (hclean : s.poisonedIn [stageSource p] = none)
    (hread : Config.flashFails s.free = false)
    (hdigests : (⟨s.mgt.inactiveBank.count, true, s.stageImage p⟩ : Bank).digestsOk = true) :
    ∃ t, exec (.fwStage p) s = .next t ∧ t.owes s p Status.ok 0 = true ∧
      t.mgt.inactiveBank = ⟨s.mgt.inactiveBank.count, true, s.stageImage p⟩ ∧ t.mgt.activeBank = s.mgt.activeBank ∧
      t.mgt.active = s.mgt.active ∧ t.mgt.floor = s.mgt.floor ∧ t.mem = s.mem ∧ t.running = s.running ∧ t.job = s.job := by
  obtain ⟨u, hu, hstart⟩ := Command.start_enters h
  have hmgt : u.mgt = s.mgt := hu.same State.mgt fun _ => rfl
  have hfree : u.free = s.free := hu.same State.free fun _ => rfl
  have himage : u.stageImage p = s.stageImage p := hu.load _ _
  have hclear : u.poisonedIn [stageSource p] = none := (hu.same (fun t => t.poisonedIn [stageSource p]) fun _ => rfl).trans hclean
  rw [← hmgt] at hdigests
  obtain ⟨v, hprogram, hv⟩ := State.programBank_holds (hfree ▸ hread) hdigests
  have heff : fwStageCommand.effect p u = v.complete p Status.ok 0 (p.param 16 4) (p.param 16 4) := by
    simp only [fwStageCommand, State.orPoisoned_of_clean hclear, himage, hprogram, if_true]
  refine ⟨_, congrArg Host.Outcome.next (hstart.trans heff), hu.complete_owes hv.records p _ _ _ _, ?_⟩
  simp only [State.complete_mgt, State.complete_mem, State.complete_running, State.complete_job, hv.inactive, hv.activeBank,
    hv.active, hv.floor, hv.mem, hv.running, hv.records.job, hmgt, true_and]
  exact ⟨hu.same State.mem fun _ => rfl, hu.same State.running fun _ => rfl, hu.same State.job fun _ => rfl⟩

theorem fwStage_fails (h : s.accepts fwStageCommand p = true) (hclean : s.poisonedIn [stageSource p] = none)
    (hread : Config.flashFails s.free = true) :
    ∃ t, exec (.fwStage p) s = .next t ∧ t.owes s p Status.flashFault 0 = true ∧ t.mgt.inactiveBank.image = [] ∧
      t.mgt.inactiveBank.bootable = false ∧ t.mgt.activeBank = s.mgt.activeBank ∧ t.mgt.active = s.mgt.active ∧
      t.mem = s.mem ∧ t.running = s.running ∧ t.job = s.job := by
  obtain ⟨u, hu, hstart⟩ := Command.start_enters h
  have hmgt : u.mgt = s.mgt := hu.same State.mgt fun _ => rfl
  have hfree : u.free = s.free := hu.same State.free fun _ => rfl
  have hclear : u.poisonedIn [stageSource p] = none := (hu.same (fun t => t.poisonedIn [stageSource p]) fun _ => rfl).trans hclean
  obtain ⟨v, hprogram, hv⟩ := State.programBank_fails (u.stageImage p) (hfree ▸ hread)
  have heff : fwStageCommand.effect p u = v.complete p Status.flashFault 0 (p.param 16 4) (p.param 16 4) := by
    simp only [fwStageCommand, State.orPoisoned_of_clean hclear, hprogram, Bool.false_eq_true, if_false]
  refine ⟨_, congrArg Host.Outcome.next (hstart.trans heff), hu.complete_owes hv.records p _ _ _ _, ?_⟩
  simp only [State.complete_mgt, State.complete_mem, State.complete_running, State.complete_job, hv.inactive, hv.activeBank,
    hv.active, hv.mem, hv.running, hv.records.job, hmgt, true_and]
  exact ⟨hu.same State.mem fun _ => rfl, hu.same State.running fun _ => rfl, hu.same State.job fun _ => rfl⟩

/-! ## FW_ACTIVATE (R527) -/

theorem fwActivate_begins (h : s.accepts fwActivateCommand p = true) :
    ∃ t o, exec (.fwActivate p) s = .next t ∧ t.running = s.running ++ [o] ∧ o.pkt = p ∧ o.kind = .activate ∧ o.total = 6 ∧
      t.mgt = { s.mgt with activation := some ⟨1,
        if p.param 0 4 = 0 then none else some (s.clk + milliseconds (p.param 0 4)), s.clk, false⟩ } ∧
      t = { s.bookkept t with running := t.running, mgt := t.mgt } := by
  obtain ⟨u, hu, hstart⟩ := Command.start_enters h
  refine ⟨_, ⟨p, .activate, u.starts, [], 0, 6, false⟩, congrArg Host.Outcome.next hstart, ?_, rfl, rfl, rfl, ?_⟩
  · exact congrArg (· ++ _) (hu.same State.running fun _ => rfl)
  · rw [hu.frame]
    exact ⟨rfl, rfl⟩

end

end Sys2Proof.Machine
end

section
/-! PROOFS. Activations run by stages and end, and the update agent takes each message in its place. -/

namespace Sys2Proof.Machine

/-! ## Activations that run and end (R527 to R529) -/

/-- The only command running is an activation that ends: its record is owed and nothing runs on. -/
structure State.EndsActivation (s : State) (o : RunOp) (m : MgtState) (st : Status) (detail : Nat) (t : State) : Prop where
  owes : t.owes s o.pkt st detail = true
  mgt : t.mgt = { m with activation := none }
  running : t.running = []
  mem : t.mem = s.mem
  job : t.job = s.job

section
variable {s : State} {o : RunOp} (hrun : s.running = [o]) (hkind : o.kind = .activate)
include hrun hkind

theorem State.endActivation_ends {v : State} (hv : s.SameRecords v) (hsame : v.running = s.running) (hmem : v.mem = s.mem)
    (st : Status) (detail : Nat) : s.EndsActivation o v.mgt st detail (v.endActivation st detail) := by
  have hone : v.running = [o] := hsame.trans hrun
  have hend : v.endActivation st detail = ({ v with running := [], mgt := { v.mgt with activation := none } } : State).complete
      o.pkt st detail o.position o.total := by
    simp [State.endActivation, State.finishAll, hone, hkind, State.finish, State.withdraw]
  rw [hend]
  refine ⟨State.complete_owes o.pkt st detail _ _ hv.job hv.clk fun r => ?_, State.complete_mgt _ _ _ _ _ _,
    State.complete_running _ _ _ _ _ _, (State.complete_mem _ _ _ _ _ _).trans hmem,
    (State.complete_job _ _ _ _ _ _).trans hv.job⟩
  exact State.dues_congr hv.held (fun n => by rw [State.ring_congr hv.rings n]) r

end

theorem activationStageStart_next {a : Activation} {s : State} (ha : s.mgt.activation = some a) (hlo : 3 ≤ a.stage)
    (hhi : a.stage < 6) (hrun : s.running = []) :
    ∃ t, exec .activationStageStart s = .next t ∧ t.mgt.activation = some { a with stage := a.stage + 1, startedAt := s.clk } ∧
      t.mgt.active = s.mgt.active ∧ t.mem = s.mem ∧ t.job = s.job := by
  have henter : execActivationStageStart s = .next (s.enterStage (a.stage + 1)) := by
    simp only [execActivationStageStart, ha, if_neg (show ¬ a.stage = 1 by omega), if_neg (show ¬ a.stage = 2 by omega), if_pos hhi]
  refine ⟨_, henter, ?_⟩
  simp only [State.enterStage, hrun, ha, Option.map_some, List.filter_nil, List.foldl_nil, and_self]

/-- The banks change places; counts and fuses move with them. -/
theorem State.switchBanks_keeps (s : State) : s.SameRecords s.switchBanks ∧ s.switchBanks.running = s.running ∧
    s.switchBanks.mem = s.mem ∧ s.switchBanks.mgt.active = 1 - s.mgt.active ∧
    s.switchBanks.mgt.activations = s.mgt.activations + 1 ∧
    s.switchBanks.mgt.floor = if s.mgt.inactiveBank.raises then max s.mgt.floor s.mgt.inactiveBank.security else s.mgt.floor := by
  unfold State.switchBanks
  extract_lets m b b' floor _ m' t
  have hnoted : State.Logs { s with mgt := m' } t := State.noteFirmware_logs _ _ _ _ _
  have hlogs : State.Logs { s with mgt := m' } (if m.floor < floor then t.logPlain 3 0 4 (leBytes 1 floor) else t) := by
    split
    · exact hnoted.trans (t.logPlain_logs _ _ _ _)
    · exact hnoted
  obtain ⟨⟨hrings, hheld, hjob, hclk⟩, hrunning, hmem, l, hl⟩ := hlogs
  refine ⟨⟨hrings, hheld, hjob, hclk⟩, hrunning, hmem, ?_, ?_, ?_⟩ <;> rw [hl]

/-- An activation that PLDM started leaves update mode at its end. -/
def State.leaveUpdate (s : State) (a : Activation) : State :=
  { s with mgt := { s.mgt with pldm := if a.pldm then .idle else s.mgt.pldm } }

theorem activationStageStart_last {a : Activation} {o : RunOp} {s : State} (ha : s.mgt.activation = some a) (hstage : a.stage = 6)
    (hrun : s.running = [o]) (hkind : o.kind = .activate) :
    ∃ t, exec .activationStageStart s = .next t ∧ t.mgt.activation = none ∧ t.mgt.active = 1 - s.mgt.active ∧
      t.mgt.activations = s.mgt.activations + 1 ∧ s.mgt.floor ≤ t.mgt.floor ∧
      (s.mgt.inactiveBank.raises = true → s.mgt.inactiveBank.security ≤ t.mgt.floor) ∧
      t.owes s o.pkt Status.ok 0 = true ∧ t.running = [] ∧ t.mem = s.mem ∧ t.job = s.job := by
  obtain ⟨hrecords, hrunning, hmem, hactive, hcount, hfloor⟩ := s.switchBanks_keeps
  generalize hu : s.switchBanks = u at hrecords hrunning hmem hactive hcount hfloor
  have hexec : execActivationStageStart s = .next ((u.leaveUpdate a).endActivation Status.ok 0) := by
    simp only [execActivationStageStart, ha, hstage, hu]
    rfl
  obtain ⟨howes, hmgt, hnone, htmem, htjob⟩ := State.endActivation_ends hrun hkind (v := u.leaveUpdate a)
    ⟨hrecords.rings, hrecords.held, hrecords.job, hrecords.clk⟩ hrunning hmem Status.ok 0
  have htfloor : ((u.leaveUpdate a).endActivation Status.ok 0).mgt.floor =
      if s.mgt.inactiveBank.raises then max s.mgt.floor s.mgt.inactiveBank.security else s.mgt.floor := by
    rw [hmgt]
    exact hfloor
  refine ⟨_, hexec, by rw [hmgt], by rw [hmgt]; exact hactive, by rw [hmgt]; exact hcount, ?_, fun hraises => ?_, howes, hnone,
    htmem, htjob⟩
  · rw [htfloor]
    split
    · exact Nat.le_max_left _ _
    · exact Nat.le_refl _
  · rw [htfloor, if_pos hraises]
    exact Nat.le_max_right _ _

theorem processorReadyTimeout_reverts {a : Activation} {o : RunOp} {s : State} (ha : s.mgt.activation = some a)
    (hstage : 4 ≤ a.stage) (hlate : a.startedAt + milliseconds 10 ≤ s.clk) (hrun : s.running = [o]) (hkind : o.kind = .activate) :
    ∃ t, exec .processorReadyTimeout s = .next t ∧ t.mgt.activation = none ∧ t.mgt.active = s.mgt.active ∧
      t.mgt.activeBank = s.mgt.activeBank ∧ t.owes s o.pkt Status.activationReverted a.stage = true ∧ t.running = [] ∧
      t.mem = s.mem ∧ t.job = s.job := by
  have hlogs := s.noteFirmware_logs 1 3 s.mgt.inactiveBank.version (1 - s.mgt.active)
  generalize hu : s.noteFirmware 1 3 s.mgt.inactiveBank.version (1 - s.mgt.active) = u at hlogs
  obtain ⟨⟨hrings, hheld, hjob, hclk⟩, hrunning, hmem, l, hl⟩ := hlogs
  have hexec : execProcessorReadyTimeout s = .next ((u.leaveUpdate a).endActivation Status.activationReverted a.stage) := by
    simp only [execProcessorReadyTimeout, ha, hu, if_neg (show ¬ (a.stage < 4 ∨ s.clk < a.startedAt + milliseconds 10) by omega)]
    rfl
  obtain ⟨howes, hmgt, hnone, htmem, htjob⟩ := State.endActivation_ends hrun hkind (v := u.leaveUpdate a)
    ⟨hrings, hheld, hjob, hclk⟩ hrunning hmem Status.activationReverted a.stage
  refine ⟨_, hexec, by rw [hmgt], ?_, ?_, howes, hnone, htmem, htjob⟩ <;> rw [hmgt]
  · simp only [State.leaveUpdate, hl]
  · simp only [State.leaveUpdate, MgtState.activeBank, hl]

/-- A fold of minima finds the least of its numbers. -/
theorem foldl_min_least (l : List Nat) (v : Nat) : l.foldl min v ∈ v :: l ∧ ∀ m ∈ v :: l, l.foldl min v ≤ m := by
  induction l generalizing v with
  | nil => simp
  | cons x l ih =>
    obtain ⟨hmem, hle⟩ := ih (min v x)
    rw [List.foldl_cons]
    refine ⟨?_, fun m hm => ?_⟩
    · rcases List.mem_cons.mp hmem with heq | hin
      · rw [heq]
        rcases Nat.le_total v x with h | h <;> simp [h]
      · simp [hin]
    · have hfirst := hle (min v x) (by simp)
      rcases List.mem_cons.mp hm with rfl | hm
      · omega
      rcases List.mem_cons.mp hm with rfl | hm
      · omega
      · exact hle m (by simp [hm])

theorem waitMsExpiry_ends {a : Activation} {d v : Nat} {l : List Nat} {o : RunOp} {s : State} (ha : s.mgt.activation = some a)
    (hstage : a.stage = 1) (hdeadline : a.deadline = some d) (hpast : d ≤ s.clk) (hleft : s.versionsLeft = v :: l)
    (hrun : s.running = [o]) (hkind : o.kind = .activate) :
    ∃ t n, exec .waitMsExpiry s = .next t ∧ t.mgt.activation = none ∧ t.owes s o.pkt Status.semanticsUnavailable n = true ∧
      n ∈ s.versionsLeft ∧ (∀ m, m ∈ s.versionsLeft → n ≤ m) ∧ t.running = [] ∧ t.mem = s.mem ∧ t.job = s.job := by
  have hexec : execWaitMsExpiry s = .next (s.endActivation Status.semanticsUnavailable (l.foldl min v)) := by
    simp only [execWaitMsExpiry, ha, hdeadline, hleft, hstage, hpast, and_self, if_true]
  obtain ⟨howes, hmgt, hnone, hmem, hjob⟩ := State.endActivation_ends hrun hkind {} rfl rfl Status.semanticsUnavailable (l.foldl min v)
  obtain ⟨hin, hleast⟩ := foldl_min_least l v
  exact ⟨_, _, hexec, by rw [hmgt], howes, hleft ▸ hin, hleft ▸ hleast, hnone, hmem, hjob⟩

/-! ## The update agent (R517, R526, R531) -/

section
variable {smbus : Bool} {s : State} (hstage : 3 ≤ s.glb.stage)
include hstage

theorem State.not_recovering : s.recovering = false := by
  have h1 : s.glb.stage ≠ 1 := by omega
  simp [State.recovering, h1]

theorem State.updateAgent_of_managed (f : State → State) : s.updateAgent smbus f = f s := by
  unfold State.updateAgent
  rw [State.not_recovering hstage]
  exact if_pos hstage

/-- A command of update mode runs in its state. -/
theorem State.inMode_of_mode {m : PldmMode} (hmode : s.mgt.pldm = m) (hidle : m ≠ .idle) (command : Nat) (f : State → State) :
    s.inMode smbus command m f = f s :=
  (State.updateAgent_of_managed hstage _).trans ((if_neg (hmode ▸ hidle)).trans (if_pos hmode))

theorem requestUpdate_accepted (h : s.updateBusy = false) : exec (.requestUpdate smbus) s =
    .next { s with mgt := { s.mgt with pldm := .learn }, sent := s.sent ++ [.mctp (if smbus then 1 else 0) 261 0x10 0 []] } :=
  congrArg Host.Outcome.next ((State.updateAgent_of_managed hstage _).trans (if_neg (by simp [h])))

theorem passComponentTable_last (h : s.mgt.pldm = .learn) : exec (.passComponentTable smbus true) s =
    .next { s with mgt := { s.mgt with pldm := .readyXfer }, sent := s.sent ++ [.mctp (if smbus then 1 else 0) 261 0x13 0 []] } :=
  congrArg Host.Outcome.next (State.inMode_of_mode hstage h (by decide) _ _)

theorem passComponentTable_more (h : s.mgt.pldm = .learn) : exec (.passComponentTable smbus false) s =
    .next { s with sent := s.sent ++ [.mctp (if smbus then 1 else 0) 261 0x13 0 []] } :=
  congrArg Host.Outcome.next (State.inMode_of_mode hstage h (by decide) _ _)

theorem updateComponent_firmware (size : Nat) (h : s.mgt.pldm = .readyXfer) : exec (.updateComponent smbus 1 size) s =
    .next { s with
      mgt := { s.mgt with component := 1, componentSize := size, received := [], pldm := .download }
      sent := s.sent ++ [.mctp (if smbus then 1 else 0) 261 0x14 0 (leBytes 1 0)] } :=
  congrArg Host.Outcome.next ((State.inMode_of_mode hstage h (by decide) _ _).trans (if_pos (.inl rfl)))

theorem requestFirmwareData_takes {data : List Byte} (h : s.mgt.pldm = .download)
    (hmore : s.mgt.received.length < s.mgt.componentSize)
    (hdata : data.length = min (if smbus then 256 else 1024) (s.mgt.componentSize - s.mgt.received.length)) :
    exec (.requestFirmwareData smbus data) s = .next { s with
      mgt := { s.mgt with received := s.mgt.received ++ data }
      sent := s.sent ++ [.mctp (if smbus then 1 else 0) 261 0x15 0 (leBytes 4 s.mgt.received.length ++ leBytes 4 data.length)] } := by
  have hblock : 0 < if smbus then 256 else 1024 := by split <;> decide
  refine congrArg Host.Outcome.next ((State.updateAgent_of_managed hstage _).trans ?_)
  dsimp only
  rw [← hdata, if_neg]
  · rfl
  · rintro (hmode | hnone | hlen)
    · exact hmode h
    · omega
    · exact hlen rfl

theorem transferComplete_verifies (h : s.mgt.pldm = .download) (hall : s.mgt.componentSize ≤ s.mgt.received.length) :
    exec (.transferComplete smbus) s = .next { s with
      mgt := { s.mgt with pldm := .verify }
      sent := s.sent ++ [.mctp (if smbus then 1 else 0) 261 0x16 0 (leBytes 1 0)] } :=
  congrArg Host.Outcome.next ((State.updateAgent_of_managed hstage _).trans (if_neg (by simp [h, hall])))

theorem verifyComplete_applies (h : s.mgt.pldm = .verify) (hgood : s.componentFault = none) :
    exec (.verifyComplete smbus) s = .next { s with
      mgt := { s.mgt with pldm := .apply }
      sent := s.sent ++ [.mctp (if smbus then 1 else 0) 261 0x17 0 (leBytes 1 0)] } := by
  refine congrArg Host.Outcome.next ((State.updateAgent_of_managed hstage _).trans ((if_neg (not_not.mpr h)).trans ?_))
  rw [hgood]
  rfl

theorem verifyComplete_refuses {c : Status} (h : s.mgt.pldm = .verify) (hbad : s.componentFault = some c) :
    exec (.verifyComplete smbus) s = .next { s with
      mgt := { s.mgt with pldm := .readyXfer }
      sent := s.sent ++ [.mctp (if smbus then 1 else 0) 261 0x17 0 (leBytes 2 c.toNat)] } := by
  refine congrArg Host.Outcome.next ((State.updateAgent_of_managed hstage _).trans ((if_neg (not_not.mpr h)).trans ?_))
  rw [hbad]
  rfl

theorem applyComplete_programs (h : s.mgt.pldm = .apply) (hone : s.mgt.component = 1) (hread : Config.flashFails s.free = false)
    (hdigests : (⟨s.mgt.inactiveBank.count, true, s.mgt.received⟩ : Bank).digestsOk = true) :
    ∃ t, exec (.applyComplete smbus) s = .next t ∧
      t.mgt.inactiveBank = ⟨s.mgt.inactiveBank.count, true, s.mgt.received⟩ ∧ t.mgt.activeBank = s.mgt.activeBank ∧
      t.mgt.pldm = .readyXfer ∧ t.mem = s.mem ∧ t.running = s.running := by
  obtain ⟨u, hprogram, hu⟩ := State.programBank_holds hread hdigests
  refine ⟨_, congrArg Host.Outcome.next ((State.updateAgent_of_managed hstage _).trans ((if_neg (not_not.mpr h)).trans
    ((if_neg (by simp [State.not_recovering hstage])).trans (if_pos hone)))), ?_⟩
  rw [hprogram]
  exact ⟨hu.inactive, hu.activeBank, rfl, hu.mem, hu.running⟩

theorem activateFirmware_activates (h : s.mgt.pldm = .readyXfer) (hbank : s.mgt.inactiveBank.bootable = true) :
    exec (.activateFirmware smbus) s = .next { s with
      mgt := { s.mgt with pldm := .activate, activation := some ⟨1, none, s.clk, true⟩ }
      sent := s.sent ++ [.mctp (if smbus then 1 else 0) 261 0x1A 0 []] } :=
  congrArg Host.Outcome.next ((State.inMode_of_mode hstage h (by decide) _ _).trans
    (if_neg (by simp [State.not_recovering hstage, hbank])))

theorem getStatus_answers : exec (.getStatus smbus) s =
    .next { s with sent := s.sent ++ [.mctp (if smbus then 1 else 0) 261 0x1B 0 (leBytes 1 s.mgt.pldm.code)] } :=
  congrArg Host.Outcome.next (State.updateAgent_of_managed hstage _)

theorem cancelUpdate_ends (hidle : s.mgt.pldm ≠ .idle) (hactivate : s.mgt.pldm ≠ .activate) :
    exec (.cancelUpdate smbus) s = .next { s with
      mgt := { s.mgt with pldm := .idle, received := [] }
      sent := s.sent ++ [.mctp (if smbus then 1 else 0) 261 0x1D 0 []] } :=
  congrArg Host.Outcome.next ((State.updateAgent_of_managed hstage _).trans ((if_neg hidle).trans (if_neg hactivate)))

/-- Outside update mode the agent says so, or takes no notice. -/
theorem updateAgent_idle (h : s.mgt.pldm = .idle) :
    exec (.passComponentTable smbus true) s = .next { s with sent := s.sent ++ [.mctp (if smbus then 1 else 0) 261 0x13 0x80 []] } ∧
      exec (.transferComplete smbus) s = .next s ∧ exec (.applyComplete smbus) s = .next s := by
  refine ⟨congrArg Host.Outcome.next ?_, congrArg Host.Outcome.next ?_, congrArg Host.Outcome.next ?_⟩
  · exact (State.updateAgent_of_managed hstage _).trans (if_pos h)
  · exact (State.updateAgent_of_managed hstage _).trans (if_pos (.inl (by simp [h])))
  · exact (State.updateAgent_of_managed hstage _).trans (if_pos (by simp [h]))

end

/-- Settles O55: the inactive bank is programmed, activated by stages or left, and each message of the agent is taken in its
place. -/
theorem firmwareUpdates : Obligations.FirmwareUpdates :=
  ⟨⟨fun _ _ h hclean => ⟨fwStage_stages h hclean, fwStage_fails h hclean⟩, fun _ _ h => fwActivate_begins h⟩,
    ⟨fun _ _ ha hlo hhi hrun => activationStageStart_next ha hlo hhi hrun,
      fun _ _ _ ha hstage hrun hkind => activationStageStart_last ha hstage hrun hkind,
      fun _ _ _ ha hstage hlate hrun hkind => processorReadyTimeout_reverts ha hstage hlate hrun hkind,
      fun _ _ _ _ _ _ ha hstage hdeadline hpast hleft hrun hkind =>
        waitMsExpiry_ends ha hstage hdeadline hpast hleft hrun hkind⟩,
    ⟨fun _ _ hstage => ⟨requestUpdate_accepted hstage, passComponentTable_last hstage, passComponentTable_more hstage,
        updateComponent_firmware hstage, fun _ h hmore hdata => requestFirmwareData_takes hstage h hmore hdata,
        transferComplete_verifies hstage, verifyComplete_applies hstage, fun _ h hbad => verifyComplete_refuses hstage h hbad,
        applyComplete_programs hstage, activateFirmware_activates hstage, getStatus_answers hstage, cancelUpdate_ends hstage⟩,
      fun _ _ hstage h => updateAgent_idle hstage h⟩⟩

end Sys2Proof.Machine
end

section
/-! SUPPORT. Jobs in their slots: which job a packet names after one is put in a slot, and the records that packets owe when a job
has changed. -/

namespace Sys2Proof.Machine

/-! ## The job that a packet names (R76) -/

/-- What is put in the place of the first entry that a test finds, or where it finds none, is what the test finds next. -/
theorem Tab.find?_put {α : Type} {t : Tab α} {x : Nat} {w : α} {f : Nat × α → Bool} (hw : f (x, w) = true)
    (h : ∀ e, t.find? f = some e → e.1 = x) : (Tab.put t x w).find? f = some (x, w) := by
  induction t with
  | nil => simp [Tab.put, hw]
  | cons e t ih =>
    obtain ⟨k, v⟩ := e
    have hplaced (l : Tab α) : List.find? f ((x, w) :: l) = some (x, w) := by rw [List.find?_cons, hw]
    unfold Tab.put
    split
    · exact hplaced _
    split
    · exact hplaced _
    next hne =>
      have hf : f (k, v) = false := by
        by_contra hf
        rw [Bool.not_eq_false] at hf
        exact hne (h (k, v) (by rw [List.find?_cons, hf])).symm
      rw [List.find?_cons, hf]
      exact ih fun e he => h e (by rw [List.find?_cons, hf]; exact he)

theorem State.findJob_id {s : State} {id : Word} {e : Nat × Job} (h : s.findJob id = some e) : e.2.id = id :=
  eq_of_beq (List.find?_some (p := fun e : Nat × Job => e.2.id == id) h)

theorem State.findJob_congr {s t : State} (h : t.job.jobs = s.job.jobs) (id : Word) : t.findJob id = s.findJob id := by
  rw [State.findJob, State.findJob, h]

/-- A job that changes in its slot is still the one of its identifier. -/
theorem State.findJob_setJob {s : State} {id : Word} {slot : Nat} {j k : Job} (h : s.findJob id = some (slot, j))
    (hk : k.id = j.id) : (s.setJob slot k).findJob id = some (slot, k) := by
  refine Tab.find?_put (beq_iff_eq.mpr (hk.trans (State.findJob_id h))) fun e he => ?_
  rw [Option.some.inj (he.symm.trans h)]

/-- A job that opens is the one of its identifier. -/
theorem State.findJob_setJob_fresh {s : State} {k : Job} (h : s.findJob k.id = none) (slot : Nat) :
    (s.setJob slot k).findJob k.id = some (slot, k) :=
  Tab.find?_put (beq_self_eq_true k.id) fun e he => absurd (he.symm.trans h) (by simp)

theorem State.jobAt_setJob_same (s : State) (slot : Nat) (j : Job) : (s.setJob slot j).jobAt slot = some j :=
  Tab.look_put_same _ _ _

theorem State.jobAt_setJob_ne (s : State) {slot n : Nat} (j : Job) (h : n ≠ slot) : (s.setJob slot j).jobAt n = s.jobAt n :=
  Tab.look_put_ne _ _ h

theorem State.jobAt_congr {s t : State} (h : t.job.jobs = s.job.jobs) (n : Nat) : t.jobAt n = s.jobAt n := by
  rw [State.jobAt, State.jobAt, h]

/-! ## Records of the job that a packet names (R87, R96) -/

/-- The ring that the job of an identifier is attached to, if one is open and has been re-attached. -/
def State.attachedRing (s : State) (id : Word) : Option Nat := (s.findJob id).bind fun e => e.2.attached

/-- A record goes to the ring that the packet's job is attached to, else to the packet's own. -/
theorem State.recordOf_eq (s : State) (p : Packet) (st : Status) (detail : Nat) : s.recordOf p st detail =
    { handle := p.handle, seq := p.seq, opcode := BitVec.ofNat 16 p.opcode, status := st, detail := BitVec.ofNat 64 detail,
      time := BitVec.ofNat 32 s.clk, ring := (s.attachedRing p.job).getD p.ring, noIrq := p.noIrq, irqNow := p.irqNow,
      job := p.job, home := p.ring, era := p.era } := by
  unfold State.recordOf State.attachedRing
  cases s.findJob p.job <;> rfl

theorem State.attachedRing_of_none {s : State} {id : Word} (h : s.findJob id = none) : s.attachedRing id = none := by
  rw [State.attachedRing, h]
  rfl

theorem State.attachedRing_of_some {s : State} {id : Word} {e : Nat × Job} (h : s.findJob id = some e) :
    s.attachedRing id = e.2.attached := by
  rw [State.attachedRing, h]
  rfl

/-- What the records of a packet come from is as before: rings, held store, clock, and the ring its job is attached to. -/
structure State.SameRecord (p : Packet) (s t : State) : Prop where
  rings : t.rings = s.rings := by rfl
  held : t.held = s.held := by rfl
  clk : t.clk = s.clk := by rfl
  attached : t.attachedRing p.job = s.attachedRing p.job

theorem State.SameRecord.trans {p : Packet} {s t u : State} (h : s.SameRecord p t) (k : t.SameRecord p u) : s.SameRecord p u where
  rings := k.rings.trans h.rings
  held := k.held.trans h.held
  clk := k.clk.trans h.clk
  attached := k.attached.trans h.attached

theorem State.SameRecord.dues {p : Packet} {s t : State} (h : s.SameRecord p t) (r : Record) : t.dues r = s.dues r :=
  State.dues_congr h.held (fun n => by rw [State.ring_congr h.rings]) r

theorem State.SameRecord.recordOf {p : Packet} {s t : State} (h : s.SameRecord p t) (st : Status) (detail : Nat) :
    t.recordOf p st detail = s.recordOf p st detail := by
  rw [State.recordOf_eq, State.recordOf_eq, h.clk, h.attached]

theorem State.Enters.attachedRing {s u : State} (hu : s.Enters u) (id : Word) : u.attachedRing id = s.attachedRing id :=
  hu.same (fun t => t.attachedRing id) fun _ => rfl

theorem State.Enters.findJob {s u : State} (hu : s.Enters u) (id : Word) : u.findJob id = s.findJob id :=
  hu.same (fun t => t.findJob id) fun _ => rfl

/-- A completion at the end of an effect owes the record of the packet as the earlier state has it. -/
theorem State.Enters.owes_of_sameRecord {s u v : State} (hu : s.Enters u) {p : Packet} (hv : u.SameRecord p v) (st : Status)
    (detail position total : Nat) : (v.complete p st detail position total).owes s p st detail = true := by
  have hrec : v.recordOf p st detail = s.recordOf p st detail := by
    rw [hv.recordOf, State.recordOf_eq, State.recordOf_eq, hu.attachedRing, hu.same State.clk fun _ => rfl]
  have hdues := v.complete_dues_same p st detail position total
  rw [hrec, hv.dues, hu.dues] at hdues
  exact beq_iff_eq.mpr hdues

/-- An effect that changes the jobs alone and completes leaves everything else. -/
theorem State.Enters.bookkept_job {s u t : State} (hu : s.Enters u) {q : JobState}
    (ht : t = ({ u with job := q } : State).bookkept t) : t.job = q ∧ t = { s.bookkept t with job := t.job } := by
  rw [ht, hu.frame]
  exact ⟨rfl, rfl⟩

/-- A command that changes the job its packet names, and completes. -/
theorem State.Enters.setJob_complete {s u t : State} (hu : s.Enters u) {p : Packet} {slot : Nat} {j k : Job}
    (hfind : s.findJob p.job = some (slot, j)) (hid : k.id = j.id) (hattached : k.attached = j.attached)
    (ht : t = (u.setJob slot k).complete p Status.ok 0 0 0) :
    t.owes s p Status.ok 0 = true ∧ t.jobAt slot = some k ∧ (∀ n, n ≠ slot → t.jobAt n = s.jobAt n) ∧
      t = { s.bookkept t with job := t.job } := by
  have hufind : u.findJob p.job = some (slot, j) := (hu.findJob p.job).trans hfind
  have hring : (u.setJob slot k).attachedRing p.job = u.attachedRing p.job := by
    rw [State.attachedRing_of_some (State.findJob_setJob hufind hid), State.attachedRing_of_some hufind]
    exact hattached
  obtain ⟨hjob, hframe⟩ := hu.bookkept_job (q := (u.setJob slot k).job)
    (ht ▸ State.complete_bookkept State.countStatus_ok)
  have hjobs := congrArg JobState.jobs hjob
  refine ⟨ht ▸ hu.owes_of_sameRecord { attached := hring } _ _ _ _, ?_, fun n hn => ?_, hframe⟩
  · rw [State.jobAt_congr hjobs, State.jobAt_setJob_same]
  · rw [State.jobAt_congr hjobs, State.jobAt_setJob_ne _ _ hn]
    exact State.jobAt_congr (hu.same (fun t => t.job.jobs) fun _ => rfl) n

end Sys2Proof.Machine
end

section
/-! PROOFS. Manifests are loaded, staged and queried. -/

namespace Sys2Proof.Machine

/-! ## MANIFEST_LOAD (R65) -/

/-- The manifest store with the bytes of a load in the slot that its packet names. -/
def JobState.loaded (q : JobState) (p : Packet) (b : List Byte) : JobState :=
  if p.param 12 1 = 1 then { q with bases := Tab.put q.bases (p.param 13 1) b }
  else { q with overlays := Tab.put q.overlays (p.param 13 1) b }

@[simp] theorem JobState.loaded_jobs (q : JobState) (p : Packet) (b : List Byte) : (q.loaded p b).jobs = q.jobs := by
  unfold JobState.loaded
  split <;> rfl

theorem JobState.loaded_base {q : JobState} {p : Packet} (b : List Byte) (h : p.param 12 1 = 1) :
    q.loaded p b = { q with bases := Tab.put q.bases (p.param 13 1) b } :=
  if_pos h

theorem JobState.loaded_overlay {q : JobState} {p : Packet} (b : List Byte) (h : p.param 12 1 = 2) :
    q.loaded p b = { q with overlays := Tab.put q.overlays (p.param 13 1) b } :=
  if_neg (by omega)

theorem Tab.look_put {α : Type} (t : Tab α) (x : Nat) (w : α) (y : Nat) :
    Tab.look (Tab.put t x w) y = if y = x then some w else Tab.look t y := by
  split
  next h => rw [h, Tab.look_put_same]
  next h => exact Tab.look_put_ne t w h

theorem manifestLoad_loads {p : Packet} {s : State} (h : s.accepts manifestLoadCommand p = true)
    (hclean : s.poisonedIn [⟨p.param 0 8, p.param 8 4⟩] = none) :
    ∃ t, exec (.manifestLoad p) s = .next t ∧ t.owes s p Status.ok 0 = true ∧
      (p.param 12 1 = 1 → (∀ n, t.baseOf n = if n = p.param 13 1 then some (s.loadSourceBytes p) else s.baseOf n) ∧
        (∀ n, t.overlayOf n = s.overlayOf n)) ∧
      (p.param 12 1 = 2 → (∀ n, t.overlayOf n = if n = p.param 13 1 then some (s.loadSourceBytes p) else s.overlayOf n) ∧
        (∀ n, t.baseOf n = s.baseOf n)) ∧
      t.job.jobs = s.job.jobs ∧ t = { s.bookkept t with job := t.job } := by
  obtain ⟨u, hu, hstart⟩ := Command.start_enters h
  have hread : u.poisonedIn [⟨p.param 0 8, p.param 8 4⟩] = none := (hu.same (fun t => t.poisonedIn _) fun _ => rfl).trans hclean
  have hbytes : u.loadSourceBytes p = s.loadSourceBytes p := hu.load _ _
  have huj : u.job = s.job := hu.same State.job fun _ => rfl
  have heff : manifestLoadCommand.effect p u =
      ({ u with job := s.job.loaded p (s.loadSourceBytes p) } : State).complete p Status.ok 0 0 0 := by
    simp only [manifestLoadCommand, State.orPoisoned_of_clean hread, hbytes, huj]
    rfl
  have hring : ({ u with job := s.job.loaded p (s.loadSourceBytes p) } : State).attachedRing p.job = u.attachedRing p.job := by
    rw [State.attachedRing, State.attachedRing, State.findJob_congr (s := u)]
    rw [huj]
    exact JobState.loaded_jobs _ _ _
  have howes := hu.owes_of_sameRecord { attached := hring } Status.ok 0 0 0
  obtain ⟨hjob, hframe⟩ := hu.bookkept_job (q := s.job.loaded p (s.loadSourceBytes p))
    (State.complete_bookkept (p := p) (detail := 0) (position := 0) (total := 0) State.countStatus_ok)
  generalize State.complete _ p Status.ok 0 0 0 = t at heff howes hjob hframe
  refine ⟨t, congrArg Host.Outcome.next (hstart.trans heff), howes, fun hkind => ?base, fun hkind => ?overlay, ?jobs, hframe⟩
  case jobs => rw [hjob, JobState.loaded_jobs]
  case base =>
    rw [JobState.loaded_base _ hkind] at hjob
    simp only [State.baseOf, State.overlayOf, hjob, Tab.look_put, implies_true, and_self]
  case overlay =>
    rw [JobState.loaded_overlay _ hkind] at hjob
    simp only [State.baseOf, State.overlayOf, hjob, Tab.look_put, implies_true, and_self]

/-! ## MANIFEST_STAGE (R66) -/

theorem manifestStage_stages {p : Packet} {slot : Nat} {j : Job} {m o : List Byte} {s : State}
    (h : s.accepts manifestStageCommand p = true) (hfind : s.findJob p.job = some (slot, j))
    (hbase : s.baseOf (p.param 8 1) = some m) (hoverlay : s.overlayOf (p.param 9 1) = some o) :
    ∃ t, exec (.manifestStage p) s = .next t ∧ t.owes s p Status.ok 0 = true ∧
      t.jobAt slot = some { j with
        staged := some ⟨p.param 4 4, p.param 8 1, p.param 9 1, pairDigest m o, patched m o⟩ } ∧
      (∀ n, n ≠ slot → t.jobAt n = s.jobAt n) ∧ t = { s.bookkept t with job := t.job } := by
  obtain ⟨u, hu, hstart⟩ := Command.start_enters h
  have hubase : u.baseOf (p.param 8 1) = some m := (hu.same (fun t => t.baseOf _) fun _ => rfl).trans hbase
  have huoverlay : u.overlayOf (p.param 9 1) = some o := (hu.same (fun t => t.overlayOf _) fun _ => rfl).trans hoverlay
  have heff : manifestStageCommand.effect p u = (u.setJob slot { j with
      staged := some ⟨p.param 4 4, p.param 8 1, p.param 9 1, pairDigest m o, patched m o⟩ }).complete p Status.ok 0 0 0 := by
    simp only [manifestStageCommand, (hu.findJob p.job).trans hfind, hubase, huoverlay]
  exact ⟨_, congrArg Host.Outcome.next hstart, hu.setJob_complete hfind rfl rfl heff⟩

/-! ## MANIFEST_QUERY (R68) -/

theorem Job.manifestRecord_length {j : Job} (hdigest : j.digest.length = 64)
    (hstaged : ∀ x, j.staged = some x → x.digest.length = 64) : j.manifestRecord.length = 256 := by
  unfold Job.manifestRecord
  cases hs : j.staged with
  | none => simp only [List.length_append, List.length_replicate, leBytes_length, hdigest]
  | some x => simp only [List.length_append, leBytes_length, hdigest, hstaged x hs]

theorem manifestQuery_writes {p : Packet} {slot : Nat} {j : Job} {s : State} (h : s.accepts manifestQueryCommand p = true)
    (hfind : s.findJob p.job = some (slot, j)) :
    ∃ t, exec (.manifestQuery p) s = .next t ∧ t.owes s p Status.ok 0 = true ∧
      t.load (hostWindow + p.param 8 8) j.manifestRecord.length = j.manifestRecord ∧
      (j.digest.length = 64 → (∀ x, j.staged = some x → x.digest.length = 64) → j.manifestRecord.length = 256) ∧
      (∀ a n, apart a n (hostWindow + p.param 8 8) j.manifestRecord.length = true → t.load a n = s.load a n) ∧
      t.mem = s.mem ∧ t.regs = s.regs ∧ t.running = s.running ∧ t.job = s.job := by
  obtain ⟨u, hu, hstart⟩ := Command.start_enters h
  have heff : manifestQueryCommand.effect p u =
      (u.store (hostWindow + p.param 8 8) j.manifestRecord).complete p Status.ok 0 0 0 := by
    simp only [manifestQueryCommand, (hu.findJob p.job).trans hfind]
  refine ⟨_, congrArg Host.Outcome.next (hstart.trans heff),
    hu.complete_owes ⟨State.store_rings _ _ _, State.store_held _ _ _, State.store_job _ _ _, State.store_clk _ _ _⟩ _ _ _ _ _,
    ?written, Job.manifestRecord_length, fun a n hapart => ?apart, ?_⟩
  case written => rw [State.load_complete, State.load_store_same]
  case apart => rw [State.load_complete, State.load_store_apart _ hapart, hu.load]
  rw [State.complete_bookkept State.countStatus_ok, State.store_window, hu.frame]
  exact ⟨rfl, rfl, rfl, rfl⟩

end Sys2Proof.Machine
end

section
/-! PROOFS. Jobs open, attach, run and close. -/

namespace Sys2Proof.Machine

/-! ## JOB_OPEN (R54, R111) -/

/-- Remedies change the graph block alone. -/
theorem State.remedies_frame (s : State) : s.remedies = { s with graph := s.remedies.graph } :=
  State.foldl_keeps (P := fun t => t = { s with graph := t.graph }) _ _
    (fun t u h => by rw [State.remedyArray_frame, h]) rfl

/-- A key that a table lists stands among its keys. -/
theorem Tab.mem_keys_of_look {α : Type} {t : Tab α} {x : Nat} (h : (Tab.look t x).isSome = true) : x ∈ t.map Prod.fst := by
  induction t with
  | nil => simp [Tab.look] at h
  | cons e t ih =>
    obtain ⟨k, v⟩ := e
    by_cases hx : x = k
    · simp [hx]
    · simp only [Tab.look, if_neg hx] at h
      exact List.mem_cons_of_mem _ (ih h)

/-- With fewer than 16 jobs open, one of the 16 slots is free: the jobs' slots do not cover them. -/
theorem State.jobAt_freeJobSlot {s : State} (h : s.job.jobs.length < 16) : s.jobAt s.freeJobSlot = none := by
  unfold State.freeJobSlot
  cases hfind : (List.range 16).find? fun n => (Tab.look s.job.jobs n).isNone with
  | some n => exact Option.isNone_iff_eq_none.mp (List.find?_some (p := fun n => (Tab.look s.job.jobs n).isNone) hfind)
  | none =>
    have hcovered : List.range 16 ⊆ s.job.jobs.map Prod.fst := fun n hn =>
      Tab.mem_keys_of_look (by simpa [Option.isSome_iff_ne_none] using List.find?_eq_none.mp hfind n hn)
    have hle := ((List.nodup_range (n := 16)).subperm hcovered).length_le
    rw [List.length_range, List.length_map] at hle
    omega

/-- A job has opened in the lowest free slot, with its hold area as a region; commands, records, memories and the clock are as
before. -/
structure State.Opens (s : State) (j : Job) (t : State) : Prop where
  job : t.job = (s.setJob s.freeJobSlot j).job
  hold : Tab.look t.memory.regions (4096 + s.freeJobSlot) = some ⟨j.id, j.holdBase, j.holdSize, j.keySlot⟩
  rings : t.rings = s.rings
  held : t.held = s.held
  clk : t.clk = s.clk
  running : t.running = s.running
  mem : t.mem = s.mem
  host : t.host = s.host

theorem State.openJob_opens {s : State} {p : Packet} {m o : List Byte} (h : s.openPair p = some (m, o)) (next mustered : Nat) :
    s.Opens (s.newJob p m o next mustered) (s.openJob p next mustered) := by
  simp only [State.openJob, h]
  rw [State.remedies_frame, State.log_frame]
  split
  · rw [State.lock_frame]
    exact ⟨rfl, Tab.look_put_same _ _ _, rfl, rfl, rfl, rfl, rfl, rfl⟩
  · exact ⟨rfl, Tab.look_put_same _ _ _, rfl, rfl, rfl, rfl, rfl, rfl⟩

/-- The packet that opens a job names it, and no job is open under its identifier (R54). -/
theorem State.fresh_of_checks {s : State} {p : Packet} (hjob : s.jobFail p (.fresh 0) = none)
    (hfields : need (p.param 0 4 != 0xFFFFFFFF && !s.jobOpen (BitVec.ofNat 32 (p.param 0 4))) 64 = none) :
    p.job = BitVec.ofNat 32 (p.param 0 4) ∧ s.findJob p.job = none := by
  have hid : p.job.toNat = p.param 0 4 := eq_of_beq (need_none hjob)
  have hnamed : p.job = BitVec.ofNat 32 (p.param 0 4) := by rw [← hid, BitVec.ofNat_toNat, BitVec.setWidth_eq]
  have hclosed := need_none hfields
  rw [Bool.and_eq_true, Bool.not_eq_true', ← hnamed] at hclosed
  exact ⟨hnamed, List.find?_eq_none.mpr fun e he => by
    simpa using List.any_eq_false.mp hclosed.2 e he⟩

theorem lowestFail_none {l : List (Option Fail)} (h : lowestFail l = none) : ∀ f ∈ l, f = none := by
  induction l with
  | nil => simp
  | cons f l ih =>
    cases f with
    | none => exact List.forall_mem_cons.mpr ⟨rfl, ih h⟩
    | some f =>
      rw [lowestFail] at h
      split at h
      · split at h <;> simp at h
      · simp at h

/-- Every check of an accepted packet is passed (R84). -/
theorem State.accepts_checks {c : Command} {p : Packet} {s : State} (h : s.accepts c p = true) :
    s.jobFail p c.job = none ∧ c.params s p = none ∧ c.own s p = none := by
  have hfail : c.fail s p = none := by
    simp only [State.accepts, Bool.and_eq_true, Option.isNone_iff_eq_none] at h
    exact h.2
  have hall := firstFail_none hfail
  exact ⟨hall _ (by simp), hall _ (by simp), hall _ (by simp)⟩

/-- A job that opens is attached to no ring, as none was. -/
theorem State.Opens.sameRecord {s t : State} {j : Job} {p : Packet} (h : s.Opens j t) (hid : j.id = p.job)
    (hfresh : s.findJob p.job = none) (hattached : j.attached = none) : s.SameRecord p t where
  rings := h.rings
  held := h.held
  clk := h.clk
  attached := by
    have hfound := State.findJob_setJob_fresh (k := j) (by rw [hid]; exact hfresh) s.freeJobSlot
    rw [hid] at hfound
    rw [State.attachedRing_of_none hfresh, State.attachedRing_of_some
      ((State.findJob_congr (congrArg JobState.jobs h.job) p.job).trans hfound), hattached]

theorem State.openPair_congr {s t : State} (h : t.job = s.job) (p : Packet) : t.openPair p = s.openPair p := by
  simp only [State.openPair, State.baseOf, State.overlayOf, h]

/-- A job that opens at the end of a packet's effect: the earlier part of the effect has left records, commands and jobs. -/
theorem State.Enters.openJob_completes {p : Packet} {m o : List Byte} {s u v : State} (hu : s.Enters u) (hv : u.SameRecords v)
    (hrun : v.running = u.running) (hnamed : p.job = BitVec.ofNat 32 (p.param 0 4)) (hnone : s.findJob p.job = none)
    (hpair : s.openPair p = some (m, o)) (next mustered position total : Nat) {t : State}
    (ht : t = (v.openJob p next mustered).complete p Status.ok 0 position total) :
    t.owes s p Status.ok 0 = true ∧ t.jobAt s.freeJobSlot = some (v.newJob p m o next mustered) ∧
      (∀ n, n ≠ s.freeJobSlot → t.jobAt n = s.jobAt n) ∧
      Tab.look t.memory.regions (4096 + s.freeJobSlot) =
        some ⟨BitVec.ofNat 32 (p.param 0 4), p.param 16 8, p.param 24 8, v.openKey m o⟩ ∧
      t.mem = v.mem ∧ t.host = v.host ∧ t.running = s.running := by
  have hjob : v.job = s.job := hv.job.trans (hu.same State.job fun _ => rfl)
  have hjobs := congrArg JobState.jobs hjob
  have hslot : v.freeJobSlot = s.freeJobSlot := by
    rw [State.freeJobSlot, State.freeJobSlot, hjobs]
  have hvnone : v.findJob p.job = none := (State.findJob_congr hjobs p.job).trans hnone
  have hopens := State.openJob_opens ((State.openPair_congr hjob p).trans hpair) next mustered
  have hrecord : u.SameRecord p v :=
    { hv with attached := by rw [State.attachedRing_of_none hvnone, hu.attachedRing, State.attachedRing_of_none hnone] }
  have howes := hu.owes_of_sameRecord (hrecord.trans (hopens.sameRecord hnamed.symm hvnone rfl)) Status.ok 0 position total
  have hhold := hopens.hold
  have hat := congrArg JobState.jobs hopens.job
  rw [hslot] at hhold hat
  have htjobs : t.job.jobs = (v.setJob s.freeJobSlot (v.newJob p m o next mustered)).job.jobs := by
    rw [ht, State.complete_job, hat]
  refine ⟨ht ▸ howes, ?_, fun n hn => ?_, ?_⟩
  · rw [State.jobAt_congr htjobs, State.jobAt_setJob_same]
  · rw [State.jobAt_congr htjobs, State.jobAt_setJob_ne _ _ hn, State.jobAt_congr hjobs]
  · rw [ht, State.complete_memory, State.complete_mem, State.complete_host, State.complete_running]
    exact ⟨hhold, hopens.mem, hopens.host, hopens.running.trans (hrun.trans (hu.same State.running fun _ => rfl))⟩

/-- A packet that opens a job is accepted only where one of the 16 slots is free. -/
theorem State.room_of_openOwn {s : State} {p : Packet} {m o : List Byte} (hpair : s.openPair p = some (m, o))
    (h : s.openOwn p = none) : s.job.jobs.length < 16 := by
  rw [State.openOwn, hpair] at h
  have hfree := firstFail_none h (demand (decide (s.job.jobs.length < 16)) Status.tableFull 64) (by simp)
  by_contra hfull
  simp [demand, hfull] at hfree

theorem jobOpen_opens {p : Packet} {m o : List Byte} {s : State} (h : s.accepts jobOpenCommand p = true)
    (hpair : s.openPair p = some (m, o)) :
    ∃ t, exec (.jobOpen p) s = .next t ∧ t.owes s p Status.ok 0 = true ∧ t.jobAt s.freeJobSlot = some (s.newJob p m o 0 0) ∧
      s.jobAt s.freeJobSlot = none ∧ (∀ n, n ≠ s.freeJobSlot → t.jobAt n = s.jobAt n) ∧
      Tab.look t.memory.regions (4096 + s.freeJobSlot) =
        some ⟨BitVec.ofNat 32 (p.param 0 4), p.param 16 8, p.param 24 8, s.openKey m o⟩ ∧
      t.mem = s.mem ∧ t.host = s.host ∧ t.running = s.running := by
  obtain ⟨hjobFail, hparams, hown⟩ := State.accepts_checks h
  have hfields := lowestFail_none (l := s.openFields p ++ [p.zeros 78 2, p.zeros 104 88]) hparams
  obtain ⟨hnamed, hnone⟩ := State.fresh_of_checks hjobFail (hfields _ (by simp [State.openFields]))
  obtain ⟨u, hu, hstart⟩ := Command.start_enters h
  have hnew : u.newJob p m o 0 0 = s.newJob p m o 0 0 := hu.same (fun t => t.newJob p m o 0 0) fun _ => rfl
  have hkey : u.openKey m o = s.openKey m o := hu.same (fun t => t.openKey m o) fun _ => rfl
  have heff : jobOpenCommand.effect p u = (u.openJob p 0 0).complete p Status.ok 0 0 0 := rfl
  obtain ⟨howes, hat, hothers, hhold, hmem, hhost, hrun⟩ := hu.openJob_completes {} rfl hnamed hnone hpair 0 0 0 0 heff
  rw [hnew] at hat
  rw [hkey] at hhold
  exact ⟨_, congrArg Host.Outcome.next hstart, howes, hat, State.jobAt_freeJobSlot (State.room_of_openOwn hpair hown), hothers, hhold,
    hmem.trans (hu.same State.mem fun _ => rfl), hhost.trans (hu.same State.host fun _ => rfl), hrun⟩

end Sys2Proof.Machine
end

section
/-! PROOFS. A job is attached, runs its steps and closes. -/

namespace Sys2Proof.Machine

/-! ## JOB_ATTACH (R96) -/

theorem Tab.look_mapVal {α : Type} (f : Nat → α → α) (t : Tab α) (x : Nat) :
    Tab.look (Tab.mapVal f t) x = (Tab.look t x).map (f x) := by
  induction t with
  | nil => rfl
  | cons e t ih =>
    obtain ⟨k, v⟩ := e
    change Tab.look ((k, f k v) :: Tab.mapVal f t) x = _
    rw [Tab.look, Tab.look, ih]
    split
    next h => rw [h, Option.map_some]
    next => rfl

/-- Every record of a job that is not written goes to one ring. -/
structure State.RecordsOn (s : State) (job : Word) (ring : Nat) : Prop where
  held : ∀ r ∈ s.held, r.job = job → r.ring = ring
  due : ∀ n, ∀ r ∈ (s.ring n).due, r.job = job → r.ring = ring

theorem State.mem_fallDue_held {s : State} {r x : Record} (h : x ∈ (s.fallDue r).held) : x ∈ s.held ∨ x = r := by
  unfold State.fallDue at h
  extract_lets q at h
  split at h
  · simpa using h
  · exact .inl h

theorem State.mem_fallDue_due {s : State} {r x : Record} {n : Nat} (h : x ∈ ((s.fallDue r).ring n).due) :
    x ∈ (s.ring n).due ∨ x = r := by
  unfold State.fallDue at h
  extract_lets q at h
  split at h
  · exact .inl h
  by_cases hn : n = r.ring
  · subst hn
    simpa using h
  · exact .inl (State.ring_setRing_ne s _ hn ▸ h)

theorem State.RecordsOn.fallDue {s : State} {job : Word} {ring : Nat} (h : s.RecordsOn job ring) {r : Record}
    (hr : r.ring = ring) : (s.fallDue r).RecordsOn job ring where
  held x hx hjob := (State.mem_fallDue_held hx).elim (h.held x · hjob) fun he => he ▸ hr
  due n x hx hjob := (State.mem_fallDue_due hx).elim (h.due n x · hjob) fun he => he ▸ hr

theorem State.RecordsOn.congr {s t : State} {job : Word} {ring : Nat} (h : s.RecordsOn job ring) (hrings : t.rings = s.rings)
    (hheld : t.held = s.held) : t.RecordsOn job ring where
  held := by rw [hheld]; exact h.held
  due n := by rw [State.ring_congr hrings]; exact h.due n

theorem State.moveRecords_recordsOn (s : State) (job : Word) (ring : Nat) : (s.moveRecords job ring).RecordsOn job ring := by
  unfold State.moveRecords
  extract_lets mine due moved
  refine State.foldl_keeps (P := fun t => t.RecordsOn job ring) _ _ (fun t r h => h.fallDue rfl) ⟨fun r hr hjob => ?held, ?due⟩
  case held =>
    obtain ⟨x, -, rfl⟩ := List.mem_map.mp hr
    by_cases hmine : mine x = true
    · rw [if_pos hmine]
    · rw [if_neg hmine] at hjob ⊢
      simpa [mine, hjob] using hmine
  case due =>
    intro n r hr hjob
    rw [State.ring, Tab.look_mapVal] at hr
    cases hlook : Tab.look s.rings n with
    | none => simp [hlook, Ring.atReset] at hr
    | some q =>
      rw [hlook] at hr
      have hmine := (List.mem_filter.mp hr).2
      simpa [mine, hjob] using hmine

/-- Records that move to another ring change nothing else. -/
theorem State.moveRecords_frame (s : State) (job : Word) (ring : Nat) : s.moveRecords job ring =
    { s with rings := (s.moveRecords job ring).rings, held := (s.moveRecords job ring).held } :=
  State.foldl_keeps (P := fun t => t = { s with rings := t.rings, held := t.held }) _ _
    (fun t r h => by rw [State.fallDue_frame, h]) rfl

theorem jobAttach_attaches {p : Packet} {slot : Nat} {j : Job} {s : State} (h : s.accepts jobAttachCommand p = true)
    (hfind : s.findJob p.job = some (slot, j)) :
    ∃ t, exec (.jobAttach p) s = .next t ∧ t.jobAt slot = some { j with attached := some p.ring } ∧
      0 < t.dues { s.recordOf p Status.ok 0 with ring := p.ring } ∧
      (∀ r, r ∈ t.held → r.job = j.id → r.ring = p.ring) ∧ (∀ n r, r ∈ (t.ring n).due → r.job = j.id → r.ring = p.ring) ∧
      t.mem = s.mem ∧ t.host = s.host ∧ t.running = s.running := by
  obtain ⟨u, hu, hstart⟩ := Command.start_enters h
  have hufind := (hu.findJob p.job).trans hfind
  have heff : jobAttachCommand.effect p u =
      ((u.setJob slot { j with attached := some p.ring }).moveRecords j.id p.ring).complete p Status.ok 0 0 0 := by
    simp only [jobAttachCommand, hufind]
  generalize hv : (u.setJob slot { j with attached := some p.ring }).moveRecords j.id p.ring = v at heff
  have hframe : v = { u.setJob slot { j with attached := some p.ring } with rings := v.rings, held := v.held } :=
    hv ▸ State.moveRecords_frame _ _ _
  have hjob : v.job = (u.setJob slot { j with attached := some p.ring }).job := by rw [hframe]
  have hjobs := congrArg JobState.jobs hjob
  have hrecord : v.recordOf p Status.ok 0 = { s.recordOf p Status.ok 0 with ring := p.ring } := by
    have hring : v.attachedRing p.job = some p.ring :=
      State.attachedRing_of_some ((State.findJob_congr hjobs p.job).trans (State.findJob_setJob hufind rfl))
    have hclk : v.clk = s.clk := (congrArg State.clk hframe).trans (hu.same State.clk fun _ => rfl)
    rw [State.recordOf_eq, State.recordOf_eq, hring, hclk]
    rfl
  have hon : v.RecordsOn j.id p.ring := hv ▸ State.moveRecords_recordsOn _ _ _
  have hdone : (v.complete p Status.ok 0 0 0).RecordsOn j.id p.ring :=
    (hon.congr (by simp) (by simp)).fallDue (congrArg Record.ring hrecord)
  refine ⟨_, congrArg Host.Outcome.next (hstart.trans heff), ?_, ?_, hdone.held, hdone.due, ?_⟩
  · rw [State.jobAt_congr (congrArg JobState.jobs (State.complete_job _ _ _ _ _ _)), State.jobAt_congr hjobs,
      State.jobAt_setJob_same]
  · rw [← hrecord, State.complete_dues_same]
    exact Nat.succ_pos _
  · rw [State.complete_mem, State.complete_host, State.complete_running, hframe]
    exact ⟨hu.same State.mem fun _ => rfl, hu.same State.host fun _ => rfl, hu.same State.running fun _ => rfl⟩

/-! ## STEP_RUN (R57) -/

theorem stepRun_runs {p : Packet} {slot : Nat} {j : Job} {s : State} (h : s.accepts stepRunCommand p = true)
    (hfind : s.findJob p.job = some (slot, j)) (hidle : j.state = .idle) :
    ∃ t o, exec (.stepRun p) s = .next t ∧ t.running = s.running ++ [o] ∧ o.pkt = p ∧ o.kind = .stepRun slot ∧
      o.total = p.param 4 4 ∧ t.jobAt slot = some { j with
        runs := j.runs ++ [⟨p, p.param 0 4, p.param 4 4, p.param 8 8, 0, false⟩], state := .running, attempt := 0, heldFor := none,
        faults := [], votes := [], decision := none } ∧
      (∀ n, n ≠ slot → t.jobAt n = s.jobAt n) ∧ t = { s.bookkept t with running := t.running, job := t.job } := by
  obtain ⟨u, hu, hstart⟩ := Command.start_enters h
  have heff : stepRunCommand.effect p u = (u.setJob slot { j with
      runs := j.runs ++ [⟨p, p.param 0 4, p.param 4 4, p.param 8 8, 0, false⟩], state := .running, attempt := 0, heldFor := none,
      faults := [], votes := [], decision := none }).enroll p (.stepRun slot) [⟨72, stepReports p, true⟩] (p.param 4 4) := by
    simp only [stepRunCommand, (hu.findJob p.job).trans hfind, hidle, reduceCtorEq, or_self, if_false]
  have hrunning : u.running = s.running := hu.same State.running fun _ => rfl
  refine ⟨_, ⟨p, .stepRun slot, u.starts, [((stepReports p).lo, (stepReports p).len)], 0, p.param 4 4, false⟩,
    congrArg Host.Outcome.next (hstart.trans heff), ?_, rfl, rfl, rfl, State.jobAt_setJob_same _ _ _, fun n hn => ?_, ?_⟩
  · rw [← hrunning]
    rfl
  · exact (State.jobAt_setJob_ne _ _ hn).trans (State.jobAt_congr (hu.same (fun t => t.job.jobs) fun _ => rfl) n)
  · rw [hu.frame]
    rfl

/-! ## JOB_CLOSE (R54) -/

/-- A job has left its slot and its hold area; records, commands and the clock are as before, and memory where none of its regions
was protected. -/
structure State.Closes (s : State) (slot : Nat) (j : Job) (t : State) : Prop where
  jobs : t.job.jobs = Tab.del s.job.jobs slot
  hold : Tab.look t.memory.regions (4096 + slot) = none
  rings : t.rings = s.rings
  held : t.held = s.held
  clk : t.clk = s.clk
  running : t.running = s.running
  bytes : (s.memory.regions.all fun e => e.2.owner != j.id || e.2.key.isNone) = true → t.mem = s.mem ∧ t.host = s.host

/-- Regions zeroed one after another change the two memories alone. -/
theorem State.zeroAll_frame (s : State) (l : List (Nat × Region)) :
    l.foldl (fun t e => t.zero e.2.base e.2.size) s =
      { s with
        mem := (l.foldl (fun t e => t.zero e.2.base e.2.size) s).mem
        host := (l.foldl (fun t e => t.zero e.2.base e.2.size) s).host } :=
  State.foldl_keeps (P := fun t => t = { s with mem := t.mem, host := t.host }) _ _
    (fun t e h => by rw [State.zero_frame, h]) rfl

/-- What a table does not list, it does not list after its values changed. -/
theorem Tab.look_map_of_none {α : Type} {t : Tab α} {x : Nat} (f : Nat × α → Nat × α) (hf : ∀ e, (f e).1 = e.1)
    (h : Tab.look t x = none) : Tab.look (t.map f) x = none := by
  induction t with
  | nil => rfl
  | cons e t ih =>
    rw [Tab.look] at h
    rw [List.map_cons, Tab.look, hf]
    split at h <;> simp_all

theorem State.closeJob_closes {s : State} {slot : Nat} {j : Job} (h : s.jobAt slot = some j) :
    s.Closes slot j (s.closeJob slot) := by
  have hlook : Tab.look s.job.jobs slot = some j := h
  unfold State.closeJob
  split
  next hnone => exact absurd (hnone.symm.trans hlook) (by simp)
  next k hk =>
  obtain rfl : j = k := Option.some.inj (hlook.symm.trans hk)
  extract_lets wipe wiped regions logged
  have hwiped : wiped = { s with mem := wiped.mem, host := wiped.host } := State.zeroAll_frame s wipe
  have hlogged : logged = { wiped.dropPrepares slot with
      mgt := logged.mgt, regs := logged.regs, pba := logged.pba, irqs := logged.irqs } :=
    State.log_frame _ _ _ _ _ _ _ _
  have hregions : Tab.look regions (4096 + slot) = none :=
    Tab.look_map_of_none _ (fun e => by split <;> rfl) (Tab.look_del_same _ _)
  rw [hlogged, hwiped]
  refine ⟨rfl, hregions, rfl, rfl, rfl, rfl, fun hopen => ?_⟩
  have hnone : wipe = [] := List.filter_eq_nil_iff.mpr fun e he => by
    have hsafe := List.all_eq_true.mp hopen e he
    rw [bne, ← Option.not_isSome, ← Bool.not_and, Bool.not_eq_true'] at hsafe
    exact Bool.eq_false_iff.mp hsafe
  have hsame : wiped = s := by
    change wipe.foldl _ s = s
    rw [hnone]
    rfl
  rw [hsame]
  exact ⟨rfl, rfl⟩

theorem Tab.look_of_singleton {α : Type} (x : Nat) (v : α) : Tab.look [(x, v)] x = some v :=
  if_pos rfl

theorem State.findJob_of_no_jobs {s : State} (h : s.job.jobs = []) (id : Word) : s.findJob id = none := by
  rw [State.findJob, h]
  rfl

/-- The command of a JOB_CLOSE that waits for its job to end. -/
def closeOp (p : Packet) (slot starts : Nat) : RunOp := ⟨p, .jobClose slot, starts, [], 0, 0, false⟩

/-- The close of a job without steps joins the running commands. -/
theorem jobClose_effect {p : Packet} {slot : Nat} {j : Job} {s : State} (hfind : s.findJob p.job = some (slot, j))
    (hruns : j.runs = []) (hrun : s.running = []) (hjobs : s.job.jobs = [(slot, j)]) :
    jobCloseCommand.effect p s = (({ s with running := [closeOp p slot s.starts] } : State).wake).remedies := by
  have hjob : ({ j with runs := [] } : Job) = j := by rw [← hruns]
  have hset : s.setJob slot { j with runs := [] } = s := by
    rw [hjob, State.setJob, hjobs]
    simp only [Tab.put, lt_irrefl, if_false, if_true]
    rw [← hjobs]
  simp only [jobCloseCommand, hfind, hruns, List.drop_nil, List.foldl_nil, List.take_nil, List.map_nil, hset]
  rw [State.enroll, hrun]
  rfl

/-- A close that is the only running command ends when its job is idle. -/
theorem State.wake_close {s : State} {p : Packet} {slot starts : Nat} {j : Job} (hrun : s.running = [closeOp p slot starts])
    (hat : s.jobAt slot = some j) (hidle : j.state = .idle) :
    s.wake = ({ s.closeJob slot with running := [] } : State).complete p Status.ok 0 0 0 := by
  have hlook : Tab.look s.job.jobs slot = some j := hat
  have hdrained : s.drained (closeOp p slot starts) = true := by
    simp only [State.drained, closeOp, hlook, hidle, beq_self_eq_true, Bool.true_or]
  have hdrain : s.drainEffect (closeOp p slot starts) = s.closeJob slot := rfl
  have hwake := State.wake_of_single hrun hdrained
  rw [hdrain] at hwake
  exact hwake ((State.closeJob_closes hat).running.trans hrun)

theorem jobClose_closes {p : Packet} {slot : Nat} {j : Job} {s : State} (h : s.accepts jobCloseCommand p = true)
    (hfind : s.findJob p.job = some (slot, j)) (hidle : j.state = .idle) (hruns : j.runs = []) (hattached : j.attached = none)
    (hrun : s.running = []) (hjobs : s.job.jobs = [(slot, j)]) :
    ∃ t, exec (.jobClose p) s = .next t ∧ t.owes s p Status.ok 0 = true ∧ t.job.jobs = [] ∧
      Tab.look t.memory.regions (4096 + slot) = none ∧ t.running = [] ∧
      ((s.memory.regions.all fun e => e.2.owner != j.id || e.2.key.isNone) = true → t.mem = s.mem ∧ t.host = s.host) := by
  obtain ⟨u, hu, hstart⟩ := Command.start_enters h
  have hujobs : u.job.jobs = [(slot, j)] := (hu.same (fun t => t.job.jobs) fun _ => rfl).trans hjobs
  have hufind := (hu.findJob p.job).trans hfind
  have heff := jobClose_effect hufind hruns ((hu.same State.running fun _ => rfl).trans hrun) hujobs
  generalize hw : ({ u with running := [closeOp p slot u.starts] } : State) = w at heff
  have hat : w.jobAt slot = some j := by
    rw [← hw, State.jobAt, hujobs, Tab.look_of_singleton]
  have hwake := State.wake_close (congrArg State.running hw.symm) hat hidle
  have hcloses := State.closeJob_closes hat
  have hgone : ({ w.closeJob slot with running := [] } : State).job.jobs = [] := by
    rw [hcloses.jobs, ← hw, hujobs, Tab.del]
    simp
  have hrecord : u.SameRecord p { w.closeJob slot with running := [] } :=
    { rings := hcloses.rings.trans (hw ▸ rfl)
      held := hcloses.held.trans (hw ▸ rfl)
      clk := hcloses.clk.trans (hw ▸ rfl)
      attached := (State.attachedRing_of_none (State.findJob_of_no_jobs hgone _)).trans
        ((State.attachedRing_of_some hufind).trans hattached).symm }
  have howes := hu.owes_of_sameRecord hrecord Status.ok 0 0 0
  have hbook := State.complete_bookkept (s := { w.closeJob slot with running := [] }) (p := p) (detail := 0) (position := 0)
    (total := 0) State.countStatus_ok
  rw [hwake] at heff
  generalize State.complete _ p Status.ok 0 0 0 = t at heff howes hbook
  refine ⟨_, congrArg Host.Outcome.next (hstart.trans heff), ?_, ?_⟩
  · rw [State.remedies_frame]
    exact howes
  rw [State.remedies_frame, hbook]
  refine ⟨hgone, hcloses.hold, rfl, fun hopen => ?_⟩
  have hwmem : w.mem = s.mem := (congrArg State.mem hw.symm).trans (hu.same State.mem fun _ => rfl)
  have hwhost : w.host = s.host := (congrArg State.host hw.symm).trans (hu.same State.host fun _ => rfl)
  obtain ⟨hmem, hhost⟩ := hcloses.bytes (by rw [← hw, hu.frame]; exact hopen)
  exact ⟨hmem.trans hwmem, hhost.trans hwhost⟩

/-- Settles O57: the manifest commands change the manifest store, the job's staged pair or host memory alone; a job opens in the
lowest free slot, is attached, runs and closes, each by the lemma of its command. -/
theorem manifestsAndJobs : Obligations.ManifestsAndJobs :=
  ⟨⟨fun _ _ => manifestLoad_loads, fun _ _ _ _ _ _ => manifestStage_stages, fun _ _ _ _ => manifestQuery_writes⟩,
    fun _ _ _ _ => jobOpen_opens, fun _ _ _ _ => jobAttach_attaches, fun _ _ _ _ => stepRun_runs,
    fun _ _ _ _ => jobClose_closes⟩

end Sys2Proof.Machine
end

section
/-! PROOFS. A gather that has landed and has not completed refutes that the Run phase and a muster's comparison leave the running
commands and memory. -/

namespace Sys2Proof.Machine

/-! ## A gather that has landed -/

/-- A packet of an empty body, for a command that runs. -/
def emptyPacket : Packet := ⟨0, 0, 0, []⟩

/-- A gather of a command whose output is empty: nothing more has to land (R350). -/
def landedGather : GatherOp := ⟨none, some (0, 0), 0, [], 0, 0, 0, 0, [], [], 0⟩

/-- The EMB_GATHER of that gather, with the ranges it uses. -/
def gatherCommand (ranges : List (Nat × Nat)) : RunOp := ⟨emptyPacket, .embGather 0, 0, ranges, 0, 0, false⟩

/-- A module with one job in slot 0, the landed gather, its command first among the running ones, and some bytes of memory. -/
def withLandedGather (j : Job) (ranges : List (Nat × Nat)) (later : List RunOp) (mem : Tab Byte) : State :=
  { State.reset with
    mem := mem
    running := gatherCommand ranges :: later
    job := { State.reset.job with jobs := [(0, j)] }
    emb := { EmbState.atReset with gathers := [(0, landedGather)] } }

/-- A job of rank 0 alone whose manifest is the image given. -/
def jobOfImage (image : List Byte) : Job :=
  { State.reset.newJob emptyPacket [] [] 0 0 with
    firstRank := 0, span := 1, ranks := [0], image := image, mode := 0, confidential := false, keySlot := none, digest := [] }

/-! ## RUN_PHASE_START -/

/-- A job whose step 0 is prepared and is the next of its STEP_RUN; it has no step graph. -/
def jobReadyToRun : Job :=
  { jobOfImage [] with state := .running, prepared := [0], runs := [⟨emptyPacket, 0, 1, 0, 0, false⟩] }

def readyToRun : State := withLandedGather jobReadyToRun [] [] []

theorem readyToRun_mayRun : jobReadyToRun.mayRun = true := by decide +kernel
theorem readyToRun_nextGraph : readyToRun.nextGraph jobReadyToRun = none := by decide +kernel

/-- The Run phase starts, and the gather's command completes with it. -/
theorem runPhase_completes_gather : ((readyToRun.runPhase 0).settleRelay).running = [] := by decide +kernel

/-- Refutes O59: RUN_PHASE_START also settles the gathers, and no premise says that none waits to be settled. In `readyToRun` a
gather has landed and its EMB_GATHER still runs; the command leaves the running commands when the Run phase starts. -/
theorem not_stepsRunAndCommit : ¬ Obligations.StepsRunAndCommit := by
  rintro ⟨⟨-, -, hrun⟩, -⟩
  obtain ⟨t, k, hexec, -, -, -, -, -, -, hrunning⟩ :=
    hrun 0 jobReadyToRun readyToRun rfl readyToRun_mayRun rfl rfl fun n k g h => by simp [readyToRun_nextGraph] at h
  obtain rfl : (readyToRun.runPhase 0).settleRelay = t := Host.Outcome.next.inj hexec
  rw [runPhase_completes_gather] at hrunning
  exact List.cons_ne_nil _ _ hrunning.symm

/-! ## MUSTER_COMPARE -/

/-- The head of a manifest of one rank and one shard. -/
def oneShardImage : List Byte := List.replicate 16 0#8 ++ [1, 0, 0, 0, 1, 0, 0, 0]

/-- A muster whose digests are formed. -/
def formedMuster : Muster := ⟨0, 0, 0, true, false⟩

/-- A job in its Run phase whose only rank leads itself and holds its digests. -/
def jobToCompare : Job :=
  { jobOfImage oneShardImage with phase := .run, muster := some formedMuster, digests := [(0, [], [])] }

/-- The release of a protected region of one byte, which waits for the gather to leave it (R113). -/
def waitingRelease : RunOp := ⟨emptyPacket, .regionRelease 0 1 true, 1, [], 0, 0, false⟩

def readyToCompare : State := withLandedGather jobToCompare [(0, 1)] [waitingRelease] [(0, 1)]

/-- The verdict is given, the gather completes, and the release that waited for it zeroes its region. -/
theorem musterCompare_zeroes_region : ((readyToCompare.musterCompare 0 0).settleRelay).mem = [] := by decide +kernel

/-- Refutes O60: MUSTER_COMPARE also settles the gathers, and no premise says that none waits to be settled. In `readyToCompare` a
gather has landed; its EMB_GATHER completes, the REGION_RELEASE that waited for it zeroes its region, and memory changes. -/
theorem not_mustersAndTimers : ¬ Obligations.MustersAndTimers := by
  rintro ⟨⟨-, hcompare, -⟩, -⟩
  obtain ⟨t, hexec, -, hmem, -⟩ :=
    hcompare 0 0 jobToCompare formedMuster readyToCompare rfl rfl rfl (by decide +kernel) (by decide +kernel) rfl
      (fun r hr => by
        have hgroup : jobToCompare.groupOf 0 = [0] := by decide +kernel
        obtain rfl : r = 0 := by simpa [hgroup] using hr
        rfl) rfl rfl rfl
  obtain rfl : (readyToCompare.musterCompare 0 0).settleRelay = t := Host.Outcome.next.inj hexec
  rw [musterCompare_zeroes_region] at hmem
  exact List.cons_ne_nil _ _ hmem.symm

end Sys2Proof.Machine
end

section
/-! PROOFS. A snapshot is taken: where its header and its entries' data stand. -/

namespace Sys2Proof.Machine

/-! ## Bytes stored one after another -/

theorem Memory.readN_take (m : Tab Byte) (a n k : Nat) : (Memory.readN m a (n + k)).take n = Memory.readN m a n := by
  induction n generalizing a with
  | zero => rfl
  | succ n ih => rw [Nat.succ_add, Memory.readN, List.take_succ_cons, ih, Memory.readN]

theorem State.load_take (s : State) (a n k : Nat) : (s.load a (n + k)).take n = s.load a n := by
  unfold State.load
  split <;> exact Memory.readN_take _ _ _ _

/-- Where bytes stand, their first ones stand. -/
theorem State.load_prefix {s : State} {a : Nat} {b d : List Byte} (h : s.load a d.length = d) (hb : b <+: d) :
    s.load a b.length = b := by
  obtain ⟨c, rfl⟩ := hb
  rw [← State.load_take s a b.length c.length, ← List.length_append, h, List.take_left]

/-- Pieces of bytes that stand in [lo, hi) one after another, each at its offset. -/
def LaidOut (hi : Nat) : Nat → List (Nat × List Byte) → Prop
  | _, [] => True
  | lo, e :: l => lo ≤ e.1 ∧ e.1 + e.2.length ≤ hi ∧ LaidOut hi (e.1 + e.2.length) l

theorem LaidOut.mono {hi lo lo' : Nat} {l : List (Nat × List Byte)} (h : LaidOut hi lo l) (hle : lo' ≤ lo) : LaidOut hi lo' l := by
  cases l with
  | nil => trivial
  | cons e l => exact ⟨hle.trans h.1, h.2⟩

/-- Store each piece at its offset from a base. -/
def State.storeAll (s : State) (base : Nat) (l : List (Nat × List Byte)) : State :=
  l.foldl (fun t e => t.store (base + e.1) e.2) s

/-- Only the memories and their poison marks change. -/
theorem State.storeAll_frame (s : State) (base : Nat) (l : List (Nat × List Byte)) : s.storeAll base l =
    { s with
      mem := (s.storeAll base l).mem, host := (s.storeAll base l).host, memory := (s.storeAll base l).memory } :=
  State.foldl_keeps (P := fun t => t = { s with mem := t.mem, host := t.host, memory := t.memory }) _ _
    (fun t e h => by rw [State.store_frame, h]) rfl

theorem State.load_storeAll_apart {hi lo : Nat} {l : List (Nat × List Byte)} (h : LaidOut hi lo l) (s : State) {base a n : Nat}
    (hapart : a + n ≤ base + lo ∨ base + hi ≤ a) : (s.storeAll base l).load a n = s.load a n := by
  induction l generalizing s lo with
  | nil => rfl
  | cons e l ih =>
    obtain ⟨hlo, hhi, hrest⟩ := h
    refine (ih hrest _ (by omega)).trans (State.load_store_apart s (decide_eq_true ?_))
    omega

theorem State.load_storeAll_mem {hi lo : Nat} {l : List (Nat × List Byte)} (h : LaidOut hi lo l) (s : State) (base : Nat)
    {e : Nat × List Byte} (he : e ∈ l) : (s.storeAll base l).load (base + e.1) e.2.length = e.2 := by
  induction l generalizing s lo with
  | nil => exact absurd he List.not_mem_nil
  | cons x l ih =>
    obtain ⟨hlo, hhi, hrest⟩ := h
    rcases List.mem_cons.mp he with rfl | he
    · exact (State.load_storeAll_apart hrest _ (by omega)).trans (State.load_store_same s _ _)
    · exact ih hrest _ he

/-! ## The layout of a snapshot (R56) -/

theorem le_up64 (n : Nat) : n ≤ up64 n := by
  unfold up64 ceilDiv
  omega

theorem up64_mod (n : Nat) : up64 n % 64 = 0 := Nat.mul_mod_right _ _

theorem up64_add {a : Nat} (h : a % 64 = 0) (n : Nat) : up64 (a + n) = a + up64 n := by
  unfold up64 ceilDiv
  omega

theorem le_snapLayout (start : Nat) (lens : List Nat) : start ≤ (snapLayout start lens).2 := by
  induction lens generalizing start with
  | nil => exact le_refl _
  | cons n lens ih =>
    have hnext := ih (up64 (start + n))
    have hup := le_up64 (start + n)
    simp only [snapLayout]
    split <;> omega

/-- A piece of a snapshot with the zeros after it, up to the next multiple of 64 or to the end of the snapshot. -/
def padded (total : Nat) (e : Nat × List Byte) : Nat × List Byte :=
  (e.1, e.2 ++ List.replicate (min (up64 e.2.length) (total - e.1) - e.2.length) 0)

/-- A padded piece ends before the next one begins, and within the snapshot when its bytes do. -/
theorem padded_end_le {total start : Nat} {b : List Byte} (hstart : start % 64 = 0) (hfit : start + b.length ≤ total) :
    start + (padded total (start, b)).2.length ≤ min total (up64 (start + b.length)) := by
  have hup := up64_add hstart b.length
  have hle := le_up64 b.length
  simp only [padded, List.length_append, List.length_replicate]
  omega

/-- The data of a snapshot's entries stand one after another at the offsets of its layout. -/
theorem snapLayout_laidOut {total start : Nat} (data : List (List Byte)) (hstart : start % 64 = 0)
    (hfit : (snapLayout start (data.map List.length)).2 ≤ total) :
    LaidOut total start (((snapLayout start (data.map List.length)).1.zip data).map (padded total)) := by
  induction data generalizing start with
  | nil => trivial
  | cons b data ih =>
    have hend : start + b.length ≤ total := by
      refine le_trans ?_ hfit
      have hnext := le_snapLayout (up64 (start + b.length)) (data.map List.length)
      have hup := le_up64 (start + b.length)
      simp only [List.map_cons, snapLayout]
      split <;> omega
    have hpadded := le_min_iff.mp (padded_end_le hstart hend)
    refine ⟨le_refl _, hpadded.1, ?_⟩
    cases data with
    | nil => trivial
    | cons c data =>
      rw [List.map_cons, snapLayout] at hfit
      exact (ih (up64_mod _) hfit).mono hpadded.2

/-! ## The data of the entries -/

/-- An entry's size is that of the bytes it stands for. -/
def SnapEntry.Sized (e : SnapEntry) : Prop := (if e.kind = 3 then e.bytes.length else e.source.len) = e.size

theorem mem_insertSnap {x y : SnapEntry} {l : List SnapEntry} (h : y ∈ insertSnap x l) : y = x ∨ y ∈ l := by
  induction l with
  | nil => exact .inl (List.mem_singleton.mp h)
  | cons z l ih =>
    unfold insertSnap at h
    split at h
    · exact List.mem_cons.mp h
    · rcases List.mem_cons.mp h with rfl | h
      · exact .inr List.mem_cons_self
      · exact (ih h).imp_right (List.mem_cons_of_mem z)

theorem mem_foldr_insertSnap {y : SnapEntry} {l last : List SnapEntry} (h : y ∈ l.foldr insertSnap last) : y ∈ l ∨ y ∈ last := by
  induction l with
  | nil => exact .inr h
  | cons x l ih =>
    rcases mem_insertSnap h with rfl | h
    · exact .inl List.mem_cons_self
    · exact (ih h).imp_left (List.mem_cons_of_mem x)

theorem State.sliceEntries_sized {s : State} {j : Job} {e : SnapEntry} (h : e ∈ s.sliceEntries j) : e.Sized := by
  obtain ⟨x, -, hx⟩ := List.mem_filterMap.mp h
  split at hx
  · obtain ⟨v, -, rfl⟩ := Option.map_eq_some_iff.mp hx
    rfl
  · cases hx

theorem State.snapEntries_sized {s : State} {slot : Nat} {j : Job} {e : SnapEntry} (h : e ∈ s.snapEntries slot j) : e.Sized := by
  rcases mem_foldr_insertSnap h with h | h
  · rcases List.mem_append.mp h with h | h
    · obtain ⟨x, -, rfl⟩ := List.mem_map.mp h
      rfl
    · exact State.sliceEntries_sized h
  · split at h
    · cases h
    · obtain rfl := List.mem_singleton.mp h
      have hpair (a : Nat × Nat) : (leBytes 4 a.1 ++ leBytes 4 a.2).length = 8 := by
        rw [List.length_append, leBytes_length, leBytes_length]
      simp only [SnapEntry.Sized, if_true, List.length_flatMap, hpair, List.map_const', List.sum_replicate, smul_eq_mul, Nat.mul_comm]

/-- The data of entry i of a snapshot. -/
def State.snapDatum (s : State) (key : Option ModelKey) (e : SnapEntry) (i : Nat) : List Byte :=
  let plain := if e.kind = 3 then e.bytes else s.load e.source.lo e.source.len
  match key with
  | some k => if e.kind = 3 then plain
    else sealPackage k (drawBytes (s.free + i) 32) (16 + Config.snapshotChunk % 9) plain
  | none => plain

theorem State.snapData_eq (s : State) (key : Option ModelKey) (l : List SnapEntry) :
    s.snapData key l = l.zipIdx.map fun e => s.snapDatum key e.1 e.2 := rfl

theorem State.snapDatum_length (s : State) {key : Option ModelKey} (hkey : ∀ k, key = some k → k.keyId.length = 16)
    {e : SnapEntry} (h : e.Sized) (i : Nat) : (s.snapDatum key e i).length = snapLength key.isSome e := by
  have hplain : (if e.kind = 3 then e.bytes else s.load e.source.lo e.source.len).length = e.size := by
    rw [apply_ite List.length, State.load_length]
    exact h
  cases key with
  | none => exact hplain
  | some k =>
    by_cases hkind : e.kind = 3
    · simpa [State.snapDatum, snapLength, hkind] using hplain
    · rw [if_neg hkind] at hplain
      simp [State.snapDatum, snapLength, hkind, sealPackage_length (hkey k rfl) (slice_length _ 0 32), drawBytes, ← hplain]

/-- The data of every entry has the length that the layout gives it. -/
theorem State.snapData_lengths (s : State) {key : Option ModelKey} {l : List SnapEntry} (hsized : ∀ e ∈ l, e.Sized)
    (hkey : ∀ k, key = some k → k.keyId.length = 16) :
    (s.snapData key l).map List.length = l.map (snapLength key.isSome) :=
  calc (s.snapData key l).map List.length
    _ = l.zipIdx.map (snapLength key.isSome ∘ Prod.fst) := by
      rw [State.snapData_eq, List.map_map]
      exact List.map_congr_left fun e he =>
        s.snapDatum_length hkey (hsized e.1 (List.fst_mem_of_mem_zipIdx he)) e.2
    _ = l.map (snapLength key.isSome) := by rw [← List.map_map, List.zipIdx_map_fst]

/-! ## The snapshot as it is stored -/

theorem snapHead_length {j : Job} (h : j.digest.length = 64) (isSealed : Bool) (count total : Nat) :
    (snapHead j isSealed count total).length = 256 := by
  simp only [snapHead, List.length_append, leBytes_length, h]

theorem SnapEntry.head_length (e : SnapEntry) (off len : Nat) : (e.head off len).length = 64 := by
  simp only [SnapEntry.head, List.length_append, leBytes_length]

section
variable (key : Option ModelKey) (l : List SnapEntry)

/-- Where the data of a snapshot's entries begins, after the header and the entries' heads. -/
def snapStart : Nat := up64 (256 + 64 * l.length)

/-- Offsets of the data, and where the last of it ends. -/
def snapPlace : List Nat × Nat := snapLayout (snapStart l) (l.map (snapLength key.isSome))

/-- Bytes of a snapshot. -/
def snapTotal : Nat := if l.isEmpty then 256 else (snapPlace key l).2

/-- The heads of a snapshot's entries. -/
def snapHeads : List Byte :=
  (l.zip ((snapPlace key l).1.zip (l.map (snapLength key.isSome)))).flatMap fun e => e.1.head e.2.1 e.2.2

/-- The header and the heads, and zeros up to the data. -/
def snapFront (j : Job) : List Byte :=
  padTo (snapStart l) (snapHead j key.isSome l.length (snapTotal key l) ++ snapHeads key l)

/-- A snapshot stands in memory from a base on. -/
def State.snapStored (s : State) (base : Nat) (j : Job) : State :=
  (s.store base (snapFront key l j)).storeAll base (((snapPlace key l).1.zip (s.snapData key l)).map (padded (snapTotal key l)))

variable {key l}

theorem snapHeads_length_le : (snapHeads key l).length ≤ 64 * l.length := by
  simp only [snapHeads, List.length_flatMap, SnapEntry.head_length, List.map_const', List.sum_replicate, smul_eq_mul, List.length_zip]
  rw [Nat.mul_comm]
  exact Nat.mul_le_mul_left _ (Nat.min_le_left _ _)

theorem snapFront_length {j : Job} (h : j.digest.length = 64) : (snapFront key l j).length = snapStart l := by
  have hheads := snapHeads_length_le (key := key) (l := l)
  have hup := le_up64 (256 + 64 * l.length)
  simp only [snapFront, padTo, List.length_append, List.length_replicate, snapHead_length h, snapStart]
  omega

theorem snapStart_le_total : snapStart l ≤ snapTotal key l := by
  unfold snapTotal
  split
  next h => rw [List.isEmpty_iff.mp h]; exact (by decide : up64 256 ≤ 256)
  · exact le_snapLayout _ _

variable {s : State} (hdata : (s.snapData key l).map List.length = l.map (snapLength key.isSome))
include hdata

theorem snapPieces_laidOut :
    LaidOut (snapTotal key l) (snapStart l) (((snapPlace key l).1.zip (s.snapData key l)).map (padded (snapTotal key l))) := by
  cases l with
  | nil => trivial
  | cons e l =>
    unfold snapPlace
    rw [← hdata]
    exact snapLayout_laidOut _ (up64_mod _) (by rw [hdata]; exact le_refl _)

theorem State.load_snapStored_head {j : Job} (h : j.digest.length = 64) (base : Nat) :
    (s.snapStored key l base j).load base 256 = snapHead j key.isSome l.length (snapTotal key l) := by
  have hup := le_up64 (256 + 64 * l.length)
  have hprefix : snapHead j key.isSome l.length (snapTotal key l) <+: snapFront key l j := by
    rw [snapFront, padTo, List.append_assoc]
    exact List.prefix_append _ _
  have hhead := State.load_prefix (State.load_store_same s base _) hprefix
  rw [← State.load_storeAll_apart (snapPieces_laidOut hdata) _ (base := base) (.inl (by
    rw [snapHead_length h, snapStart]
    omega)), snapHead_length h] at hhead
  exact hhead

theorem State.load_snapStored_entry (j : Job) (base : Nat) {x : Nat × List Byte}
    (hx : x ∈ (snapPlace key l).1.zip (s.snapData key l)) :
    (s.snapStored key l base j).load (base + x.1) x.2.length = x.2 := by
  have hpiece := State.load_storeAll_mem (snapPieces_laidOut hdata) (s.store base (snapFront key l j)) base
    (List.mem_map_of_mem hx)
  exact State.load_prefix hpiece (List.prefix_append _ _)

theorem State.load_snapStored_apart {j : Job} (h : j.digest.length = 64) {base len a n : Nat} (hfit : snapTotal key l ≤ len)
    (hapart : apart a n base len = true) : (s.snapStored key l base j).load a n = s.load a n := by
  have hends : a + n ≤ base ∨ base + len ≤ a := of_decide_eq_true hapart
  have hstart := snapStart_le_total (key := key) (l := l)
  refine (State.load_storeAll_apart (snapPieces_laidOut hdata) _ (by omega)).trans
    (State.load_store_apart _ (decide_eq_true ?_))
  rw [snapFront_length h]
  omega

end

theorem State.snapStored_frame (s : State) (key : Option ModelKey) (l : List SnapEntry) (base : Nat) (j : Job) :
    s.snapStored key l base j =
      { s with
        mem := (s.snapStored key l base j).mem
        host := (s.snapStored key l base j).host
        memory := (s.snapStored key l base j).memory } := by
  rw [State.snapStored, State.storeAll_frame, State.store_frame]

/-! ## JOB_SNAPSHOT (R494) -/

/-- The key of a job's snapshots: that of the job where it is confidential. -/
def State.snapKey (s : State) (j : Job) : Option ModelKey := if j.confidential then s.sealKey j else none

theorem State.writeSnapshot_fits {s : State} {p : Packet} {slot : Nat} {j : Job} {key : Option ModelKey} {l : List SnapEntry}
    (hkey : s.snapKey j = key) (hl : s.snapEntries slot j = l) (hfit : snapTotal key l ≤ (snapDest p).len) :
    ∃ n, s.writeSnapshot p slot j =
      ({ (s.snapStored key l (snapDest p).lo j).bump Reg.secExports n with free := s.free + l.length } : State).complete p
        Status.ok (snapTotal key l) 0 0 := by
  subst hkey hl
  have hnot : ¬ (snapDest p).len < snapTotal (s.snapKey j) (s.snapEntries slot j) := by omega
  unfold State.writeSnapshot
  extract_lets d key l lens place total data heads s1 stored counted
  refine ⟨if key.isSome then (l.filter fun e => e.kind != 3).length else 0, (if_neg hnot).trans ?_⟩
  have hstored : s.snapStored (s.snapKey j) (s.snapEntries slot j) (snapDest p).lo j = stored := by
    rw [State.snapStored, State.storeAll, List.foldl_map]
    rfl
  have hfree : counted.free = s.free := by
    rw [State.bump_free, ← hstored, State.snapStored_frame]
  rw [hfree, hstored]
  rfl

theorem State.writeSnapshot_of_full {s : State} {p : Packet} {slot : Nat} {j : Job} {key : Option ModelKey} {l : List SnapEntry}
    (hkey : s.snapKey j = key) (hl : s.snapEntries slot j = l) (hfull : (snapDest p).len < snapTotal key l) :
    s.writeSnapshot p slot j =
      (s.scramble (snapDest p).lo (snapDest p).len).complete p Status.tableFull (snapTotal key l) 0 0 := by
  subst hkey hl
  unfold State.writeSnapshot
  extract_lets
  exact if_pos hfull

/-- A range that is scrambled leaves what lies apart from it. -/
theorem State.load_scramble_apart (s : State) {a n lo len : Nat} (h : apart a n lo len = true) :
    (s.scramble lo len).load a n = s.load a n :=
  State.load_store_apart s (by rwa [List.length_map, List.length_range])

section
variable {p : Packet} {slot : Nat} {j : Job} {s u : State} (hu : s.Enters u)
include hu

/-- The effect of an accepted JOB_SNAPSHOT whose sources are clean. -/
theorem State.Enters.jobSnapshot_effect (hfind : s.findJob p.job = some (slot, j))
    (hclean : s.poisonedIn ((s.snapSources p).map fun u => u.range) = none) :
    jobSnapshotCommand.effect p u = u.writeSnapshot p slot j := by
  have huclean : u.poisonedIn ((u.snapSources p).map fun u => u.range) = none :=
    (hu.same (fun t => t.poisonedIn ((t.snapSources p).map fun u => u.range)) fun _ => rfl).trans hclean
  simp only [jobSnapshotCommand, (hu.findJob p.job).trans hfind, State.orPoisoned_of_clean huclean]

/-- A snapshot that fits stands at its destination. -/
theorem State.Enters.snapshot_written {key : Option ModelKey} {l : List SnapEntry} (hkey : s.snapKey j = key)
    (hl : s.snapEntries slot j = l) (hdigest : j.digest.length = 64) (hid : ∀ k, key = some k → k.keyId.length = 16)
    (hfit : snapTotal key l ≤ (snapDest p).len) {t : State} (ht : t = u.writeSnapshot p slot j) :
    t.owes s p Status.ok (snapTotal key l) = true ∧
      t.load (snapDest p).lo 256 = snapHead j key.isSome l.length (snapTotal key l) ∧
      (∀ x, x ∈ (snapPlace key l).1.zip (s.snapData key l) → t.load ((snapDest p).lo + x.1) x.2.length = x.2) ∧
      (∀ a n, apart a n (snapDest p).lo (snapDest p).len = true → t.load a n = s.load a n) ∧
      t.running = s.running ∧ t.job = s.job := by
  have hukey : u.snapKey j = key := (hu.same (fun t => t.snapKey j) fun _ => rfl).trans hkey
  have hul : u.snapEntries slot j = l := (hu.same (fun t => t.snapEntries slot j) fun _ => rfl).trans hl
  have hudata : u.snapData key l = s.snapData key l := hu.same (fun t => t.snapData key l) fun _ => rfl
  have hlengths : (u.snapData key l).map List.length = l.map (snapLength key.isSome) :=
    u.snapData_lengths (fun e he => State.snapEntries_sized (hul ▸ he)) hid
  obtain ⟨n, hwrite⟩ := State.writeSnapshot_fits hukey hul hfit
  rw [hwrite] at ht
  have hload (a m : Nat) : t.load a m = (u.snapStored key l (snapDest p).lo j).load a m := by
    rw [ht, State.load_complete]
    exact State.load_bump _ _ _ _ _
  generalize hstored : u.snapStored key l (snapDest p).lo j = v at ht hload
  have hframe : v = { u with mem := v.mem, host := v.host, memory := v.memory } := hstored ▸ State.snapStored_frame _ _ _ _ _
  have hsame : u.SameRecords { v.bump Reg.secExports n with free := u.free + l.length } := by
    rw [State.bump_frame, hframe]
    exact {}
  refine ⟨ht ▸ hu.complete_owes hsame _ _ _ _ _, ?_, fun x hx => ?_, fun a m hapart => ?_, ?_⟩
  · rw [hload, ← hstored, State.load_snapStored_head hlengths hdigest]
  · rw [hload, ← hstored, State.load_snapStored_entry hlengths j _ (hudata ▸ hx)]
  · rw [hload, ← hstored, State.load_snapStored_apart hlengths hdigest hfit hapart, hu.load]
  · rw [ht, State.complete_running, State.complete_job, State.bump_frame, hframe]
    exact ⟨hu.same State.running fun _ => rfl, hu.same State.job fun _ => rfl⟩

/-- A snapshot that does not fit leaves all but its destination. -/
theorem State.Enters.snapshot_full {key : Option ModelKey} {l : List SnapEntry} (hkey : s.snapKey j = key)
    (hl : s.snapEntries slot j = l) (hfull : (snapDest p).len < snapTotal key l) {t : State} (ht : t = u.writeSnapshot p slot j) :
    t.owes s p Status.tableFull (snapTotal key l) = true ∧
      (∀ a n, apart a n (snapDest p).lo (snapDest p).len = true → t.load a n = s.load a n) ∧
      t.running = s.running ∧ t.job = s.job := by
  rw [State.writeSnapshot_of_full ((hu.same (fun t => t.snapKey j) fun _ => rfl).trans hkey)
    ((hu.same (fun t => t.snapEntries slot j) fun _ => rfl).trans hl) hfull] at ht
  subst ht
  refine ⟨hu.complete_owes ⟨State.scramble_rings _ _ _, State.scramble_held _ _ _, State.scramble_job _ _ _,
    State.scramble_clk _ _ _⟩ _ _ _ _ _, fun a n hapart => ?_, ?_⟩
  · rw [State.load_complete, State.load_scramble_apart u hapart, hu.load]
  · rw [State.complete_running, State.complete_job, State.scramble_running, State.scramble_job]
    exact ⟨hu.same State.running fun _ => rfl, hu.same State.job fun _ => rfl⟩

end

theorem jobSnapshot_takes {p : Packet} {slot : Nat} {j : Job} {s : State} (h : s.accepts jobSnapshotCommand p = true)
    (hfind : s.findJob p.job = some (slot, j)) (hclean : s.poisonedIn ((s.snapSources p).map fun u => u.range) = none)
    (hdigest : j.digest.length = 64) (hid : ∀ k, s.sealKey j = some k → k.keyId.length = 16) :
    let l := s.snapEntries slot j
    let key := if j.confidential then s.sealKey j else none
    let place := snapLayout (up64 (256 + 64 * l.length)) (l.map (snapLength key.isSome))
    let total := if l.isEmpty then 256 else place.2
    let d := snapDest p
    (total ≤ d.len → ∃ t, exec (.jobSnapshot p) s = .next t ∧ t.owes s p Status.ok total = true ∧
      t.load d.lo 256 = snapHead j key.isSome l.length total ∧
      (∀ x, x ∈ place.1.zip (s.snapData key l) → t.load (d.lo + x.1) x.2.length = x.2) ∧
      (∀ a n, apart a n d.lo d.len = true → t.load a n = s.load a n) ∧ t.running = s.running ∧ t.job = s.job) ∧
    (d.len < total → ∃ t, exec (.jobSnapshot p) s = .next t ∧ t.owes s p Status.tableFull total = true ∧
      (∀ a n, apart a n d.lo d.len = true → t.load a n = s.load a n) ∧ t.running = s.running ∧ t.job = s.job) := by
  obtain ⟨u, hu, hstart⟩ := Command.start_enters h
  have heff := hu.jobSnapshot_effect hfind hclean
  have hkeyId (k : ModelKey) (hk : s.snapKey j = some k) : k.keyId.length = 16 := by
    unfold State.snapKey at hk
    split at hk
    · exact hid k hk
    · cases hk
  exact ⟨fun hfit => ⟨_, congrArg Host.Outcome.next hstart, hu.snapshot_written rfl rfl hdigest hkeyId hfit heff⟩,
    fun hfull => ⟨_, congrArg Host.Outcome.next hstart, hu.snapshot_full rfl rfl hfull heff⟩⟩

end Sys2Proof.Machine
end

section
/-! PROOFS. A job is restored from its snapshots. -/

namespace Sys2Proof.Machine

/-! ## JOB_RESTORE (R55) -/

/-- An entry that is restored writes its bytes and, for a slice, the slice with its guard. -/
theorem State.restoreEntry_frame (s : State) (p : Packet) (e : SnapFound) (plain : List Byte) :
    s.restoreEntry p e plain =
      { s with
        mem := (s.restoreEntry p e plain).mem
        host := (s.restoreEntry p e plain).host
        memory := (s.restoreEntry p e plain).memory
        emb := (s.restoreEntry p e plain).emb } := by
  unfold State.restoreEntry
  split
  · split
    · rw [State.store_frame]
    · rfl
  · split
    · rw [State.store_frame]
      rfl
    · rfl
  · rfl

/-- Restore entries in order. -/
def State.restoreAll (s : State) (p : Packet) (l : List (SnapFound × List Byte)) : State :=
  l.foldl (fun t e => t.restoreEntry p e.1 e.2) s

theorem State.restoreAll_frame (s : State) (p : Packet) (l : List (SnapFound × List Byte)) : s.restoreAll p l =
    { s with
      mem := (s.restoreAll p l).mem, host := (s.restoreAll p l).host, memory := (s.restoreAll p l).memory,
      emb := (s.restoreAll p l).emb } :=
  State.foldl_keeps (P := fun t => t = { s with mem := t.mem, host := t.host, memory := t.memory, emb := t.emb }) _ _
    (fun t e h => by rw [State.restoreEntry_frame, h]) rfl

/-- A region's entry is its bytes at the region's base. -/
theorem State.restoreAll_region {s : State} (p : Packet) {e : SnapFound} {r : Region} (plain : List Byte) (hkind : e.kind = 1)
    (hregion : Tab.look s.memory.regions e.id = some r) : s.restoreAll p [(e, plain)] = s.store r.base plain := by
  simp only [State.restoreAll, List.foldl_cons, List.foldl_nil, State.restoreEntry, hkind, hregion]

/-- The state with a restored job's entries in place and its anchors waiting for its pipeline, before the job opens. -/
def State.refilled (s : State) (p : Packet) (l : List (SnapFound × List Byte)) (restored : Tab (List (Nat × Nat))) : State :=
  { s.restoreAll p l with samples := { (s.restoreAll p l).samples with restored := restored } }

theorem State.restoreJob_eq (s : State) (p : Packet) (l : List (SnapFound × List Byte)) : ∃ restored mustered bytes,
    s.restoreJob p l = ((s.refilled p l restored).openJob p ((snapStep (s.snapBytes (s.snapAt p 0)) + 1) % 2 ^ 32) mustered).complete
      p Status.ok 0 bytes bytes :=
  ⟨_, _, _, rfl⟩

theorem State.refilled_frame (s : State) (p : Packet) (l : List (SnapFound × List Byte)) (restored : Tab (List (Nat × Nat))) :
    s.refilled p l restored =
      { s with
        mem := (s.refilled p l restored).mem
        host := (s.refilled p l restored).host
        memory := (s.refilled p l restored).memory
        emb := (s.refilled p l restored).emb
        samples := (s.refilled p l restored).samples } := by
  rw [State.refilled, State.restoreAll_frame]

/-- An accepted packet that opens a job names a loaded pair of manifests (R54). -/
theorem State.openPair_of_checks {s : State} {p : Packet} (h : ∀ f ∈ s.openFields p, f = none) :
    ∃ m o, s.openPair p = some (m, o) := by
  have hbase := need_none (h (need (decide (p.param 12 1 ≤ 7) && (s.baseOf (p.param 12 1)).isSome) 76) (by simp [State.openFields]))
  have hoverlay := need_none (h (need (decide (p.param 13 1 ≤ 47) && (s.overlayOf (p.param 13 1)).isSome) 77)
    (by simp [State.openFields]))
  obtain ⟨m, hm⟩ := Option.isSome_iff_exists.mp (Bool.and_eq_true_iff.mp hbase).2
  obtain ⟨o, ho⟩ := Option.isSome_iff_exists.mp (Bool.and_eq_true_iff.mp hoverlay).2
  exact ⟨m, o, by rw [State.openPair, hm, ho]⟩

/-- The effect of an accepted JOB_RESTORE of clean snapshots whose entries all open. -/
theorem State.Enters.jobRestore_effect {p : Packet} {l : List (SnapFound × List Byte)} {s u : State} (hu : s.Enters u)
    (hclean : s.poisonedIn ((List.range (restoreCount p)).map (s.snapAt p)) = none)
    (hplain : s.allPlain ((s.openPair p).bind fun mo => (s.openKey mo.1 mo.2).bind fun k => Tab.look s.sec.keys k)
      (s.restoreFound p) = .ok l) : jobRestoreCommand.effect p u = u.restoreJob p l := by
  have huclean : u.poisonedIn ((List.range (restoreCount p)).map (u.snapAt p)) = none :=
    (hu.same (fun t => t.poisonedIn ((List.range (restoreCount p)).map (t.snapAt p))) fun _ => rfl).trans hclean
  have huplain : u.allPlain ((u.openPair p).bind fun mo => (u.openKey mo.1 mo.2).bind fun k => Tab.look u.sec.keys k)
      (u.restoreFound p) = .ok l :=
    (hu.same (fun t => t.allPlain ((t.openPair p).bind fun mo => (t.openKey mo.1 mo.2).bind fun k => Tab.look t.sec.keys k)
      (t.restoreFound p)) fun _ => rfl).trans hplain
  simp only [jobRestoreCommand, State.orPoisoned_of_clean huclean, huplain]

theorem jobRestore_restores {p : Packet} {l : List (SnapFound × List Byte)} {s : State} (h : s.accepts jobRestoreCommand p = true)
    (hclean : s.poisonedIn ((List.range (restoreCount p)).map (s.snapAt p)) = none)
    (hplain : s.allPlain ((s.openPair p).bind fun mo => (s.openKey mo.1 mo.2).bind fun k => Tab.look s.sec.keys k)
      (s.restoreFound p) = .ok l) :
    ∃ t j, exec (.jobRestore p) s = .next t ∧ t.owes s p Status.ok 0 = true ∧ t.jobAt s.freeJobSlot = some j ∧
      j.id = BitVec.ofNat 32 (p.param 0 4) ∧ j.state = .idle ∧ j.next = (snapStep (s.snapBytes (s.snapAt p 0)) + 1) % 2 ^ 32 ∧
      (∀ n, n ≠ s.freeJobSlot → t.jobAt n = s.jobAt n) ∧
      (∀ e plain r, l = [(e, plain)] → e.kind = 1 → Tab.look s.memory.regions e.id = some r →
        t.load r.base plain.length = plain ∧ (∀ a n, apart a n r.base plain.length = true → t.load a n = s.load a n)) ∧
      t.running = s.running := by
  obtain ⟨hjobFail, hparams, -⟩ := State.accepts_checks h
  have hfields : ∀ f ∈ s.openFields p, f = none := fun f hf => lowestFail_none hparams f (List.mem_append_left _ hf)
  obtain ⟨hnamed, hnone⟩ := State.fresh_of_checks hjobFail (hfields _ (by simp [State.openFields]))
  obtain ⟨m, o, hpair⟩ := State.openPair_of_checks hfields
  obtain ⟨u, hu, hstart⟩ := Command.start_enters h
  obtain ⟨restored, mustered, bytes, hrestore⟩ := u.restoreJob_eq p l
  have hstep : u.snapBytes (u.snapAt p 0) = s.snapBytes (s.snapAt p 0) := hu.same (fun t => t.snapBytes (t.snapAt p 0)) fun _ => rfl
  have heff := (hu.jobRestore_effect hclean hplain).trans hrestore
  rw [hstep] at heff
  have hframe := u.refilled_frame p l restored
  have hrecords : u.SameRecords (u.refilled p l restored) := by
    rw [hframe]
    exact {}
  obtain ⟨howes, hat, hothers, -, hmem, hhost, hrun⟩ :=
    hu.openJob_completes hrecords (by rw [hframe]) hnamed hnone hpair _ mustered bytes bytes heff
  refine ⟨_, _, congrArg Host.Outcome.next hstart, howes, hat, rfl, rfl, rfl, hothers, fun e plain r hl hkind hregion => ?_, hrun⟩
  have huregion : Tab.look u.memory.regions e.id = some r :=
    (hu.same (fun t => Tab.look t.memory.regions e.id) fun _ => rfl).trans hregion
  have hstored (a n : Nat) : (jobRestoreCommand.effect p u).load a n = (u.store r.base plain).load a n := by
    rw [State.load_congr hmem hhost, hl, ← State.restoreAll_region p plain hkind huregion]
    rfl
  exact ⟨by rw [hstored, State.load_store_same], fun a n hapart => by rw [hstored, State.load_store_apart u hapart, hu.load]⟩

/-- Settles O58: a snapshot's pieces are laid out one after another in its destination, so each can be read back there; a restore
puts the entries in place and then opens the job. -/
theorem snapshotsTakenRestored : Obligations.SnapshotsTakenRestored :=
  ⟨fun _ _ _ _ => jobSnapshot_takes, fun _ _ _ => jobRestore_restores⟩

end Sys2Proof.Machine
end
